-- ==== Sys2Proof/Word.lean ====
section
/-! DEFINITION. The plain types every other file uses: bytes, words, byte strings and sparse tables. -/

namespace Sys2Proof

/-- One byte. -/
abbrev Byte := BitVec 8

/-- A 32-bit word: scalar registers, vector lanes, accumulator words. -/
abbrev Word := BitVec 32

/-- A 64-bit word: memory-mapped registers. -/
abbrev Word64 := BitVec 64

/-- A byte string, lowest address first. -/
abbrev Bytes := List Byte

/-- A table from numbers to values that lists only what differs from the table's default, numbers rising. -/
abbrev Sparse (α : Type) := List (Nat × α)

end Sys2Proof
end

