-- ==== Sys2Proof/Syntax.lean ====
section
/-! DEFINITION. The commands: one constructor of `Instr` for each row of spec/opcode_table.json, in the table's order.
The table gives its rows no bits and no operands; the operands here are what the rule of each row says the event
depends on. An operand that a unit outside the block, or the block's analog side, decides (a read-back level, a
measured offset, a landed byte string, a parity check's result) is part of the command. -/

namespace Sys2Proof

/-- The five dictionary origins of R448. -/
inductive Origin where
  | f | l | s | y | p
  deriving DecidableEq, Repr

/-- A client of the dictionary, R448: its origin and its identity on that path (F: door and CAN source address as
door * 256 + address; L: application core; S: source address; P: source node). `port` is the UDP source port of S. -/
structure Client where
  origin : Origin
  who : Nat
  port : Nat
  deriving DecidableEq, Repr

/-- A CAN frame on a field door, R456 and R457: whether it is a CAN XL frame, its SDT and destination address (0 in a CAN FD or Classical
CAN frame), and the frame as it goes on to a network path. -/
structure CanFrame where
  xl : Bool
  sdt : Byte
  dest : Byte
  bytes : Bytes
  deriving DecidableEq, Repr

/-- What every KDP request names, R455: the client, the transaction id, the entry, and the frame's CRC, by which R461
tells a repeat from other content; on a field door the CAN frame that carries it. -/
structure Req where
  client : Client
  tid : BitVec 16
  index : BitVec 16
  sub : BitVec 8
  crc : BitVec 32
  can : Option CanFrame := none
  /-- on the service door: the UDP port that the datagram names, R456 -/
  udpPort : BitVec 16 := 30490
  deriving DecidableEq, Repr

/-- Who makes a bus access, R361: a compute core (its program), an engine of the region table (by engine bit and source
id), an application core, the safety island, or a fabric door. -/
inductive Initiator where
  | app (h : Fin 12)
  | island
  | core (n : BitVec 6)
  | engine (bit : BitVec 3) (source : BitVec 9)
  | fabric (door : Fin 3)
  deriving DecidableEq, Repr

/-- A clock that a clock monitor of R18 checks: a core's own clock, a group clock generator, or another island by its
local source id. -/
inductive ClockUnit where
  | core (n : BitVec 6)
  | gen (g : BitVec 4)
  | island (source : BitVec 9)
  deriving DecidableEq, Repr

/-- The CSI-2 packet header check of R231. -/
inductive EccResult where
  | ok | corrected | bad
  deriving DecidableEq, Repr

/-- A packet that lands on a counter, R72: destination logical core, bank, counter, sequence number, the VOID mark. -/
structure Packet where
  core : BitVec 6
  bank : BitVec 2
  ctr : BitVec 4
  seq : Word
  isVoid : Bool
  deriving DecidableEq, Repr

/-- The header fields and payload of an Ethernet frame that R203, R204 and R231 look at. -/
structure EthFrame where
  door : Fin 2
  bytes : Nat
  fcsOk : Bool
  vlan : BitVec 16
  isIp : Bool
  ipOk : Bool
  fragment : Bool
  srcIp : Nat
  srcMac : Nat
  udpOk : Bool
  udpSrc : BitVec 16
  udpDst : BitVec 16
  payload : Bytes
  deriving DecidableEq, Repr

/-- One access to the address map of R43: who, where, how many bytes, the bytes written (none for a read), the bits that a disturbance has
flipped in the stored codeword of its first word since it was last written (data bits [31:0], check bits [38:32]), and the context that an
engine makes the access for, if it works for one. -/
structure Access where
  by_ : Initiator
  addr : Nat
  len : Nat
  write : Option Bytes
  poisonIn : Bool
  upset : BitVec 40
  ctx : Option (BitVec 18) := none
  deriving DecidableEq, Repr

/-- A report that enters the fault network, R398. -/
structure ReportIn where
  origin : BitVec 12
  group : BitVec 6
  code : BitVec 8
  cls : BitVec 3
  blame : Option (BitVec 12)
  ctx : BitVec 18
  part : BitVec 4
  detail : Word
  deriving DecidableEq, Repr

/-- A transaction of R428. -/
structure Txn where
  op : BitVec 8
  flags : BitVec 8
  /-- LEN: the data bytes, or of a READ the bytes asked for -/
  len : Nat
  tag : BitVec 16
  srcId : BitVec 16
  addr : BitVec 40
  dst : BitVec 3
  src : BitVec 3
  hops : Nat
  part : BitVec 8
  e2e : Word
  sseq : Word
  pktBytes : Word
  out : BitVec 8
  dctr : BitVec 8
  dcore : BitVec 8
  data : Bytes
  deriving DecidableEq, Repr

/-- A received flit of R424 as its receiver reads it; the transactions that its body completes are commands of their own. -/
structure Flit where
  crcOk : Bool
  credited : Bool
  vc : BitVec 2
  hop : BitVec 2
  lseq : BitVec 16
  ack : BitVec 16
  crVc : BitVec 2
  crHop : BitVec 2
  crCnt : BitVec 8
  deriving DecidableEq, Repr

/-- A HELLO of R432. -/
structure Hello where
  ident : Word64
  strap : BitVec 3
  node : Option (BitVec 3)
  door : BitVec 2
  frameTicks : Nat
  frameOrigin : Nat
  expect : Byte
  deriving DecidableEq, Repr

/-- A LINK_STATE record of R432: a node by its IDENT, strap and node id, and its links that are up, as (own door, IDENT of the
neighbour). -/
structure LinkStateRec where
  ident : Word64
  strap : BitVec 3
  node : Option (BitVec 3)
  links : List (BitVec 2 × Word64)
  deriving DecidableEq, Repr

/-- The decisions of a step boundary that the leader sends, R190. -/
structure StepDecision where
  part : BitVec 4
  leaves : List (BitVec 18)
  swaps : List (BitVec 18)
  joins : List (BitVec 18)
  appends : List (BitVec 18 × Nat)
  /-- the tracked tensors written in the ended step, R108 -/
  written : List Nat
  /-- contexts that copy their partly filled block, R178 -/
  copies : List (BitVec 18) := []
  /-- contexts that the boundary ends, with END_REASON, R191 and R193 -/
  ends : List (BitVec 18 × Nat) := []
  deriving DecidableEq, Repr

/-- What a step boundary learns from the step that ends: the tensors that it has written, R108, and the free pages that the other nodes
of the model report to the leader, R190. -/
structure StepReport where
  written : List Nat
  free : List (BitVec 3 × Nat)
  deriving DecidableEq, Repr

/-- What a deadline instant of R315 belongs to: a release of a schedule entry, or a RUN_JOB command. -/
inductive DeadlineOf where
  | entry (e : Nat)
  | job (part : BitVec 4) (seq : Word)
  deriving DecidableEq, Repr

/-- Why a KDP frame is discarded or answered with PROTOCOL, R472. -/
inductive FrameFlaw where
  | crcOrLength
  | reserved
  | tooLong
  deriving DecidableEq, Repr

/-- The memory tiers that a scrubber reads, R351 and R352. -/
inductive Tier where
  | lake | reservoir | lpddr | pond
  deriving DecidableEq, Repr

/-- The commands of the block, one for each row of spec/opcode_table.json. -/
inductive Instr where
  /- reset, boot and training -/
  | porstNRise (bootsel nodeId : BitVec 3)
  | porstNFall (lowNs : Nat)
  | warmReset
  | slotCheckComplete (readOk : Bool)
  | lakeTrainingComplete (ch : BitVec 6) (ok : Bool)
  | lpddrTrainingComplete (failed : BitVec 4) (installed : BitVec 2)
  | memoryInitComplete (reservoir : Bool)
  | lpInitAdvance
  | phase1SectionRead (sec : BitVec 6)
  | phase2SectionRead (sec : BitVec 6)
  | exerciseReadback (high : Bool)
  | exerciseLatch (low : Bool) (ns : Nat)
  | exerciseClear (high : Bool)
  /- monitors, time, ticks and frames -/
  | clockMonitorAlarm (u : ClockUnit)
  | voltageMonitorAlarm (rail : Fin 9) (outOfRange : Bool)
  | timebaseMeasurement (offset : Int)
  | sourceSilenceTimeout
  | holdoverExit
  | ppsInEdge
  | ppsOutEdge
  | gptpPort (q : Req) (v : Byte)
  | tickStart
  | heartbeatTimeout
  | frameStart
  | fsyncEdge (n : BitVec 2)
  | violationSecondEnd
  /- counters and the tile program -/
  | packetLand (p : Packet)
  | voidFill (n : BitVec 6)
  | nop (n : BitVec 6)
  | halt (n : BitVec 6)
  | tileEnd (n : BitVec 6)
  | jump (n : BitVec 6) (target : BitVec 16)
  | loop (n : BitVec 6) (lc : BitVec 2) (target : BitVec 16)
  | setlc (n : BitVec 6) (lc : BitVec 2) (count : BitVec 16)
  | setx (n : BitVec 6) (x : BitVec 4) (value : Word)
  | addx (n : BitVec 6) (x : BitVec 4) (value : Word)
  | addxr (n : BitVec 6) (xd xa xb : BitVec 4)
  | mulxi (n : BitVec 6) (xd xs : BitVec 4) (value : Word)
  | illegalInstruction (n : BitVec 6)
  | waitSeq (n : BitVec 6) (ctr : BitVec 4) (byReg : Bool) (x : BitVec 4) (imm : Word)
  | waitSeqRetire (n : BitVec 6)
  | signal (n : BitVec 6) (out : BitVec 4) (dctr : BitVec 6) (dcore : BitVec 6) (dnode : BitVec 3)
  | mloadw (n : BitVec 6) (shape fmt : BitVec 4) (quad : BitVec 2) (block : BitVec 16)
  | mpass (n : BitVec 6) (shape fmt : BitVec 4) (acc abuf : Bool) (quad : BitVec 2) (m1 arow : BitVec 9) (drain : Bool) (chain : BitVec 5) (row : BitVec 16)
  | passStart (n : BitVec 6)
  | passComplete (n : BitVec 6)
  | drainComplete (n : BitVec 6) (abuf parityOk : Bool)
  | interlockRelease (n : BitVec 6)
  | tmv (n : BitVec 6) (engine : Bool) (desc : BitVec 16)
  | tileMoveStart (n : BitVec 6) (engine : Bool)
  | tileMoveLand (n : BitVec 6) (engine : Bool)
  /- the vector unit and the SFU -/
  | vadd (n : BitVec 6) (vd vs1 vs2 vs3 : BitVec 5) (imm : Word)
  | vsub (n : BitVec 6) (vd vs1 vs2 vs3 : BitVec 5) (imm : Word)
  | vmul (n : BitVec 6) (vd vs1 vs2 vs3 : BitVec 5) (imm : Word)
  | vfma (n : BitVec 6) (vd vs1 vs2 vs3 : BitVec 5) (imm : Word)
  | vmin (n : BitVec 6) (vd vs1 vs2 vs3 : BitVec 5) (imm : Word)
  | vmax (n : BitVec 6) (vd vs1 vs2 vs3 : BitVec 5) (imm : Word)
  | vcmp (n : BitVec 6) (vd vs1 vs2 vs3 : BitVec 5) (imm : Word)
  | vsel (n : BitVec 6) (vd vs1 vs2 vs3 : BitVec 5) (imm : Word)
  | vcvt (n : BitVec 6) (vd vs1 vs2 vs3 : BitVec 5) (imm : Word)
  | viadd (n : BitVec 6) (vd vs1 vs2 vs3 : BitVec 5) (imm : Word)
  | vimul (n : BitVec 6) (vd vs1 vs2 vs3 : BitVec 5) (imm : Word)
  | vand (n : BitVec 6) (vd vs1 vs2 vs3 : BitVec 5) (imm : Word)
  | vor (n : BitVec 6) (vd vs1 vs2 vs3 : BitVec 5) (imm : Word)
  | vshift (n : BitVec 6) (vd vs1 vs2 vs3 : BitVec 5) (imm : Word)
  | vld (n : BitVec 6) (vd : BitVec 5) (granule : BitVec 16)
  | vst (n : BitVec 6) (vs1 : BitVec 5) (granule : BitVec 16)
  | vred (n : BitVec 6) (vd vs1 vs2 vs3 : BitVec 5) (imm : Word)
  | vbcast (n : BitVec 6) (vd vs1 vs2 vs3 : BitVec 5) (imm : Word)
  | vsfu (n : BitVec 6) (vd vs1 vs2 vs3 : BitVec 5) (imm : Word)
  /- core control -/
  | tileBoundaryReached (n : BitVec 6)
  | tileOverrun (n : BitVec 6)
  | start (by_ : Initiator) (n : BitVec 6) (ctl : Word64)
  | resume (by_ : Initiator) (n : BitVec 6) (ctl : Word64)
  | preempt (by_ : Initiator) (n : BitVec 6) (ctl : Word64)
  | teardown (by_ : Initiator) (n : BitVec 6) (ctl : Word64)
  | golden (by_ : Initiator) (n : BitVec 6) (ctl : Word64)
  | reset (by_ : Initiator) (n : BitVec 6) (ctl : Word64)
  | ccGroupWrite (by_ : Initiator) (n : BitVec 6) (v : Word64)
  | groupChangeApply (n : BitVec 6)
  | groupPortDecide (g : BitVec 5) (c0 c1 c2 : Word64)
  | resyncCopyStart (g : BitVec 5)
  | resyncCopyLanded (g : BitVec 5)
  | resyncStateSend (g : BitVec 5)
  | resyncRestart (g : BitVec 5)
  /- the schedule engine -/
  | release (e : Nat)
  | continueEntry (e : Nat)
  | poolEntry (e : Nat)
  | radioEntry (e : Nat)
  | occupantPreempt (n : BitVec 6)
  | entryEnd (e : Nat)
  | slackResume (n : BitVec 6)
  | heldReleaseStart (e : Nat)
  | goldenDrain (slot : Nat)
  | goldenSlotStart (slot : Nat)
  | goldenTestEnd (n : BitVec 6) (sig : Word64)
  | goldenCheck (slot : Nat)
  | segmentStart (n : BitVec 6)
  | segmentEnd (n : BitVec 6) (sig : Word64)
  | deadlineCheck (d : DeadlineOf)
  | remapStart (n : BitVec 6)
  | remapComplete (n : BitVec 6) (bad : BitVec 4)
  | remapTimeout (n : BitVec 6)
  /- the command window -/
  | submit (part : BitVec 4) (slot : Fin 12)
  | cmdNop (part : BitVec 4) (seq : Word)
  | runJob (part : BitVec 4) (seq : Word)
  | open_ (part : BitVec 4) (seq : Word)
  | fork (part : BitVec 4) (seq : Word)
  | leave (part : BitVec 4) (seq : Word)
  | block (part : BitVec 4) (seq : Word)
  | unblock (part : BitVec 4) (seq : Word)
  | cmdTeardown (part : BitVec 4) (seq : Word)
  | modelLoad (part : BitVec 4) (seq : Word)
  | modelLoadComplete
  | modelPin (part : BitVec 4) (seq : Word)
  | splitPair (part : BitVec 4) (seq : Word)
  | reformPair (part : BitVec 4) (seq : Word)
  | ctxQuery (part : BitVec 4) (seq : Word)
  | cqFaultClear (part : BitVec 4)
  /- contexts -/
  | stepBoundary (part : BitVec 4) (model : Word) (appends : List (BitVec 18 × Nat)) (report : StepReport)
  | swapOutComplete (ctx : BitVec 18)
  | swapInComplete (ctx : BitVec 18)
  | stepDecisionReceive (model : Word) (d : StepDecision)
  | stepDecisionTimeout (part : BitVec 4) (model : Word)
  /- the Spring -/
  | csi2FrameStart (door : BitVec 3) (vc : BitVec 4) (ecc : EccResult)
  | csi2Line (door : BitVec 3) (vc : BitVec 4) (dt : BitVec 6) (wc : Nat) (pixels : List (List Nat)) (crcOk comparable : Bool) (ecc : EccResult)
  | csi2FrameEnd (door : BitVec 3) (vc : BitVec 4) (ecc : EccResult)
  | ethFrameReceive (f : EthFrame)
  | decodeStart (dec : BitVec 1)
  | decodeComplete (dec : BitVec 1)
  | decodeBudgetExpiry (dec : BitVec 1)
  | batchClose (b : BitVec 6)
  | batchRecordWrite (b : BitVec 6)
  | batchNext (q : Req) (b : BitVec 6) (k : Word)
  /- the radio -/
  | carrierOn (q : Req) (v : Byte)
  | jesdAlign (door : BitVec 1)
  | sysrefEdge (door : BitVec 1) (displaced : Bool)
  | jesdLinkError (door : BitVec 1) (crc12 : Bool)
  | jesdAlignmentLoss (door : BitVec 1) (elastic : Bool)
  | slotBoundary (c : BitVec 2) (samples : Nat)
  | agcWindowEnd (c : BitVec 2) (power : Int)
  | agcSettleEnd (c : BitVec 2)
  | agcSymbolEnd (c : BitVec 2)
  | syncDetection (c : BitVec 2) (chip : Word) (ant0 ant1 : Bytes) (power : Int)
  | gridSymbol (c : BitVec 2) (symbol : BitVec 4) (samples : Bytes)
  | rfTxListStart (door : BitVec 1)
  | rfSpiXfer (q : Req) (door : BitVec 1) (v : Bytes)
  | decoderJobLand (engine : BitVec 1) (job : Bytes)
  | decoderJobStart (engine : BitVec 1)
  | decoderJobComplete (engine : BitVec 1)
  | decoderDeadline (engine : BitVec 1) (jobSeq : Word)
  | decoderShareStop (engine : BitVec 1)
  | harqBufferExpiry (c : BitVec 2) (slot : Word) (subch : Byte)
  | psfchOccasion (c : BitVec 2)
  | txDescriptorLand (c : BitVec 2) (desc : Bytes)
  | rxSubmit (q : Req) (c : BitVec 2) (crc : Word)
  | validationComplete (c : BitVec 2) (mustPass : Bool) (candidate active : Nat)
  | rxRevert (q : Req) (c : BitVec 2) (v : Byte)
  /- memory -/
  | memoryAccess (a : Access)
  | pageIdleClose (ch : BitVec 6) (bank : BitVec 4)
  | refreshDue (ch : BitVec 6) (bank : BitVec 4) (queued : Bool)
  | lakeAlert (ch : BitVec 6)
  | scrubRead (tier : Tier) (addr : Nat) (upset : BitVec 40) (newer : Bool)
  | retirementCopyComplete (ch : BitVec 6)
  /- faults -/
  | faultReport (r : ReportIn)
  | attributionTimeout
  | altPulseEnd
  | fcClear (by_ : Initiator) (slot : Byte) (seq : BitVec 48)
  | fcInject (by_ : Initiator) (v : Word64)
  | fcAltSw (by_ : Initiator) (level : Bool)
  | overflowClear (by_ : Initiator)
  | islandTmrDeviate (k : Fin 3)
  | islandReloadComplete
  | wdKick (q : Req) (pair : Fin 6) (v : BitVec 16)
  | watchdogExpiry (pair : Fin 6)
  /- the fabric -/
  | linkTrainComplete (door : Fin 3) (ok : Bool)
  | flitData (door : Fin 3) (f : Flit)
  | flitNak (door : Fin 3) (ack : BitVec 16)
  | flitIdle (door : Fin 3) (f : Flit)
  | fabRetryTimeout (door : Fin 3)
  | linkSilenceTimeout (door : Fin 3)
  | quarantineExpiry (door : Fin 3)
  | quarantineTestEnd (door : Fin 3) (failed : Bool)
  | fabWrite (door : Fin 3) (t : Txn)
  | fabRead (door : Fin 3) (t : Txn)
  | readResp (door : Fin 3) (t : Txn)
  | fabSignal (door : Fin 3) (t : Txn)
  | fabError (door : Fin 3) (t : Txn)
  | e2eAck (node : BitVec 3) (vc : BitVec 1) (num : Word)
  | e2eAckTimer
  | hello (door : Fin 3) (h : Hello)
  | linkState (door : Fin 3) (r : LinkStateRec)
  | discoveryEnd
  | fabJoinTimeout
  /- the dictionary -/
  | read (q : Req)
  | write (q : Req) (v : Bytes)
  | openRead (q : Req) (start : Word64)
  | openWrite (q : Req) (length : Word)
  | seg (q : Req) (num : Word) (v : Bytes)
  | end_ (q : Req) (crc : Word)
  | describe (q : Req)
  | abort (q : Req)
  | response (q : Req)
  | dwWordAccess (slot : Fin 13) (write : Option Word64)
  | kdpTransferExpiry (c : Client) (tid : BitVec 16)
  | kdpPeerTimeout (node : BitVec 3)
  | kdpDupExpiry (c : Client) (tid : BitVec 16)
  | stateReq (q : Req) (v : Byte)
  | runTransitionComplete
  | claim (q : Req) (v : Bytes)
  | timerWrite (q : Req) (n : BitVec 3) (v : Bytes)
  | timerFire (n : BitVec 3)
  | timerPulseEnd (n : BitVec 3)
  /- update and security -/
  | actEpoch (q : Req) (v : Word64)
  | epochPass
  | rollbackCommit (q : Req) (v : Byte)
  | rollbackBitBlown
  | quoteReq (q : Req) (v : Bytes)
  | quoteSigned
  | mrExtend (q : Req) (v : Bytes)
  | dbgChallenge (q : Req)
  | dbgResponse (q : Req) (v : Bytes)
  | dbgNonceExpiry
  | secJobLand (job : Bytes)
  | secJobComplete
  | recSlot (q : Req) (v : Byte)
  | recReboot (q : Req) (v : Byte)
  /- power and temperature -/
  | pwrStateReq (q : Req) (v : Byte)
  | standbyEntry
  | wakeIn (byIsland : Bool)
  | wakeRelease (bootsel nodeId : BitVec 3)
  | pwrCap (q : Req) (v : BitVec 16)
  | capEvaluate (estimate : Nat)
  | powerCorrection (current0 current1 : Nat)
  | avsBandUpdate (confirmed : Bool)
  | avsTransactionFail (rail : BitVec 1)
  | avsRetry (rail : BitVec 1) (ok : Bool)
  | thermalSample (die lake : List Int)
  | thermalCapStep
  /- pins, registers and the rows added at the end of the table -/
  | mfioEdgeCapture (k : BitVec 5)
  | registerWrite (by_ : Initiator) (addr : Nat) (v : Word64)
  | errorPinRelease (origin : BitVec 12) (group : BitVec 6) (code : Byte)
  | vddAonLoss
  | refclkLoss
  | ppsOutFall
  | fsyncPulseEnd (n : BitVec 2)
  | flashProgramDone (ok : Bool)
  | kdpFrameDiscard (c : Client) (tid : BitVec 16) (flaw : FrameFlaw)
  deriving DecidableEq, Repr

end Sys2Proof
end

