-- ==== Sys2Proof/Config.lean ====
section
/-! DEFINITION. What one chip fixes and the spec leaves open: constants without a body, so that no proof can use a value. -/

namespace Sys2Proof.Config

/-- The values of a model package for one tracked tensor, R113: SCALE, INV_SCALE, the calibration maximum, FMT, MARGIN and FLAGS. -/
structure Calibration where
  scale : BitVec 32
  inv : BitVec 32
  max : BitVec 32
  fmt : Nat
  margin : Nat
  flags : Nat
  deriving DecidableEq, Repr, Inhabited

/-- A fresh value the spec leaves open, indexed by `State.fresh`; log 2. -/
opaque freeWord : Nat → Word
/-- As `freeWord`, for byte strings of a given length; log 2. -/
opaque freeBytes : Nat → Nat → Bytes
/-- As `freeWord`, for counts and choices; log 2. -/
opaque freeNat : Nat → Nat

/-! ## The chip's own constants, log 6 -/

/-- CTX_TABLE_BASE, set at boot, R199. -/
opaque ctxTableBase : Nat
/-- KV_REFCOUNT_BASE, set at boot, R199. -/
opaque kvRefcountBase : Nat
/-- MODEL_CACHE_BASE, set at boot, R334. -/
opaque modelCacheBase : Nat
/-- SM3 of the boot ROM, R502. -/
opaque romDigest : Bytes
/-- The delay of FSYNC output n in ns, R39: set in camera door entries that the spec does not index; log 4. -/
opaque fsyncOffset : Nat → Nat
/-- The pulse width of FSYNC output n in ns, R39; log 4. -/
opaque fsyncWidth : Nat → Nat
/-- The application-core pairs that run in lock mode, R393; log 79. -/
opaque lockPairs : BitVec 6
/-- The AVS voltage of rail r in temperature band b, in mV, R513. -/
opaque avsVoltage : Nat → Nat → Nat
/-- RATED_FLOOR_W of a schedule table (by its bytes), R520. -/
opaque ratedFloor : Bytes → Nat
/-- The part of an interval's energy, in nanojoules, that the activity counters give compute core n, R333; at most what is left counts. -/
opaque energyShare : Nat → Nat → Nat
/-- SM2 signature by ID_PRIV over a message, with the fresh number that its random k comes from, R503. -/
opaque sm2Sign : Nat → Bytes → Bytes
/-- SM4 counter-mode decryption under a content key wrapped with IMG_KEY: KEY_WRAP, IV, bytes, R486. -/
opaque sm4Decrypt : Bytes → Bytes → Bytes → Bytes
/-- The programs and Pond image of a model package: program index to the 64-byte header, code and data pieces, as
(Pond offset, bytes); the package format is not given, R328. -/
opaque packageImage : Bytes → Nat → List (Nat × Bytes)
/-- The Pond offset of a program's header in its package, R328. -/
opaque packageHeader : Bytes → Nat → Nat
/-- The size in bytes of a package's hot set, R328. -/
opaque packageHotSet : Bytes → Nat
/-- The MODEL_ID of a package, R328. -/
opaque packageModel : Bytes → Word

/-! ## Vector operations whose encoding the spec does not give, R68; log 7 -/

/-- VCMP by variant: 0 equal, 1 not equal, 2 less, 3 less or equal, 4 greater, 5 greater or equal (modulo 6). -/
opaque vcmpKind : Nat → Nat
/-- The lane that a true comparison writes. -/
opaque vcmpTrue : Word
/-- The lane that a false comparison writes. -/
opaque vcmpFalse : Word
/-- VCVT by variant: which conversion, 0 to 12 of R101 in the order of `vcvtLane`; above, modulo 5, a scaled one of R102: 0 to INT8, 1 to
INT16, 2 to INT4, 3 to E4M3, 4 to E5M2. -/
opaque vcvtKind : Nat → Nat
/-- The quantisation granule of the tensor that a scaled VCVT converts to, by the immediate; none, and nothing is counted. -/
opaque vcvtGranule : Word → Option Nat
/-- INV_SCALE of a scaled VCVT on a lane, from the immediate, the lane of VS2 and the INV_SCALE of the granule. -/
opaque vcvtInv : Word → Word → Word → Word
/-- VSEL: the lane result from the three source lanes and the immediate. -/
opaque vselLane : Word → Word → Word → Word → Word
/-- VBCAST: the lane of VS1 that is broadcast, by the immediate (modulo 64). -/
opaque vbcastLane : Word → Nat
/-- VRED by variant: 0 FP32 sum, 1 INT32 sum; anything else combines by `vredOther`. -/
opaque vredKind : Nat → Nat
/-- VRED by another variant: combine two lanes. -/
opaque vredOther : Nat → Word → Word → Word
/-- What VRED writes in lanes 1 to 63: from the lane, the result and what the lane held. -/
opaque vredRest : Nat → Word → Word → Word
/-- VSHIFT: the kind of shift by the immediate: 0 left, 1 logical right, 2 arithmetic right (modulo 3). -/
opaque vshiftKind : Word → Nat

/-! ## Tracked tensors of a model, R108, R113, R123; the package format is not given, R328; log 6 -/

/-- How many tracked tensors a model has. -/
opaque tensorCount : Word → Nat
/-- The Lake address of a resident model's scale table. -/
opaque scaleTableAddr : Word → Nat
/-- What a package gives a tensor of its scale table: SCALE, INV_SCALE, the calibration maximum, FMT, MARGIN and FLAGS, R113. -/
opaque calibration : Bytes → Nat → Calibration
/-- The quantisation granules of a model: logical core and Pond granule. -/
opaque granules : Word → List (Nat × Nat)
/-- The output factors of a tensor's consumers, R104: logical core, Pond offset, and the weight scales. -/
opaque tensorFactors : Word → Nat → List (Nat × Nat × List Word)

/-! ## The SFU's fixed functions, R62; log 8 -/

/-- By function and input, the number that chooses the chip's result among those within the bound of R62. -/
opaque sfuUlp : Nat → Word → Nat

/-! ## The front end's arithmetic that R249 leaves to the chip, log 9 -/

/-- Fraction bits that a sample carries behind the decimation, R249. -/
opaque sampleFrac : Nat
/-- Mixing and decimation, R249 steps 1 and 2: carrier record, number of the first sample, the samples before it, the symbol's samples. -/
opaque decimate : Bytes → Nat → List (List Int) → List (List Int) → List (List Int)
/-- (x - d) x 2^-DC_SHIFT, rounded, R249 step 3: DC_SHIFT and the difference. -/
opaque dcRound : Nat → Int → Int
/-- A stream rotated by a frequency in Hz from its first sample's number on, R249 step 4. -/
opaque rotate : Int → Nat → List (List Int) → List (List Int)
/-- The half-subcarrier shift of LTE-V2X by 7.5 kHz, R249 step 7. -/
opaque halfShift : List (Int × Int) → List (Int × Int)
/-- The transform of a window, R249 step 7: size and samples to FP32 values, 1 for full scale. -/
opaque fft : Nat → List (Int × Int) → List (Word × Word)
/-- A level is rounded up: the power n / d x 2^e, R253 and R256. -/
opaque levelUp : Nat → Nat → Int → Bool
/-- The level that stands for no power at all, R256. -/
opaque silence : BitVec 16
/-- The transmitted samples of a slot, R276: carrier record, descriptor and the scrambled coded bits of its channels, modulated, with
DMRS, de-precoded, transformed, with cyclic prefix, interpolated to IRATE. -/
opaque waveform : Bytes → Bytes → List (Nat × List Bool) → Bytes

/-! ## What the 3GPP specifications fix for a codeword, R263 to R265; log 106 -/

/-- Code blocks of a job. -/
opaque blockCount : Bytes → Nat
/-- Information bits of code block b with its filler and check bits, K. -/
opaque blockLen : Bytes → Nat → Nat
/-- Information bit i of code block b is a filler bit. -/
opaque filler : Bytes → Nat → Nat → Bool
/-- The circular-buffer position of coded bit i of a job's redundancy version, R273. -/
opaque rvPosition : Bytes → Nat → Nat
/-- What a circular-buffer position holds: code block and bit of its mother code. -/
opaque motherBit : Bytes → Nat → Option (Nat × Nat)
/-- The turbo interleaver of K bits: f1 and f2. -/
opaque qpp : Nat → Nat × Nat
/-- The lifted base graph of a job's code block: lifting size, and columns and shifts by row. -/
opaque baseGraph : Bytes → Nat → Nat × List (List (Nat × Nat))
/-- The base graph of a job, 1 or 2. -/
opaque graphOf : Bytes → Nat
/-- The parity bits of an LDPC code block's information bits. -/
opaque ldpcParity : Bytes → Nat → List Bool → List Bool
/-- The polar code's length is 2^n. -/
opaque polarLog : Bytes → Nat
/-- The input position of information bit i, interleaved. -/
opaque polarInput : Bytes → Nat → Nat

/-! ## The decoder engines, R263 to R266; log 106 -/

/-- At equal metrics of stage t the odd predecessor survives. -/
opaque trellisTie : Nat → Bool
/-- A scaled extrinsic value is rounded up. -/
opaque extUp : Int → Bool
/-- EXT_SCALE of a weight bank (modulo 17), R263. -/
opaque extScale : Bytes → Nat
/-- A[i] of a weight bank (modulo 65): base graph and iteration, R264. -/
opaque minSumScale : Bytes → Nat → Nat → Nat
/-- B[i] of a weight bank (modulo 16), R264. -/
opaque minSumOffset : Bytes → Nat → Nat → Nat
/-- ITER of a decode without iterations, R269. -/
opaque iterNone : Byte
/-- What the SCI of a job's codeword says, which the job granule does not carry: by field 0 source ID, 1 destination ID, 2 HARQ
process, 3 NDI, 4 feedback (1 ACK and NACK, 2 NACK only), 5 priority value, 6 first subchannel, 7 first PRB, 8 the slot of an
announced LTE retransmission, 9 the transport block's PRBs. -/
opaque jobSci : Bytes → Nat → Nat
/-- A transmitted value of a transport block's resources, R280: the job, its scrambled coded bits, symbol, subcarrier from its first
PRB; complex FP16. -/
opaque labelCell : Bytes → List Bool → Nat → Nat → Word

/-- Where the front end's SIGNAL of a carrier goes, R256: P3's receiving core, its bank and its counter; no record names them. -/
opaque radioTarget : Nat → Nat × Nat × Nat

end Sys2Proof.Config
end

