-- ==== Sys2Proof/Machine/State.lean ====
section
/-! DEFINITION. The state of the block: one structure for each unit of the device, plain data throughout, and the state
right after reset. Every field's default is its reset value; where the spec gives none, the field's docstring says so and
names the log entry. "Reset" is the state in which PORST_N is still low (R511): the first command of a run is then
PORST_N_RISE. -/

namespace Sys2Proof.Machine

/-! ## Events and outputs -/

/-- What an event record of R24 reports. -/
inductive What where
  | tbState | tbStep | ppsIn | edgeCapture | clockAlarm | refclkLost
  | faultRecord | tableRefused | testDue | deadlineMiss | missRun | remap | withdrawn | resync | resyncAbort
  | heartbeat | watchdog | ctxJoin | ctxRefused | ctxLeave | ctxCopy | ctxSwapOut | ctxSwapIn | ctxEnd | stepHeld
  | roiKept | roiAdopted | roiClipped | slotVoid | late | decodeAbandoned | unmatched | violation | violationSummary
  | detection | bankSwap | bankRevert | radioLinkLost | codewordCut
  | engineRefused | unreachable | caReplay | hotChange | retirement | retireFull | lpFail | lakeFailed
  | linkChange | quarantine | fabDuplicate | fabMismatch | fabJoin | routeLost
  | powerEntry | wakeHeld | wake | capUnmet | avsFail | sensorFail | bootRecord | kdpViolation
  deriving DecidableEq, Repr

/-- An event record, R25: device time, source id, 48-bit sequence number, class, what it reports, and its values. -/
structure Event where
  time : Nat
  source : Nat
  seq : Nat
  cls : Nat
  what : What
  args : List Nat
  deriving DecidableEq, Repr

/-- What the block sends to its neighbours, oldest first in `State.sent`. -/
inductive Emission where
  /-- A RESPONSE of R455: client, TID, abort code, payload. -/
  | response (c : Client) (tid : BitVec 16) (code : Nat) (payload : Bytes)
  /-- The acknowledgement of a SEG, R459: the SEG number it names. -/
  | segAck (c : Client) (tid : BitVec 16) (seg : Nat)
  /-- A RESPONSE frame of a DOMAIN read, R460: SEG number and bytes. -/
  | segData (c : Client) (tid : BitVec 16) (seg : Nat) (payload : Bytes)
  /-- An ABORT frame with its code, R460, R462 and R472. -/
  | abort (c : Client) (tid : BitVec 16) (code : Nat)
  /-- A message-signalled interrupt: address and data, R320, R471, R506. -/
  | msi (addr : Nat) (data : Nat)
  /-- An interrupt of a carrier's report ring, R269. -/
  | carrierIrq (c : Nat)
  /-- The data of a completed bus read. -/
  | readData (by_ : Initiator) (addr : Nat) (data : Bytes)
  /-- The register value returned to a bus read with a side effect, R318, R464. -/
  | regData (addr : Nat) (value : Word64)
  /-- A bus error to an application core or the safety island, R44, R362. -/
  | busError (by_ : Initiator) (addr : Nat)
  /-- A packet or SIGNAL sent to a counter, R71: destination and sequence number. -/
  | packet (core bank ctr seq : Nat) (isVoid : Bool)
  /-- A word that a group port releases, R377. -/
  | groupWord (g : Nat) (w : Word64)
  /-- An Ethernet frame or CAN frame handed to the OS network path of its door (0 E0, 1 E1, 2 F0, 3 F1), R203, R457. -/
  | toNetwork (door : Nat) (payload : Bytes)
  /-- Transfers run on RFSPI by a list, R244: door, list (0 TX_LIST, 1 RX_LIST, 2 OS). -/
  | spi (door list : Nat) (transfers : Bytes)
  /-- A slot transmitted on a carrier, R276: its first transmit sample (R241) and its samples. -/
  | transmit (c slot : Nat) (first : Int) (signal : Bytes)
  /-- A grid packet written, R256: carrier, slot, symbol, and its sequence number under R21. -/
  | gridPacket (c slot symbol seq : Nat)
  /-- PSFCH feedback, R274: carrier, occasion slot, first subchannel, ACK. -/
  | feedback (c slot subch : Nat) (ack : Bool)
  /-- A transaction put on a fabric door, R429. -/
  | fabric (door : Nat) (t : Txn)
  /-- A flit resent from the retry buffer, R426: door, LSEQ. -/
  | resend (door lseq : Nat)
  /-- A NAK flit with its ACK field, R426. -/
  | nak (door ack : Nat)
  /-- An end-to-end acknowledgement to a node, R430: node, VC, highest number delivered. -/
  | e2eAck (node vc num : Nat)
  /-- A HELLO sent on VC 2 when a link comes up, R432. -/
  | hello (door : Nat) (h : Hello)
  /-- A LINK_STATE record flooded on VC 2, R432. -/
  | linkState (door : Nat) (r : LinkStateRec)
  /-- A heartbeat to the safety island, R391: tick, frame, BUILD. -/
  | heartbeat (tick frame build : Nat)
  /-- The leader's step-boundary decision sent to a node, R190. -/
  | stepDecision (node : Nat) (model : Word) (d : StepDecision)
  /-- An AVSBus Voltage write, R513: rail and millivolts. -/
  | avs (rail mv : Nat)
  deriving DecidableEq, Repr

/-- One origin's violations in the current violation second, R550. `key` names the origin within its unit. -/
structure Viol where
  /-- who: kind of origin, number, port or address; R550 -/
  key : Nat × Nat × Nat
  /-- the violation second that the counts below belong to; R550; reset 0 -/
  second : Nat := 0
  /-- violations in that second; R550; reset 0 -/
  count : Nat := 0
  /-- the second in which the throttle began, if the origin is throttled; R550; reset none -/
  throttledSince : Option Nat := none
  /-- requests admitted and refused in that second while throttled; R550; reset 0 -/
  admitted : Nat := 0
  refused : Nat := 0
  deriving DecidableEq, Repr

/-! ## Timebase, pins and monitors -/

/-- The lock states of R32, in the code order of TB_STATE (R41). -/
inductive LockState where
  | free | slewing | locked | holdover
  deriving DecidableEq, Repr

/-- The timebase unit, R28 to R42 (always-on domain). -/
structure Timebase where
  /-- device time in ns, bit 0 zero; R28, R30; reset 0 -/
  now : Nat := 0
  /-- REFCLK present, else the always-on oscillator runs; R30; reset true -/
  refclk : Bool := true
  /-- TB_STATE and the bits [4:2] of TB_STATUS; R32, R42; reset 0 (free) -/
  lock : LockState := .free
  /-- TB_STATUS.SYNCED; R42; reset 0 -/
  synced : Bool := false
  /-- TB_STATUS.STEPPED; R42; reset 0 -/
  stepped : Bool := false
  /-- TB_STATUS.PPS_SEEN, W1C; R42; reset 0 -/
  ppsSeen : Bool := false
  /-- TB_STATUS.MON_ERR, W1C; R42; reset 0 -/
  monErr : Bool := false
  /-- TB_STATUS.SRC, GPTP_PORT in force; R42; reset 0 -/
  src : Nat := 0
  /-- TB_OFFSET, last measured offset, I32 saturated; R41; reset 0 -/
  offset : Int := 0
  /-- the previous measurement, for the jump rules of R32; reset none -/
  lastMeas : Option Int := none
  /-- instant of the last measurement heard; R32; reset none -/
  lastHeard : Option Nat := none
  /-- since when measurements have come without a jump beyond 1 us, in HOLDOVER; R32; reset none -/
  steadySince : Option Nat := none
  /-- a transition to RUN has happened since PORST_N rose; R31; reset false -/
  hasRun : Bool := false
  /-- stamp of the last PPS_IN edge; R546; reset none -/
  lastPps : Option Nat := none
  /-- RUN_FRAME0, R40, once RUN is entered; reset 0 -/
  runFrame0 : Nat := 0
  /-- RUN_FRAME0 has begun; R40; reset false -/
  framesOn : Bool := false
  /-- frame boundaries passed since RUN_FRAME0, the X0 of R75; reset 0 -/
  runFrame : Nat := 0
  /-- programmable delay of FSYNC0-3 in ns; R39; taken at RUN from entries that the spec does not index; DESIGN CHOICE 0, log 4 -/
  fsyncOffset : List Nat := [0, 0, 0, 0]
  /-- programmable pulse width of FSYNC0-3 in ns; R39; taken at RUN from entries that the spec does not index; DESIGN CHOICE 0, log 4 -/
  fsyncWidth : List Nat := [0, 0, 0, 0]
  /-- stamp of the last internal FSYNC edge of each output; R39, R205; reset 0 -/
  fsyncEdge : List Nat := [0, 0, 0, 0]
  deriving DecidableEq, Repr

/-- The balls of R534 to R538 that the block drives or latches. -/
structure Pins where
  /-- PORST_N level; R511; low before the first rise -/
  porstN : Bool := false
  /-- FSYNC0-3 levels; R39; reset low -/
  fsync : List Bool := [false, false, false, false]
  /-- PPS_OUT level; R33; reset low -/
  ppsOut : Bool := false
  /-- STBY_REQ level; R515, R544; reset low -/
  stbyReq : Bool := false
  /-- MFIO0-31 levels driven; R537, R538; reset low -/
  mfio : BitVec 32 := 0
  /-- GAIN_W0[3:0], GAIN_W1[3:0]; R243; reset 0 -/
  gain : List (BitVec 4) := [0, 0]
  deriving DecidableEq, Repr

/-! ## The fault collector and the safety island -/

/-- A report as the collector holds it, R398, with its stamp. -/
structure Report where
  time : Nat
  r : ReportIn
  deriving DecidableEq, Repr

/-- A fault record, R408. -/
structure FaultRec where
  time : Nat
  seq : Nat
  origin : BitVec 12
  code : BitVec 8
  cls : BitVec 3
  promoted : Bool := false
  active : Bool := false
  cleared : Bool := false
  group : BitVec 6
  kind : Nat := 0
  blame : BitVec 12 := 0xFFF
  secondary : Nat := 0
  ctx : BitVec 18 := 0
  part : BitVec 4 := 0
  detail : Word := 0
  /-- the making instant MADE of R405 -/
  made : Nat
  /-- the units folded into the record, R405 -/
  folded : List (BitVec 12) := []
  /-- the groups of the reports folded into the record, R404, R405 -/
  foldedGroups : List (BitVec 6) := []
  deriving DecidableEq, Repr

/-- The phases of the boot exercise, R417. -/
inductive ExPhase where
  | before | release | latch | done
  deriving DecidableEq, Repr

/-- The fault collector, R398 to R421 (always-on domain). -/
structure Collector where
  /-- FC_STATUS, the Latch; R404, R416; reset 0 -/
  status : BitVec 36 := 0
  /-- record slots 0-255 in use; R407, R416; reset empty -/
  slots : Sparse FaultRec := []
  /-- the fault log ring, newest last, at most 1,024; R409; reset empty -/
  log : List FaultRec := []
  /-- reports waiting for attribution; R405; reset empty -/
  waiting : List Report := []
  /-- FC_SUMMARY.OVERFLOW; R407; reset 0 -/
  overflow : Bool := false
  /-- FC_SUMMARY.EXERCISED; R416; reset 0 -/
  exercised : Bool := false
  /-- FC_FIRST_TIME; R406; reset 0 -/
  firstTime : Nat := 0
  /-- FC_FIRST_ID as a register word; R406, R416; reset 0 -/
  firstId : Word64 := 0
  /-- FC_SECONDARY; R405; reset 0 -/
  secondary : Nat := 0
  /-- FC_DROPPED; R407; reset 0 -/
  dropped : Nat := 0
  /-- FC_CLEAR_RES by origin (application cores 0-11 as 0x100+h, island 3); R416; reset 0 -/
  clearRes : Sparse Nat := []
  /-- FC_ALT_SW.LEVEL; R416; reset 1 -/
  altSw : Bool := true
  /-- start of the FAULT_ALT pulse that runs; R412; reset none -/
  altPulse : Option Nat := none
  /-- phase of the boot exercise; R417; reset before -/
  exercise : ExPhase := .before
  /-- the release and latch phases passed so far; R417; reset false -/
  exerciseOk : Bool := false
  /-- FN_EXERCISE; R421; reset 0 -/
  fnExercise : Nat := 0
  /-- the exercise hold keeps FAULT_N low; R411, R515; reset true -/
  exerciseHold : Bool := true
  /-- FN_THRESHOLD in force, FC_SUMMARY.THRESHOLD; R416; reset 3 -/
  threshold : Nat := 3
  /-- ALT_CLASS in force; R416; reset 2 -/
  altClass : Nat := 2
  deriving DecidableEq, Repr

/-- The safety island, R391 to R393 (always-on domain). -/
structure Island where
  /-- the island core that is being reloaded; R392; reset none -/
  tmrOut : Option (Fin 3) := none
  /-- the last heartbeat received (tick boundary stamp); R391; reset none -/
  lastHeartbeat : Option Nat := none
  /-- consecutive heartbeats missing or wrong; R391; reset 0 -/
  hbRun : Nat := 0
  /-- HB_MISSES; R396; reset 0 -/
  hbMisses : Nat := 0
  /-- per pair: last WD_KICK value; R393, R396; reset 0 -/
  wdValue : List (BitVec 16) := [0, 0, 0, 0, 0, 0]
  /-- per pair: stamp of the last kick; R393; reset none -/
  wdLast : List (Option Nat) := [none, none, none, none, none, none]
  /-- per pair: commands to rated windows no longer admitted; R393; reset false -/
  wdBarred : List Bool := [false, false, false, false, false, false]
  /-- EXPECTED[0-15] kept from GOLDEN_IMAGE; R387; reset 0 -/
  expected : List Word64 := []
  /-- the island's private SRAM of 512 KiB by offset, bytes that differ from 0x00: outside the map of R43 and reached by the island's own
  programs only, which no command shows; R4, R43, R392; DESIGN CHOICE nothing listed, log 78 -/
  sram : List Host.Cell := []
  /-- bit k: application-core pair k (cores 2k and 2k + 1) runs in lock mode, else split; R4, R316, R393, R463; taken at the release of the
  boot; DESIGN CHOICE 0, log 79 -/
  lock : BitVec 6 := 0
  deriving DecidableEq, Repr

/-! ## Boot, flash, security -/

/-- The device states of R449, in code order. -/
inductive DevState where
  | boot | config | run | degraded | safe | recovery
  deriving DecidableEq, Repr

/-- Where the boot stands, R490: held in reset, the ROM judging a slot (false A, true B), in firmware, or stopped. -/
inductive BootStage where
  | held | romCheck (slot : Bool) (second : Bool) | firmware | exercise | online | recovery | standby
  deriving DecidableEq, Repr

/-- An activation record, R488. -/
structure ActRecord where
  seq : Word := 0
  /-- ACTIVE: false A, true B -/
  active : Bool := false
  /-- STAGED: the slot holding a staged image -/
  staged : Option Bool := none
  passed : Bool := false
  badA : Bool := false
  badB : Bool := false
  bootCount : Word := 0
  epoch : Nat := 0
  stageCrc : Word := 0
  deriving DecidableEq, Repr

/-- The boot flash and the OTP, R480, R481. The part's own contents: the spec gives none (log 5). -/
structure Flash where
  /-- AR0 and AR1, when valid; R488; DESIGN CHOICE none, log 5 -/
  ar0 : Option ActRecord := none
  ar1 : Option ActRecord := none
  /-- contents of slot A and slot B that differ from erased; R480; DESIGN CHOICE empty, log 5 -/
  slotA : List Host.Cell := []
  slotB : List Host.Cell := []
  /-- ID_CERT; R480, R501; DESIGN CHOICE empty, log 5 -/
  idCert : Bytes := []
  /-- ROOT_HASH[0-3]; R481; DESIGN CHOICE empty, log 5 -/
  rootHash : List Bytes := []
  /-- KEY_REVOKED; R481; DESIGN CHOICE 0, log 5 -/
  keyRevoked : BitVec 4 := 0
  /-- ID_PUB; R481; DESIGN CHOICE empty, log 5 -/
  idPub : Bytes := []
  /-- the identity check of stage 1 passes, ID_CHECK; R481, R491; DESIGN CHOICE true, log 5 -/
  idCheckOk : Bool := true
  /-- IMG_KEY is set; R481; DESIGN CHOICE false, log 5 -/
  imgKeySet : Bool := false
  /-- DEBUG_PUB[0-1]; R481; DESIGN CHOICE empty, log 5 -/
  debugPub : List Bytes := []
  /-- anti-rollback bits blown; R481, R500; DESIGN CHOICE 0, log 5 -/
  rollback : Nat := 0
  /-- SLOT_SIZE in units of 64 MiB; R481; DESIGN CHOICE 1, log 5 -/
  slotSize : Nat := 1
  /-- LK_RETIRED as stored with the configuration: channel, unit, reserve slot; R355; DESIGN CHOICE empty, log 5 -/
  lkRetired : List (Nat × Nat × Nat) := []
  /-- SERIAL; R481; DESIGN CHOICE sixteen zeros as text, log 5 -/
  serial : Bytes := List.replicate 16 0x30
  deriving DecidableEq, Repr

/-- The boot, R479 to R499, with the boot record of R495. -/
structure Boot where
  stage : BootStage := .held
  /-- BOOTSEL latched; R479; reset 0 until latched -/
  bootsel : BitVec 3 := 0
  /-- NODE_ID strap latched; R479; reset 0 until latched -/
  nodeStrap : BitVec 3 := 0
  /-- instant of the last reset release; R511; reset 0 -/
  releasedAt : Nat := 0
  /-- OUTCOME; R495; reset 0 -/
  outcome : Nat := 0
  /-- REASON of the refused slot; R495; reset 0 -/
  reason : Nat := 0
  /-- REFUSED_SLOT; R495; reset none -/
  refused : Option Bool := none
  /-- SLOT booted; R495; reset none -/
  slot : Option Bool := none
  /-- LP_FAIL; R495; reset 0 -/
  lpFail : BitVec 4 := 0
  /-- WAKE: 0 cold, 1 wake, 2 warm; R495; reset 0 -/
  wake : Nat := 0
  /-- FLAGS[0] reserved BOOTSEL used; R495; reset 0 -/
  reservedBootsel : Bool := false
  /-- FLAGS[1] KEY_FAULT; R495; reset 0 -/
  keyFault : Bool := false
  /-- FLAGS[2] exercise failed; R495; reset 0 -/
  exerciseFailed : Bool := false
  /-- FAIL_SECTION; R495; reset none -/
  failSection : Option Nat := none
  /-- LAKE_FAILED; R495; reset 0 -/
  lakeFailed : BitVec 64 := 0
  /-- BUILD, ROLLBACK_IMG and SECTIONS of the booted image; R482, R495; reset 0 -/
  build : Word64 := 0
  rollbackImg : Nat := 0
  /-- T_CONFIG, T_RUN, T_FIRST in us; R495; reset 0 -/
  tConfig : Nat := 0
  tRun : Nat := 0
  tFirst : Nat := 0
  /-- sections of phase 1 and 2 read and applied; R492, R493; reset empty -/
  sectionsDone : List Nat := []
  /-- sections refused; R492; reset empty -/
  sectionsBad : List Nat := []
  /-- offset of the next item of the stored configuration while it is being applied; R450, R485; reset none -/
  cfgPos : Option Nat := none
  /-- MR0-MR7; R502; reset zero (listed when not zero) -/
  mr : Sparse Bytes := []
  deriving DecidableEq, Repr

/-- A quote that waits for its signature, R503. -/
structure QuoteJob where
  client : Client
  tid : BitVec 16
  nonce : Bytes
  mask : Byte
  deriving DecidableEq, Repr

/-- The instructions of the TAP, R547: the two that are always there, boundary scan, and the debug scopes of R504. -/
inductive TapInstr where
  | bypass | idcode | boundaryScan | debugApp | debugDevice | debugIsland
  deriving DecidableEq, Repr

/-- The security engine, R501 to R506. -/
structure Security where
  /-- quotes waiting, in the order of R452; reset empty -/
  quoteQueue : List QuoteJob := []
  /-- QUOTE of each origin F, L, S, Y, P; R507; reset empty -/
  quotes : Sparse Bytes := []
  /-- the valid debug nonce and its issue stamp; R504; reset none -/
  nonce : Option (Bytes × Nat) := none
  /-- DBG_STATE; R507; reset 0 -/
  dbgState : Byte := 0
  /-- next JOB_SEQ of SEC_RING; R506; reset 0 -/
  jobNext : Word := 0
  /-- landed jobs not taken yet; R506; reset empty -/
  landed : List Bytes := []
  /-- results since the last MSI; R506; reset 0 -/
  sinceMsi : Nat := 0
  /-- SEC_VERIFIES and SEC_INVALID; R507; reset 0 -/
  verifies : Nat := 0
  invalid : Nat := 0
  /-- the instruction that the TAP holds; R547; reset IDCODE, log 80 -/
  tap : TapInstr := .idcode
  /-- a running ROLLBACK_COMMIT: client, TID, target; R500; reset none -/
  commit : Option (Client × BitVec 16 × Nat) := none
  deriving DecidableEq, Repr

/-! ## The dictionary server -/

/-- An open transfer, R459, R460, R466. -/
structure Transfer where
  client : Client
  tid : BitVec 16
  key : Nat
  isWrite : Bool
  length : Nat
  /-- bytes received, or the whole content of a read -/
  content : Bytes
  /-- next SEG number expected from the client -/
  nextSeg : Nat := 0
  /-- bytes moved through the window, or segments sent -/
  pos : Nat := 0
  /-- SEGs sent and not acknowledged (reads) -/
  sent : Nat := 0
  crc : Word := 0
  lastFrame : Nat
  reqCrc : Word
  /-- SEGs of STAGE or REC_IMAGE that wait for the flash, oldest first; R496 -/
  flashWait : List (Nat × Bytes) := []
  /-- an END that waits for those SEGs, and its CRC; R496 -/
  ending : Option (Req × Word) := none
  /-- the response of the opening frame, for R461 -/
  opening : Bytes := []
  deriving DecidableEq, Repr

/-- A stored response of a completed transaction, R461. -/
structure Done where
  client : Client
  tid : BitVec 16
  index : BitVec 16
  sub : BitVec 8
  crc : Word
  code : Nat
  payload : Bytes
  time : Nat
  deriving DecidableEq, Repr

/-- A change-log record, R475. Values stand for their digests' source. -/
structure Change where
  time : Nat
  chseq : Nat
  index : BitVec 16
  sub : BitVec 8
  origin : Nat
  result : Nat
  kind : Nat
  unchanged : Bool
  oldDigest : Word64
  newDigest : Word64
  who : Nat
  tid : BitVec 16
  resource : Nat
  length : Nat
  otherOwner : Nat
  deriving DecidableEq, Repr

/-- A claim record, R468. -/
structure Claim where
  owner : Nat := 0xFFFF
  function : Nat := 0
  sregion : Nat := 0
  first : Nat := 0
  last : Nat := 0
  name : Bytes := []
  how : Nat := 0
  by_ : Nat := 0
  deriving DecidableEq, Repr

/-- A compare timer, R471. -/
structure Timer where
  first : Nat := 0
  period : Nat := 0
  width : Nat := 0
  msiAddr : Nat := 0
  msiData : Nat := 0
  ball : Nat := 0
  en : Bool := false
  /-- the instant at which the armed timer fires next; reset none -/
  nextFire : Option Nat := none
  /-- end of the running pulse; reset none -/
  pulseEnd : Option Nat := none
  deriving DecidableEq, Repr

/-- One slot of the dictionary window, R463. -/
structure DwSlot where
  cmd : Word64 := 0
  code : Nat := 0
  done : Bool := false
  busy : Bool := false
  pos : Nat := 0
  crc : Word := 0
  word : Word64 := 0
  data : Bytes := []
  deriving DecidableEq, Repr

/-- The dictionary server, R444 to R478. -/
structure Dict where
  /-- DEV_STATE; R449; reset 0 (BOOT) -/
  state : DevState := .boot
  /-- STATE_FAIL; R451; reset 0 -/
  stateFail : Word64 := 0
  /-- the STATE_REQ whose transition runs; R451; reset none -/
  transition : Option (Client × BitVec 16) := none
  /-- values of writable entries that differ from their default, by index * 256 + sub; R478 and the entry tables -/
  vals : Sparse Bytes := []
  /-- open transfers; R459, R460; reset empty -/
  transfers : List Transfer := []
  /-- accepted requests whose response is sent later; R451, R458; reset empty -/
  waitingTx : List Req := []
  /-- stored responses; R461; reset empty -/
  doneTx : List Done := []
  /-- the change log, newest last, at most 65,536; R475; reset empty -/
  changes : List Change := []
  /-- CHLOG_HEAD; R476; reset 0 -/
  chHead : Nat := 0
  /-- claims held, by resource number; R467; reset none held -/
  claims : Sparse Claim := []
  /-- timers TIM0-TIM7; R471; reset all zero -/
  timers : Sparse Timer := []
  /-- the window slots 0-11 and the island's (12); R463; reset 0 -/
  window : Sparse DwSlot := []
  /-- DW_VIOL; R463; reset 0 -/
  dwViol : Nat := 0
  /-- KDP_MARGINAL, KDP_DUP, KDP_VIOL; R478; reset 0 -/
  kdpMarginal : Nat := 0
  kdpDup : Nat := 0
  kdpViol : Nat := 0
  /-- violations and throttles by client; R473; reset empty -/
  viols : List Viol := []
  /-- transactions the device itself has open at a fabric peer: node and send stamp; R462; reset empty -/
  peerTx : List (Nat × Nat) := []
  deriving DecidableEq, Repr

/-! ## The compute core -/

/-- CC_STATE.STATE, R85, in code order. -/
inductive CcState where
  | idle | running | waiting | draining | golden | selftest | resync | withdrawn | reset
  deriving DecidableEq, Repr

/-- A sequence counter of R70. -/
structure Counter where
  seqDone : Word := 0
  landed : Word64 := 0
  voids : Word := 0
  dups : Word := 0
  /-- sequence violations counted against the stream; R23 -/
  viols : Nat := 0
  deriving DecidableEq, Repr

/-- The destination of an outbound stream, R71. -/
structure Dest where
  node : BitVec 3
  core : BitVec 6
  bank : BitVec 2
  ctr : BitVec 4
  deriving DecidableEq, Repr

/-- An outbound stream of R70: next number, fixed destination, and the release's base and count (R76). -/
structure Outbound where
  next : Word := 0
  dest : Option Dest := none
  base : Word := 0
  count : Word := 0
  deriving DecidableEq, Repr

/-- The fields of a tile program header that stay in force while it runs, R78. -/
structure Program where
  hdr : BitVec 16
  length : Nat
  entry : Nat
  maxTile : Nat
  flags : BitVec 16
  pondBase : Nat
  pondSize : Nat
  saveArea : Nat
  chainTable : Nat
  chainCount : Nat
  bank : BitVec 2
  ctrMask : BitVec 16
  outMask : BitVec 16
  modelId : Word
  ctx : BitVec 18
  deriving DecidableEq, Repr

/-- A block of weights in a plane, R51: shape, format, quadrant and its bytes. -/
structure Weights where
  shape : BitVec 4
  fmt : BitVec 4
  quad : BitVec 2
  bytes : Bytes
  deriving DecidableEq, Repr

/-- A Pond range at 4 KiB granularity that an issued instruction reads or writes, R66: first and last 4 KiB unit. -/
structure Range where
  unit_ : Nat
  write : Bool
  first : Nat
  last : Nat
  deriving DecidableEq, Repr

/-- A pass in the matrix queue or in the array, R67: the MPASS fields. -/
structure Pass where
  shape : BitVec 4
  fmt : BitVec 4
  acc : Bool
  abuf : Bool
  quad : BitVec 2
  rows : Nat
  arow : Nat
  drain : Bool
  chain : BitVec 5
  row : BitVec 16
  /-- the epilogue entry that CHAIN names, 192 bytes, as read at issue -/
  epilogue : Bytes
  /-- the prologue entry that R118 selects at issue, 192 bytes -/
  prologue : Option Bytes
  /-- the Pond ranges of R66: what the pass reads, and what its drain reads and writes -/
  ranges : List Range
  deriving DecidableEq, Repr

/-- A matrix queue item: a preload with the Pond ranges it reads (R66), or a pass, R67. -/
inductive MatrixOp where
  | load (w : Weights) (ranges : List Range)
  | pass (p : Pass)
  deriving DecidableEq, Repr

/-- A tile move in flight, R64: its descriptor, the source bytes read so far with the offsets of poisoned words, the READs
that a remote source still waits for (tag, offset), and its packet: stream, number taken, destination. The blocks of a remote chunk follow its
header. -/
structure Move where
  desc : Bytes
  src : Bytes
  bad : List Nat
  need : List (BitVec 16 × Nat)
  packet : Option (BitVec 4 × Word × Dest)
  ranges : List Range
  /-- only the header of a remote chunk has been asked for, R160 -/
  header : Bool := false
  deriving DecidableEq, Repr

/-- The work that the schedule engine runs on a core: a release of an entry in a frame, or a job of RUN_JOB. -/
inductive Work where
  | rel (entry frame : Nat)
  | job (part : BitVec 4) (seq : Word)
  deriving DecidableEq, Repr

/-- What is kept of a preempted program beside its SAVE_AREA, R82: its header's fields, the release bases and counts of its streams, its
partition, and the work it belongs to. -/
structure Saved where
  hdr : BitVec 16
  prog : Program
  bases : List (Word × Word)
  part : BitVec 4
  work : Option Work
  deriving DecidableEq, Repr

/-- One compute core, R48 to R87. -/
structure Core where
  /-- CC_CTL fields CTX_ID, HDR, PART; R85; reset 0 -/
  ctlCtx : BitVec 18 := 0
  ctlHdr : BitVec 16 := 0
  ctlPart : BitVec 4 := 0
  /-- CC_STATE.STATE, CTX_ID, PC, AT_TB, TEST_DUE; R85; reset 0 -/
  st : CcState := .idle
  ctx : BitVec 18 := 0
  pc : Nat := 0
  atTb : Bool := false
  testDue : Bool := false
  /-- CC_STATE.ACC0_BUSY, ACC1_BUSY; R85; reset 0 -/
  accBusy : List Bool := [false, false]
  /-- CC_GROUP in force; R85; reset 0 -/
  group : Word64 := 0
  /-- CC_GROUP held until the next tile boundary (GROUP_PEND); R84; reset none -/
  groupHeld : Option Word64 := none
  /-- CC_SIG; R85; reset 0 -/
  sig : Word64 := 0
  /-- CC_ERR bits [14:0] and FIRST_PC; R85; reset 0 -/
  err : BitVec 15 := 0
  firstPc : BitVec 16 := 0
  /-- X0-X15; R66, R75; reset 0: log 3 -/
  x : List Word := List.replicate 16 0
  /-- LC0-LC3; R66, R75; reset 0: log 3 -/
  lc : List (BitVec 16) := List.replicate 4 0
  /-- V0-V31, lane l of register r at r * 64 + l; R48; reset 0: log 3 -/
  v : Sparse Word := []
  /-- the accumulator store, buffer * 65536 + row * 128 + column; R48; reset 0: log 3 -/
  acc : Sparse Word := []
  /-- the active plane and the shadow plane, by quadrant; R48, R51; reset empty: log 3 -/
  active : List Weights := []
  shadow : List Weights := []
  /-- a preload has filled the shadow plane since it last became active; R51; reset false -/
  preloaded : Bool := false
  /-- the matrix queue, at most four; R66; reset empty -/
  mq : List MatrixOp := []
  /-- passes streaming, oldest first; R54; reset empty -/
  inArray : List Pass := []
  /-- passes whose buffer is draining, in issue order; R56, R137; reset empty -/
  draining : List Pass := []
  /-- descriptor queues of TM0 and TM1, at most eight; R64; reset empty -/
  tmq : List (List (BitVec 16 × List Range)) := [[], []]
  /-- the move each engine executes; R64; reset none -/
  tm : List (Option Move) := [none, none]
  /-- numbers taken by moves that a teardown aborted, still to be voided; R76; reset empty -/
  toVoid : List (BitVec 2 × BitVec 4 × Word × Dest) := []
  /-- the instruction held back; R66; reset none -/
  held : Option Instr := none
  /-- the four banks of sixteen counters, bank * 16 + counter; R70; reset 0 -/
  ctrs : Sparse Counter := []
  /-- the outbound streams, bank * 16 + stream; R70; reset 0 -/
  outs : Sparse Outbound := []
  /-- CRC-64 of the epilogue pipe, vector unit, TM0, TM1 and mesh port; R81; reset 0 -/
  unitCrc : List Word64 := [0, 0, 0, 0, 0]
  /-- the running program; R78; reset none -/
  prog : Option Program := none
  /-- the release or job that the running program belongs to; none for a START by CC_CTL; R302, R321; reset none -/
  work : Option Work := none
  /-- the counter and number a WAIT_SEQ waits for; R73; reset none -/
  waitOn : Option (BitVec 4 × Word) := none
  /-- TILE_END issued and not retired; R80; reset false -/
  tileEndPending : Bool := false
  /-- stamp of a pending preemption request; R82; reset none -/
  preemptAt : Option Nat := none
  /-- states saved by preemption; R82; reset empty -/
  saved : List Saved := []
  /-- streams of releases that ended early: bank, stream, and the number up to which void packets are due; R76; reset
  empty -/
  voidDue : List (BitVec 2 × BitVec 4 × Word) := []
  /-- since when the running work occupies the core, for CORE_NS; R332; reset none -/
  since : Option Nat := none
  /-- programs (model, index) whose image lies in the Pond; R381; reset none -/
  images : List (Word × Nat) := []
  /-- golden variant running; R388; reset none -/
  variant : Option Nat := none
  /-- segments of the test set completed in this frame; R310; reset 0 -/
  segsDone : Nat := 0
  /-- GOLDEN_LAST; R396; reset 0 -/
  goldenLast : Nat := 0
  /-- frames in which the member needed a re-synchronisation, newest first; R384; reset empty -/
  resyncFrames : List Nat := []
  deriving DecidableEq, Repr

/-! ## The schedule engine -/

/-- A group entry of R300. -/
structure GroupEntry where
  mode : Nat
  part : Nat
  gclk : Nat
  cores : List (BitVec 6)
  deriving DecidableEq, Repr

/-- A golden entry of R301. -/
structure GoldenEntry where
  tick : Nat
  offset : Nat
  cores : BitVec 64
  deriving DecidableEq, Repr

/-- A work entry of R302. -/
structure WorkEntry where
  tick : Nat
  kind : Nat
  part : Nat
  start : Nat
  length : Nat
  target : BitVec 16
  prog : Nat
  modelId : Word
  deadline : Nat
  ctx : Nat
  flags : BitVec 16
  deriving DecidableEq, Repr

/-- The schedule table of R299. -/
structure Schedule where
  frameTicks : Nat
  build : Word64
  groups : List GroupEntry
  bankMap : List (BitVec 4)
  goldens : List GoldenEntry
  entries : List WorkEntry
  deriving DecidableEq, Repr

/-- Where a piece of work stands. -/
inductive JobSt where
  | queued | held | running | preempted | done | notMade
  deriving DecidableEq, Repr

/-- A release of a schedule entry, R302 and R314. -/
structure Rel where
  entry : Nat
  frame : Nat
  ctx : Nat
  cores : List (BitVec 6)
  at_ : Nat
  /-- the deadline instant; 0 none -/
  deadline : Nat
  st : JobSt
  completed : Option Nat := none
  deriving DecidableEq, Repr

/-- A job of RUN_JOB, R321. -/
structure Job where
  part : BitVec 4
  seq : Word
  model : Word
  prog : Nat
  prio : Nat
  arg : Nat
  deadline : Nat
  ctx : BitVec 18
  irq : Bool
  st : JobSt
  core : Option (BitVec 6) := none
  since : Nat := 0
  coreNs : Nat := 0
  deriving DecidableEq, Repr

/-- A submitted command record that has not completed, R319. -/
structure Cmd where
  seq : Word
  w0 : Word64
  w1 : Word64
  w2 : Word64
  w3 : Word64
  /-- the engine has begun to carry it out -/
  taken : Bool := false
  deriving DecidableEq, Repr

/-- A completion of R320. -/
structure Completion where
  seq : Word
  opcode : Byte
  status : Nat
  result : Nat
  irq : Bool
  deriving DecidableEq, Repr

/-- A command window, R317. -/
structure Window where
  /-- WIN_INFO.PENDING; reset 0 -/
  pending : Nat := 0
  /-- WIN_CTL.IRQ_EN and CQ_LOG2; reset 0 -/
  irqEn : Bool := false
  cqLog2 : BitVec 5 := 0
  /-- CQ_BASE.BASE; reset 0 -/
  cqBase : BitVec 42 := 0
  /-- SUB_NEXT, CMPL_DONE, CMPL_LAST; reset 0 -/
  subNext : Word := 0
  cmplDone : Word := 0
  cmplLast : Word := 0
  /-- MSI_ADDR and MSI_DATA; reset 0 -/
  msiAddr : Word64 := 0
  msiData : Word := 0
  /-- WIN_ERR.CQ_FAULT and REFUSED; reset 0 -/
  cqFault : Bool := false
  refused : Bool := false
  /-- REC_W0-REC_W3 of slots 0-11, slot * 4 + word; reset 0 -/
  recW : Sparse Word64 := []
  /-- SUB_STAT of slots 0-11; reset 0 -/
  subStat : Sparse Word64 := []
  /-- accepted commands not completed; R318 -/
  cmds : List Cmd := []
  /-- numbers completed that lie at or after CMPL_DONE -/
  doneAhead : List Word := []
  /-- a completion held because its ring write was refused; R317 -/
  heldCq : List Completion := []
  deriving DecidableEq, Repr

/-- A resident model, R328 to R330. -/
structure Model where
  id : Word
  bytes : Nat
  pinned : Bool
  lastUse : Nat
  deriving DecidableEq, Repr

/-- A queued load: model, and the command that asked for it, if one did; R329. -/
structure LoadReq where
  model : Word
  cmd : Option (BitVec 4 × Word)
  /-- the partition charged with MODEL_LOAD_BYTES -/
  part : Nat
  deriving DecidableEq, Repr

/-- A resynchronisation or re-formation in progress, R383 and R386. -/
inductive ResyncSt where
  | waitTb | copying | landed | stateSent
  deriving DecidableEq, Repr

/-- What a group does at run time: its active members, and the member being restored. -/
structure GroupRt where
  /-- members that take part, by MEMBER index -/
  active : List Nat := []
  /-- the member being restored, its donor, and how far it is -/
  resync : Option (Nat × Nat × ResyncSt) := none
  /-- the REFORM_PAIR or SPLIT_PAIR that waits -/
  cmd : Option (BitVec 4 × Word) := none
  split : Bool := false
  /-- the Lake offset whose 64 bytes the copy rewrites, R382 -/
  lakeLine : Option Nat := none
  deriving DecidableEq, Repr

/-- A remap in progress, R298. -/
structure Remap where
  logical : BitVec 6
  old : BitVec 6
  new : BitVec 6
  since : Nat
  heldPackets : List Packet := []
  deriving DecidableEq, Repr

/-- The accounting record of a partition, R332. -/
structure Acct where
  coreNs : Nat := 0
  jobs : Nat := 0
  preempts : Nat := 0
  teardowns : Nat := 0
  deadlineMiss : Nat := 0
  modelLoadBytes : Nat := 0
  /-- nanojoule-scale parts of ENERGY_MJ carried internally; R333 -/
  energy : Nat := 0
  deriving DecidableEq, Repr

/-- The schedule engine, R292 to R334 and R551. -/
structure Sched where
  /-- the schedule table accepted by SCHEDULE, and its bytes; R299; reset empty -/
  table : Option Schedule := none
  /-- CORE_MAP; R297; reset identity -/
  coreMap : List (BitVec 6) := (List.range 64).map (BitVec.ofNat 6)
  /-- WITHDRAWN; R396; reset 0 -/
  withdrawn : BitVec 64 := 0
  /-- banks that a remap could not restore, bank b of logical core l at bit 4l + b; R298; reset 0 -/
  lostBanks : BitVec 256 := 0
  /-- group clock generators not used until the next boot; R19; reset 0 -/
  badGens : BitVec 16 := 0
  /-- releases not yet settled; R314; reset empty -/
  rels : List Rel := []
  /-- jobs of RUN_JOB; R321; reset empty -/
  jobs : List Job := []
  /-- the sixteen windows; R316; reset 0 -/
  windows : Sparse Window := []
  /-- resident models; R328; reset empty -/
  models : List Model := []
  /-- queued loads, first one running; R329; reset empty -/
  loads : List LoadReq := []
  /-- MODEL_LOADS, MODEL_EVICTS; R334; reset 0 -/
  modelLoads : Nat := 0
  modelEvicts : Nat := 0
  /-- run time of groups by group index; reset empty -/
  groups : Sparse GroupRt := []
  /-- remaps in progress; R298; reset empty -/
  remaps : List Remap := []
  /-- consecutive missed deadlines by entry; R315; reset 0 -/
  missRun : Sparse Nat := []
  /-- DEADLINE_MARGINAL; R334; reset 0 -/
  deadlineMarginal : Nat := 0
  /-- RESYNCS, RESYNC_ABORTS, GOLDEN_FAIL, SELFTEST_FAIL, DETECT_NS; R396; reset 0 -/
  resyncs : Nat := 0
  resyncAborts : Nat := 0
  goldenFail : Nat := 0
  selftestFail : Nat := 0
  detectNs : Nat := 0
  /-- the accounting records; R332; reset 0 -/
  acct : Sparse Acct := []
  /-- golden slots that drain, run, or wait for their check; R307, R389; reset none -/
  goldenSlots : List Nat := []
  /-- the engine makes no further release; R403, R515; reset false -/
  stopped : Bool := false
  /-- scale tables written back to packages at eviction, by model; R330; reset none -/
  scaleStore : Sparse Bytes := []
  deriving DecidableEq, Repr

/-! ## The context table and KV pages -/

/-- STATE of a context, R166, in code order. -/
inductive CtxState where
  | free | joining | resident | blocked | swappingOut | swapped | swappingIn | ended
  deriving DecidableEq, Repr

/-- A page handle, R170: a Lake page by channel and index, or a swap page. -/
inductive Page where
  | lake (ch : BitVec 6) (index : Nat)
  | swap (index : Nat)
  deriving DecidableEq, Repr

/-- A context-table entry, R165, with the block rows that its block table names. -/
structure Ctx where
  st : CtxState := .free
  part : BitVec 4 := 0
  cls : Nat := 0
  prio : Nat := 0
  pinned : Bool := false
  kv : Bool := false
  forked : Bool := false
  leave : Bool := false
  modelId : Word := 0
  step : Word := 0
  positions : Nat := 0
  arrival : Nat := 0
  layers : Nat := 0
  kvHeads : Nat := 0
  split : Nat := 0
  blockTable : Nat := 0
  releaseAt : Nat := 0
  lastRun : Nat := 0
  parent : BitVec 18 := 0
  blockCap : Nat := 0
  endReason : Nat := 0
  /-- prompt positions of OPEN, still to be placed at admission -/
  prompt : Nat := 0
  /-- the block table's rows; R172 -/
  rows : List (List Page) := []
  /-- the blocked mark kept outside the entry; R325 -/
  marked : Bool := false
  /-- BLOCK and UNBLOCK that take effect at the next boundary; R325 -/
  wantBlock : Option Nat := none
  wantUnblock : Bool := false
  /-- positions that the step in progress appends; R180 -/
  appending : Nat := 0
  /-- the context takes part in the step in progress -/
  inStep : Bool := false
  /-- the rows after the swap-in in progress; R198 -/
  incoming : List (List Page) := []
  /-- the pages that a running swap-out copies, R196; reset none -/
  outgoing : List Page := []
  deriving DecidableEq, Repr

/-- A step boundary that waits for a swap-out to land, R191. -/
structure Boundary where
  part : Nat
  model : Word
  appends : List (BitVec 18 × Nat)
  /-- step 3 has begun -/
  joining : Bool := false
  /-- the plan of step 2: context and pages -/
  plan : List (Nat × Nat) := []
  /-- contexts swapped out at this boundary -/
  swapped : List Nat := []
  /-- joiners already refused or skipped, and the priorities refused -/
  considered : List Nat := []
  refused : List Nat := []
  /-- joiners admitted at this boundary, with the pages kept for the row that each copies, R178 -/
  joined : List (Nat × Nat) := []
  /-- pages by which the tightest node that holds the model has fewer free than this one, R190 -/
  short : Nat := 0
  /-- the nodes that the leader's decision goes to, R190 -/
  nodes : List (BitVec 3) := []
  /-- what the boundary has decided so far -/
  dec : StepDecision
  /-- the boundary applies a decision of the leader -/
  given : Bool := false
  deriving DecidableEq, Repr

/-- The snapshot for a replay, R47: the model and the step's instant, the bytes of its scale table with the histories, the context table, and
the bytes of the KV pages in use that are not zero. -/
structure Snapshot where
  model : Word
  time : Nat
  scales : List Host.Cell
  table : Sparse Ctx
  pages : List Host.Cell
  deriving DecidableEq, Repr

/-- The context side of the schedule engine, R163 to R199. -/
structure Contexts where
  /-- the context table, entries that are not FREE; R163; reset all FREE -/
  table : Sparse Ctx := []
  /-- next ARRIVAL per partition; R165; reset 0 -/
  arrivals : Sparse Nat := []
  /-- Lake pages in use with their owner partition and count, page number channel * 2^25 + index; R176; reset none -/
  pages : Sparse (Nat × Nat) := []
  /-- swap pages in use, with their partition; R196; reset none -/
  swapPages : Sparse Nat := []
  /-- boundaries that wait for a swap-out; R191; reset none -/
  boundaries : List Boundary := []
  /-- LEAVE, BLOCK and UNBLOCK commands that complete later: context, part, seq, opcode; R319 -/
  waiters : List (BitVec 18 × BitVec 4 × Word × Nat) := []
  /-- partitions whose step is held for the leader's decision; R190 -/
  heldSteps : List (BitVec 4 × Word) := []
  /-- steps that wait for the leader's decision: partition, model, since when; R190; reset none -/
  awaiting : List (BitVec 4 × Word × Nat) := []
  /-- SWAP_OUTS, SWAP_INS, COW_COPIES, CTX_ENDS, KV_SPILLS; R199; reset 0 -/
  swapOuts : Nat := 0
  swapIns : Nat := 0
  cowCopies : Nat := 0
  ctxEnds : Nat := 0
  kvSpills : Nat := 0
  /-- the snapshot taken at the last step boundary; R47; reset none -/
  snapshot : Option Snapshot := none
  deriving DecidableEq, Repr

/-! ## The Spring -/

/-- How a sample ended, R211, in REASON order (0 valid). -/
abbrev Reason := Nat

/-- A sample the Spring holds, R204 to R207. -/
structure Sample where
  stream : BitVec 7
  seq : Word
  capture : Nat
  /-- stamp of the frame start, first segment or codeword that opened the sample -/
  openedAt : Nat
  /-- UDP: sample id, segment count and segments arrived -/
  sid : Word := 0
  count : Nat := 0
  segs : Sparse Bytes := []
  /-- camera: lines received -/
  lines : Nat := 0
  complete : Bool := false
  reason : Reason := 0
  /-- payload, or decoded records -/
  data : Bytes := []
  /-- decode finished (or none needed) -/
  settled : Bool := false
  /-- completion stamp -/
  doneAt : Nat := 0
  /-- records of a void -/
  nrec : Nat := 0
  deriving DecidableEq, Repr

/-- Run time of a stream, R201 to R234: next number, open camera sample, counters in STREAM_CNT order, decode times. -/
structure StreamRt where
  next : Word := 0
  counters : Sparse Nat := []
  /-- durations of the last 256 completed decodes; R221 -/
  decodes : List Nat := []
  /-- the ROI set in force: FRAME and the entries' 32 bytes each; R216 -/
  rois : List Bytes := []
  /-- the frame in progress lies before RUN_FRAME0 and is discarded without a number; R207 -/
  dropLines : Bool := false
  /-- ids of UDP samples discarded because they lie before RUN_FRAME0, newest first, at most 16; R207 -/
  dropped : List Word := []
  deriving DecidableEq, Repr

/-- A payload decoder, R220: the sample it works on, its start stamp and its budget. -/
structure Decoder where
  stream : BitVec 7
  seq : Word
  start : Nat
  budget : Nat
  deriving DecidableEq, Repr

/-- A batch between close and record, R208 to R212: slots with stream, reason, sequence number and capture. -/
structure BatchRt where
  /-- close stamp (store mode: assembly end) while the record is due -/
  closedAt : Option Nat := none
  /-- close stamp of the last close; reset none, before the first -/
  lastClose : Option Nat := none
  /-- BATCH and EPOCH of the record -/
  frame : Nat := 0
  epoch : Nat := 0
  slots : List (Nat × Reason × Word × Nat) := []
  /-- last k written to BATCH_NEXT; R224 -/
  lastK : Option Word := none
  deriving DecidableEq, Repr

/-- The Spring, R200 to R234. -/
structure Spring where
  /-- stream run time by stream; reset 0 -/
  streams : Sparse StreamRt := []
  /-- samples held, in order of opening; reset none -/
  samples : List Sample := []
  /-- the two decoders; R220; reset idle -/
  decoders : List (Option Decoder) := [none, none]
  /-- batches; reset none open -/
  batches : Sparse BatchRt := []
  /-- next sequence number of the Spring's outbound stream per consumer (TARGET); R215; reset 0 -/
  outSeq : Sparse Word := []
  /-- stamp of the last landing on the ROI header of a stream; R217; reset none -/
  roiLanded : Sparse Nat := []
  /-- UNMATCHED counters of doors C0-C7; R203; reset 0 -/
  unmatched : Sparse Nat := []
  /-- SPRING_MARGINAL; R233; reset 0 -/
  marginal : Nat := 0
  /-- violations by origin; R232; reset empty -/
  viols : List Viol := []
  /-- closes no further batch; R403, R515; reset false -/
  stopped : Bool := false
  deriving DecidableEq, Repr

/-! ## The radio -/

/-- A receive link, R242. -/
inductive LinkSt where
  | down | aligning | up
  deriving DecidableEq, Repr

/-- A radio door W0 or W1, R240 to R244 and R286. -/
structure RadioDoor where
  /-- the receive link; R242; reset DOWN -/
  link : LinkSt := .down
  /-- sync headers locked and multiblock aligned, waiting for SYSREF; R242 -/
  aligned : Bool := false
  /-- T_S, the stamped SYSREF edge; R241; reset none -/
  ts : Option Nat := none
  /-- TX_LIST has run and RX_LIST is due at the end of the last slot; R244; reset false -/
  transmitting : Bool := false
  /-- end of the list that runs; R244; reset 0 -/
  listEnd : Nat := 0
  /-- OS transfers waiting for a list to end; R244; reset empty -/
  spiQueue : List Bytes := []
  /-- stops transmitting at its next slot boundary; R403, R515; reset false -/
  txStopped : Bool := false
  /-- own transmissions that the door's carriers may still meet: carrier, slot and its symbols; R278; reset empty -/
  sent : List (Nat × Nat × Nat) := []
  deriving DecidableEq, Repr

/-- A soft buffer of a carrier that is in use, R271, R272: its number, its key (NR: source, destination, process; LTE: slot of
the retransmission, first subchannel, 0), NDI, and when it was last used. Its LLRs lie in the Lake. -/
structure Harq where
  idx : Nat
  key : Nat × Nat × Nat
  ndi : Nat
  lastUse : Nat
  deriving DecidableEq, Repr

/-- What the front end holds of one slot, for its slot record (R256) and its codewords. -/
structure SlotRt where
  /-- slot number n, R245 -/
  n : Nat
  /-- GI, frozen, settled; R254, R255 -/
  gi : Nat
  frozen : Bool := false
  settled : Bool := false
  /-- a settle wait runs; R254 -/
  settling : Bool := false
  /-- flags LOST, IMPAIRED, TX, DETECT, AGC_UNSETTLED -/
  lost : Bool := false
  impaired : Bool := false
  tx : Bool := false
  detect : Bool := false
  unsettled : Bool := false
  /-- samples at full scale, CLIP -/
  clip : Nat := 0
  /-- RSSI_SYNC, DET_M, DET_CHIP; R252, R253 -/
  rssiSync : Option Int := none
  detM : Nat := 0
  detChip : Nat := 0
  /-- symbols blanked by own transmission, TX_SYM; R278 -/
  txSym : Nat := 0
  /-- weight bank of the slot; R260 -/
  bank : Nat
  /-- GRID_SEQ of symbol 0, and symbols written so far -/
  gridSeq : Word
  symbols : Nat := 0
  /-- TB_STATE was 2 when the slot began; R248 -/
  synced : Bool := false
  deriving DecidableEq, Repr

/-- A transmit descriptor that was accepted, R276. -/
structure Tx where
  slot : Nat
  bytes : Bytes
  encoded : Bool := false
  /-- the scrambled coded bits of the channels encoded so far; R276 -/
  coded : List (Nat × List Bool) := []
  deriving DecidableEq, Repr

/-- Feedback due in a PSFCH occasion, R274, R275: slot, priority value, first subchannel, ACK. -/
structure Feedback where
  slot : Nat
  prio : Nat
  subch : Nat
  ack : Bool
  deriving DecidableEq, Repr

/-- A carrier instance, R237 to R288. -/
structure Carrier where
  /-- switched on in CARRIER_ON; R242, R288; reset off -/
  on : Bool := false
  /-- a slot has begun since the carrier was switched on; samples before it are discarded; R242; reset false -/
  live : Bool := false
  /-- RX_BANK; R288; reset 0 (P) -/
  bank : Nat := 0
  /-- RX_VERDICT; R288; reset 0 -/
  verdict : Nat := 0
  /-- the submitted CRC and bank; R282; reset none -/
  candidate : Option (Word × Nat) := none
  /-- verdict instant of a passed candidate whose swap is pending; R284; reset none -/
  swapAfter : Option Nat := none
  /-- a revert takes effect at the next slot boundary; R285; reset false -/
  revert : Bool := false
  /-- the number of the slot whose boundary passed last; R247; reset none -/
  lastSlot : Option Nat := none
  /-- the slot in progress and the slots before it, newest first, at most 16; reset none -/
  slots : List SlotRt := []
  /-- samples per slot seen at the last boundary; R247; reset none -/
  lastSamples : Option Nat := none
  /-- GI frozen in the previous slot, none when it was lost or transmitted; R254; reset none -/
  prevGi : Option Nat := none
  /-- chip of the slot before which no detection starts; R252; reset 0 -/
  noDetBefore : Nat := 0
  /-- next number of the grid stream, and of the slot SIGNALs; R256; reset 0 -/
  gridSeq : Word := 0
  signalSeq : Word := 0
  /-- RADIO_CNT in its order, 22 counters; R288; reset 0 -/
  counters : Sparse Nat := []
  /-- next index of the report ring, transmit report ring and replay ring; R269, R276, R279; reset 0 -/
  reportNext : Nat := 0
  txReportNext : Nat := 0
  replayNext : Nat := 0
  /-- codewords whose label is due: CW_SEQ and replay index; R280; reset empty -/
  labels : List (Word × Nat) := []
  /-- accepted descriptors; R277; reset empty -/
  txs : List Tx := []
  /-- soft buffers in use; R271; reset empty -/
  harq : List Harq := []
  /-- feedback due; R274; reset empty -/
  feedback : List Feedback := []
  /-- d of the DC removal, I and Q of antenna 0, then of antenna 1; R249; reset 0: log 3 -/
  dc : List Int := [0, 0, 0, 0]
  /-- interface samples received, and those of the latest symbol, which the filters still hold; R249; reset 0, empty -/
  rxCount : Nat := 0
  rxTail : Bytes := []
  /-- PSSCH blocks that passed and wait for codewords with an earlier CW_SEQ: job and payload; R207, R279; reset empty -/
  passed : List (Bytes × Bytes) := []
  deriving DecidableEq, Repr

/-- A decoder engine, trellis or block, R261 to R267. -/
structure Engine where
  /-- next JOB_SEQ expected; R261; reset 0 -/
  next : Word := 0
  /-- landed jobs not admitted; R261; reset empty -/
  landed : List Bytes := []
  /-- the pending set, at most 64; R261; reset empty -/
  pending : List Bytes := []
  /-- the job in service, its start stamp; R262; reset none -/
  running : Option (Bytes × Nat) := none
  /-- share left per carrier in ns; R262; reset 0 -/
  share : List Nat := [0, 0, 0, 0]
  deriving DecidableEq, Repr

/-- The radio, R235 to R291. -/
structure Radio where
  doors : List RadioDoor := [{}, {}]
  carriers : List Carrier := [{}, {}, {}, {}]
  /-- trellis (0) and block (1) engine -/
  engines : List Engine := [{}, {}]
  /-- RADIO_MARGINAL; R288; reset 0 -/
  marginal : Nat := 0
  /-- violations by door; R287; reset empty -/
  viols : List Viol := []
  deriving DecidableEq, Repr

/-! ## Memory, Shutters and Louvres -/

/-- A Lake channel, R338 to R355. -/
structure LakeCh where
  /-- LK_STATE: 0 normal, 1 hot, 2 FAILED, 3 withdrawn; R368; reset 0 -/
  state : Nat := 0
  /-- training attempts that failed; trained; R346; reset 0, false -/
  attempts : Nat := 0
  trained : Bool := false
  /-- open row per bank; R342; reset all closed -/
  openRow : Sparse Nat := []
  /-- refreshes postponed per bank; R344; reset 0 -/
  postponed : Sparse Nat := []
  /-- issued commands in the retry buffer, issue stamp and address, at most 16; R345; reset empty -/
  retryBuf : List (Nat × Nat) := []
  /-- alerts met in a row by the oldest command; R345; reset 0 -/
  alerts : Nat := 0
  /-- correction counts per unit, oldest entry first, at most 32; R353; reset empty -/
  ceTable : List (Nat × Nat) := []
  /-- retired units and their reserve slots; R354; reset empty -/
  remap : List (Nat × Nat) := []
  /-- the unit being copied, and units that wait; R354; reset none -/
  copying : Option Nat := none
  waiting : List Nat := []
  /-- LK_CNT: CE, UE, POISON_READ, CA_REPLAY, REF_FORCED, RETIRED, RETIRE_FULL; R368; reset 0 -/
  counters : Sparse Nat := []
  deriving DecidableEq, Repr

/-- An enabled Shutter region as loaded, R363. -/
structure Region where
  base : Word64 := 0
  limit : Word64 := 0
  rights : Word64 := 0
  refused : Nat := 0
  deriving DecidableEq, Repr

/-- The run time of a Louvre, R365 to R367. -/
structure Louvre where
  reserve : Nat := 0
  limit : Nat := 256
  burst : Nat := 64
  bytes : Nat := 0
  held : Nat := 0
  deriving DecidableEq, Repr

/-- The token buckets of one partition at one target, R365, in 1/512 of a token, at an instant. -/
structure Bucket where
  reserve : Nat
  limit : Nat
  stamp : Nat
  deriving DecidableEq, Repr

/-- The memory system, R335 to R368. -/
structure Mem where
  /-- bytes that differ from 0x00, by physical address; R43, R336, R346, R359; reset nothing listed -/
  data : List Host.Cell := []
  /-- words whose stored check bits differ from the computed ones, by word number: their XOR (bit 7: the LPDDR check byte's bit 7, R357); R347, R349; reset none -/
  synd : Sparse (BitVec 8) := []
  /-- the zero-fill of the Ponds and of the Reservoir has finished; R336; reset false -/
  pondReady : Bool := false
  reservoirReady : Bool := false
  /-- accesses that wait for initialisation or a copy; R336, R354, R359; reset empty -/
  waiting : List Access := []
  /-- Lake channels L0-L63; reset as LakeCh -/
  lake : Sparse LakeCh := []
  /-- LP_INSTALLED in bytes, LP_TOP, LP_INIT_MARK; R357, R359, R368; set at boot, 0 before: log 3 -/
  lpInstalled : Nat := 0
  lpTop : Nat := 0
  lpMark : Nat := 0
  /-- groups initialised out of order above the mark; R359; reset none -/
  lpAhead : List Nat := []
  /-- failed training attempts of M0-M3; R359; reset 0 -/
  lpAttempts : List Nat := [0, 0, 0, 0]
  /-- the check cache lines of each channel, oldest first, at most 32; R358; reset empty -/
  lpCache : Sparse (List Nat) := []
  /-- LPDDR contents are kept through standby (self-refresh); R515; reset false -/
  lpSelfRefresh : Bool := false
  /-- LP_CNT of M0-M3, channel * 3 + (CE, UE, POISON_READ); R368; reset 0 -/
  lpCounters : Sparse Nat := []
  /-- SRAM_CE and SRAM_UE; R368; reset 0 -/
  sramCe : Nat := 0
  sramUe : Nat := 0
  /-- SH_CTL.ENFORCE and LOCKED; R363; reset 0 -/
  enforce : Bool := false
  locked : Bool := false
  /-- SH_VIOL_ADDR, SH_VIOL_SRC, SH_VIOL_CNT; R363; reset 0 -/
  violAddr : Word64 := 0
  violSrc : Word64 := 0
  violCnt : Nat := 0
  /-- regions 0-127; R363; reset 0 -/
  regions : Sparse Region := []
  /-- Louvres, 4p + t; R365; reset 0, 256, 64 -/
  louvres : Sparse Louvre := []
  /-- buckets by (tier * 64 + target) * 16 + partition; R365; a bucket not listed is full: log 10 -/
  buckets : Sparse Bucket := []
  deriving DecidableEq, Repr

/-! ## The fabric -/

/-- A Galron link, R422 to R427 and R443. -/
structure FabLink where
  /-- STATE: 0 DOWN, 1 TRAINING, 2 UP, 3 QUARANTINED, 4 MISMATCH; R443; reset 0 -/
  state : Nat := 0
  /-- PEER; R443: all zero at reset -/
  peer : Nat := 0
  /-- PEER_IDENT; R443; reset 0 -/
  peerIdent : Word64 := 0
  /-- the HELLO received on the up link; R440 -/
  hello : Option Hello := none
  /-- LSEQ of the next DATA flit sent and expected; R424; reset 0 -/
  txSeq : BitVec 16 := 0
  rxSeq : BitVec 16 := 0
  /-- the retry buffer, oldest first: LSEQ and send stamp, at most 128; R426; reset empty -/
  retry : List (BitVec 16 × Nat) := []
  /-- resends of the oldest flit without the ACK moving; R427; reset 0 -/
  resends : Nat := 0
  /-- stamps of resend events within 1 ms, of downs within 1 s; R427; reset empty -/
  replayStamps : List Nat := []
  downStamps : List Nat := []
  /-- retrains failed in a row; R427; reset 0 -/
  trainFails : Nat := 0
  /-- the link retrains or carries test flits after quarantine; R427; reset false -/
  testing : Bool := false
  /-- when the quarantine or its test flits began, and when the last valid flit came; R427; reset 0 -/
  quarAt : Nat := 0
  heard : Nat := 0
  /-- transactions that wait for credit or for the retry buffer: VC, hop class; R425; reset empty -/
  queue : List (Txn × Nat × Nat) := []
  /-- returns from quarantine this boot; R427; reset 0 -/
  returns : Nat := 0
  /-- credits held per VC * 4 + hop class; R425; reset 64 each -/
  credits : List Nat := List.replicate 12 64
  /-- after a discarded flit, flits are discarded up to the in-order one; R426 -/
  nakSent : Bool := false
  /-- counters FLITS_TX, FLITS_RX, CRC_ERR, REPLAYS, RETRAINS, QUARANTINES, E2E_DUP, E2E_REPLAYED, VIOL, THROTTLED -/
  counters : Sparse Nat := []
  deriving DecidableEq, Repr

/-- The end-to-end state towards and from one node, per VC, R430. -/
structure E2E where
  /-- next number to send, and copies not covered; reset 0, empty -/
  next : Word := 0
  copies : List Txn := []
  /-- transactions not issued while 512 are unacknowledged or the buffer is full; reset empty -/
  held : List Txn := []
  /-- next number to deliver, transactions that arrived ahead, deliveries since the last E2E_ACK -/
  expect : Word := 0
  ahead : List Txn := []
  since : Nat := 0
  deriving DecidableEq, Repr

/-- The fabric, R422 to R443. -/
structure Fabric where
  /-- FAB_NODE_ID; R442; reset 0 -/
  nodeId : BitVec 3 := 0
  /-- FAB_STATE; R442; reset 0 -/
  state : Nat := 0
  /-- FAB_NODES; R442; reset 0x01 -/
  nodes : Byte := 1
  /-- FAB_MARGINAL; R442; reset 0 -/
  marginal : Nat := 0
  links : List FabLink := [{}, {}, {}]
  /-- end-to-end state, node * 2 + VC; reset as E2E -/
  e2e : Sparse E2E := []
  /-- the link-state database; R432; reset empty -/
  db : List LinkStateRec := []
  /-- stamp of the last change of a link state, and of the first link up; R432, R435; reset none -/
  lastChange : Option Nat := none
  firstUp : Option Nat := none
  /-- FAB_ROUTE of nodes 0-7; R442; reset 0xFF -/
  routes : List Byte := List.replicate 8 0xFF
  /-- nodes that raised ROUTE_LOST; R438; reset none -/
  lostNodes : Byte := 0
  /-- node ids by IDENT, as assigned by R433; reset empty -/
  ids : List (Word64 × BitVec 3) := []
  /-- outstanding READs: tag, initiator, address; the next tag; R429; reset empty, 0 -/
  reads : List (BitVec 16 × Initiator × Nat) := []
  nextTag : BitVec 16 := 0
  /-- violations by source node; R441; reset empty -/
  viols : List Viol := []
  /-- open packets of writes: source node, SRCID, OUT and SSEQ, with the bytes landed; R429; reset empty -/
  packets : List ((Nat × Nat × Nat × Nat) × Nat) := []
  deriving DecidableEq, Repr

/-! ## Power and temperature -/

/-- Active, in standby, or off, R508. -/
inductive PwrState where
  | active | standby | off
  deriving DecidableEq, Repr

/-- Power and thermal management, R508 to R525. -/
structure Power where
  state : PwrState := .active
  /-- PWR_STATE_REQ whose entry is due; R515; reset none -/
  req : Option Bool := none
  /-- a WAKE_IN edge held until STBY_REQ has risen; R516; reset false -/
  wakeHeld : Bool := false
  /-- when STBY_REQ rose; R516; reset 0 -/
  stbyAt : Nat := 0
  /-- PWR_NOW in mW; R525; reset 0 -/
  estimate : Nat := 0
  /-- the correction of R517 in mW; reset 0 -/
  correction : Int := 0
  /-- throttle level, CAP_STATE[3:0]; R518; reset 0 -/
  level : Nat := 0
  /-- CAP_STATE[4]; R518; reset 0 -/
  unmet : Bool := false
  /-- since when the estimate has been at or below the cap less 2 W; R518; reset none -/
  lowSince : Option Nat := none
  /-- the thermal cap in W; R522; reset none -/
  thermalCap : Option Nat := none
  /-- stamp of the last step of the thermal cap; R522 -/
  lastStep : Nat := 0
  /-- RATED_FLOOR_W; R520; reset 0 -/
  floor : Nat := 0
  /-- CAP_EVENTS and THROTTLE_NS; R525; reset 0 -/
  capEvents : Nat := 0
  throttleNs : Nat := 0
  /-- ENERGY_TOTAL in nanojoules; R525; reset 0 -/
  energy : Nat := 0
  /-- TEMP_DIE and TEMP_LAKE in 1/16 degC, TJ_MAX_NOW, TJ_PEAK; R525; reset 0 -/
  die : List Int := List.replicate 40 0
  lake : List Int := List.replicate 8 0
  tjMax : Int := 0
  tjPeak : Int := 0
  /-- failed die and Lake sensors (0-39, 40-47), and runs of deviating samples; R523; reset none -/
  failed : List Nat := []
  deviating : Sparse Nat := []
  /-- thresholds already reported: T110, T118, T125 -/
  reported : Nat := 0
  /-- AVS_STATE; R525; reset 0 -/
  avs : Nat := 0
  /-- consecutive AVSBus failures of rails 0 and 1; R514; reset 0 -/
  avsFails : List Nat := [0, 0]
  /-- band in force; R513; reset 0 -/
  band : Nat := 0
  /-- TARGET_MV of rails 0 and 1: boot voltage; R508 -/
  target : List Nat := [800, 850]
  /-- CURRENT_MA of rails 0 and 1; R525; reset 0 -/
  current : List Nat := [0, 0]
  /-- WARN and OUT counts of rails 0-8; R525; reset 0 -/
  warn : Sparse Nat := []
  out : Sparse Nat := []
  /-- application cores at reduced clock: 0 2.0 GHz, 1 1.5 GHz, 2 1.0 GHz; R518 -/
  appClock : Nat := 0
  deriving DecidableEq, Repr

/-! ## The whole block -/

/-- Why a step stops with a fault. -/
inductive Fault where
  /-- Raised by `idle` when device time would pass 2^64 ns, which R27 says does not happen within the mission profile. Safe. -/
  | deviceTimeEnd
  deriving DecidableEq, Repr

/-- Why a step refuses a command. -/
inductive Refusal where
  /-- Raised by the dispatch for a command without a meaning yet. Safe. -/
  | notModelled (mnemonic : String)
  deriving DecidableEq, Repr

/-- The state of the block: its units, what it has logged and sent, and the queue of waiting commands. -/
structure State where
  tb : Timebase := {}
  pins : Pins := {}
  fc : Collector := {}
  isl : Island := {}
  flash : Flash := {}
  boot : Boot := {}
  sec : Security := {}
  dict : Dict := {}
  cores : List Core := List.replicate 64 {}
  sched : Sched := {}
  ctx : Contexts := {}
  spring : Spring := {}
  radio : Radio := {}
  mem : Mem := {}
  fab : Fabric := {}
  pwr : Power := {}
  /-- event sequence counters by local source; R25; reset 0 -/
  evSeq : Sparse Nat := []
  /-- the event records written, newest last; R25; reset empty -/
  events : List Event := []
  /-- what the block has sent, newest last; reset empty -/
  sent : List Emission := []
  /-- the model's own counter that indexes fresh free values; DESIGN CHOICE 0, log 2 -/
  fresh : Nat := 0
  /-- commands that wait, first in first out; reset empty -/
  pending : List Instr := []
  deriving DecidableEq, Repr

/-- The block right after reset: PORST_N low, nothing done. -/
def State.reset : State := {}

end Sys2Proof.Machine
end

