-- ==== Sys2Proof/Machine/Operands.lean ====
section
/-! DEFINITION. How operands are read: bit fields, little-endian byte strings, sparse tables, serial numbers, CRCs. -/

namespace Sys2Proof.Machine

/-! ## Bit fields and byte strings -/

/-- Bits [hi:lo] of a number. -/
def bits (v hi lo : Nat) : Nat := v / 2 ^ lo % 2 ^ (hi + 1 - lo)

/-- Bit i of a number. -/
def bit (v i : Nat) : Bool := v / 2 ^ i % 2 == 1

/-- The parity of the low n bits of a number. -/
def parityOf : Nat → Nat → Bool
  | 0, _ => false
  | n + 1, v => (v % 2 == 1) != parityOf n (v / 2)

/-- A field value placed at bit lo. -/
def place (v lo : Nat) : Nat := v * 2 ^ lo

/-- A flag placed at bit i. -/
def flagAt (b : Bool) (i : Nat) : Nat := if b then 2 ^ i else 0

/-- The number with bit i set to b. -/
def withBit (v i : Nat) (b : Bool) : Nat := v - flagAt (bit v i) i + flagAt b i

/-- A two's complement field of w bits as an integer. -/
def signed (w v : Nat) : Int := if v % 2 ^ w < 2 ^ (w - 1) then (v % 2 ^ w : Nat) else (v % 2 ^ w : Nat) - (2 ^ w : Nat)

/-- An integer as a w-bit two's complement number. -/
def unsigned (w : Nat) (i : Int) : Nat := (i % (2 ^ w : Nat)).toNat

/-- A little-endian byte string as a number, R445. -/
def leNat : Bytes → Nat
  | [] => 0
  | b :: bs => b.toNat + 256 * leNat bs

/-- A number as n little-endian bytes, R445. -/
def leBytes : Nat → Nat → Bytes
  | 0, _ => []
  | n + 1, v => BitVec.ofNat 8 v :: leBytes n (v / 256)

/-- A big-endian byte string as a number. -/
def beNat (bs : Bytes) : Nat := bs.foldl (fun a b => a * 256 + b.toNat) 0

/-- A number as n big-endian bytes. -/
def beBytes (n v : Nat) : Bytes := (leBytes n v).reverse

/-- n bytes from offset off, missing bytes read 0. -/
def slice (bs : Bytes) (off n : Nat) : Bytes := (bs.drop off).take n

/-- The little-endian field of n bytes at offset off of a record. -/
def fieldAt (bs : Bytes) (off n : Nat) : Nat := leNat (slice bs off n)

/-- The bytes with the string bs placed at offset off. -/
def pasteAt (old : Bytes) (off : Nat) (bs : Bytes) : Bytes :=
  old.take off ++ List.replicate (off - old.length) 0 ++ bs ++ old.drop (off + bs.length)

/-- n bytes exactly: cut, or filled with zeros. -/
def fitBytes (n : Nat) (bs : Bytes) : Bytes := bs.take n ++ List.replicate (n - bs.length) 0

/-- Every byte of the string is zero. -/
def allZero (bs : Bytes) : Bool := bs.all (· == 0)

/-- The bits of a mask, lowest first. -/
def maskList (w v : Nat) : List Nat := (List.range w).filter (bit v)

/-- The mask with the listed bits set. -/
def listMask (l : List Nat) : Nat := l.foldl (fun m i => if bit m i then m else m + 2 ^ i) 0

/-- Integer clamped to a range. -/
def clamp (lo hi i : Int) : Int := max lo (min hi i)

/-! ## Sparse tables: keys rising, no entry equal to the default -/

/-- The value listed for a key. -/
def sfind {α : Type} : Sparse α → Nat → Option α
  | [], _ => none
  | (k, v) :: t, i => if i = k then some v else sfind t i

/-- The value of a key, the default where nothing is listed. -/
def sget {α : Type} (d : α) (m : Sparse α) (i : Nat) : α := (sfind m i).getD d

/-- The table with a value listed for a key. -/
def sput {α : Type} : Sparse α → Nat → α → Sparse α
  | [], i, v => [(i, v)]
  | (k, w) :: t, i, v =>
    if i < k then (i, v) :: (k, w) :: t
    else if i = k then (i, v) :: t
    else (k, w) :: sput t i v

/-- The table with nothing listed for a key. -/
def sdel {α : Type} : Sparse α → Nat → Sparse α
  | [], _ => []
  | (k, w) :: t, i => if i = k then sdel t i else (k, w) :: sdel t i

/-- The table with a value written: the default is not listed. -/
def sset {α : Type} [DecidableEq α] (d : α) (m : Sparse α) (i : Nat) (v : α) : Sparse α :=
  if v = d then sdel m i else sput m i v

/-- The table with the value of a key changed by a function. -/
def supd {α : Type} [DecidableEq α] (d : α) (m : Sparse α) (i : Nat) (f : α → α) : Sparse α :=
  sset d m i (f (sget d m i))

/-- The table with 1 added at a key. -/
def sinc (m : Sparse Nat) (i : Nat) : Sparse Nat := supd 0 m i (· + 1)

/-- The canonical form: keys strictly rising and no listed default. -/
def sparseWf {α : Type} [DecidableEq α] (d : α) : Sparse α → Bool
  | [] => true
  | [(_, v)] => decide (v ≠ d)
  | (k, v) :: (k', v') :: t => decide (k < k') && decide (v ≠ d) && sparseWf d ((k', v') :: t)

/-! ## Lists of a fixed number of like things -/

/-- Element i changed by a function. -/
def updAt {α : Type} (l : List α) (i : Nat) (f : α → α) : List α := l.modify i f

/-- Element i set. -/
def setAt {α : Type} (l : List α) (i : Nat) (v : α) : List α := l.set i v

/-! ## Serial numbers, R22 and R27 -/

/-- a is after b in 32-bit serial arithmetic, R22. -/
def serialAfter (a b : Word) : Bool := decide (0 < (a - b).toNat) && decide ((a - b).toNat ≤ 2 ^ 31 - 1)

/-- a and b are not comparable, R22. -/
def serialUnordered (a b : Word) : Bool := (a - b).toNat == 2 ^ 31

/-- a is before b in 48-bit serial arithmetic, R27. -/
def serialBefore48 (a b : Nat) : Bool :=
  decide (0 < (b + 2 ^ 48 - a) % 2 ^ 48) && decide ((b + 2 ^ 48 - a) % 2 ^ 48 < 2 ^ 47)

/-- The merge order of event records, R27. -/
def eventBefore (a b : Event) : Bool :=
  if a.time ≠ b.time then decide (a.time < b.time)
  else if a.source ≠ b.source then decide (a.source < b.source)
  else serialBefore48 a.seq b.seq

/-! ## CRCs -/

/-- One bit of a reflected CRC with the given polynomial. -/
def crcStep (poly c : Nat) : Nat := if c % 2 = 1 then (c / 2) ^^^ poly else c / 2

/-- n bits of a reflected CRC. -/
def crcSteps (poly : Nat) : Nat → Nat → Nat
  | 0, c => c
  | n + 1, c => crcSteps poly n (crcStep poly c)

/-- CRC-32C (Castagnoli), init and final XOR all ones, R81 and R455. PRESUMED, log 25: the name's own standard form. -/
def crc32c (bs : Bytes) : Nat :=
  (bs.foldl (fun c b => crcSteps 0x82F63B78 8 (c ^^^ b.toNat)) 0xFFFFFFFF) ^^^ 0xFFFFFFFF

/-- One bit of the CRC-64 of ECMA-182, most significant bit first. -/
def crc64Step (c : Nat) : Nat := if 2 ^ 63 ≤ c then (c * 2 % 2 ^ 64) ^^^ 0x42F0E1EBA9EA3693 else c * 2

/-- n bits of the CRC-64. -/
def crc64Steps : Nat → Nat → Nat
  | 0, c => c
  | n + 1, c => crc64Steps n (crc64Step c)

/-- A byte string taken into a running CRC-64. -/
def crc64Add (c : Nat) (bs : Bytes) : Nat := bs.foldl (fun c b => crc64Steps 8 (c ^^^ (b.toNat * 2 ^ 56))) c

/-! ## SM3, R475, R484, R501. PRESUMED, log 25: the standard that the name stands for -/

/-- Rotation of a 32-bit word to the left. -/
def rotl32 (x : Word) (n : Nat) : Word := x.rotateLeft (n % 32)

/-- P0 of SM3. -/
def sm3P0 (x : Word) : Word := x ^^^ rotl32 x 9 ^^^ rotl32 x 17

/-- P1 of SM3. -/
def sm3P1 (x : Word) : Word := x ^^^ rotl32 x 15 ^^^ rotl32 x 23

/-- The message expansion of SM3, newest word first. -/
def sm3Expand : Nat → List Word → List Word
  | 0, w => w
  | n + 1, w =>
    sm3Expand n ((sm3P1 (w.getD 15 0 ^^^ w.getD 8 0 ^^^ rotl32 (w.getD 2 0) 15) ^^^ rotl32 (w.getD 12 0) 7 ^^^ w.getD 5 0) :: w)

/-- One round of SM3 on (A, B, C, D, E, F, G, H) as a list. -/
def sm3Round (w : List Word) (v : List Word) (j : Nat) : List Word :=
  let a := v.getD 0 0; let b := v.getD 1 0; let c := v.getD 2 0; let d := v.getD 3 0
  let e := v.getD 4 0; let f := v.getD 5 0; let g := v.getD 6 0; let h := v.getD 7 0
  let t : Word := if j < 16 then 0x79cc4519 else 0x7a879d8a
  let ss1 := rotl32 (rotl32 a 12 + e + rotl32 t j) 7
  let ss2 := ss1 ^^^ rotl32 a 12
  let ff := if j < 16 then a ^^^ b ^^^ c else (a &&& b) ||| (a &&& c) ||| (b &&& c)
  let gg := if j < 16 then e ^^^ f ^^^ g else (e &&& f) ||| (~~~e &&& g)
  let tt1 := ff + d + ss2 + (w.getD j 0 ^^^ w.getD (j + 4) 0)
  let tt2 := gg + h + ss1 + w.getD j 0
  [tt1, a, rotl32 b 9, c, sm3P0 tt2, e, rotl32 f 19, g]

/-- The compression of one 64-byte block. -/
def sm3Block (v : List Word) (blk : Bytes) : List Word :=
  let w0 := (List.range 16).map (fun i => BitVec.ofNat 32 (beNat (slice blk (4 * i) 4)))
  let w := (sm3Expand 52 w0.reverse).reverse
  List.zipWith (· ^^^ ·) v ((List.range 64).foldl (sm3Round w) v)

/-- n blocks of 64 bytes. -/
def sm3Blocks : Nat → List Word → Bytes → List Word
  | 0, v, _ => v
  | n + 1, v, bs => sm3Blocks n (sm3Block v (bs.take 64)) (bs.drop 64)

/-- SM3 of a byte string, 32 bytes. -/
def sm3 (bs : Bytes) : Bytes :=
  let pad := (119 - bs.length % 64) % 64
  let m := bs ++ [0x80] ++ List.replicate pad 0 ++ beBytes 8 (8 * bs.length)
  let iv : List Word := [0x7380166f, 0x4914b2b9, 0x172442d7, 0xda8a0600, 0xa96f30bc, 0x163138aa, 0xe38dee4d, 0xb0fb0e4e]
  ((sm3Blocks (m.length / 64) iv m).map (fun w => beBytes 4 w.toNat)).flatten

/-! ## SM2 verification, R484, R503, R504, R506. PRESUMED, log 25: the standard's curve and verification -/

/-- The prime of the SM2 curve. -/
def sm2p : Nat := 0xFFFFFFFEFFFFFFFFFFFFFFFFFFFFFFFFFFFFFFFF00000000FFFFFFFFFFFFFFFF
/-- Coefficient a. -/
def sm2a : Nat := sm2p - 3
/-- Coefficient b. -/
def sm2b : Nat := 0x28E9FA9E9D9F5E344D5A9E4BCF6509A7F39789F515AB8F92DDBCBD414D940E93
/-- The order of the base point. -/
def sm2n : Nat := 0xFFFFFFFEFFFFFFFFFFFFFFFFFFFFFFFF7203DF6B21C6052B53BBF40939D54123
/-- The base point. -/
def sm2g : Nat × Nat :=
  (0x32C4AE2C1F1981195F9904466A39C9948FE30BBFF2660BE1715A4589334C74C7,
   0xBC3736A2F4F6779C59BDCEE36B692153D0A9877CC62A474002DF32E52139F0A0)

/-- b to the power e modulo m, over f bits of e. -/
def powMod (m : Nat) : Nat → Nat → Nat → Nat
  | 0, _, _ => 1
  | f + 1, b, e => (if e % 2 = 1 then b else 1) * powMod m f (b * b % m) (e / 2) % m

/-- The inverse modulo the curve's prime. -/
def sm2inv (x : Nat) : Nat := powMod sm2p 256 (x % sm2p) (sm2p - 2)

/-- Point addition; none is the point at infinity. -/
def sm2add (u v : Option (Nat × Nat)) : Option (Nat × Nat) :=
  match u, v with
  | none, q => q
  | q, none => q
  | some (x1, y1), some (x2, y2) =>
    if x1 = x2 ∧ (y1 + y2) % sm2p = 0 then none
    else
      let l := if x1 = x2 then (3 * x1 * x1 + sm2a) * sm2inv (2 * y1) % sm2p
               else (y2 + sm2p - y1) * sm2inv (x2 + sm2p - x1) % sm2p
      let x3 := (l * l + 2 * sm2p - x1 - x2) % sm2p
      some (x3, (l * (x1 + sm2p - x3) + sm2p - y1) % sm2p)

/-- Scalar multiplication over f bits. -/
def sm2mul : Nat → Nat → Option (Nat × Nat) → Option (Nat × Nat)
  | 0, _, _ => none
  | f + 1, k, q =>
    let r := sm2mul f (k / 2) (sm2add q q)
    if k % 2 = 1 then sm2add q r else r

/-- The identity digest Z of a public key with the default identity 1234567812345678. -/
def sm2z (pub : Bytes) : Bytes :=
  sm3 ([0x00, 0x80, 0x31, 0x32, 0x33, 0x34, 0x35, 0x36, 0x37, 0x38, 0x31, 0x32, 0x33, 0x34, 0x35, 0x36, 0x37, 0x38]
    ++ beBytes 32 sm2a ++ beBytes 32 sm2b ++ beBytes 32 sm2g.1 ++ beBytes 32 sm2g.2 ++ fitBytes 64 pub)

/-- A signature (r, s, 64 bytes) over a 32-byte digest e under a 64-byte public key. -/
def sm2CheckDigest (pub sig e : Bytes) : Bool :=
  let r := beNat (slice sig 0 32)
  let t := beNat (slice sig 32 32)
  let x := beNat (slice pub 0 32)
  let y := beNat (slice pub 32 32)
  let k := (r + t) % sm2n
  decide (0 < r) && decide (r < sm2n) && decide (0 < t) && decide (t < sm2n) && decide (k ≠ 0)
    && decide (x < sm2p) && decide (y < sm2p)
    && decide (y * y % sm2p = (x * x * x + sm2a * x + sm2b) % sm2p)
    && match sm2add (sm2mul 256 t (some sm2g)) (sm2mul 256 k (some (x, y))) with
       | none => false
       | some (x1, _) => decide ((beNat e + x1) % sm2n = r)

/-- A signature over a message, with the identity digest in front. -/
def sm2Verify (pub sig msg : Bytes) : Bool := sm2CheckDigest pub sig (sm3 (sm2z pub ++ msg))

end Sys2Proof.Machine
end

