-- ==== Sys2Proof/Machine/Entries.lean ====
section
/-! DEFINITION. The object dictionary's entries as the spec's entry tables give them (R3, R41, R199, R233, R288, R334,
R368, R396, R421, R442, R478, R507, R525): address, type, access, gate, range and default. -/

namespace Sys2Proof.Machine

/-- One row of an entry table. Keys are index * 256 + sub-index. -/
structure Entry where
  /-- key of the first and of the last entry of the row, and the step between neighbours (1 by sub-index, 256 by index) -/
  first : Nat
  last : Nat
  stride : Nat
  /-- type code of R445 -/
  ty : Nat
  /-- the fixed length, or the maximum of a DOMAIN -/
  size : Nat
  /-- bits 2k and 2k + 1: r and w of F, L, S, Y, P at k = 0 to 4, R458 -/
  access : Nat
  /-- GATE of R458: 0 CONFIG only; 1 CONFIG, RUN and DEGRADED; 2 a rule of its own; 3 read-only -/
  gate : Nat
  lo : Nat
  hi : Nat
  /-- default value as a little-endian number -/
  dflt : Nat
  deriving DecidableEq, Repr

/-- The characters of a STRING entry as a little-endian number. -/
def strNat (t : String) : Nat := leNat (t.toList.map (fun c => BitVec.ofNat 8 c.toNat))

/-- Rows of the entry tables, part 1. -/
def entryTable1 : List Entry := [
  ⟨0x000001, 0x000001, 1, 9, 14, 0x155, 3, 0, 0, strNat "PZ880-A2-L8-B1"⟩ /- ORDER_CODE, R3 -/,
  ⟨0x000002, 0x000002, 1, 9, 2, 0x155, 3, 0, 0, strNat "B1"⟩ /- STEPPING, R3 -/,
  ⟨0x180001, 0x180001, 1, 2, 1, 0x17d, 0, 0, 3, 0⟩ /- GPTP_PORT, R41 -/,
  ⟨0x180002, 0x180002, 1, 2, 1, 0x155, 3, 0, 255, 0⟩ /- TB_STATE, R41 -/,
  ⟨0x180003, 0x180003, 1, 6, 4, 0x155, 3, 0, 4294967295, 0⟩ /- TB_OFFSET, R41 -/,
  ⟨0x200001, 0x200001, 1, 3, 2, 0x17d, 0, 80, 400, 132⟩ /- FRAME_TICKS, R38, R41 -/,
  ⟨0x200002, 0x200002, 1, 8, 8, 0x17d, 0, 0, 18446744073709551615, 0⟩ /- FRAME_ORIGIN, R41 -/,
  ⟨0x200003, 0x200003, 1, 5, 8, 0x155, 3, 0, 18446744073709551615, 0⟩ /- RUN_FRAME0, R41 -/,
  ⟨0xa01001, 0xa01001, 1, 5, 8, 0x155, 3, 0, 18446744073709551615, 0⟩ /- MARGINAL_TOTAL, R41 -/,
  ⟨0x310001, 0x310001, 1, 5, 8, 0x155, 3, 0, 18446744073709551615, 0⟩ /- CTX_TABLE_BASE, R199 -/,
  ⟨0x310002, 0x310002, 1, 5, 8, 0x155, 3, 0, 18446744073709551615, 0⟩ /- KV_REFCOUNT_BASE, R199 -/,
  ⟨0x310003, 0x310003, 1, 4, 4, 0x17d, 0, 0, 4294967295, 0⟩ /- KV_POOL_PAGES, R199 -/,
  ⟨0x310004, 0x310004, 1, 5, 8, 0x17d, 0, 0, 18446744073709551615, 0⟩ /- SWAP_BASE, R199 -/,
  ⟨0x310005, 0x310005, 1, 4, 4, 0x17d, 0, 0, 4294967295, 0⟩ /- SWAP_PAGES, R199 -/,
  ⟨0x310006, 0x310006, 1, 4, 4, 0x155, 3, 0, 4294967295, 262143⟩ /- CTX_FREE, R199 -/,
  ⟨0x311001, 0x311010, 1, 4, 4, 0x17d, 0, 0, 4294967295, 0⟩ /- KV_QUOTA, R199 -/,
  ⟨0x312001, 0x312010, 1, 4, 4, 0x155, 3, 0, 4294967295, 0⟩ /- KV_FREE, R199 -/,
  ⟨0x314001, 0x314010, 1, 4, 4, 0x17d, 0, 0, 4294967295, 0⟩ /- SWAP_QUOTA, R199 -/,
  ⟨0x313001, 0x313001, 1, 5, 8, 0x155, 3, 0, 18446744073709551615, 0⟩ /- SWAP_OUTS, R199 -/,
  ⟨0x313002, 0x313002, 1, 5, 8, 0x155, 3, 0, 18446744073709551615, 0⟩ /- SWAP_INS, R199 -/,
  ⟨0x313003, 0x313003, 1, 5, 8, 0x155, 3, 0, 18446744073709551615, 0⟩ /- COW_COPIES, R199 -/,
  ⟨0x313004, 0x313004, 1, 5, 8, 0x155, 3, 0, 18446744073709551615, 0⟩ /- CTX_ENDS, R199 -/,
  ⟨0x313005, 0x313005, 1, 5, 8, 0x155, 3, 0, 18446744073709551615, 0⟩ /- KV_SPILLS, R199 -/,
  ⟨0x400001, 0x400001, 1, 5, 8, 0x155, 3, 0, 18446744073709551615, 0⟩ /- SPRING_MARGINAL, R233 -/,
  ⟨0x400002, 0x400002, 1, 3, 2, 0x17d, 1, 0, 65535, 64⟩ /- VIOL_RATE, R233 -/,
  ⟨0x400003, 0x400003, 1, 4, 4, 0x17d, 1, 0, 4294967295, 1000⟩ /- ETH_THROTTLE, R233 -/,
  ⟨0x410000, 0x417f00, 256, 11, 64, 0x17d, 0, 0, 0, 0⟩ /- STREAM, R233 -/,
  ⟨0x420000, 0x427f00, 256, 10, 148, 0x155, 3, 0, 0, 0⟩ /- STREAM_CNT, R233 -/,
  ⟨0x430000, 0x431f00, 256, 11, 96, 0x17d, 0, 0, 0, 0⟩ /- PROFILE, R233 -/,
  ⟨0x440000, 0x443f00, 256, 11, 96, 0x17d, 0, 0, 0, 0⟩ /- BATCH, R233 -/,
  ⟨0x448000, 0x44bf00, 256, 4, 4, 0x8, 1, 0, 4294967295, 0⟩ /- BATCH_NEXT, R233 -/,
  ⟨0x500001, 0x500001, 1, 8, 8, 0x17d, 2, 0, 18446744073709551615, 0⟩ /- RADIO_EPOCH, R288 -/,
  ⟨0x500002, 0x500002, 1, 2, 1, 0x17d, 2, 0, 15, 0⟩ /- CARRIER_ON, R288 -/,
  ⟨0x500003, 0x500003, 1, 3, 2, 0x17d, 1, 0, 65535, 64⟩ /- RADIO_VIOL_RATE, R288 -/,
  ⟨0x500004, 0x500004, 1, 5, 8, 0x155, 3, 0, 18446744073709551615, 0⟩ /- RADIO_MARGINAL, R288 -/,
  ⟨0x501000, 0x501100, 256, 11, 16, 0x17d, 0, 0, 0, 0⟩ /- JESD, R288 -/,
  ⟨0x502000, 0x502100, 256, 10, 288, 0x17d, 0, 0, 0, 0⟩ /- RF_LISTS, R288 -/,
  ⟨0x503001, 0x503002, 1, 10, 4294967288, 0x3c, 1, 0, 0, 0⟩ /- RF_SPI_XFER, R288 -/,
  ⟨0x510000, 0x510300, 256, 11, 64, 0x17d, 0, 0, 0, 0⟩ /- CARRIER, R288 -/,
  ⟨0x512000, 0x512300, 256, 11, 64, 0x17d, 0, 0, 0, 0⟩ /- RINGS, R288 -/]

/-- Rows of the entry tables, part 2. -/
def entryTable2 : List Entry := [
  ⟨0x514000, 0x514300, 256, 10, 4096, 0x17d, 0, 0, 0, 0⟩ /- SYNC_PATTERN, R288 -/,
  ⟨0x520000, 0x520300, 256, 10, 176, 0x155, 3, 0, 0, 0⟩ /- RADIO_CNT, R288 -/,
  ⟨0x530001, 0x530004, 1, 2, 1, 0x155, 3, 0, 255, 0⟩ /- RX_BANK, R288 -/,
  ⟨0x531001, 0x531004, 1, 4, 4, 0x28, 1, 0, 4294967295, 0⟩ /- RX_SUBMIT, R288 -/,
  ⟨0x532001, 0x532004, 1, 2, 1, 0x155, 3, 0, 255, 0⟩ /- RX_VERDICT, R288 -/,
  ⟨0x533001, 0x533004, 1, 1, 1, 0xa8, 1, 0, 1, 0⟩ /- RX_REVERT, R288 -/,
  ⟨0x201000, 0x201000, 1, 10, 2098112, 0x17d, 0, 0, 0, 0⟩ /- SCHEDULE, R334 -/,
  ⟨0x201101, 0x201101, 1, 5, 8, 0x155, 3, 0, 18446744073709551615, 0⟩ /- SCHED_BUILD, R334 -/,
  ⟨0x210000, 0x210000, 256, 11, 32, 0x155, 3, 0, 0, 0xFF⟩ /- PARTITION of P0, R293, R334 -/,
  ⟨0x210100, 0x210f00, 256, 11, 32, 0x17d, 0, 0, 0, 0⟩ /- PARTITION, R334 -/,
  ⟨0x220001, 0x220040, 1, 2, 1, 0x155, 3, 0, 255, 0⟩ /- CORE_MAP, R334 -/,
  ⟨0x230001, 0x230001, 1, 2, 1, 0x17d, 0, 1, 100, 20⟩ /- SELFTEST_SEGS, R334 -/,
  ⟨0x230002, 0x230002, 1, 5, 8, 0x155, 3, 0, 18446744073709551615, 0⟩ /- DEADLINE_MARGINAL, R334 -/,
  ⟨0x320001, 0x320001, 1, 5, 8, 0x155, 3, 0, 18446744073709551615, 0⟩ /- MODEL_CACHE_BASE, R334 -/,
  ⟨0x320002, 0x320002, 1, 5, 8, 0x17d, 0, 0, 18446744073709551615, 0⟩ /- MODEL_CACHE_SIZE, R334 -/,
  ⟨0x320003, 0x320003, 1, 2, 1, 0x155, 3, 0, 255, 0⟩ /- MODELS_RESIDENT, R334 -/,
  ⟨0x320004, 0x320004, 1, 5, 8, 0x155, 3, 0, 18446744073709551615, 0⟩ /- MODEL_LOADS, R334 -/,
  ⟨0x320005, 0x320005, 1, 5, 8, 0x155, 3, 0, 18446744073709551615, 0⟩ /- MODEL_EVICTS, R334 -/,
  ⟨0xa10000, 0xa10f00, 256, 11, 88, 0x155, 3, 0, 0, 0⟩ /- ACCT, R334 -/,
  ⟨0x600001, 0x600001, 1, 2, 1, 0x17d, 0, 0, 255, 32⟩ /- LK_IDLE, R368 -/,
  ⟨0x600002, 0x600002, 1, 5, 8, 0x17d, 0, 0, 18446744073709551615, 0x0888044402220111⟩ /- LK_HASH, R368 -/,
  ⟨0x600003, 0x600003, 1, 2, 1, 0x17d, 1, 1, 168, 12⟩ /- LK_SCRUB_H, R368 -/,
  ⟨0x600004, 0x600004, 1, 2, 1, 0x17d, 1, 2, 255, 8⟩ /- RETIRE_CE, R368 -/,
  ⟨0x600005, 0x600005, 1, 2, 1, 0x17d, 0, 0, 64, 32⟩ /- RETIRE_PAGES, R368 -/,
  ⟨0x600006, 0x600006, 1, 2, 1, 0x17d, 1, 1, 168, 24⟩ /- LP_SCRUB_H, R368 -/,
  ⟨0x600100, 0x600100, 1, 10, 16384, 0x155, 3, 0, 0, 0⟩ /- LK_RETIRED, R368 -/,
  ⟨0x600201, 0x600240, 1, 2, 1, 0x155, 3, 0, 255, 0⟩ /- LK_STATE, R368 -/,
  ⟨0x610000, 0x613f00, 256, 11, 56, 0x155, 3, 0, 0, 0⟩ /- LK_CNT, R368 -/,
  ⟨0x620001, 0x620001, 1, 5, 8, 0x155, 3, 0, 18446744073709551615, 0⟩ /- LP_INSTALLED, R368 -/,
  ⟨0x620002, 0x620002, 1, 5, 8, 0x155, 3, 0, 18446744073709551615, 0⟩ /- LP_TOP, R368 -/,
  ⟨0x620003, 0x620003, 1, 5, 8, 0x155, 3, 0, 18446744073709551615, 0⟩ /- LP_INIT_MARK, R368 -/,
  ⟨0x621000, 0x621300, 256, 11, 24, 0x155, 3, 0, 0, 0⟩ /- LP_CNT, R368 -/,
  ⟨0x622001, 0x622001, 1, 5, 8, 0x155, 3, 0, 18446744073709551615, 0⟩ /- SRAM_CE, R368 -/,
  ⟨0x622002, 0x622002, 1, 5, 8, 0x155, 3, 0, 18446744073709551615, 0⟩ /- SRAM_UE, R368 -/,
  ⟨0x630000, 0x637f00, 256, 11, 24, 0x17d, 0, 0, 0, 0⟩ /- SHUTTER, R368 -/,
  ⟨0x640000, 0x643f00, 256, 11, 6, 0x17d, 0, 0, 0, 0 + 256 * 65536 + 64 * 4294967296⟩ /- LOUVRE, R368 -/,
  ⟨0x710001, 0x710001, 1, 2, 1, 0x1fd, 0, 1, 16, 3⟩ /- RESYNC_LIMIT, R396 -/,
  ⟨0x710002, 0x710002, 1, 3, 2, 0x1fd, 0, 0, 65535, 5⟩ /- WD_MIN, R396 -/,
  ⟨0x710003, 0x710003, 1, 3, 2, 0x1fd, 0, 0, 65535, 50⟩ /- WD_MAX, R396 -/,
  ⟨0x710101, 0x710106, 1, 3, 2, 0x48, 1, 0, 65535, 0⟩ /- WD_KICK, R396 -/,
  ⟨0x711000, 0x711000, 1, 10, 263080, 0x55, 3, 0, 0, 0⟩ /- GOLDEN_IMAGE, R396 -/]

/-- Rows of the entry tables, part 3. -/
def entryTable3 : List Entry := [
  ⟨0x712001, 0x712001, 1, 5, 8, 0x155, 3, 0, 18446744073709551615, 0⟩ /- RESYNCS, R396 -/,
  ⟨0x712002, 0x712002, 1, 5, 8, 0x155, 3, 0, 18446744073709551615, 0⟩ /- RESYNC_ABORTS, R396 -/,
  ⟨0x712003, 0x712003, 1, 5, 8, 0x155, 3, 0, 18446744073709551615, 0⟩ /- GOLDEN_FAIL, R396 -/,
  ⟨0x712004, 0x712004, 1, 5, 8, 0x155, 3, 0, 18446744073709551615, 0⟩ /- SELFTEST_FAIL, R396 -/,
  ⟨0x712005, 0x712005, 1, 5, 8, 0x155, 3, 0, 18446744073709551615, 0⟩ /- WITHDRAWN, R396 -/,
  ⟨0x712006, 0x712006, 1, 5, 8, 0x155, 3, 0, 18446744073709551615, 0⟩ /- DETECT_NS, R396 -/,
  ⟨0x712007, 0x712007, 1, 5, 8, 0x155, 3, 0, 18446744073709551615, 0⟩ /- HB_MISSES, R396 -/,
  ⟨0x713001, 0x713040, 1, 5, 8, 0x155, 3, 0, 18446744073709551615, 0⟩ /- GOLDEN_LAST, R396 -/,
  ⟨0x700001, 0x700001, 1, 2, 1, 0x1f5, 0, 1, 4, 3⟩ /- FN_THRESHOLD, R421 -/,
  ⟨0x700002, 0x700002, 1, 2, 1, 0x1f5, 0, 0, 4, 2⟩ /- ALT_CLASS, R421 -/,
  ⟨0x700003, 0x700003, 1, 5, 8, 0xa8, 2, 0, 18446744073709551615, 0⟩ /- FC_CLEAR, R421 -/,
  ⟨0x700004, 0x700004, 1, 2, 1, 0x155, 3, 0, 255, 0⟩ /- FN_EXERCISE, R421 -/,
  ⟨0x701000, 0x701000, 1, 10, 32768, 0x155, 3, 0, 0, 0⟩ /- FAULT_LOG, R421 -/,
  ⟨0x701100, 0x701100, 1, 10, 8192, 0x155, 3, 0, 0, 0⟩ /- FAULT_OPEN, R421 -/,
  ⟨0x702001, 0x702001, 1, 5, 8, 0x155, 3, 0, 18446744073709551615, 0⟩ /- FC_SECONDARY, R421 -/,
  ⟨0x702002, 0x702002, 1, 5, 8, 0x155, 3, 0, 18446744073709551615, 0⟩ /- FC_DROPPED, R421 -/,
  ⟨0x702003, 0x702003, 1, 5, 8, 0x155, 3, 0, 18446744073709551615, 0⟩ /- FC_STATUS, R421 -/,
  ⟨0x160001, 0x160001, 1, 2, 1, 0x155, 3, 0, 255, 0⟩ /- FAB_NODE_ID, R442 -/,
  ⟨0x160002, 0x160002, 1, 2, 1, 0x155, 3, 0, 255, 0⟩ /- FAB_STATE, R442 -/,
  ⟨0x160003, 0x160003, 1, 5, 8, 0x155, 3, 0, 18446744073709551615, 0⟩ /- FAB_IDENT, R442 -/,
  ⟨0x160004, 0x160004, 1, 2, 1, 0x17d, 0, 0, 255, 1⟩ /- FAB_EXPECT, R442 -/,
  ⟨0x160005, 0x160005, 1, 2, 1, 0x155, 3, 0, 255, 1⟩ /- FAB_NODES, R442 -/,
  ⟨0x160006, 0x160006, 1, 3, 2, 0x17d, 0, 0, 65535, 200⟩ /- FAB_JOIN_MS, R442 -/,
  ⟨0x160007, 0x160007, 1, 4, 4, 0x17d, 0, 500, 100000, 2000⟩ /- FAB_RETRY_NS, R442 -/,
  ⟨0x160008, 0x160008, 1, 3, 2, 0x17d, 0, 2, 1000, 16⟩ /- FAB_QUAR_REPLAYS, R442 -/,
  ⟨0x160009, 0x160009, 1, 3, 2, 0x17d, 1, 0, 65535, 64⟩ /- FAB_VIOL_RATE, R442 -/,
  ⟨0x16000a, 0x16000a, 1, 4, 4, 0x17d, 1, 0, 4294967295, 1000⟩ /- FAB_THROTTLE, R442 -/,
  ⟨0x16000b, 0x16000b, 1, 5, 8, 0x155, 3, 0, 18446744073709551615, 0⟩ /- FAB_MARGINAL, R442 -/,
  ⟨0x161001, 0x161008, 1, 2, 1, 0x155, 3, 0, 255, 0xFF⟩ /- FAB_ROUTE, R442 -/,
  ⟨0x162000, 0x162200, 256, 11, 96, 0x155, 3, 0, 0, 0⟩ /- FAB_LINK, R442 -/,
  ⟨0x000003, 0x000003, 1, 9, 16, 0x155, 3, 0, 0, 0⟩ /- DEVICE_SERIAL, R478 -/,
  ⟨0x000004, 0x000004, 1, 2, 1, 0x155, 3, 0, 255, 0⟩ /- DEV_STATE, R478 -/,
  ⟨0x000005, 0x000005, 1, 2, 1, 0xa8, 2, 2, 2, 0⟩ /- STATE_REQ, R478 -/,
  ⟨0x000006, 0x000006, 1, 5, 8, 0x155, 3, 0, 18446744073709551615, 0⟩ /- STATE_FAIL, R478 -/,
  ⟨0x000007, 0x000007, 1, 3, 2, 0x155, 3, 0, 65535, 0⟩ /- CLAIMS_USED, R478 -/,
  ⟨0x010000, 0x033f00, 256, 11, 24, 0x1fd, 1, 0, 0, 0xFFFF⟩ /- CLAIM, R478 -/,
  ⟨0x040000, 0x040700, 256, 11, 32, 0x17d, 1, 0, 0, 0⟩ /- TIMER, R478 -/,
  ⟨0x140001, 0x140001, 1, 2, 1, 0x17d, 0, 0, 255, 0x40⟩ /- KDP_SDT, R478 -/,
  ⟨0x140002, 0x140002, 1, 3, 2, 0x17d, 0, 0, 2047, 0x010⟩ /- KDP_REQ_ID, R478 -/,
  ⟨0x140003, 0x140003, 1, 3, 2, 0x17d, 0, 0, 2047, 0x011⟩ /- KDP_RSP_ID, R478 -/]

/-- Rows of the entry tables, part 4. -/
def entryTable4 : List Entry := [
  ⟨0x140004, 0x140004, 1, 2, 1, 0x17d, 0, 1, 254, 0⟩ /- KDP_ADDR, R478 -/,
  ⟨0x150001, 0x150001, 1, 3, 2, 0x17d, 0, 0, 65535, 30490⟩ /- KDP_UDP_PORT, R478 -/,
  ⟨0x170001, 0x170001, 1, 2, 1, 0x17d, 0, 1, 16, 4⟩ /- KDP_WINDOW, R478 -/,
  ⟨0x170002, 0x170002, 1, 3, 2, 0x17d, 1, 10, 10000, 500⟩ /- KDP_IDLE_MS, R478 -/,
  ⟨0x170003, 0x170003, 1, 4, 4, 0x17d, 1, 10000, 100000000, 1000000⟩ /- KDP_TIMEOUT_P, R478 -/,
  ⟨0x170004, 0x170004, 1, 3, 2, 0x17d, 1, 0, 65535, 64⟩ /- KDP_VIOL_RATE, R478 -/,
  ⟨0x170005, 0x170005, 1, 4, 4, 0x17d, 1, 0, 4294967295, 100⟩ /- KDP_THROTTLE, R478 -/,
  ⟨0x170006, 0x170006, 1, 5, 8, 0x155, 3, 0, 18446744073709551615, 0⟩ /- KDP_MARGINAL, R478 -/,
  ⟨0x170007, 0x170007, 1, 5, 8, 0x155, 3, 0, 18446744073709551615, 0⟩ /- KDP_DUP, R478 -/,
  ⟨0x170008, 0x170008, 1, 5, 8, 0x155, 3, 0, 18446744073709551615, 0⟩ /- KDP_VIOL, R478 -/,
  ⟨0x302000, 0x305f00, 256, 10, 4294967288, 0x17d, 0, 0, 0, 0⟩ /- MODEL_PKG, R478 -/,
  ⟨0xa02000, 0xa02000, 1, 10, 4194304, 0x155, 3, 0, 0, 0⟩ /- CHANGE_LOG, R478 -/,
  ⟨0xa02101, 0xa02101, 1, 5, 8, 0x155, 3, 0, 18446744073709551615, 0⟩ /- CHLOG_HEAD, R478 -/,
  ⟨0x900001, 0x900001, 1, 11, 64, 0x155, 3, 0, 0, 0⟩ /- BOOT_RECORD, R507 -/,
  ⟨0x900002, 0x900002, 1, 2, 1, 0x155, 3, 0, 255, 0⟩ /- BOOTSEL, R507 -/,
  ⟨0x910001, 0x910001, 1, 8, 8, 0x7f, 2, 0, 18446744073709551615, 0⟩ /- ACT_EPOCH, R507 -/,
  ⟨0x910002, 0x910002, 1, 2, 1, 0x155, 3, 0, 255, 0⟩ /- ACT_STATE, R507 -/,
  ⟨0x910003, 0x910003, 1, 2, 1, 0x155, 3, 0, 255, 0⟩ /- STAGE_SLOT, R507 -/,
  ⟨0x911000, 0x911000, 1, 10, 2080374784, 0x28, 2, 0, 0, 0⟩ /- STAGE, R507 -/,
  ⟨0x912001, 0x912001, 1, 2, 1, 0x155, 3, 0, 255, 0⟩ /- ROLLBACK_OTP, R507 -/,
  ⟨0x912002, 0x912002, 1, 2, 1, 0x2a, 2, 0, 255, 0⟩ /- ROLLBACK_COMMIT, R507 -/,
  ⟨0x920001, 0x920001, 1, 11, 64, 0x155, 3, 0, 0, 0⟩ /- ID_PUBKEY, R507 -/,
  ⟨0x920100, 0x920100, 1, 10, 65536, 0x155, 3, 0, 0, 0⟩ /- ID_CERT, R507 -/,
  ⟨0x930001, 0x930005, 1, 11, 36, 0x2aa, 1, 0, 0, 0⟩ /- QUOTE_REQ, R507 -/,
  ⟨0x930101, 0x930105, 1, 10, 400, 0x155, 3, 0, 0, 0⟩ /- QUOTE, R507 -/,
  ⟨0x931001, 0x931008, 1, 11, 32, 0x155, 3, 0, 0, 0⟩ /- MR, R507 -/,
  ⟨0x931101, 0x931101, 1, 11, 36, 0x8, 1, 0, 0, 0⟩ /- MR_EXTEND, R507 -/,
  ⟨0x940001, 0x940001, 1, 11, 44, 0x14, 3, 0, 0, 0⟩ /- DBG_CHALLENGE, R507 -/,
  ⟨0x940002, 0x940002, 1, 11, 72, 0x28, 0, 0, 0, 0⟩ /- DBG_RESPONSE, R507 -/,
  ⟨0x940003, 0x940003, 1, 2, 1, 0x155, 3, 0, 255, 0⟩ /- DBG_STATE, R507 -/,
  ⟨0x950001, 0x950001, 1, 11, 32, 0x17d, 0, 0, 0, 0⟩ /- SEC_RING, R507 -/,
  ⟨0x950002, 0x950002, 1, 5, 8, 0x155, 3, 0, 18446744073709551615, 0⟩ /- SEC_VERIFIES, R507 -/,
  ⟨0x950003, 0x950003, 1, 5, 8, 0x155, 3, 0, 18446744073709551615, 0⟩ /- SEC_INVALID, R507 -/,
  ⟨0x9f0001, 0x9f0001, 1, 2, 1, 0x20, 2, 0, 1, 0⟩ /- REC_SLOT, R507 -/,
  ⟨0x9f0002, 0x9f0002, 1, 1, 1, 0x20, 2, 0, 1, 0⟩ /- REC_REBOOT, R507 -/,
  ⟨0x9f0100, 0x9f0100, 1, 10, 2080374784, 0x20, 2, 0, 0, 0⟩ /- REC_IMAGE, R507 -/,
  ⟨0x800001, 0x800001, 1, 3, 2, 0x1ff, 1, 60, 165, 165⟩ /- PWR_CAP, R525 -/,
  ⟨0x800002, 0x800002, 1, 4, 4, 0x155, 3, 0, 4294967295, 0⟩ /- PWR_NOW, R525 -/,
  ⟨0x800003, 0x800003, 1, 3, 2, 0x155, 3, 0, 65535, 165⟩ /- CAP_EFFECTIVE, R525 -/,
  ⟨0x800004, 0x800004, 1, 3, 2, 0x155, 3, 0, 65535, 0⟩ /- RATED_FLOOR_W, R525 -/]

/-- Rows of the entry tables, part 5. -/
def entryTable5 : List Entry := [
  ⟨0x800005, 0x800005, 1, 2, 1, 0x155, 3, 0, 255, 0⟩ /- CAP_STATE, R525 -/,
  ⟨0x800006, 0x800006, 1, 5, 8, 0x155, 3, 0, 18446744073709551615, 0⟩ /- CAP_EVENTS, R525 -/,
  ⟨0x800007, 0x800007, 1, 5, 8, 0x155, 3, 0, 18446744073709551615, 0⟩ /- THROTTLE_NS, R525 -/,
  ⟨0x800008, 0x800008, 1, 5, 8, 0x155, 3, 0, 18446744073709551615, 0⟩ /- ENERGY_TOTAL, R525 -/,
  ⟨0x801001, 0x801028, 1, 3, 2, 0x155, 3, 0, 65535, 0⟩ /- TEMP_DIE, R525 -/,
  ⟨0x801101, 0x801108, 1, 3, 2, 0x155, 3, 0, 65535, 0⟩ /- TEMP_LAKE, R525 -/,
  ⟨0x801201, 0x801201, 1, 3, 2, 0x155, 3, 0, 65535, 0⟩ /- TJ_MAX_NOW, R525 -/,
  ⟨0x801202, 0x801202, 1, 3, 2, 0x155, 3, 0, 65535, 0⟩ /- TJ_PEAK, R525 -/,
  ⟨0x802001, 0x802009, 1, 11, 12, 0x155, 3, 0, 0, 0⟩ /- RAIL, R525 -/,
  ⟨0x803001, 0x803001, 1, 2, 1, 0xaa, 2, 1, 2, 0⟩ /- PWR_STATE_REQ, R525 -/,
  ⟨0x803002, 0x803002, 1, 2, 1, 0x155, 3, 0, 255, 0⟩ /- AVS_STATE, R525 -/]

/-- Every entry of the dictionary. -/
def entryTable : List Entry :=
  entryTable1 ++ entryTable2 ++ entryTable3 ++ entryTable4 ++ entryTable5

/-- The row's entries include the key. -/
def Entry.holds (e : Entry) (key : Nat) : Bool :=
  decide (e.first ≤ key) && decide (key ≤ e.last) && (key - e.first) % e.stride == 0

/-- The position of an entry within its row, 0 first. -/
def Entry.pos (e : Entry) (key : Nat) : Nat := (key - e.first) / e.stride

/-- A ball, timer or Reservoir region that can be claimed, R467 and R536. -/
def claimable (r : Nat) : Bool :=
  decide (r < 0x26) || (decide (0x28 ≤ r) && decide (r ≤ 0x3B)) || (decide (0x40 ≤ r) && decide (r ≤ 0x4D))
    || (decide (0x100 ≤ r) && decide (r ≤ 0x107)) || (decide (0x200 ≤ r) && decide (r ≤ 0x23F))

/-- The highest sub-index of an index whose entries start at sub-index 1, R444. -/
def topSub (index : Nat) : Nat :=
  ((entryTable.filter (fun e => e.stride == 1 && e.first / 256 == index && e.first % 256 != 0)).map (fun e => e.last % 256)).foldl max 0

/-- The row for a key, R444: a table row, or the U8 that holds the highest sub-index in use. -/
def findEntry (key : Nat) : Option Entry :=
  match entryTable.find? (·.holds key) with
  | some e => if e.first = 0x010000 ∧ !claimable (key / 256 - 0x100) then none else some e
  | none =>
    if key % 256 = 0 ∧ topSub (key / 256) ≠ 0 then
      some ⟨key, key, 1, 2, 1, 0x155, 3, 0, 255, topSub (key / 256)⟩
    else none

/-- The key of an entry address. -/
def keyOf (index : BitVec 16) (sub : BitVec 8) : Nat := index.toNat * 256 + sub.toNat

/-! ## Keys of the entries that the model names -/

/-- GPTP_PORT, R41. -/
abbrev kGptpPort := 0x180001
/-- FRAME_TICKS, R41. -/
abbrev kFrameTicks := 0x200001
/-- FRAME_ORIGIN, R41. -/
abbrev kFrameOrigin := 0x200002
/-- SCHEDULE, R334. -/
abbrev kSchedule := 0x201000
/-- STATE_REQ, R478. -/
abbrev kStateReq := 0x000005
/-- DEV_STATE, R478. -/
abbrev kDevState := 0x000004
/-- GOLDEN_IMAGE, R396. -/
abbrev kGoldenImage := 0x711000
/-- STAGE, R507. -/
abbrev kStage := 0x911000
/-- REC_IMAGE, R507. -/
abbrev kRecImage := 0x9F0100
/-- CARRIER_ON, R288. -/
abbrev kCarrierOn := 0x500002
/-- PWR_CAP, R525. -/
abbrev kPwrCap := 0x800001
/-- PARTITION record of partition p, R334. -/
abbrev kPartition (p : Nat) := 0x210000 + 256 * p

end Sys2Proof.Machine
end

