-- ==== Sys2Proof/Machine/Flags.lean ====
section
/-! DEFINITION. Status codes and flag rules: the codes of the state machines, the groups, codes and classes of the fault
network (R87, R399, R400), and the unit that each source id names (R26). -/

namespace Sys2Proof.Machine

/-! ## Codes of the state machines -/

/-- DEV_STATE, R449. -/
def DevState.code : DevState → Nat
  | .boot => 0 | .config => 1 | .run => 2 | .degraded => 3 | .safe => 4 | .recovery => 5

/-- TB_STATE, R41. -/
def LockState.code : LockState → Nat
  | .free => 0 | .slewing => 1 | .locked => 2 | .holdover => 3

/-- CC_STATE.STATE, R85. -/
def CcState.code : CcState → Nat
  | .idle => 0 | .running => 1 | .waiting => 2 | .draining => 3 | .golden => 4 | .selftest => 5 | .resync => 6
  | .withdrawn => 7 | .reset => 8

/-- STATE of a context entry, R166. -/
def CtxState.code : CtxState → Nat
  | .free => 0 | .joining => 1 | .resident => 2 | .blocked => 3 | .swappingOut => 4 | .swapped => 5 | .swappingIn => 6
  | .ended => 7

/-- Origin codes of the change log, R475. -/
def Origin.code : Origin → Nat
  | .f => 0 | .l => 1 | .s => 2 | .y => 3 | .p => 4

/-! ## Abort codes, R454 -/

/-- OK -/ abbrev aOk := 0
/-- NO_ENTRY -/ abbrev aNoEntry := 1
/-- RIGHTS -/ abbrev aRights := 2
/-- STATE -/ abbrev aState := 3
/-- BUSY -/ abbrev aBusy := 4
/-- TYPE -/ abbrev aType := 5
/-- RANGE -/ abbrev aRange := 6
/-- CONFLICT -/ abbrev aConflict := 7
/-- CRC -/ abbrev aCrc := 8
/-- TIMEOUT -/ abbrev aTimeout := 9
/-- PROTOCOL -/ abbrev aProtocol := 10
/-- THROTTLED -/ abbrev aThrottled := 11
/-- ABORTED -/ abbrev aAborted := 12

/-! ## Local source ids, R26 -/

/-- safety island -/ abbrev srcIsland := 0x8C
/-- fault collector -/ abbrev srcFc := 0x8D
/-- schedule engine -/ abbrev srcSched := 0x8E
/-- timebase unit -/ abbrev srcTb := 0x8F
/-- Spring -/ abbrev srcSpring := 0x90
/-- security engine -/ abbrev srcSec := 0x98
/-- dictionary server -/ abbrev srcDict := 0x99
/-- boot flash port -/ abbrev srcFlash := 0xB2

/-- The quadrant of a core or Lake channel, R15. -/
def quadrant (n : Nat) : Nat := 2 * (n / 8 / 4) + n % 8 / 4

/-- The local index within the quadrant, R15. -/
def localIndex (n : Nat) : Nat := n / 8 % 4 * 4 + n % 8 % 4

/-! ## The groups of FC_STATUS, R399 -/

/-- How many codes the reports of a group have, in code order. -/
def groupCodes (g : Nat) : Nat :=
  if g < 4 then 15 else if g < 8 then 8
  else ([3, 1, 1, 2, 2, 4, 3, 2, 2, 2, 3, 2, 1, 1, 3, 2, 2, 3, 1, 2, 2, 1, 2, 4, 1, 1, 1, 3] : List Nat).getD (g - 8) 0

/-- The unit of a local source id reports in the group, R398 and R399. -/
def unitInGroup (g o : Nat) : Bool :=
  if g < 4 then decide (o < 64) && quadrant o == g
  else if g < 8 then decide (0x40 ≤ o) && decide (o < 0x80) && quadrant (o - 0x40) == g - 4
  else match g with
  | 8 => decide (o < 64)
  | 9 => o == srcFc
  | 10 => decide (o < 0x81) || (decide (0x8C ≤ o) && decide (o ≤ 0x9F) && o != 0x93 && o != 0x96 && o != 0x97 && o != 0x9A && o != 0x9B)
          || (decide (0xA0 ≤ o) && decide (o ≤ 0xB1)) || o == 0xB2 || o == 0xB8
  | 11 => decide (o < 0x100)
  | 12 => o == 0xB8
  | 13 => decide (0x9C ≤ o) && decide (o ≤ 0x9F)
  | 14 => o == srcSpring
  | 15 => decide (0xA0 ≤ o) && decide (o ≤ 0xA7)
  | 16 => decide (0xA8 ≤ o) && decide (o ≤ 0xAA)
  | 17 => o == 0x94 || o == 0x95 || o == 0xAB || o == 0xAC
  | 18 => o == 0x91 || o == 0x92
  | 19 => decide (0xAD ≤ o) && decide (o ≤ 0xAF)
  | 20 => o == 0xB0 || o == 0xB1
  | 21 => o == srcFlash
  | 22 => o == srcSched
  | 23 => o == srcSched
  | 24 => o == srcTb
  | 25 => decide (0x80 ≤ o) && decide (o ≤ 0x8B)
  | 26 => decide (0x80 ≤ o) && decide (o ≤ 0x8B) && o % 2 == 0
  | 27 => o == srcIsland
  | 28 => o == srcDict || o == srcSec
  | 29 => decide (o < 0xC0)
  | 30 => o == srcFc
  | 31 => o == srcFc
  | 32 => o == srcSched
  | 33 => decide (o < 64)
  | 34 => decide (o < 64)
  | 35 => o == srcFc
  | _ => false

/-! ## CC_ERR, R85 and R87 -/

/-- bits of CC_ERR, which are also the codes of a core's reports -/
abbrev eIllegal := 0
/-- SHAPE_FMT -/ abbrev eShapeFmt := 1
/-- DESC -/ abbrev eDesc := 2
/-- SEQ_VIOL -/ abbrev eSeqViol := 3
/-- POND_ADDR -/ abbrev ePondAddr := 4
/-- DECODE -/ abbrev eDecode := 5
/-- TILE_OVERRUN -/ abbrev eTileOverrun := 6
/-- SAT -/ abbrev eSat := 7
/-- ACC_PAR -/ abbrev eAccPar := 8
/-- POND_CE -/ abbrev ePondCe := 9
/-- POND_UE -/ abbrev ePondUe := 10
/-- CMP -/ abbrev eCmp := 11
/-- CLK_MON -/ abbrev eClkMon := 12
/-- CMD -/ abbrev eCmd := 13
/-- HDR -/ abbrev eHdr := 14

/-- The class of a CC_ERR bit on a core in group mode m (0 single, 1 pair, 2 triad, 3 detecting pair), R87 and R400.
CMP without a group cannot arise; it is given 2. CMP in a triad is the class with a majority. -/
def ccErrClass (bit mode : Nat) : Nat :=
  if bit = eSat ∨ bit = eCmd then 0
  else if bit = ePondCe then 1
  else if bit = ePondUe then (if mode = 1 ∨ mode = 2 then 1 else 2)
  else if bit = eCmp then (if mode = 2 then 1 else 2)
  else if bit = eClkMon then 3
  else 2

/-- The CC_ERR bits that tear down the running context, R87. -/
def ccErrTears (bit : Nat) : Bool :=
  bit == eIllegal || bit == eShapeFmt || bit == eDesc || bit == eSeqViol || bit == ePondAddr || bit == eDecode
    || bit == eTileOverrun || bit == eAccPar || bit == eHdr

/-- The rank of a partition class for R364: QM, A, B, C, D, then P0. -/
def classRank (c : Nat) : Nat := if c = 0xFF then 5 else c

end Sys2Proof.Machine
end

