-- ==== Sys2Proof/Machine/Ops.lean ====
section
/-! DEFINITION. The operations that every family of commands shares: changing one unit of the state, device time, entry
values, event records, the change log, and a report to the fault collector (R398 to R412), which is one operation. -/

namespace Sys2Proof.Machine

/-! ## Changing one unit -/

/-- The state with the timebase changed. -/
def State.onTb (s : State) (f : Timebase → Timebase) : State := { s with tb := f s.tb }
/-- The state with the balls changed. -/
def State.onPins (s : State) (f : Pins → Pins) : State := { s with pins := f s.pins }
/-- The state with the fault collector changed. -/
def State.onFc (s : State) (f : Collector → Collector) : State := { s with fc := f s.fc }
/-- The state with the safety island changed. -/
def State.onIsl (s : State) (f : Island → Island) : State := { s with isl := f s.isl }
/-- The state with the flash and OTP changed. -/
def State.onFlash (s : State) (f : Flash → Flash) : State := { s with flash := f s.flash }
/-- The state with the boot changed. -/
def State.onBoot (s : State) (f : Boot → Boot) : State := { s with boot := f s.boot }
/-- The state with the security engine changed. -/
def State.onSec (s : State) (f : Security → Security) : State := { s with sec := f s.sec }
/-- The state with the dictionary server changed. -/
def State.onDict (s : State) (f : Dict → Dict) : State := { s with dict := f s.dict }
/-- The state with core n changed. -/
def State.onCore (s : State) (n : Nat) (f : Core → Core) : State := { s with cores := updAt s.cores n f }
/-- The state with the schedule engine changed. -/
def State.onSched (s : State) (f : Sched → Sched) : State := { s with sched := f s.sched }
/-- The state with the context table changed. -/
def State.onCtx (s : State) (f : Contexts → Contexts) : State := { s with ctx := f s.ctx }
/-- The state with the Spring changed. -/
def State.onSpring (s : State) (f : Spring → Spring) : State := { s with spring := f s.spring }
/-- The state with the radio changed. -/
def State.onRadio (s : State) (f : Radio → Radio) : State := { s with radio := f s.radio }
/-- The state with the memory system changed. -/
def State.onMem (s : State) (f : Mem → Mem) : State := { s with mem := f s.mem }
/-- The state with the fabric changed. -/
def State.onFab (s : State) (f : Fabric → Fabric) : State := { s with fab := f s.fab }
/-- The state with power and temperature changed. -/
def State.onPwr (s : State) (f : Power → Power) : State := { s with pwr := f s.pwr }

/-- The state with something sent. -/
def State.emit (s : State) (e : Emission) : State := { s with sent := s.sent ++ [e] }

/-- The next free-value index, and the state that has used it; log 2. -/
def State.fresh1 (s : State) : State := { s with fresh := s.fresh + 1 }

/-- Core n. -/
def State.core (s : State) (n : Nat) : Core := s.cores.getD n {}

/-! ## Device time, R28 to R40 -/

/-- Device time in ns. -/
def State.now (s : State) : Nat := s.tb.now

/-- The always-on domain runs, R511. -/
def State.aonUp (s : State) : Bool := s.pins.porstN

/-- The domains other than the always-on domain are released, R511 and R515. -/
def State.up (s : State) : Bool :=
  s.pins.porstN && s.pwr.state == .active
    && (match s.boot.stage with | .held => false | .standby => false | _ => true)

/-- DEV_STATE is RUN or DEGRADED. -/
def State.inRun (s : State) : Bool := s.dict.state == .run || s.dict.state == .degraded

/-! ## Entry values -/

/-- The default of an entry as bytes. -/
def entryDefault (key : Nat) : Bytes :=
  match findEntry key with
  | some e => if e.ty = 10 then [] else leBytes e.size e.dflt
  | none => []

/-- The stored value of a writable entry, R446: what was written, or its default. -/
def State.entry (s : State) (key : Nat) : Bytes :=
  match sfind s.dict.vals key with
  | some b => b
  | none => entryDefault key

/-- An entry's value as a number. -/
def State.cfg (s : State) (key : Nat) : Nat := leNat (s.entry key)

/-- The field of n bytes at an offset of a record entry. -/
def State.cfgField (s : State) (key off n : Nat) : Nat := fieldAt (s.entry key) off n

/-- An entry's value set, R466: a default value is not listed. -/
def State.setEntry (s : State) (key : Nat) (v : Bytes) : State :=
  s.onDict (fun d => { d with vals := sset (entryDefault key) d.vals key v })

/-- FRAME_TICKS x 250,000 ns, R37. -/
def State.frameLen (s : State) : Nat := s.cfg kFrameTicks * 250000

/-- FRAME_ORIGIN. -/
def State.frameOrigin (s : State) : Nat := s.cfg kFrameOrigin

/-- The frame number at an instant, 0 before FRAME_ORIGIN, R37 and R42. -/
def State.frameAt (s : State) (t : Nat) : Nat := (t - s.frameOrigin) / s.frameLen

/-- The tick number at an instant, R37. -/
def State.tickAt (s : State) (t : Nat) : Nat :=
  if t < s.frameOrigin then 0 else (t - s.frameOrigin) % s.frameLen / 250000

/-- The start of frame f, R37. -/
def State.frameStartOf (s : State) (f : Nat) : Nat := s.frameOrigin + f * s.frameLen

/-- A frame boundary passes at this instant. -/
def State.atFrameStart (s : State) : Bool :=
  decide (s.frameOrigin ≤ s.now) && (s.now - s.frameOrigin) % s.frameLen == 0

/-- A tick boundary passes at this instant. -/
def State.atTickStart (s : State) : Bool :=
  decide (s.frameOrigin ≤ s.now) && (s.now - s.frameOrigin) % 250000 == 0

/-- Frames of the run are passing, R40. -/
def State.inFrames (s : State) : Bool := s.inRun && s.tb.framesOn

/-- The start of the frame in progress. -/
def State.thisFrame (s : State) : Nat := s.frameStartOf (s.frameAt s.now)

/-! ## Event records, R24 to R27 -/

/-- The node id in bits [11:9] of a source id, R26. -/
def State.sourceId (s : State) (loc : Nat) : Nat := s.fab.nodeId.toNat * 512 + loc

/-- The next event sequence number of a local source is taken, R25. -/
def State.takeSeq (s : State) (loc : Nat) : State :=
  { s with evSeq := sset 0 s.evSeq loc ((sget 0 s.evSeq loc + 1) % 2 ^ 48) }

/-- An event record is written, R25. -/
def State.logEvent (s : State) (loc cls : Nat) (what : What) (args : List Nat) : State :=
  { s.takeSeq loc with
    events := s.events ++ [⟨s.now, s.sourceId loc, sget 0 s.evSeq loc, cls, what, args⟩] }

/-! ## The change log, R474 and R475 -/

/-- The first 8 bytes of SM3 over a value, as the number they make, R475. -/
def digest8 (b : Bytes) : Word64 := BitVec.ofNat 64 (leNat ((sm3 b).take 8))

/-- A change-log record is written; its number and time are filled in, R475. -/
def State.logChange (s : State) (time : Nat) (c : Change) : State :=
  s.onDict (fun d =>
    { d with
      changes := (d.changes ++ [{ c with time := time, chseq := d.chHead }]).drop (d.changes.length + 1 - 65536)
      chHead := (d.chHead + 1) % 2 ^ 48 })

/-- An empty change-log record of the device itself, R475. -/
def deviceChange : Change :=
  { time := 0, chseq := 0, index := 0, sub := 0, origin := 6, result := 0, kind := 0, unchanged := false,
    oldDigest := 0, newDigest := 0, who := 0, tid := 0, resource := 0xFFFF, length := 0, otherOwner := 0xFFFF }

/-- DEV_STATE takes a value; a change is a KIND 4 record, R474. -/
def State.setDevState (s : State) (d : DevState) : State :=
  if s.dict.state = d then s
  else
    (s.onDict (fun x => { x with state := d })).logChange s.now
      { deviceChange with
        index := 0x0000, sub := 4, kind := 4, oldDigest := BitVec.ofNat 64 s.dict.state.code,
        newDigest := BitVec.ofNat 64 d.code, length := 1 }

/-! ## The fault collector -/

/-- The FC_STATUS bits of groups. -/
def groupMask (gs : List (BitVec 6)) : BitVec 36 := gs.foldl (fun m g => m ||| (1#36 <<< g.toNat)) 0

/-- The groups that hold an uncleared record in a slot, primaries and the secondaries folded into them, and those of the reports that wait to be
attributed, R404 and R405. -/
def Collector.heldGroups (c : Collector) : BitVec 36 :=
  groupMask ((c.slots.map (fun kv => kv.2.group :: kv.2.foldedGroups)).flatten ++ c.waiting.map (fun w => w.r.group))

/-- The Latch after the clearing rule of R404, and the release of the first capture of R406. -/
def Collector.settle (c : Collector) : Collector :=
  let st := if c.overflow then c.status else c.status &&& c.heldGroups
  if st = 0 then { c with status := 0, firstTime := 0, firstId := 0 } else { c with status := st }

/-- A record is written to the fault log ring of 1,024 records, R409. -/
def Collector.ring (c : Collector) (r : FaultRec) : Collector :=
  { c with log := (c.log ++ [r]).drop (c.log.length + 1 - 1024) }

/-- The lowest record slot that is free, R407. -/
def Collector.freeSlot (c : Collector) : Option Nat :=
  (List.range 256).find? (fun i => (sfind c.slots i).isNone)

/-- The next SEQ of the collector, FC_LOG_HEAD, R25 and R409. -/
def State.fcSeq (s : State) : Nat := sget 0 s.evSeq srcFc

/-- FC_FIRST_ID as a register word, R416. -/
def firstIdWord (slot : Nat) (r : FaultRec) : Word64 :=
  BitVec.ofNat 64 (2 ^ 63 + place slot 32 + place r.cls.toNat 29 + place r.origin.toNat 16 + place r.group.toNat 8 + r.code.toNat)

/-- A report is folded into the primary of a slot, R405; a raised class is a KIND 2 record, R408. -/
def State.fold (s : State) (slot : Nat) (w : ReportIn) : State :=
  match sfind s.fc.slots slot with
  | none => s
  | some p =>
    let raised := decide (p.cls.toNat < w.cls.toNat)
    let p' : FaultRec :=
      { p with secondary := min 65535 (p.secondary + 1), cls := if raised then w.cls else p.cls,
               folded := p.folded ++ [w.origin], foldedGroups := p.foldedGroups ++ [w.group] }
    let s1 := s.onFc (fun c => { c with slots := sput c.slots slot p', secondary := c.secondary + 1 })
    if raised then
      (s1.onFc (fun c => c.ring { p' with time := s.now, seq := s.fcSeq, kind := 2, blame := w.origin, active := false,
                                          detail := BitVec.ofNat 32 p.seq, made := s.now, folded := [], foldedGroups := [] })).takeSeq srcFc
    else s1

/-- A waiting report takes unit u as the one it blames, and a primary made at `made` is in its window, R405. -/
def Report.takenBy (u : BitVec 12) (made : Nat) (w : Report) : Bool := w.r.blame == some u && decide (made ≤ w.time + 64)

/-- The waiting reports that blame unit u, which the primary of a slot now holds, are folded into it, each followed by those that blame its own
unit, R405. -/
def State.foldWaiting : Nat → State → Nat → BitVec 12 → State
  | 0, s, _, _ => s
  | f + 1, s, slot, u =>
    match sfind s.fc.slots slot with
    | none => s
    | some p =>
      (s.fc.waiting.filter (Report.takenBy u p.made)).foldl (fun t w => State.foldWaiting f (t.fold slot w.r) slot w.r.origin)
        (s.onFc (fun c => { c with waiting := c.waiting.filter (fun w => !w.takenBy u p.made) }))

/-- A report is folded into the primary of a slot, with the waiting reports that blame its unit. -/
def State.foldReport (s : State) (slot : Nat) (w : ReportIn) : State :=
  State.foldWaiting (s.fc.waiting.length + 1) (s.fold slot w) slot w.origin

/-- The latest uncleared primary that takes a report blaming unit u and stamped t, R405. -/
def Collector.takerOf (c : Collector) (u : BitVec 12) (t : Nat) : Option Nat :=
  ((c.slots.filter (fun kv => (kv.2.origin == u || kv.2.folded.contains u) && decide (kv.2.made ≤ t + 64))).foldl
    (fun best kv => match best with
      | none => some kv
      | some b => if b.2.seq ≤ kv.2.seq then some kv else some b) none).map (·.1)

/-- A new primary enters its slot, or none is free and it is dropped, R407. -/
def Collector.store (c : Collector) (slot : Option Nat) (r : FaultRec) : Collector :=
  match slot with
  | some i => { c with slots := sput c.slots i r }
  | none => { c with dropped := c.dropped + 1, overflow := true }

/-- The first primary since the Latch read zero is captured, R406. -/
def Collector.capture (c : Collector) (slot : Option Nat) (r : FaultRec) : Collector :=
  if c.status = 0 ∨ c.firstId = 0 then { c with firstTime := r.time, firstId := firstIdWord (slot.getD 0) r } else c

/-- A record of at least ALT_CLASS starts the FAULT_ALT pulse, R412. -/
def Collector.pulse (c : Collector) (r : FaultRec) : Collector :=
  if c.altClass ≤ r.cls.toNat then { c with altPulse := some r.made } else c

/-- A new primary in the log, its slot, the first capture, the Latch and the FAULT_ALT pulse. -/
def Collector.takePrimary (c : Collector) (slot : Option Nat) (r : FaultRec) : Collector :=
  let c1 := ((c.ring r).store slot r).capture slot r
  { c1 with status := c1.status ||| (1#36 <<< r.group.toNat) }.pulse r

/-- The primary that a report makes, R408. -/
def State.primaryOf (s : State) (stamp made : Nat) (r : ReportIn) (promoted active : Bool) : FaultRec :=
  { time := stamp, seq := s.fcSeq, origin := r.origin, code := r.code, cls := r.cls, promoted := promoted,
    active := active, group := r.group, kind := if s.fc.freeSlot.isNone then 4 else 0, blame := r.blame.getD 0xFFF,
    ctx := r.ctx, part := r.part, detail := r.detail, made := made }

/-- A primary is made from a report, R405 to R408 and R412, and takes the waiting reports that blame its unit. -/
def State.makePrimary (s : State) (stamp made : Nat) (r : ReportIn) (promoted active : Bool) : State :=
  let slot := s.fc.freeSlot
  let p := s.primaryOf stamp made r promoted active
  let s1 := (s.onFc (fun c => c.takePrimary slot p)).takeSeq srcFc
  match slot with
  | none => s1
  | some i => State.foldWaiting (s1.fc.waiting.length + 1) s1 i r.origin

/-- SAFE, R403: every core is preempted, no further release, no further batch, the radio stops, FAULT_N is held low. -/
def State.enterSafe (s : State) : State :=
  if s.dict.state = .safe then s
  else
    { s.setDevState .safe with
      sched := { s.sched with stopped := true }
      spring := { s.spring with stopped := true }
      radio := { s.radio with doors := s.radio.doors.map (fun d => { d with txStopped := true }) }
      cores := s.cores.map (fun c =>
        if (c.st == .running || c.st == .waiting || c.st == .draining) && c.preemptAt.isNone
        then { c with preemptAt := some s.now, st := if c.st == .running then .draining else c.st } else c) }

/-- The device-wide reaction to a class, R401. -/
def State.react (s : State) (cls : Nat) : State :=
  if cls = 3 then (if s.dict.state = .run then s.setDevState .degraded else s)
  else if cls = 4 then s.enterSafe
  else s

/-- A report enters the fault network at this instant, R398, R404 and R405. -/
def State.reportWith (s : State) (r : ReportIn) (active : Bool) : State :=
  let s1 :=
    match r.blame with
    | none => s.makePrimary s.now s.now r false active
    | some u =>
      let s0 := s.onFc (fun c => { c with status := c.status ||| (1#36 <<< r.group.toNat) })
      match s0.fc.takerOf u s.now with
      | some i => s0.foldReport i r
      | none => s0.onFc (fun c => { c with waiting := c.waiting ++ [({ time := s.now, r := r } : Report)] })
  (s1.onFc Collector.settle).react r.cls.toNat

/-- A unit asserts an error pin, R398: the pin stays asserted until its release (ACTIVE, R408). -/
def State.report (s : State) (r : ReportIn) : State := s.reportWith r true

/-- A report by local source, group, code and class, without blame, R398. -/
def State.raise (s : State) (loc group code cls : Nat) (detail : Nat) : State :=
  s.report { origin := BitVec.ofNat 12 (s.sourceId loc), group := BitVec.ofNat 6 group, code := BitVec.ofNat 8 code,
             cls := BitVec.ofNat 3 cls, blame := none, ctx := 0, part := 0, detail := BitVec.ofNat 32 detail }

/-- As `raise`, with the context and partition concerned, R398. -/
def State.raiseCtx (s : State) (loc group code cls ctx part detail : Nat) : State :=
  s.report { origin := BitVec.ofNat 12 (s.sourceId loc), group := BitVec.ofNat 6 group, code := BitVec.ofNat 8 code,
             cls := BitVec.ofNat 3 cls, blame := none, ctx := BitVec.ofNat 18 ctx, part := BitVec.ofNat 4 part,
             detail := BitVec.ofNat 32 detail }

/-- Promotion of the waiting reports whose window has ended, oldest first, R405. -/
def State.promoteDue (s : State) : State :=
  (s.fc.waiting.filter (fun w => decide (w.time + 66 ≤ s.now))).foldl
    (fun t w =>
      if t.fc.waiting.contains w then
        ((t.onFc (fun c => { c with waiting := c.waiting.erase w })).makePrimary w.time (w.time + 66) w.r true true).onFc
          Collector.settle
      else t) s

/-- FAULT_N is low, R404 and R411. -/
def State.faultNLow (s : State) : Bool :=
  !s.pins.porstN || s.fc.exerciseHold || s.fc.exercise == .latch || s.fc.overflow || s.dict.state == .safe
    || s.fc.slots.any (fun kv => decide (s.fc.threshold ≤ kv.2.cls.toNat))
    || s.fc.waiting.any (fun w => decide (s.fc.threshold ≤ w.r.cls.toNat))

/-- The level of the FAULT_ALT ball, R412: low in a pulse, else ALT_SW. -/
def State.faultAltHigh (s : State) : Bool := s.fc.altPulse.isNone && s.fc.altSw

/-! ## Violation seconds, R550 -/

/-- The number of the violation second of an instant. -/
def violSecond (t : Nat) : Nat := t / 1000000000

/-- The throttle of an origin ends when its counts are carried on to violation second k: the second they belong to began after the throttle
and holds at most the limit, or a whole second without violations lies between. -/
def Viol.freed (limit k : Nat) (v : Viol) : Bool :=
  v.throttledSince.any (fun k0 => (decide (k0 < v.second) && decide (v.count ≤ limit)) || decide (v.second + 1 < k))

/-- An origin's counts carried on to violation second k: those of an earlier second have ended. -/
def Viol.roll (limit k : Nat) (v : Viol) : Viol :=
  if k ≤ v.second then v
  else { v with second := k, count := 0, admitted := 0, refused := 0,
                throttledSince := if v.freed limit k then none else v.throttledSince }

/-- A violation of an origin at an instant: its count, and the throttle from the one that takes the count above the limit. -/
def Viol.count1 (limit now : Nat) (v : Viol) : Viol :=
  { v with count := v.count + 1,
           throttledSince := if v.throttledSince.isNone && decide (limit < v.count + 1) then some (violSecond now) else v.throttledSince }

/-- A violation of an origin is counted in the violation second of its instant. -/
def violAdd (limit now : Nat) (key : Nat × Nat × Nat) : List Viol → List Viol
  | [] => [Viol.count1 limit now { key := key, second := violSecond now }]
  | v :: t => if v.key = key then Viol.count1 limit now (v.roll limit (violSecond now)) :: t else v :: violAdd limit now key t

/-- The violations of one origin. -/
def violOf (key : Nat × Nat × Nat) (l : List Viol) : Viol := (l.find? (fun v => v.key == key)).getD { key := key }

/-- An origin is throttled. -/
def violThrottled (key : Nat × Nat × Nat) (l : List Viol) : Bool := (violOf key l).throttledSince.isSome

/-- A request of a throttled origin is counted as admitted or refused, R550. -/
def violRequest (key : Nat × Nat × Nat) (taken : Bool) (l : List Viol) : List Viol :=
  l.map (fun v => if v.key = key then
    (if taken then { v with admitted := v.admitted + 1 } else { v with refused := v.refused + 1 }) else v)

/-- The end of violation second k, R550: counts restart, and a throttle ends after a later second within the limit. -/
def violEnd (limit k : Nat) (l : List Viol) : List Viol :=
  (l.map (Viol.roll limit (k + 1))).filter (fun v => v.throttledSince.isSome)

/-! ## Marginal arrivals, R34 and R35 -/

/-- An arrival at t is in time for an expiry. -/
def inTime (t expiry : Nat) : Bool := decide (t ≤ expiry)

/-- An arrival at t is marginal for an expiry. -/
def marginal (t expiry : Nat) : Bool := decide (t ≤ expiry) && decide (expiry - t ≤ 64)

/-- An expiry is committed: local time has passed it by one granule, R34. -/
def expired (now expiry : Nat) : Bool := decide (expiry + 2 ≤ now)

end Sys2Proof.Machine
end

