-- ==== Sys2Proof/Machine/MemOps.lean ====
section
/-! DEFINITION. Memory: the address map of R43, the (39,32) code of R347 to R350, reading and writing bytes, retirement
of Lake units (R353 to R355), and the Shutters of R361 to R364. -/

namespace Sys2Proof.Machine

/-! ## The address map, R43 -/

/-- What an address of the map names. -/
inductive Place where
  | lake (ch off : Nat)
  | lpddr (off : Nat)
  | reservoir (off : Nat)
  | pond (logical off : Nat)
  | dictWindow (off : Nat)
  | cmdWindow (part off : Nat)
  | fcRegs (off : Nat)
  | shutterRegs (off : Nat)
  | tbRegs (off : Nat)
  | coreRegs (logical off : Nat)
  | remote (node addr : Nat)
  | reserved
  deriving DecidableEq, Repr

/-- Base of the LPDDR window, R43. -/
abbrev lpBase := 0x400000000
/-- Base of the Reservoir, R43. -/
abbrev resBase := 0x1000000000
/-- Base of the Pond windows, R43. -/
abbrev pondBase := 0x1010000000

/-- The place of an address in the map of R43, with FAILED and withdrawn channels (R345, R346) and the LPDDR top (R357)
taken into account. -/
def State.placeOf (s : State) (a : Nat) : Place :=
  if a < 0x200000000 then
    let l := sget {} s.mem.lake (a / 0x8000000)
    if l.state = 2 ∨ l.state = 3 then .reserved else .lake (a / 0x8000000) (a % 0x8000000)
  else if lpBase ≤ a ∧ a < 0xC00000000 then (if a < s.mem.lpTop then .lpddr (a - lpBase) else .reserved)
  else if resBase ≤ a ∧ a < resBase + 0x4000000 then .reservoir (a - resBase)
  else if pondBase ≤ a ∧ a < pondBase + 0x10000000 then .pond ((a - pondBase) / 0x400000) ((a - pondBase) % 0x400000)
  else if 0x2000000000 ≤ a ∧ a < 0x2000010000 then .dictWindow (a - 0x2000000000)
  else if 0x2000010000 ≤ a ∧ a < 0x2000020000 then .cmdWindow ((a - 0x2000010000) / 0x1000) ((a - 0x2000010000) % 0x1000)
  else if 0x2000020000 ≤ a ∧ a < 0x2000030000 then .fcRegs (a - 0x2000020000)
  else if 0x2000030000 ≤ a ∧ a < 0x2000040000 then .shutterRegs (a - 0x2000030000)
  else if 0x2000040000 ≤ a ∧ a < 0x2000041000 then .tbRegs (a - 0x2000040000)
  else if 0x2001000000 ≤ a ∧ a < 0x2001400000 then .coreRegs ((a - 0x2001000000) / 0x10000) ((a - 0x2001000000) % 0x10000)
  else if bit a 47 ∧ bits a 43 40 = 0 ∧ a < 2 ^ 48 then .remote (bits a 46 44) (bits a 39 0)
  else .reserved

/-- The address at which this node serves an access: one that names the node's own id is local, R429. -/
def State.homeAddr (s : State) (a : Nat) : Nat :=
  match s.placeOf a with
  | .remote node off => if node = s.fab.nodeId.toNat then off else a
  | _ => a

/-- The physical core of a logical core, R297 and R298. -/
def State.phys (s : State) (l : Nat) : Nat := (s.sched.coreMap.getD l 0).toNat

/-- The logical core that a physical core carries. -/
def State.logical (s : State) (p : Nat) : Nat := (s.sched.coreMap.findIdx? (fun c => c.toNat == p)).getD p

/-- The reserve unit number of slot k of a channel: the top RETIRE_PAGES units, R340. -/
def State.reserveUnit (s : State) (k : Nat) : Nat := 8192 - s.cfg 0x600005 + k

/-- The storage address of an address: a retired unit's bytes lie in its reserve unit (R354), a Pond window's in the
Pond of the physical core (R298). -/
def State.store (s : State) (a : Nat) : Nat :=
  if a < 0x200000000 then
    let l := sget {} s.mem.lake (a / 0x8000000)
    match l.remap.find? (fun r => r.1 == a % 0x8000000 / 0x4000) with
    | some (_, k) => a / 0x8000000 * 0x8000000 + s.reserveUnit k * 0x4000 + a % 0x4000
    | none => a
  else if pondBase ≤ a ∧ a < pondBase + 0x10000000 then
    pondBase + s.phys ((a - pondBase) / 0x400000) * 0x400000 + (a - pondBase) % 0x400000
  else a

/-- The storage address of a Pond offset of a physical core. -/
def pondAt (n off : Nat) : Nat := pondBase + n * 0x400000 + off

/-! ## The (39,32) code, R347 to R349 -/

/-- The columns of data bits 0 to 31, R347. -/
def eccColumns : List (BitVec 8) :=
  [0x0B, 0x0D, 0x0E, 0x13, 0x15, 0x16, 0x19, 0x1A, 0x1C, 0x23, 0x25, 0x26, 0x29, 0x2A, 0x2C, 0x31,
   0x32, 0x34, 0x43, 0x45, 0x46, 0x49, 0x4A, 0x4C, 0x51, 0x52, 0x54, 0x58, 0x62, 0x64, 0x68, 0x70]

/-- The check bits of a word, R347. -/
def checkBits (w : Word) : BitVec 8 :=
  ((List.range 32).zip eccColumns).foldl (fun c jc => if w.getLsbD jc.1 then c ^^^ jc.2 else c) 0

/-- What a syndrome means, R348. -/
inductive Decoded where
  | clean
  | correct (flip : Word)
  | ue
  | poison
  deriving DecidableEq, Repr

/-- The decoding of a syndrome, R348 and R357. -/
def decodeSyndrome (y : BitVec 8) : Decoded :=
  if y = 0 then .clean
  else if y.getLsbD 7 then .ue
  else if y = 0x7F then .poison
  else if y ∈ ([1, 2, 4, 8, 16, 32, 64] : List (BitVec 8)) then .correct 0
  else match eccColumns.findIdx? (· == y) with
    | some j => .correct (1#32 <<< j)
    | none => .ue

/-! ## Bytes -/

/-- The byte stored at a storage address; what nothing has written reads 0x00 (R336, R346, R359). -/
def Mem.byte (m : Mem) (a : Nat) : Byte := sget 0 m.data a

/-- One byte stored. -/
def Mem.setByte (m : Mem) (a : Nat) (b : Byte) : Mem := { m with data := sset 0 m.data a b }

/-- Bytes stored from a storage address upward. -/
def Mem.setBytes (m : Mem) (a : Nat) : Bytes → Mem
  | [] => m
  | b :: bs => (m.setByte a b).setBytes (a + 1) bs

/-- n bytes from a storage address. -/
def Mem.bytes (m : Mem) (a n : Nat) : Bytes := (List.range n).map (fun i => m.byte (a + i))

/-- The data word at a word number. -/
def Mem.word (m : Mem) (w : Nat) : Word := BitVec.ofNat 32 (leNat (m.bytes (4 * w) 4))

/-- Bits of a stored codeword flip, R347: data bits [31:0], check bits [38:32], LPDDR check byte bit 7 in [39]. -/
def Mem.upset (m : Mem) (w : Nat) (u : BitVec 40) : Mem :=
  let d : Word := u.truncate 32
  let c : BitVec 8 := (u >>> 32).truncate 8
  if u = 0 then m
  else { (m.setBytes (4 * w) (leBytes 4 (m.word w ^^^ d).toNat)) with
         synd := sset 0 m.synd w (sget 0 m.synd w ^^^ c ^^^ checkBits d) }

/-- A correctable word is corrected in place, R350. -/
def Mem.fix (m : Mem) (w : Nat) : Mem :=
  match decodeSyndrome (sget 0 m.synd w) with
  | .correct f => { (m.setBytes (4 * w) (leBytes 4 (m.word w ^^^ f).toNat)) with synd := sdel m.synd w }
  | _ => m

/-- A word is marked poisoned, R349. -/
def Mem.poisonWord (m : Mem) (w : Nat) : Mem := { m with synd := sset 0 m.synd w 0x7F }

/-- The check bits of one word after a write, R337 and R349: a whole word takes its own; a part of a word takes them
from the corrected word, or stays poisoned when the word was uncorrectable. -/
def Mem.rewrite (m : Mem) (poisoned : Bool) (a n w : Nat) : Mem :=
  if poisoned then m.poisonWord w
  else if a ≤ 4 * w ∧ 4 * w + 4 ≤ a + n then { m with synd := sdel m.synd w }
  else match decodeSyndrome (sget 0 m.synd w) with
    | .clean => m
    | .correct f => { (m.setBytes (4 * w) (leBytes 4 (m.word w ^^^ f).toNat)) with synd := sdel m.synd w }
    | _ => m.poisonWord w

/-- The word numbers that n bytes from a touch. -/
def wordsOf (a n : Nat) : List Nat := if n = 0 then [] else (List.range ((a + n - 1) / 4 + 1 - a / 4)).map (· + a / 4)

/-- Bytes written at a storage address with their check bits, R337 and R349. -/
def Mem.write (m : Mem) (a : Nat) (bs : Bytes) (poisoned : Bool) : Mem :=
  ((if m.synd.isEmpty && !poisoned then m
    else (wordsOf a bs.length).foldl (fun t w => t.rewrite poisoned a bs.length w) m)).setBytes a bs

/-- The canonical form of memory: data and check tables rising, without defaults. -/
def Mem.wf (m : Mem) : Bool := sparseWf (0 : Byte) m.data && sparseWf (0 : BitVec 8) m.synd

/-- The pieces of a range that lie together in storage: storage address, offset in the range, length (R354 moves whole
16 KiB units). -/
def State.pieces (s : State) (a n : Nat) : List (Nat × Nat × Nat) :=
  if n = 0 then []
  else (List.range ((a + n - 1) / 0x4000 + 1 - a / 0x4000)).map (fun i =>
    let u := a / 0x4000 + i
    let lo := max a (u * 0x4000)
    let hi := min (a + n) ((u + 1) * 0x4000)
    (s.store lo, lo - a, hi - lo))

/-! ## The tables that the schedule engine keeps in the Lake, R163 and R176 -/

/-- CLASS of a partition: 0xFF for P0, R293 and R296. -/
def State.partClass (s : State) (p : Nat) : Nat := if p = 0 then 0xFF else s.cfgField (kPartition p) 0 1

/-- The 64 bytes of a context-table entry, R165. -/
def ctxBytes (c : Ctx) (cls : Nat) : Bytes :=
  let pages := c.rows.flatten
  let lake := (pages.filter (fun p => match p with | .lake _ _ => true | .swap _ => false)).length
  leBytes 1 c.st.code ++ leBytes 1 (c.part.toNat + place cls 4) ++ leBytes 1 c.prio
    ++ leBytes 1 (flagAt c.pinned 0 + flagAt c.kv 1 + flagAt c.forked 2 + flagAt c.leave 3)
    ++ leBytes 4 c.modelId.toNat ++ leBytes 4 c.step.toNat ++ leBytes 4 c.positions ++ leBytes 4 c.arrival
    ++ leBytes 4 lake ++ leBytes 4 (pages.length - lake) ++ leBytes 2 c.layers ++ leBytes 1 c.kvHeads ++ leBytes 1 c.split
    ++ leBytes 8 c.blockTable ++ leBytes 8 c.releaseAt ++ leBytes 8 c.lastRun ++ leBytes 4 c.parent.toNat
    ++ leBytes 2 c.blockCap ++ leBytes 1 c.endReason ++ [0]

/-- Some of n bytes from an address lie in the context table, R163. -/
def meetsCtxTable (a n : Nat) : Bool :=
  decide (a < 0x200000000) && decide (Config.ctxTableBase < a + n) && decide (a < Config.ctxTableBase + 0x1000000)

/-- All of n bytes from an address lie in the context table. -/
def inCtxTable (a n : Nat) : Bool :=
  decide (a < 0x200000000) && decide (Config.ctxTableBase ≤ a) && decide (a + n ≤ Config.ctxTableBase + 0x1000000)

/-- The byte of the context table at an offset, R163 and R165; a FREE entry is all zero. -/
def State.ctxTableByte (s : State) (off : Nat) : Byte :=
  match sfind s.ctx.table (off / 64) with
  | some c => (ctxBytes c (s.partClass c.part.toNat % 16)).getD (off % 64) 0
  | none => 0

/-- The number of a Lake page. -/
def pageNo (ch : BitVec 6) (index : Nat) : Nat := ch.toNat * 2 ^ 25 + index

/-- The reference count of a page; a swap page carries none. -/
def Contexts.count (x : Contexts) : Page → Nat
  | .lake ch i => ((sfind x.pages (pageNo ch i)).map (·.2)).getD 0
  | .swap _ => 1

/-- Bytes of the count table, R176: a U16 for each page of the pool, the pages of channel 0 first. -/
def State.countTableLen (s : State) : Nat := 2 * s.cfg 0x310003

/-- The byte of the count table at an offset. -/
def State.countByte (s : State) (off : Nat) : Byte :=
  let per := max 1 (s.cfg 0x310003 / 64)
  let n := off / 2
  (leBytes 2 (s.ctx.count (.lake (BitVec.ofNat 6 (n / per)) (n % per)))).getD (off % 2) 0

/-- Some entry of the two tables is in use; with none, both read zero as their memory does. -/
def State.tablesHeld (s : State) : Bool := !(s.ctx.table.isEmpty && s.ctx.pages.isEmpty)

/-- What a byte of the Lake reads as: that of a table where one lies, else the stored one. -/
def State.tableByte (s : State) (a : Nat) (b : Byte) : Byte :=
  if inCtxTable a 1 then s.ctxTableByte (a - Config.ctxTableBase)
  else if decide (Config.kvRefcountBase ≤ a) && decide (a < Config.kvRefcountBase + s.countTableLen) then s.countByte (a - Config.kvRefcountBase)
  else b

/-- The bytes of a range of the map, as they are: the stored ones, and the entries of the schedule engine's tables where these lie. -/
def State.peek (s : State) (a n : Nat) : Bytes :=
  let raw := ((s.pieces a n).map (fun p => s.mem.bytes p.1 p.2.2)).flatten
  if a < 0x200000000 ∧ s.tablesHeld then (raw.zip (List.range n)).map (fun x => s.tableByte (a + x.2) x.1) else raw

/-! ## CC_ERR and its reports, R85 and R87 -/

/-- The group mode of a core: 0 single, 1 pair, 2 triad, 3 detecting pair. -/
def Core.mode (c : Core) : Nat := if c.group.getLsbD 25 then 3 else (c.group.toNat % 4)

/-- A CC_ERR bit is set, with FIRST_PC when the register was clear, R85. -/
def Core.setErr (c : Core) (b : Nat) : Core :=
  { c with err := c.err ||| (1#15 <<< b), firstPc := if c.err = 0 then BitVec.ofNat 16 c.pc else c.firstPc }

/-- A CC_ERR bit is set and its report raised with a class, a blamed unit and DETAIL, R87, R398. -/
def State.ccErrWith (s : State) (n b cls : Nat) (blame : Option (BitVec 12)) (ctx part detail : Nat) : State :=
  (s.onCore n (·.setErr b)).report
    { origin := BitVec.ofNat 12 (s.sourceId n), group := BitVec.ofNat 6 (quadrant n), code := BitVec.ofNat 8 b,
      cls := BitVec.ofNat 3 cls, blame := blame, ctx := BitVec.ofNat 18 ctx, part := BitVec.ofNat 4 part,
      detail := BitVec.ofNat 32 detail }

/-- A CC_ERR bit of the running context, with the class of R87 and R400. -/
def State.ccErr (s : State) (n b detail : Nat) : State :=
  s.ccErrWith n b (ccErrClass b (s.core n).mode) none (s.core n).ctx.toNat (s.core n).ctlPart.toNat detail

/-! ## Corrections and retirement, R353 to R355 and R360 -/

/-- A Lake channel. -/
def State.lake (s : State) (ch : Nat) : LakeCh := sget {} s.mem.lake ch

/-- A Lake channel changed. -/
def State.onLake (s : State) (ch : Nat) (f : LakeCh → LakeCh) : State :=
  s.onMem (fun m => { m with lake := supd {} m.lake ch f })

/-- Counter i of a Lake channel, in LK_CNT order, is increased. -/
def State.lakeCount (s : State) (ch i : Nat) : State := s.onLake ch (fun l => { l with counters := sinc l.counters i })

/-- A report of Lake channel ch, R399. -/
def State.lakeReport (s : State) (ch code cls detail : Nat) : State :=
  s.raise (0x40 + ch) (4 + quadrant ch) code cls detail

/-- The entry of the correction table that a new unit replaces, R353: fewest corrections, the earliest among equals. -/
def ceVictim (l : List (Nat × Nat)) : Nat :=
  (l.foldl (fun b e => match b with
    | none => some e
    | some m => if e.2 < m.2 then some e else some m) none).elim 0 (·.1)

/-- A correction in a unit enters the table of 32 units, R353. -/
def ceCount (l : List (Nat × Nat)) (u : Nat) : List (Nat × Nat) :=
  if l.any (·.1 == u) then l.map (fun e => if e.1 = u then (u, e.2 + 1) else e)
  else if l.length < 32 then l ++ [(u, 1)]
  else l.filter (fun e => e.1 != ceVictim l) ++ [(u, 1)]

/-- A unit qualifies for retirement: it is copied, waits, or finds the reserve full, R354 and R355. -/
def State.retireUnit (s : State) (ch u : Nat) : State :=
  let l := s.lake ch
  if l.remap.any (·.1 == u) || l.copying == some u || l.waiting.contains u then s
  else if s.cfg 0x600005 ≤ l.remap.length + l.waiting.length + (if l.copying.isSome then 1 else 0) then
    (s.lakeCount ch 6).lakeReport ch 6 0 u
  else if l.copying.isNone then s.onLake ch (fun x => { x with copying := some u })
  else s.onLake ch (fun x => { x with waiting := x.waiting ++ [u] })

/-- A correction in a Lake channel, R353 and R360. -/
def State.lakeCe (s : State) (ch u granule : Nat) : State :=
  let s1 := ((s.lakeCount ch 0).lakeReport ch 0 1 granule).onLake ch (fun l => { l with ceTable := ceCount l.ceTable u })
  if s.cfg 0x600004 ≤ sget 0 (s1.lake ch).ceTable u then s1.retireUnit ch u else s1

/-- DETAIL of an address: its 64 KiB granule, which fills 32 bits. -/
def granule (a : Nat) : Nat := a / 0x10000

/-- A corrected word at an address of the map is counted and reported, R360. -/
def State.reportCe (s : State) (a : Nat) : State :=
  match s.placeOf a with
  | .lake ch off => s.lakeCe ch (off / 0x4000) (granule a)
  | .lpddr off => (s.onMem (fun m => { m with lpCounters := sinc m.lpCounters (off / 512 % 4 * 3) })).raise
      (0x9C + off / 512 % 4) 13 0 1 (granule a)
  | .reservoir _ => (s.onMem (fun m => { m with sramCe := m.sramCe + 1 })).raise 0xB8 12 0 1 (granule a)
  | .pond l _ => (s.onMem (fun m => { m with sramCe := m.sramCe + 1 })).ccErr (s.phys l) ePondCe (granule a)
  | _ => s

/-- An uncorrectable word is counted and reported by its memory, R360; a Pond's consumer reports it. -/
def State.reportUe (s : State) (a : Nat) : State :=
  match s.placeOf a with
  | .lake ch _ => (s.lakeCount ch 1).lakeReport ch 1 2 (granule a)
  | .lpddr off => (s.onMem (fun m => { m with lpCounters := sinc m.lpCounters (off / 512 % 4 * 3 + 1) })).raise
      (0x9C + off / 512 % 4) 13 1 2 (granule a)
  | .reservoir _ => (s.onMem (fun m => { m with sramUe := m.sramUe + 1 })).raise 0xB8 12 1 2 (granule a)
  | .pond _ _ => s.onMem (fun m => { m with sramUe := m.sramUe + 1 })
  | _ => s

/-- A poisoned word read from the Lake or LPDDR is counted and reported, R360. -/
def State.reportPoison (s : State) (a : Nat) : State :=
  match s.placeOf a with
  | .lake ch _ => (s.lakeCount ch 2).lakeReport ch 2 0 (granule a)
  | .lpddr off => (s.onMem (fun m => { m with lpCounters := sinc m.lpCounters (off / 512 % 4 * 3 + 2) })).raise
      (0x9C + off / 512 % 4) 13 2 0 (granule a)
  | _ => s

/-- The unit that a consumer blames for bad data at an address, R360 and R405; none for its own Pond. -/
def State.blameOf (s : State) (a : Nat) : Option (BitVec 12) :=
  match s.placeOf a with
  | .lake ch _ => some (BitVec.ofNat 12 (s.sourceId (0x40 + ch)))
  | .lpddr off => some (BitVec.ofNat 12 (s.sourceId (0x9C + off / 512 % 4)))
  | .reservoir _ => some (BitVec.ofNat 12 (s.sourceId 0xB8))
  | _ => none

/-- One word of a read is decoded, R348, R350 and R360: the state, and whether the word is delivered poisoned. -/
def State.readWord (s : State) (a : Nat) : State × Bool :=
  let w := s.store a / 4
  match decodeSyndrome (sget 0 s.mem.synd w) with
  | .clean => (s, false)
  | .correct _ => ((s.onMem (·.fix w)).reportCe a, false)
  | .ue => (s.reportUe a, true)
  | .poison => (s.reportPoison a, true)

/-- The words of which a write of n bytes changes a part only are read and corrected first, R337: what that read finds is counted and
reported as any read's, R360. -/
def State.mergeReads (s : State) (a n : Nat) : State :=
  if s.mem.synd.isEmpty then s
  else ((wordsOf a n).filter (fun w => !(decide (a ≤ 4 * w) && decide (4 * w + 4 ≤ a + n)))).foldl (fun t w => (t.readWord (4 * w)).1) s

/-- Bytes written to a range of the map, after the reads that merging needs. -/
def State.poke (s : State) (a : Nat) (bs : Bytes) (poisoned : Bool) : State :=
  (s.mergeReads a bs.length).onMem (fun m => (s.pieces a bs.length).foldl (fun t p => t.write p.1 (slice bs p.2.1 p.2.2) poisoned) m)

/-- A read of n bytes with its check bits decoded: the state, the bytes, and the first poisoned address, if any. -/
def State.readMem (s : State) (a n : Nat) : State × Bytes × Option Nat :=
  if s.mem.synd.isEmpty then (s, s.peek a n, none)
  else
    let r := (wordsOf a n).foldl (fun (x : State × Option Nat) w =>
      let y := x.1.readWord (4 * w)
      (y.1, if y.2 && x.2.isNone then some (4 * w) else x.2)) (s, none)
    (r.1, r.1.peek a n, r.2)

/-! ## The Shutters, R361 to R364 -/

/-- The source id of an initiator, R363. -/
def initiatorSource : Initiator → Nat
  | .app h => 0x80 + h.val
  | .island => srcIsland
  | .core n => n.toNat
  | .engine _ src => src.toNat
  | .fabric d => 0xAD + d.val

/-- The access reaches into a channel's retirement reserve, R340. -/
def State.reachesReserve (s : State) (a n : Nat) : Bool :=
  decide (a < 0x200000000) && (List.range ((a + n - 1) / 0x4000 + 1 - a / 0x4000)).any (fun i =>
    decide (a / 0x4000 + i < 524288) && decide (8192 - s.cfg 0x600005 ≤ (a / 0x4000 + i) % 8192))

/-- The weight bank that R282 locks for carrier c: first address and size. -/
def State.lockedBank (s : State) (c : Nat) : Option (Nat × Nat) :=
  let k := s.radio.carriers.getD c {}
  match k.verdict, k.candidate with
  | 1, some (_, b) =>
    some (s.cfgField (0x510000 + 256 * c) 0x30 8 + b * s.cfgField (0x510000 + 256 * c) 0x38 4,
          s.cfgField (0x510000 + 256 * c) 0x38 4)
  | _, _ => none

/-- A write touches a bank that R282 locks. -/
def State.hitsLockedBank (s : State) (a n : Nat) : Bool :=
  (List.range 4).any (fun c => match s.lockedBank c with
    | some (b, z) => decide (a < b + z) && decide (b < a + n)
    | none => false)

/-- A region of the Shutters. -/
def State.region (s : State) (q : Nat) : Region := sget {} s.mem.regions q

/-- Region q is enabled and holds the 64 KiB granule g. -/
def State.regionHolds (s : State) (q g : Nat) : Bool :=
  let r := s.region q
  r.base.getLsbD 0 && decide (bits r.base.toNat 47 16 ≤ g) && decide (g ≤ bits r.limit.toNat 47 16)

/-- The region that decides an access: the lowest-numbered that holds its first granule, R361. -/
def State.decider (s : State) (a : Nat) : Option Nat := (List.range 128).find? (fun q => s.regionHolds q (a / 0x10000))

/-- The rights of a region for the initiator, R361. `part` is the partition of the running program. -/
def rightsAdmit (rights : Nat) (by_ : Initiator) (part : Nat) (write : Bool) : Bool :=
  match by_ with
  | .app _ => bit rights (if write then 49 else 48)
  | .island => true
  | .core _ => bit rights ((if write then 16 else 0) + part)
  | .engine b _ => bit rights ((if write then 40 else 32) + b.toNat)
  | .fabric _ => bit rights ((if write then 40 else 32) + 5)

/-- The Shutters' decision on an access, R361: permitted, and the region that decided. -/
def State.shutter (s : State) (by_ : Initiator) (part a n : Nat) (write : Bool) : Bool × Option Nat :=
  if s.reachesReserve a n then (false, none)
  else match by_ with
  | .island => (true, none)
  | _ =>
    if meetsCtxTable a n && !(match by_ with | .app _ => !write | .engine b _ => b == 3 | _ => false) then (false, none)
    else if inCtxTable a n then (true, none)
    else if write && s.hitsLockedBank a n && (match by_ with | .app _ => false | _ => true) then (false, none)
    else if !s.mem.enforce then (true, none)
    else match s.decider a with
      | none => (false, none)
      | some q =>
        if bits (s.region q).limit.toNat 47 16 < (a + n - 1) / 0x10000 then (false, some q)
        else (rightsAdmit (s.region q).rights.toNat by_ part write, some q)

/-- The partition charged for an access, R362 and R365. -/
def State.charged (s : State) (by_ : Initiator) (part : Nat) (q : Option Nat) : Nat :=
  match by_ with
  | .core _ => part
  | _ => match q with
    | some r => bits (s.region r).rights.toNat 55 52
    | none => 0

/-- SH_VIOL_SRC as a register word, R363. -/
def violSrcWord (src part : Nat) (q : Option Nat) (write : Bool) : Word64 :=
  BitVec.ofNat 64 (2 ^ 32 + place (q.getD 0xFF) 24 + place part 20 + flagAt write 16 + src)

/-- A refusal is counted, latched and reported, R362, R363 and R398. The initiator's own outcome follows in its chapter. -/
def State.refuse (s : State) (by_ : Initiator) (part a : Nat) (write : Bool) (q : Option Nat) : State :=
  let src := s.sourceId (initiatorSource by_)
  let p := s.charged by_ part q
  let cx := match by_ with | .core n => (s.core n.toNat).ctx.toNat | _ => 0
  (s.onMem (fun m =>
    let m1 := { m with violCnt := m.violCnt + 1 }
    let m2 := match q with
      | some r => { m1 with regions := supd {} m1.regions r (fun g => { g with refused := min (2 ^ 32 - 1) (g.refused + 1) }) }
      | none => m1
    if m.violSrc.getLsbD 32 then m2
    else { m2 with violAddr := BitVec.ofNat 64 a, violSrc := violSrcWord src (match by_ with | .core _ => part | _ => 0) q write })).raiseCtx
      (initiatorSource by_) 29 0 2 cx p (granule a)

/-! ## Louvres, R365 to R367 -/

/-- The tier of an address for the Louvres: 0 Lake, 1 Reservoir, 2 LPDDR, 3 fabric. -/
def State.tierOf (s : State) (a : Nat) : Option Nat :=
  match s.placeOf a with
  | .lake _ _ => some 0
  | .reservoir _ => some 1
  | .lpddr _ => some 2
  | .remote _ _ => some 3
  | _ => none

/-- The target of an address within its tier, R365: channel, slice or LPDDR channel, primary fabric door. -/
def State.targetOf (s : State) (a : Nat) : Nat :=
  match s.placeOf a with
  | .lake ch _ => ch
  | .reservoir _ => a / 64 % 16
  | .lpddr off => off / 512 % 4
  | .remote node _ => (s.fab.routes.getD node 0xFF).toNat % 4
  | _ => 0

/-- A target's rate in 1/512 of a 64-byte access per ns, times 2: Lake channel and fabric door 32 GB/s, Reservoir slice
64 GB/s, LPDDR channel 34.125 GB/s. -/
def tierRate (t : Nat) : Nat := if t = 1 then 1024 else if t = 2 then 546 else 512

/-- The buckets of a partition at a target, refilled up to now, R365. -/
def State.bucket (s : State) (part t target : Nat) : Bucket :=
  let l := sget {} s.mem.louvres (4 * part + t)
  match sfind s.mem.buckets ((t * 64 + target) * 16 + part) with
  | none => ⟨l.burst * 512, l.burst * 512, s.now⟩
  | some b =>
    let gain := (s.now - b.stamp) * tierRate t
    ⟨min (l.burst * 512) (b.reserve + gain * l.reserve / 512), min (l.burst * 512) (b.limit + gain * l.limit / 512), s.now⟩

/-- A served access takes one token from each bucket that holds one, R366; a token is 512 units. -/
def takeTokens (b : Bucket) : Bucket :=
  { b with reserve := if 512 ≤ b.reserve then b.reserve - 512 else b.reserve
           limit := if 512 ≤ b.limit then b.limit - 512 else b.limit }

/-- n bytes of one 64-byte access are charged to a partition's Louvre at the target, R365 and R366: LV_BYTES counts them, and LV_HELD counts
an access for which neither bucket holds a token. -/
def State.charge (s : State) (part a n : Nat) : State :=
  match s.tierOf a with
  | some t =>
    let k := (t * 64 + s.targetOf a) * 16 + part
    let b := s.bucket part t (s.targetOf a)
    s.onMem (fun m =>
      { m with
        louvres := supd {} m.louvres (4 * part + t)
          (fun l => { l with bytes := l.bytes + n, held := l.held + (if b.limit < 512 ∧ b.reserve < 512 then 1 else 0) })
        buckets := sput m.buckets k (takeTokens b) })
  | none => s

/-! ## Page state of the Lake and the check cache of LPDDR -/

/-- The hashed bank of an offset, R339. -/
def State.lakeBank (s : State) (off : Nat) : Nat :=
  let row := bits off 26 14
  (List.range 4).foldl (fun b i =>
    let mask := bits (s.cfg 0x600002) (16 * i + 12) (16 * i)
    b + flagAt (bit off (10 + i) != parityOf 13 (Nat.land row mask)) i) 0

/-- An access opens its row in its bank, or leaves it closed with LK_IDLE 0, R342, and enters the retry buffer, R345. -/
def State.lakeTouch (s : State) (ch off : Nat) : State :=
  s.onLake ch (fun l =>
    { l with
      openRow := if s.cfg 0x600001 = 0 then sdel l.openRow (s.lakeBank off) else sput l.openRow (s.lakeBank off) (bits off 26 14)
      retryBuf := (l.retryBuf.filter (fun e => decide (s.now < e.1 + 16)) ++ [(s.now, off)]).drop
        ((l.retryBuf.filter (fun e => decide (s.now < e.1 + 16))).length + 1 - 16)
      alerts := 0 })

/-- A data write updates its line in the check cache of its LPDDR channel: the oldest of 32 lines gives way, R358. -/
def State.lpTouch (s : State) (off : Nat) : State :=
  s.onMem (fun m =>
    let ch := off / 512 % 4
    let l := (sget [] m.lpCache ch).filter (· != off / 256) ++ [off / 256]
    { m with lpCache := sput m.lpCache ch (l.drop (l.length - 32)) })

/-- The tiers' own state after an access. -/
def State.touch (s : State) (a : Nat) (write : Bool) : State :=
  match s.placeOf a with
  | .lake ch off => s.lakeTouch ch off
  | .lpddr off => if write then s.lpTouch off else s
  | _ => s

/-- The 64-byte accesses of a range: address and bytes of each. -/
def accessesOf (a n : Nat) : List (Nat × Nat) :=
  if n = 0 then []
  else (List.range ((a + n - 1) / 64 + 1 - a / 64)).map (fun i =>
    let lo := max a ((a / 64 + i) * 64)
    (lo, min (a + n) ((a / 64 + i + 1) * 64) - lo))

/-- A range is served in accesses of 64 bytes, each charged at its own target and met by its tier's own state. -/
def State.louvre (s : State) (part a n : Nat) (write : Bool) : State :=
  (accessesOf a n).foldl (fun t x => (t.charge part x.1 x.2).touch x.1 write) s

/-- The first 512-byte group of a range of LPDDR that is not initialised yet, R359. -/
def State.lpUnready (s : State) (a n : Nat) : Option Nat :=
  ((List.range ((a + n - 1) / 512 + 1 - a / 512)).map (· + a / 512)).find? (fun g =>
    decide (s.mem.lpMark < (g + 1) * 512) && !s.mem.lpAhead.contains g)

/-- An access that memory serves must wait, R336, R354 and R359: initialisation, or the copy of its unit. -/
def State.mustWait (s : State) (a n : Nat) : Bool :=
  match s.placeOf a with
  | .pond _ _ => !s.mem.pondReady
  | .reservoir _ => !s.mem.reservoirReady
  | .lpddr _ => (s.lpUnready a n).isSome
  | .lake _ _ => (List.range ((a + n - 1) / 0x4000 + 1 - a / 0x4000)).any (fun i =>
      (s.lake ((a / 0x4000 + i) / 8192)).copying == some ((a / 0x4000 + i) % 8192))
  | _ => false

end Sys2Proof.Machine
end

