-- ==== Sys2Proof/Machine/GroupOps.lean ====
section
/-! DEFINITION. Redundant groups as the table and their run time name them (R300, R551), the words that a core's units write
or send (R81), and writes into Pond windows (R379). -/

namespace Sys2Proof.Machine

/-! ## Groups of the table -/

/-- A group entry of the table in force. -/
def State.groupEntry (s : State) (g : Nat) : Option GroupEntry := s.sched.table.bind (fun t => t.groups[g]?)

/-- The run time of a group. -/
def State.groupRt (s : State) (g : Nat) : GroupRt := sget {} s.sched.groups g

/-- The run time of a group changed. -/
def State.onGroup (s : State) (g : Nat) (f : GroupRt → GroupRt) : State :=
  s.onSched (fun x => { x with groups := supd {} x.groups g f })

/-- The logical cores of a group. -/
def State.groupCores (s : State) (g : Nat) : List Nat := ((s.groupEntry g).map (fun e => e.cores.map (·.toNat))).getD []

/-- The physical cores of a group in MEMBER order. -/
def State.groupPhys (s : State) (g : Nat) : List Nat := (s.groupCores g).map s.phys

/-- The group whose member a logical core is; a split pair is no group, R551. -/
def State.groupOf (s : State) (l : Nat) : Option Nat :=
  (List.range 32).find? (fun g => (s.groupCores g).contains l && !(s.groupRt g).split)

/-- The MEMBER index of a logical core in its group. -/
def State.memberIndex (s : State) (g l : Nat) : Nat := ((s.groupCores g).findIdx? (· == l)).getD 0

/-- The group runs as a triad by its entry. -/
def State.isTriad (s : State) (g : Nat) : Bool := ((s.groupEntry g).map (·.mode)).getD 0 == 2

/-- The physical cores of the active members. -/
def State.activePhys (s : State) (g : Nat) : List Nat := (s.groupRt g).active.filterMap (fun m => (s.groupPhys g)[m]?)

/-- The member that its group restores is core n, R382. -/
def State.beingRestored (s : State) (n : Nat) : Bool :=
  (List.range 32).any (fun g => match (s.groupRt g).resync with
    | some r => (s.groupPhys g)[r.1]? == some n
    | none => false)

/-- R551: the members that the mode needs are active. -/
def State.groupWhole (s : State) (g : Nat) : Bool := decide (2 ≤ (s.groupRt g).active.length)

/-! ## Unit signatures, R81 -/

/-- Bytes as 64-bit little-endian words, each most significant byte first. -/
def wordsMsb : Nat → Bytes → Bytes
  | 0, _ => []
  | n + 1, bs => (fitBytes 8 (bs.take 8)).reverse ++ wordsMsb n (bs.drop 8)

/-- Unit u of a core (0 epilogue, 1 vector unit, 2 TM0, 3 TM1, 4 mesh port) writes or sends bytes, R81. -/
def Core.signUnit (c : Core) (u : Nat) (bs : Bytes) : Core :=
  { c with unitCrc := updAt c.unitCrc u (fun v => BitVec.ofNat 64 (crc64Add v.toNat (wordsMsb ((bs.length + 7) / 8) bs))) }

/-! ## Writes that reach a Pond through its mesh port, R81 and R379 -/

/-- The physical cores whose Pond takes a write into the window of a logical core: every active member of its group. -/
def State.windowCores (s : State) (l : Nat) : List Nat :=
  match s.groupOf l with
  | some g => if (s.activePhys g).isEmpty then [s.phys l] else s.activePhys g
  | none => [s.phys l]

/-- Bytes written to the map: a Pond window of a group member is written in every active member's Pond, R379, by the member's mesh port,
whose CRC takes the words, R81; a core's own window is its own. -/
def State.busWrite (s : State) (by_ : Initiator) (a : Nat) (bs : Bytes) (poisoned : Bool) : State :=
  if pondBase ≤ a ∧ a < pondBase + 0x10000000 then
    let l := (a - pondBase) / 0x400000
    if (match by_ with | .core n => s.phys l == n.toNat | _ => false) then s.poke a bs poisoned
    else
      let ns := s.windowCores l
      let t := if ns == [s.phys l] then s.poke a bs poisoned
        else ns.foldl (fun t n => t.poke (pondBase + s.logical n * 0x400000 + (a - pondBase) % 0x400000) bs poisoned) s
      ns.foldl (fun t n => t.onCore n (fun c => c.signUnit 4 bs)) t
  else s.poke a bs poisoned

end Sys2Proof.Machine
end

