-- ==== Sys2Proof/Machine/WindowOps.lean ====
section
/-! DEFINITION. Shared operations on command windows (R317 to R320), contexts and their pages (R165 to R176, R196), and
accounting (R332). -/

namespace Sys2Proof.Machine

/-! ## Accounting -/

/-- The accounting record of a partition changed. -/
def State.onAcct (s : State) (p : Nat) (f : Acct → Acct) : State :=
  s.onSched (fun x => { x with acct := supd {} x.acct p f })

/-! ## Partition records, R296 -/

/-- MODE of a partition. -/
def State.partMode (s : State) (p : Nat) : Nat := s.cfgField (kPartition p) 1 1
/-- FLAGS.ENABLED. -/
def State.partEnabled (s : State) (p : Nat) : Bool := p == 0 || bit (s.cfgField (kPartition p) 2 1) 0
/-- FLAGS.BACKGROUND. -/
def State.partBackground (s : State) (p : Nat) : Bool := bit (s.cfgField (kPartition p) 2 1) 1
/-- MISS_RUN. -/
def State.partMissRun (s : State) (p : Nat) : Nat := s.cfgField (kPartition p) 3 1
/-- BUDGET_NS. -/
def State.partBudget (s : State) (p : Nat) : Nat := s.cfgField (kPartition p) 4 4
/-- CORES, the logical core set. -/
def State.partCores (s : State) (p : Nat) : Nat := s.cfgField (kPartition p) 8 8
/-- MAX_PENDING; that of P0, whose record has no write, is 256, log 11. -/
def State.partMaxPending (s : State) (p : Nat) : Nat := if p = 0 then 256 else s.cfgField (kPartition p) 16 2
/-- MAX_JOBS. -/
def State.partMaxJobs (s : State) (p : Nat) : Nat := s.cfgField (kPartition p) 18 2
/-- The partition is of class A or above. -/
def State.rated (s : State) (p : Nat) : Bool := decide (1 ≤ s.partClass p) && decide (s.partClass p ≤ 4)

/-! ## The schedule engine's own bus writes, R361 and R362 -/

/-- A write by an engine of the region table: checked by the Shutters, discarded when refused. The flag says it landed. -/
def State.engineWrite (s : State) (ebit src a : Nat) (bs : Bytes) : State × Bool :=
  let who := Initiator.engine (BitVec.ofNat 3 ebit) (BitVec.ofNat 9 src)
  let d := s.shutter who 0 a bs.length true
  if d.1 then
    match s.placeOf a with
    | .lake _ _ | .lpddr _ | .reservoir _ | .pond _ _ =>
      ((s.busWrite who a bs false).louvre (s.charged who 0 d.2) a bs.length true, true)
    | _ => ((s.raise src 29 0 2 (granule a)), false)
  else ((s.refuse who 0 a true d.2).logEvent src 2 .engineRefused [a], false)

/-- A read by an engine of the region table: none when the Shutters refuse it, no memory holds it, or a word is bad. -/
def State.engineRead (s : State) (ebit src a n : Nat) : State × Option Bytes :=
  let who := Initiator.engine (BitVec.ofNat 3 ebit) (BitVec.ofNat 9 src)
  let d := s.shutter who 0 a n false
  if d.1 then
    match s.placeOf a with
    | .lake _ _ | .lpddr _ | .reservoir _ | .pond _ _ =>
      let r := (s.louvre (s.charged who 0 d.2) a n false).readMem a n
      (r.1, if r.2.2.isNone then some r.2.1 else none)
    | _ => (s.raise src 29 0 2 (granule a), none)
  else ((s.refuse who 0 a false d.2).logEvent src 2 .engineRefused [a], none)

/-! ## Completions, R319 and R320 -/

/-- The window of partition p. -/
def State.window (s : State) (p : Nat) : Window := sget {} s.sched.windows p

/-- The window of partition p changed. -/
def State.onWindow (s : State) (p : Nat) (f : Window → Window) : State :=
  s.onSched (fun x => { x with windows := supd {} x.windows p f })

/-- The 16-byte completion record, R320. -/
def completionBytes (c : Completion) : Bytes :=
  leBytes 4 c.seq.toNat ++ [c.opcode] ++ leBytes 1 c.status ++ [0, 0] ++ leBytes 8 c.result

/-- CMPL_DONE moves over every number that has completed. -/
def advanceDone : Nat → Word → List Word → Word × List Word
  | 0, d, l => (d, l)
  | n + 1, d, l => if l.contains d then advanceDone n (d + 1) (l.erase d) else (d, l)

/-- A completion whose record has landed: CMPL_DONE, CMPL_LAST, PENDING and the MSI, R320. -/
def State.completeLanded (s : State) (p : Nat) (c : Completion) : State :=
  let s1 := s.onWindow p (fun w =>
    let r := advanceDone (w.doneAhead.length + 1) w.cmplDone (w.doneAhead ++ [c.seq])
    { w with cmds := w.cmds.filter (fun x => x.seq != c.seq), pending := w.pending - 1, cmplLast := c.seq,
             cmplDone := r.1, doneAhead := r.2 })
  let w := s1.window p
  if w.irqEn && c.irq then s1.emit (.msi w.msiAddr.toNat w.msiData.toNat) else s1

/-- A completion is written to the ring and counted, or held when the write is refused or no ring is set, R317, R320. -/
def State.writeCompletion (s : State) (p : Nat) (c : Completion) : State :=
  let w := s.window p
  if w.cqFault || w.cqLog2.toNat < 8 || decide (16 < w.cqLog2.toNat) then
    s.onWindow p (fun x => { x with cqFault := true, heldCq := x.heldCq ++ [c] })
  else
    let r := s.engineWrite 3 srcSched (w.cqBase.toNat * 64 + 16 * (c.seq.toNat % 2 ^ w.cqLog2.toNat)) (completionBytes c)
    if r.2 then r.1.completeLanded p c
    else r.1.onWindow p (fun x => { x with cqFault := true, heldCq := x.heldCq ++ [c] })

/-- An accepted command completes with a status and a result. -/
def State.complete (s : State) (p : Nat) (seq : Word) (status result : Nat) : State :=
  match (s.window p).cmds.find? (fun x => x.seq == seq) with
  | none => s
  | some x => s.writeCompletion p
      { seq := seq, opcode := x.w0.truncate 8, status := status, result := result, irq := x.w0.getLsbD 8 }

/-- CQ_FAULT is cleared: the held completions of a window are tried again, in order, R317. -/
def State.retryHeld (s : State) (p : Nat) : State :=
  (s.window p).heldCq.foldl (fun t c => t.writeCompletion p c) (s.onWindow p (fun w => { w with heldCq := [], cqFault := false }))

/-! ## Pages, R169 to R176 -/

/-- The address of a pool page, R340. -/
def State.pageAddr (s : State) (ch : BitVec 6) (index : Nat) : Nat :=
  ch.toNat * 0x8000000 + 0x8000000 - (s.cfg 0x600005 + s.cfg 0x310003 / 64 - index) * 0x4000

/-- The handle of a page as a U32, R170. -/
def handleOf : Page → Nat
  | .lake ch i => place ch.toNat 25 + i % 2 ^ 25
  | .swap i => 2 ^ 31 + i % 2 ^ 31

/-- Lake pages in use by a partition. -/
def State.pagesUsed (s : State) (p : Nat) : Nat := (s.ctx.pages.filter (fun e => e.2.1 == p)).length

/-- FREE_p of R191: KV_QUOTA less the pages in use. -/
def State.freePages (s : State) (p : Nat) : Nat := s.cfg (0x311001 + p) - s.pagesUsed p

/-- Swap pages in use by a partition. -/
def State.swapUsed (s : State) (p : Nat) : Nat := (s.ctx.swapPages.filter (fun e => e.2 == p)).length

/-- A context entry. -/
def State.ctxOf (s : State) (id : Nat) : Ctx := sget {} s.ctx.table id

/-- A context entry changed; a FREE entry is not listed. -/
def State.onCtxEntry (s : State) (id : Nat) (f : Ctx → Ctx) : State :=
  s.onCtx (fun x => { x with table := supd {} x.table id f })

/-- One reference to a page is given up, R176. -/
def dropPage (x : Contexts) (p : Page) : Contexts :=
  match p with
  | .lake ch i =>
    match sfind x.pages (pageNo ch i) with
    | some (o, n) => { x with pages := if n ≤ 1 then sdel x.pages (pageNo ch i) else sput x.pages (pageNo ch i) (o, n - 1) }
    | none => x
  | .swap i => { x with swapPages := sdel x.swapPages i }

/-- One more reference to a Lake page, R177. -/
def sharePage (x : Contexts) (p : Page) : Contexts :=
  match p with
  | .lake ch i =>
    match sfind x.pages (pageNo ch i) with
    | some (o, n) => { x with pages := sput x.pages (pageNo ch i) (o, n + 1) }
    | none => x
  | .swap _ => x

/-- Every row of a context is released, R176. -/
def State.releaseRows (s : State) (id : Nat) : State :=
  (s.onCtx (fun x => (s.ctxOf id).rows.foldl (fun y r => r.foldl dropPage y) x)).onCtxEntry id (fun c => { c with rows := [] })

/-- The commands that wait for a context complete: LEAVE when it is ENDED, the others with ENDED, R319 and R320. -/
def State.completeWaiters (s : State) (id reason : Nat) : State :=
  (s.ctx.waiters.filter (fun w => w.1.toNat == id)).foldl
    (fun t w => t.complete w.2.1.toNat w.2.2.1 (if w.2.2.2 = 4 ∧ reason = 1 then 0 else 10) reason)
    (s.onCtx (fun x => { x with waiters := x.waiters.filter (fun w => w.1.toNat != id) }))

/-- A context ends with a reason: rows released, ENDED, the event of R195, and what waits for it. -/
def State.endCtx (s : State) (id reason : Nat) : State :=
  let s1 := (s.releaseRows id).onCtxEntry id (fun c => { c with st := .ended, endReason := reason, kv := false, leave := false })
  let s2 := if 3 ≤ reason then s1.onCtx (fun x => { x with ctxEnds := x.ctxEnds + 1 }) else s1
  (s2.logEvent srcSched 0 .ctxEnd [id, (s.ctxOf id).step.toNat, reason]).completeWaiters id reason

end Sys2Proof.Machine
end

