-- ==== Sys2Proof/Machine/CoreOps.lean ====
section
/-! DEFINITION. Shared operations on compute cores: groups, streams and void packets (R71, R72, R76), tile signatures
(R81), starting a program (R75, R78, R79), saving and resuming (R82), and tearing a context down (R83, R87, R322). -/

namespace Sys2Proof.Machine

/-! ## Groups -/

/-- The physical cores of a core's group, itself first, CC_GROUP of R85. -/
def State.members (s : State) (n : Nat) : List Nat :=
  let g := (s.core n).group.toNat
  match g % 4 with
  | 1 => [n, bits g 14 9]
  | 2 => [n, bits g 14 9, bits g 20 15]
  | _ => [n]

/-- MEMBER of a core, R85. -/
def Core.member (c : Core) : Nat := bits c.group.toNat 3 2

/-- The core may take a group change or work at once: it stands at a tile boundary, or holds no work. -/
def Core.atBoundary (c : Core) : Bool := c.atTb || c.st == .idle || c.st == .reset

/-- Nothing of the program is in flight, R80. -/
def Core.quiet (c : Core) : Bool :=
  c.inArray.isEmpty && c.mq.isEmpty && c.draining.isEmpty && c.tm == [none, none] && c.tmq == [[], []] && c.held.isNone

/-! ## Streams, R70 and R71 -/

/-- Outbound stream o of bank b. -/
def Core.out (c : Core) (b o : Nat) : Outbound := sget {} c.outs (b * 16 + o)

/-- Counter k of bank b. -/
def Core.ctr (c : Core) (b k : Nat) : Counter := sget {} c.ctrs (b * 16 + k)

/-- The counter that core n's WAIT_SEQ waits on. -/
def Core.awaited (c : Core) (k : BitVec 4) : Counter :=
  match c.prog with
  | some p => c.ctr p.bank.toNat k.toNat
  | none => {}

/-- The wait for number v is over: SEQ_DONE is at v or after it, R73. -/
def waitOver (k : Counter) (v : Word) : Bool := decide ((k.seqDone - v).toNat < 2 ^ 31)

/-- The wait for a number that cannot be compared with SEQ_DONE, R73. -/
def Core.waitUnordered (c : Core) : Bool :=
  match c.waitOn with
  | some (k, v) => serialUnordered (c.awaited k).seqDone v
  | none => false

/-- A counter takes a landed number, R72: the counter, and whether the number was a sequence violation. -/
def landOn (k : Counter) (seq : Word) (void : Bool) : Counter × Bool :=
  let d := (seq - k.seqDone).toNat
  if 2 ^ 31 + 1 ≤ d ∨ (d ≤ 63 ∧ k.landed.getLsbD d) then ({ k with dups := k.dups + 1 }, false)
  else if 63 < d then ({ k with viols := k.viols + 1 }, true)
  else
    let k1 := { k with landed := k.landed ||| (1#64 <<< d), voids := if void then k.voids + 1 else k.voids }
    ((List.range 64).foldl (fun c _ =>
      if c.landed.getLsbD 0 then { c with landed := c.landed >>> 1, seqDone := c.seqDone + 1 } else c) k1, false)

/-- The streams of a program still to be filled with voids, R76: those whose next number lies before base + count. -/
def Core.voidsOf (c : Core) (bank outMask : Nat) : List (BitVec 2 × BitVec 4 × Word) :=
  (maskList 16 outMask).filterMap (fun o =>
    let x := c.out bank o
    if (x.next - x.base).toNat < x.count.toNat then some (BitVec.ofNat 2 bank, BitVec.ofNat 4 o, x.base + x.count) else none)

/-- The numbers taken by moves of the program that have not landed, those of one stream ascending, R76. -/
def Core.abortedMoves (c : Core) : List (BitVec 2 × BitVec 4 × Word × Dest) :=
  let l := c.tm.filterMap (fun m => match m with
    | some v => v.packet.map (fun p => ((c.prog.map (·.bank)).getD 0, p))
    | none => none)
  match l with
  | [a, b] => if a.2.1 = b.2.1 ∧ serialAfter a.2.2.1 b.2.2.1 then [b, a] else l
  | _ => l

/-! ## Tile signatures, R81 -/

/-- CC_SIG is latched at a tile boundary and the unit CRCs restart, R81. -/
def Core.latchSig (c : Core) : Core :=
  { c with sig := BitVec.ofNat 64 (crc64Add 0 ((c.unitCrc.map (fun v => beBytes 8 v.toNat)).flatten)),
           unitCrc := [0, 0, 0, 0, 0] }

/-! ## A core's own Pond -/

/-- A read of a core's own Pond: the state, the bytes, and whether a word was poisoned or uncorrectable, R348. -/
def State.pondRead (s : State) (n off len : Nat) : State × Bytes × Bool :=
  let r := s.readMem (pondBase + s.logical n * 0x400000 + off) len
  (r.1, r.2.1, r.2.2.isSome)

/-- A write to a core's own Pond, after the reads that merging needs, R337. -/
def State.pondWrite (s : State) (n off : Nat) (bs : Bytes) (poisoned : Bool) : State :=
  (s.mergeReads (pondBase + s.logical n * 0x400000 + off) bs.length).onMem (fun m => m.write (pondAt n off) bs poisoned)

/-! ## The tile program header, R78 and R79 -/

/-- The header fields that stay in force. -/
def parseHeader (hdr : BitVec 16) (b : Bytes) : Program :=
  { hdr := hdr, length := fieldAt b 4 4, entry := fieldAt b 8 4, maxTile := fieldAt b 0x0C 2,
    flags := BitVec.ofNat 16 (fieldAt b 0x0E 2), pondBase := fieldAt b 0x10 4, pondSize := fieldAt b 0x14 4,
    saveArea := fieldAt b 0x18 4, chainTable := fieldAt b 0x1C 4, chainCount := fieldAt b 0x20 1,
    bank := BitVec.ofNat 2 (fieldAt b 0x21 1), ctrMask := BitVec.ofNat 16 (fieldAt b 0x22 2),
    outMask := BitVec.ofNat 16 (fieldAt b 0x24 2), modelId := BitVec.ofNat 32 (fieldAt b 0x28 4),
    ctx := BitVec.ofNat 18 (fieldAt b 0x2C 4) }

/-- A Pond range lies inside the program's region, R79. -/
def Program.covers (p : Program) (off len : Nat) : Bool :=
  decide (p.pondBase ≤ off) && decide (off + len ≤ p.pondBase + p.pondSize)

/-- The header checks of R79 that need no OUT_TABLE. -/
def headerOk (p : Program) (hdrBytes code : Bytes) (ctlCtx : BitVec 18) (mode : Nat) : Bool :=
  let outTab := fieldAt hdrBytes 0x30 4
  fieldAt hdrBytes 0 2 == 0x5450 && fieldAt hdrBytes 2 2 == 1
    && decide (1 ≤ p.length) && decide (p.length ≤ 65536) && decide (p.entry < p.length)
    && decide (1 ≤ p.maxTile) && decide (p.maxTile ≤ 1250) && decide (p.flags.toNat < 4)
    && p.pondBase % 0x10000 == 0 && p.pondSize % 0x10000 == 0 && decide (0 < p.pondSize)
    && decide (p.pondBase + p.pondSize ≤ 0x3C0000)
    && p.covers p.saveArea 8448 && decide (p.chainCount ≤ 32)
    && decide (fieldAt hdrBytes 0x21 1 < 4) && fieldAt hdrBytes 0x26 2 == 0
    && decide (fieldAt hdrBytes 0x2C 4 < 2 ^ 18) && p.ctx == ctlCtx && fieldAt hdrBytes 0x34 8 == 0
    && (if p.outMask = 0 then outTab == 0 else p.covers outTab 128)
    && decide (p.hdr.toNat * 64 + 64 + 8 * p.length ≤ 0x400000)
    && fieldAt hdrBytes 0x3C 4 == crc32c (hdrBytes.take 0x3C ++ code)
    && (p.flags.getLsbD 0 || mode == 0)

/-- Entry o of an OUT_TABLE: COUNT and the destination, R78. -/
def outEntry (tab : Bytes) (o : Nat) : Word × Dest :=
  (BitVec.ofNat 32 (fieldAt tab (8 * o) 4),
   { node := BitVec.ofNat 3 (fieldAt tab (8 * o + 5) 1), core := BitVec.ofNat 6 (fieldAt tab (8 * o + 6) 2),
     bank := BitVec.ofNat 2 (bits (fieldAt tab (8 * o + 4) 1) 5 4), ctr := BitVec.ofNat 4 (fieldAt tab (8 * o + 4) 1) })

/-- The destination fields of entry o of an OUT_TABLE are in range, R65 and R78. -/
def outFieldsOk (tab : Bytes) (o : Nat) : Bool :=
  decide (fieldAt tab (8 * o + 4) 1 < 64) && decide (fieldAt tab (8 * o + 5) 1 < 8) && decide (fieldAt tab (8 * o + 6) 2 < 64)

/-- The entries of the mask are in range, and no stream of it is already fixed to another destination, R79. -/
def outTableOk (c : Core) (bank outMask : Nat) (tab : Bytes) : Bool :=
  (maskList 16 outMask).all (fun o => outFieldsOk tab o && ((c.out bank o).dest.all (fun d => d == (outEntry tab o).2)))

/-- The streams of a started program, R71 and R76: a destination is fixed where none was and holds from then on; base and count recorded. -/
def openStreams (c : Core) (bank outMask : Nat) (tab : Bytes) : Core :=
  (maskList 16 outMask).foldl (fun k o =>
    { k with
      outs := supd {} k.outs (bank * 16 + o)
        (fun x => { x with dest := some (x.dest.getD (outEntry tab o).2), base := x.next, count := (outEntry tab o).1 }) }) c

/-- The run frame number of X0, R75. -/
def State.runFrameNo (s : State) : Nat := s.frameAt s.now - s.tb.runFrame0

/-! ## The work on a core -/

/-- The release is a running one that a core's work names. -/
def Rel.runsAs (r : Rel) (w : Option Work) : Bool := r.st == .running && w == some (.rel r.entry r.frame)

/-- The release is a preempted one that a core's work names. -/
def Rel.waitsAs (r : Rel) (w : Option Work) : Bool := r.st == .preempted && w == some (.rel r.entry r.frame)

/-- The job is a running one that a core's work names. -/
def Job.runsAs (j : Job) (w : Option Work) : Bool := j.st == .running && w == some (.job j.part j.seq)

/-- The job is a preempted one that a core's work names. -/
def Job.waitsAs (j : Job) (w : Option Work) : Bool := j.st == .preempted && w == some (.job j.part j.seq)

/-! ## CORE_NS, R332 -/

/-- The time that the running work has occupied the core goes to its partition and its job; that of a test to P0, R293. -/
def State.chargeCore (s : State) (n : Nat) : State :=
  match (s.core n).since with
  | none => s
  | some t =>
    let p := if (s.core n).st == .golden || (s.core n).st == .selftest then 0 else (s.core n).ctlPart.toNat
    ((s.onAcct p (fun a => { a with coreNs := a.coreNs + (s.now - t) })).onSched (fun x =>
      { x with jobs := x.jobs.map (fun j => if j.runsAs (s.core n).work then { j with coreNs := j.coreNs + (s.now - t) } else j) })).onCore n
      (fun c => { c with since := none })

/-! ## START, R75, R79 and R85 -/

/-- START on core n with HDR, CTX and PART as in CC_CTL, in a release of a run frame: the header is checked, then the program starts at ENTRY, or
CC_ERR.HDR is set and it does not start. -/
def State.startCore (s : State) (n : Nat) (hdr : BitVec 16) (ctx : BitVec 18) (part : BitVec 4) (runFrame : Nat) : State :=
  let s0 := s.onCore n (fun c => { c with ctlHdr := hdr, ctlCtx := ctx, ctlPart := part })
  let r1 := s0.pondRead n (hdr.toNat * 64) 64
  let p := parseHeader hdr r1.2.1
  let r2 := r1.1.pondRead n (hdr.toNat * 64 + 64) (8 * min p.length 65536)
  let r3 := r2.1.pondRead n (fieldAt r1.2.1 0x30 4) 128
  let c := r3.1.core n
  if headerOk p r1.2.1 r2.2.1 ctx c.mode && outTableOk c p.bank.toNat p.outMask.toNat r3.2.1 && !r1.2.2 && !r2.2.2 then
    r3.1.onCore n (fun c =>
      let k := openStreams c p.bank.toNat p.outMask.toNat r3.2.1
      { k with
        st := .running, ctx := ctx, pc := p.entry, atTb := false, prog := some p
        x := BitVec.ofNat 32 runFrame :: (s.ctxOf ctx.toNat).step :: List.replicate 14 0
        lc := List.replicate 4 0
        since := some s.now, preemptAt := none, waitOn := none, tileEndPending := false, held := none })
  else r3.1.ccErrWith n eHdr 2 none ctx.toNat part.toNat (hdr.toNat * 64)

/-! ## Ending work on a core -/

/-- What a teardown leaves of a core, R83: passes and moves aborted, both buffers cleared, numbers to be voided. A group's
program images are loaded anew, R381. -/
def Core.torn (c : Core) : Core :=
  { c with
    st := if c.st == .withdrawn then .withdrawn else .idle
    ctx := 0, atTb := false, accBusy := [false, false], acc := [], shadow := [], preloaded := false, mq := [],
    inArray := [], draining := [], toVoid := c.toVoid ++ c.abortedMoves,
    voidDue := c.voidDue ++ (match c.prog with
      | some p => c.voidsOf p.bank.toNat p.outMask.toNat
      | none => [])
    tmq := [[], []], tm := [none, none], held := none, prog := none, work := none, waitOn := none,
    tileEndPending := false, preemptAt := none, images := if c.group.toNat % 4 = 0 then c.images else [] }

/-- Core n holds a running program. -/
def Core.busy (c : Core) : Bool := c.st == .running || c.st == .waiting || c.st == .draining

/-- Some core still runs a piece of work. -/
def State.workRuns (s : State) (w : Option Work) : Bool := s.cores.any (fun c => c.busy && c.work == w)

/-- A running release or job stops without completing: it is torn down, R315, R322. -/
def State.dropWork (s : State) (w : Option Work) : State :=
  let torn := s.sched.jobs.filter (fun j => j.runsAs w)
  let s1 := s.onSched (fun x =>
    { x with
      rels := x.rels.map (fun r => if r.runsAs w then { r with st := .done } else r)
      jobs := x.jobs.filter (fun j => !torn.contains j) })
  torn.foldl (fun t j => t.complete j.part.toNat j.seq 7 j.coreNs) s1

/-- The running context of a core, or of its whole group, is torn down at once, R83, R87, R322 and R323; a context with
KV pages ends with END_REASON 2. A member that runs no program, in a test or a re-synchronisation, goes on with that. -/
def State.teardownCore (s : State) (n : Nat) : State :=
  let ns := (s.members n).filter (fun m => (s.core m).busy)
  if (s.core n).busy then
    let cx := (s.core n).ctx.toNat
    let p := (s.core n).ctlPart.toNat
    let s1 := ns.foldl (fun t m => t.chargeCore m) s
    let s2 := ns.foldl (fun t m => t.onCore m Core.torn) s1
    let s3 := (s2.dropWork (s.core n).work).onAcct p (fun a => { a with teardowns := a.teardowns + 1 })
    if (s3.ctxOf cx).kv then s3.endCtx cx 2 else s3
  else s

/-- A CC_ERR bit is set with its report, and the running context is torn down when R87 says so. -/
def State.coreFault (s : State) (n b detail : Nat) : State :=
  let s1 := s.ccErr n b detail
  if ccErrTears b then s1.teardownCore n else s1

/-- A consumer meets poisoned data, R360 and R400: POND_UE with the class of the group mode; a single core or a
detecting pair loses its context. -/
def State.pondUe (s : State) (n : Nat) (blame : Option (BitVec 12)) (addr : Nat) : State :=
  let c := s.core n
  let s1 := s.ccErrWith n ePondUe (ccErrClass ePondUe c.mode) blame c.ctx.toNat c.ctlPart.toNat (granule addr)
  if c.mode = 0 ∨ c.mode = 3 then s1.teardownCore n else s1

/-! ## Preemption, R82 -/

/-- What is kept beside SAVE_AREA. -/
def Core.toSave (c : Core) (p : Program) : Saved :=
  { hdr := p.hdr, prog := p, bases := (List.range 16).map (fun o => ((c.out p.bank.toNat o).base, (c.out p.bank.toNat o).count)),
    part := c.ctlPart, work := c.work }

/-- Lane l of register r of V0-V31 as the save of R82 takes them, in rising order. -/
def Core.vectorBytes (c : Core) : Bytes := ((List.range 2048).map (fun i => leBytes 4 (sget 0 c.v i).toNat)).flatten

/-- The 8,448 bytes of SAVE_AREA, R82: PC, flags, X0-X15, LC0-LC3 and the release bases in the first 256, then V0-V31. DESIGN CHOICE, log 23: the
places within the 256 bytes follow the rule's order, in words of the registers' widths; the flags and the rest are free values. -/
def Core.saveBytes (c : Core) (p : Program) (free : Bytes) : Bytes :=
  leBytes 4 c.pc ++ fitBytes 4 free
    ++ ((List.range 16).map (fun i => leBytes 4 (c.x.getD i 0).toNat)).flatten
    ++ ((List.range 4).map (fun i => leBytes 2 (c.lc.getD i 0).toNat)).flatten
    ++ ((List.range 16).map (fun o => leBytes 4 (c.out p.bank.toNat o).base.toNat)).flatten
    ++ fitBytes 112 (free.drop 4) ++ c.vectorBytes

/-- Core n saves its state to SAVE_AREA and stops, R82; PREEMPTS of its partition counts it. -/
def State.saveCore (s : State) (n : Nat) : State :=
  match (s.core n).prog with
  | none => s
  | some p =>
    let w := (s.core n).work
    let s1 := ((s.chargeCore n).fresh1).pondWrite n p.saveArea ((s.core n).saveBytes p (Config.freeBytes s.fresh 116)) false
    ((s1.onCore n (fun c =>
      { c with st := .idle, ctx := 0, prog := none, work := none, preemptAt := none, atTb := false, waitOn := none, since := none,
               tileEndPending := false, saved := c.saved.filter (fun v => v.hdr != p.hdr) ++ [c.toSave p] })).onSched (fun x =>
      { x with
        rels := x.rels.map (fun r => if r.runsAs w then { r with st := .preempted } else r)
        jobs := x.jobs.map (fun j => if j.runsAs w then { j with st := .preempted } else j) })).onAcct
      (s.core n).ctlPart.toNat (fun a => { a with preempts := a.preempts + 1 })

/-- The core with the state that SAVE_AREA holds for a saved program: PC, X0-X15, LC0-LC3, the release bases of its streams, and V0-V31, R82. -/
def Core.restored (c : Core) (v : Saved) (b : Bytes) : Core :=
  let k := (List.range 16).foldl (fun k o =>
    if v.prog.outMask.getLsbD o then
      { k with
        outs := supd {} k.outs (v.prog.bank.toNat * 16 + o)
          (fun x => { x with base := BitVec.ofNat 32 (fieldAt b (80 + 4 * o) 4), count := (v.bases.getD o (0, 0)).2 }) }
    else k) c
  { k with
    pc := fieldAt b 0 4 % 65536
    x := (List.range 16).map (fun i => BitVec.ofNat 32 (fieldAt b (8 + 4 * i) 4))
    lc := (List.range 4).map (fun i => BitVec.ofNat 16 (fieldAt b (72 + 2 * i) 2))
    v := ((List.range 2048).map (fun i => (i, BitVec.ofNat 32 (fieldAt b (256 + 4 * i) 4)))).filter (fun e => e.2 != 0) }

/-- Core n continues a saved program with the bytes of its SAVE_AREA, R82. -/
def State.resumeCore (s : State) (n : Nat) (hdr : BitVec 16) (b : Bytes) : State :=
  match (s.core n).saved.find? (fun v => v.hdr == hdr) with
  | none => s
  | some v =>
    (s.onCore n (fun c =>
      { c.restored v b with
        st := .running, ctx := v.prog.ctx, ctlCtx := v.prog.ctx, ctlHdr := hdr, ctlPart := v.part, prog := some v.prog, work := v.work,
        atTb := false, since := some s.now, preemptAt := none, saved := c.saved.filter (fun w => w.hdr != hdr) })).onSched (fun x =>
      { x with
        rels := x.rels.map (fun r => if r.waitsAs v.work then { r with st := .running } else r)
        jobs := x.jobs.map (fun j => if j.waitsAs v.work then { j with st := .running } else j) })

/-- A saved state is discarded; its streams are filled with voids, R76 and R323. -/
def State.discardSaved (s : State) (n : Nat) (hdr : BitVec 16) : State :=
  s.onCore n (fun c =>
    match c.saved.find? (fun v => v.hdr == hdr) with
    | none => c
    | some v =>
      { c with
        saved := c.saved.filter (fun w => w.hdr != hdr)
        voidDue := c.voidDue ++ (maskList 16 v.prog.outMask.toNat).filterMap (fun o =>
          let b := v.bases.getD o (0, 0)
          if ((c.out v.prog.bank.toNat o).next - b.1).toNat < b.2.toNat
          then some (v.prog.bank, BitVec.ofNat 4 o, b.1 + b.2) else none) })

/-- A preemption request is taken by a core that holds work, R82; from then on a running program is DRAINING. -/
def Core.requested (c : Core) (now : Nat) : Core :=
  if c.busy && c.preemptAt.isNone then { c with preemptAt := some now, st := if c.st == .running then .draining else c.st } else c

/-- A preemption request reaches a core that holds work, R82. -/
def State.preemptCore (s : State) (n : Nat) : State :=
  s.onCore n (fun c => c.requested s.now)

/-- CC_CTL.RESET, R85: the sequencer, V0-V31 and both accumulator buffers; Pond and counters keep their contents. -/
def Core.wiped (c : Core) : Core :=
  { c with
    st := if c.st == .withdrawn then .withdrawn else .idle
    ctx := 0, pc := 0, atTb := false, accBusy := [false, false], x := List.replicate 16 0, lc := List.replicate 4 0,
    v := [], acc := [], mq := [], inArray := [], draining := [], held := none,
    prog := none, work := none, waitOn := none, tileEndPending := false, preemptAt := none, since := none,
    toVoid := c.toVoid ++ c.abortedMoves, tmq := [[], []], tm := [none, none],
    voidDue := c.voidDue ++ (match c.prog with
      | some p => c.voidsOf p.bank.toNat p.outMask.toNat
      | none => []) }

/-- An access by a running program to a reserved address or one that a Shutter refuses, R44 and R362. -/
def State.decodeFault (s : State) (n addr : Nat) : State := s.coreFault n eDecode (granule addr)

end Sys2Proof.Machine
end

