-- ==== Sys2Proof/Machine/ScheduleTable.lean ====
section
/-! DEFINITION. The schedule table: its layout (R299 to R302) and the checks made when it is written (R303). -/

namespace Sys2Proof.Machine

/-! ## Layout -/

/-- A group entry of 16 bytes, R300. -/
def parseGroup (b : Bytes) : GroupEntry :=
  { mode := fieldAt b 0 1, part := fieldAt b 1 1, gclk := fieldAt b 2 1,
    cores := ((if fieldAt b 0 1 = 2 then [4, 5, 6] else [4, 5]).map (fun o => BitVec.ofNat 6 (fieldAt b o 1))) }

/-- A golden entry of 16 bytes, R301. -/
def parseGolden (b : Bytes) : GoldenEntry :=
  { tick := fieldAt b 0 2, offset := fieldAt b 4 4, cores := BitVec.ofNat 64 (fieldAt b 8 8) }

/-- A work entry of 32 bytes, R302. -/
def parseWork (b : Bytes) : WorkEntry :=
  { tick := fieldAt b 0 2, kind := fieldAt b 2 1, part := fieldAt b 3 1, start := fieldAt b 4 4, length := fieldAt b 8 4,
    target := BitVec.ofNat 16 (fieldAt b 0x0C 2), prog := fieldAt b 0x0E 2, modelId := BitVec.ofNat 32 (fieldAt b 0x10 4),
    deadline := fieldAt b 0x14 4, ctx := fieldAt b 0x18 4, flags := BitVec.ofNat 16 (fieldAt b 0x1C 2) }

/-- GROUPS, GOLDENS and ENTRIES of a table's header, R299. -/
def tableCounts (b : Bytes) : Nat × Nat × Nat := (fieldAt b 6 2, fieldAt b 0x0C 1, fieldAt b 8 4)

/-- The length that a table's counts give, R299. -/
def tableLength (b : Bytes) : Nat :=
  let c := tableCounts b
  64 + 16 * c.1 + 128 + 16 * c.2.1 + 32 * c.2.2

/-- The table of a byte string, R299. -/
def parseSchedule (b : Bytes) : Schedule :=
  let c := tableCounts b
  let g0 := 64
  let m0 := g0 + 16 * c.1
  let s0 := m0 + 128
  let w0 := s0 + 16 * c.2.1
  { frameTicks := fieldAt b 4 2, build := BitVec.ofNat 64 (fieldAt b 0x10 8)
    groups := (List.range c.1).map (fun i => parseGroup (slice b (g0 + 16 * i) 16))
    bankMap := (List.range 256).map (fun k =>
      let y := fieldAt b (m0 + k / 2) 1
      BitVec.ofNat 4 (if k % 2 = 0 then y else y / 16))
    goldens := (List.range c.2.1).map (fun i => parseGolden (slice b (s0 + 16 * i) 16))
    entries := (List.range c.2.2).map (fun i => parseWork (slice b (w0 + 32 * i) 32)) }

/-! ## Reading the table -/

/-- The entry names a group. -/
def WorkEntry.isGroup (e : WorkEntry) : Bool := e.target.getLsbD 15
/-- Group index or logical core. -/
def WorkEntry.index (e : WorkEntry) : Nat := e.target.toNat % 2 ^ 15
/-- FLAGS.RATED. -/
def WorkEntry.isRated (e : WorkEntry) : Bool := e.flags.getLsbD 0
/-- FLAGS.CONTINUE. -/
def WorkEntry.isContinue (e : WorkEntry) : Bool := e.flags.getLsbD 1
/-- Start and end within the frame, ns. -/
def WorkEntry.from_ (e : WorkEntry) : Nat := e.tick * 250000 + e.start
/-- End within the frame, ns. -/
def WorkEntry.to_ (e : WorkEntry) : Nat := e.from_ + e.length

/-- The logical cores of an entry. -/
def Schedule.coresOf (t : Schedule) (e : WorkEntry) : List (BitVec 6) :=
  if e.isGroup then ((t.groups[e.index]?).map (·.cores)).getD [] else [BitVec.ofNat 6 e.index]

/-- The group mode an entry runs in: 0 single, 1 pair, 2 triad. -/
def Schedule.modeOf (t : Schedule) (e : WorkEntry) : Nat :=
  if e.isGroup then ((t.groups[e.index]?).map (·.mode)).getD 0 else 0

/-- Start of a golden slot within the frame. -/
def GoldenEntry.from_ (g : GoldenEntry) : Nat := g.tick * 250000 + g.offset

/-- The partition that holds bank b of logical core l; 15 means unassigned, R300. -/
def Schedule.bankOwner (t : Schedule) (l b : Nat) : Nat := ((t.bankMap.getD (4 * l + b) 15)).toNat

/-! ## Checks, R303 -/

/-- The overlap of two intervals in ns. -/
def overlap (a b c d : Nat) : Nat := min b d - max a c

/-- A group keeps R15: a pair (2k, 2k + 1); a triad one local index in three quadrants. -/
def groupPlaced (mode : Nat) (cores : List Nat) : Bool :=
  match mode, cores with
  | 1, [a, b] => a % 2 == 0 && b == a + 1
  | 2, [a, b, c] => localIndex a == localIndex b && localIndex b == localIndex c
      && quadrant a != quadrant b && quadrant b != quadrant c && quadrant a != quadrant c
  | _, _ => false

/-- The mode admits the class, R295. -/
def modeAllowed (cls mode : Nat) : Bool :=
  if cls = 4 then mode == 2 else if cls = 0 then true else mode == 1 || mode == 2

/-- Group entry i has the form of R300. -/
def groupFormOk (b : Bytes) (i : Nat) : Bool :=
  let g := slice b (64 + 16 * i) 16
  (fieldAt g 0 1 == 1 || fieldAt g 0 1 == 2) && decide (fieldAt g 1 1 < 16) && decide (fieldAt g 2 1 < 16)
    && fieldAt g 3 1 == 0 && decide (fieldAt g 4 1 < 64) && decide (fieldAt g 5 1 < 64)
    && (if fieldAt g 0 1 = 2 then decide (fieldAt g 6 1 < 64) else fieldAt g 6 1 == 0xFF) && allZero (slice g 7 9)

/-- Golden entry i has the form of R301. -/
def slotFormOk (b : Bytes) (i : Nat) : Bool :=
  let c := tableCounts b
  let g := slice b (64 + 16 * c.1 + 128 + 16 * i) 16
  decide (fieldAt g 0 2 < fieldAt b 4 2) && fieldAt g 2 2 == 0 && decide (fieldAt g 4 4 < 250000) && fieldAt g 4 4 % 2 == 0

/-- Work entry i has the form of R302. -/
def workFormOk (b : Bytes) (i : Nat) : Bool :=
  let c := tableCounts b
  let w := slice b (64 + 16 * c.1 + 128 + 16 * c.2.1 + 32 * i) 32
  let e := parseWork w
  decide (e.tick < fieldAt b 4 2) && decide (e.kind < 4) && decide (1 ≤ e.part) && decide (e.part < 16)
    && decide (e.start < 250000) && e.start % 2 == 0 && e.length % 2 == 0 && decide (2 ≤ e.length)
    && decide (e.to_ ≤ fieldAt b 4 2 * 250000) && decide (e.ctx < 2 ^ 18) && decide (e.flags.toNat < 4)
    && fieldAt w 0x1E 2 == 0
    && (if e.isGroup then decide (e.index < c.1) else decide (e.index < 64))

/-- The header of R299. -/
def State.headFormOk (s : State) (b : Bytes) : Bool :=
  let c := tableCounts b
  fieldAt b 0 2 == 0x5343 && fieldAt b 2 2 == 1 && fieldAt b 4 2 == s.cfg kFrameTicks
    && decide (c.1 ≤ 32) && decide (1 ≤ c.2.1) && decide (c.2.1 ≤ 16) && decide (1 ≤ c.2.2) && decide (c.2.2 ≤ 65536)
    && allZero (slice b 0x0D 3) && allZero (slice b 0x18 36) && b.length == tableLength b
    && fieldAt b 0x3C 4 == crc32c (b.take 0x3C ++ [0, 0, 0, 0] ++ b.drop 0x40)

/-- Check 1: header, counts, fields and reserved fields. -/
def State.tableFormOk (s : State) (b : Bytes) : Bool :=
  let c := tableCounts b
  s.headFormOk b && (List.range c.1).all (groupFormOk b) && (List.range c.2.1).all (slotFormOk b) && (List.range c.2.2).all (workFormOk b)

/-- Check 2: no partition exceeds its BUDGET_NS on a core in a tick. -/
def State.budgetsOk (s : State) (t : Schedule) : Bool :=
  t.entries.all (fun e => (t.coresOf e).all (fun l =>
    (List.range ((e.to_ - 1) / 250000 + 1 - e.tick)).all (fun i =>
      let k := e.tick + i
      decide (((t.entries.filter (fun f => f.part == e.part && (t.coresOf f).contains l)).map (fun f =>
        overlap f.from_ f.to_ (k * 250000) ((k + 1) * 250000))).sum ≤ s.partBudget e.part))))

/-- Check 3: rated entries keep R394. -/
def ratedOk (t : Schedule) : Bool :=
  t.entries.all (fun e => !e.isRated || (decide (0 < e.deadline) && decide (e.deadline ≤ t.frameTicks * 250000)))

/-- Check 4: the field rules of R302 for SELFTEST, POOL and CONTINUE. -/
def kindsOk (t : Schedule) : Bool :=
  t.entries.all (fun e =>
    (e.kind != 3 || (!e.isGroup && e.modelId == 0xFFFFFFFF && e.prog == 0 && e.deadline == 0 && e.ctx == 0 && e.flags == 0))
    && (!e.isContinue || e.kind == 0)
    && (e.kind != 2 || (e.prog == 0 && e.deadline == 0 && e.ctx == 0)))

/-- Check 5: golden slots name at most 8 cores and end within the frame. -/
def goldenFormOk (t : Schedule) : Bool :=
  t.goldens.all (fun g => decide ((maskList 64 g.cores.toNat).length ≤ 8) && decide (g.from_ + 120000 ≤ t.frameTicks * 250000))

/-- The models that R331 pins: those a WORK, RADIO or POOL entry of a partition of class A or above names. -/
def State.pinnedModels (s : State) (t : Schedule) : List Word :=
  ((t.entries.filter (fun e => e.kind != 3 && s.rated e.part && e.modelId != 0xFFFFFFFF)).map (·.modelId)).dedup

/-- The package of a model among MODEL_PKG 0 to 63, R328. -/
def State.packageOf (s : State) (m : Word) : Option Bytes :=
  ((List.range 64).map (fun i => s.entry (0x302000 + 256 * i))).find? (fun b => !b.isEmpty && Config.packageModel b == m)

/-- The bytes of a model's hot set. -/
def State.hotSet (s : State) (m : Word) : Nat := ((s.packageOf m).map Config.packageHotSet).getD 0

/-- Check 6: the pinned models fit under R331, and none has more tracked tensors than a scale table holds, R113. -/
def State.pinnedFit (s : State) (t : Schedule) : Bool :=
  let l := s.pinnedModels t
  decide (l.length ≤ 64) && decide ((l.map s.hotSet).sum ≤ s.cfg 0x320002)
    && l.all (fun m => decide (Config.tensorCount m ≤ 4096))

/-- Check 7: no two entries of one logical core overlap. -/
def noOverlap (t : Schedule) : Bool :=
  (List.range t.entries.length).all (fun i => (List.range t.entries.length).all (fun j =>
    match t.entries[i]?, t.entries[j]? with
    | some a, some b => decide (j ≤ i) || overlap a.from_ a.to_ b.from_ b.to_ == 0
        || !(t.coresOf a).any (fun l => (t.coresOf b).contains l)
    | _, _ => true))

/-- Check 8: every entry's cores lie in its partition's set. -/
def State.coresInSet (s : State) (t : Schedule) : Bool :=
  t.entries.all (fun e => (t.coresOf e).all (fun l => bit (s.partCores e.part) l.toNat))

/-- Check 9: groups keep R15 and entries keep R295. -/
def State.groupsOk (s : State) (t : Schedule) : Bool :=
  t.groups.all (fun g => groupPlaced g.mode (g.cores.map (·.toNat)))
    && t.entries.all (fun e => e.kind == 3 || modeAllowed (s.partClass e.part) (t.modeOf e))

/-- Check 10: no logical core is a member of two groups. -/
def membersOnce (t : Schedule) : Bool := (t.groups.map (·.cores)).flatten.Nodup

/-- Check 11: at most four partitions use one core. -/
def partsPerCore (t : Schedule) : Bool :=
  (List.range 64).all (fun l =>
    decide ((((t.entries.filter (fun e => (t.coresOf e).any (fun c => c.toNat == l))).map (·.part)).dedup).length ≤ 4))

/-- Check 12: golden slots name whole groups and keep clear of RADIO and rated entries, with their 3 us drain. -/
def State.goldenClear (s : State) (t : Schedule) : Bool :=
  t.goldens.all (fun g =>
    t.groups.all (fun p =>
      p.cores.all (fun l => g.cores.getLsbD l.toNat) || p.cores.all (fun l => !g.cores.getLsbD l.toNat))
    && t.entries.all (fun e =>
      !(e.kind == 1 || ((e.kind == 0 || e.kind == 2) && s.rated e.part))
        || !(t.coresOf e).any (fun l => g.cores.getLsbD l.toNat)
        || (overlap e.from_ e.to_ (g.from_ - 3000) (g.from_ + 120000) == 0
            && (decide (3000 ≤ g.from_) ||
                overlap e.from_ e.to_ (t.frameTicks * 250000 + g.from_ - 3000) (t.frameTicks * 250000) == 0))))

/-- Check 13: every logical core is named by exactly one golden slot. -/
def goldenOnce (t : Schedule) : Bool :=
  (List.range 64).all (fun l => (t.goldens.filter (fun g => g.cores.getLsbD l)).length == 1)

/-- The latest earlier WORK entry of an entry's target in the frame. -/
def Schedule.previousWork (t : Schedule) (e : WorkEntry) : Option WorkEntry :=
  (t.entries.filter (fun f => f.kind == 0 && f.target == e.target && decide (f.from_ < e.from_))).foldl
    (fun b f => match b with
      | none => some f
      | some g => if g.from_ < f.from_ then some f else some g) none

/-- A CONTINUE entry follows a matching entry, R302. -/
def Schedule.continueOk (t : Schedule) (e : WorkEntry) : Bool :=
  !e.isContinue || (e.deadline == 0 && match t.previousWork e with
    | none => false
    | some f => f.part == e.part && f.modelId == e.modelId && f.prog == e.prog && f.ctx == e.ctx)

/-- Check 14: every CONTINUE entry follows a matching entry. -/
def continuesOk (t : Schedule) : Bool := t.entries.all t.continueOk

/-- Check n of R303, 1 to 14 in order. -/
def State.tableCheck (s : State) (b : Bytes) (t : Schedule) (n : Nat) : Bool :=
  match n with
  | 1 => s.tableFormOk b
  | 2 => s.budgetsOk t
  | 3 => ratedOk t
  | 4 => kindsOk t
  | 5 => goldenFormOk t
  | 6 => s.pinnedFit t
  | 7 => noOverlap t
  | 8 => s.coresInSet t
  | 9 => s.groupsOk t
  | 10 => membersOnce t
  | 11 => partsPerCore t
  | 12 => s.goldenClear t
  | 13 => goldenOnce t
  | _ => continuesOk t

/-- The checks of R303 in order: the abort code and the number of the first that fails, or OK. -/
def State.checkTable (s : State) (b : Bytes) : Nat × Nat :=
  match ((List.range 14).map (· + 1)).find? (fun n => !s.tableCheck b (parseSchedule b) n) with
  | none => (aOk, 0)
  | some n => (if n ≤ 6 then aRange else aConflict, n)

/-- The entry at which check n fails, R303: of the entries that the check goes through, the first that breaks it, or the last of the
shortest run of them that does; 0xFFFF where none makes the difference. Checks 5, 10, 12 and 13 go through golden or group
entries, check 9 through group entries and then work entries, check 1 through all three. -/
def State.tableFailsAt (s : State) (b : Bytes) (n : Nat) : Nat :=
  let t := parseSchedule b
  let first : Nat → (Nat → Bool) → Option Nat := fun k ok => (List.range k).find? (fun i => !ok i)
  let among : Nat → (Nat → Schedule) → Option Nat := fun k u =>
    if s.tableCheck b (u 0) n then first k (fun i => s.tableCheck b (u (i + 1)) n) else none
  let works := among t.entries.length (fun i => { t with entries := t.entries.take i })
  let groups := among t.groups.length (fun i => { t with groups := t.groups.take i, entries := [] })
  (match n with
    | 1 =>
      if !s.headFormOk b then none
      else (first t.groups.length (groupFormOk b)).orElse (fun _ =>
        (first t.goldens.length (slotFormOk b)).orElse (fun _ => first t.entries.length (workFormOk b)))
    | 5 | 12 => among t.goldens.length (fun i => { t with goldens := t.goldens.take i })
    | 9 => groups.orElse (fun _ => works)
    | 10 => groups
    | 13 => first t.goldens.length (fun i =>
        (List.range i).all (fun j => (((t.goldens[j]?).map GoldenEntry.cores).getD 0 &&& ((t.goldens[i]?).map GoldenEntry.cores).getD 0) == 0))
    | 14 => first t.entries.length (fun i => (t.entries[i]?).all t.continueOk)
    | _ => works).getD 0xFFFF

/-- The table in force. -/
def State.table (s : State) : Option Schedule := s.sched.table

/-- A work entry of the table in force. -/
def State.workEntry (s : State) (e : Nat) : Option WorkEntry := s.sched.table.bind (fun t => t.entries[e]?)

end Sys2Proof.Machine
end

