-- ==== Sys2Proof/Machine/SafetyOps.lean ====
section
/-! DEFINITION. Shared operations on redundant groups: who is a member and active (R300, R551), mismatches and
re-synchronisation (R381 to R386), withdrawal and substitutes (R297, R298, R410), and packets that land (R72, R379). -/

namespace Sys2Proof.Machine

/-- CC_GROUP.DETECT of the listed cores. -/
def State.setDetect (s : State) (ns : List Nat) (b : Bool) : State :=
  ns.foldl (fun t n => t.onCore n (fun c =>
    { c with group := BitVec.ofNat 64 (withBit c.group.toNat 25 b) })) s

/-- CC_GROUP of member m of a group of physical cores, R85: mode, member, generator, peers in MEMBER order, lag. -/
def groupWord (mode gclk m : Nat) (ns : List Nat) : Word64 :=
  let peers := (List.range ns.length).filterMap (fun i => if i = m then none else ns[i]?)
  BitVec.ofNat 64 (mode + place m 2 + place gclk 4 + 2 ^ 8 + place (peers.getD 0 0) 9 + place (peers.getD 1 0) 15 + place m 21)

/-- A write of CC_GROUP by the schedule engine, R84: in force at once on a core that stands at a tile boundary or holds no work, else held. -/
def Core.takeGroup (v : Word64) (c : Core) : Core :=
  if c.atBoundary || c.st == .withdrawn || c.st == .resync then { c with group := v, groupHeld := none } else { c with groupHeld := some v }

/-- Every member's CC_GROUP is written by the schedule engine, R84 and R86. -/
def State.formGroup (s : State) (g : Nat) : State :=
  match s.groupEntry g with
  | none => s
  | some e =>
    let ns := s.groupPhys g
    (List.range ns.length).foldl (fun t m =>
      t.onCore (ns.getD m 0) (Core.takeGroup (groupWord e.mode e.gclk m ns))) s

/-- The work of a group is torn down on all its members, R322, R381. -/
def State.teardownGroup (s : State) (g : Nat) : State :=
  match (s.activePhys g).find? (fun n => (s.core n).busy) with
  | some n => s.teardownCore n
  | none => s

/-! ## Copying between cores, R298 and R383 -/

/-- A range of storage copied: corrected while read, with poisoned words staying poisoned. -/
def Mem.copyRange (m : Mem) (src dst len : Nat) : Mem :=
  let inSrc : Nat → Bool := fun w => decide (src / 4 ≤ w) && decide (w < (src + len) / 4)
  let m1 := (m.synd.filter (fun e => inSrc e.1)).foldl (fun t e => t.fix e.1) m
  let keep := m1.data.filter (fun c => !(decide (dst ≤ c.1) && decide (c.1 < dst + len)))
  let moved := m1.data.filter (fun c => decide (src ≤ c.1) && decide (c.1 < src + len))
  let keepY := m1.synd.filter (fun e => !(decide (dst / 4 ≤ e.1) && decide (e.1 < (dst + len) / 4)))
  { m1 with
    data := moved.foldl (fun d c => sset (0 : Byte) d (c.1 - src + dst) c.2) keep
    synd := (m1.synd.filter (fun e => inSrc e.1)).foldl (fun d e => sput d (e.1 - src / 4 + dst / 4) (0x7F : BitVec 8)) keepY }

/-- Two ranges of storage exchanged, each read as a copy is. -/
def Mem.swapRanges (m : Mem) (a b len : Nat) : Mem :=
  let inA : Nat → Bool := fun x => decide (a ≤ x) && decide (x < a + len)
  let inB : Nat → Bool := fun x => decide (b ≤ x) && decide (x < b + len)
  let to_ : Nat → Nat := fun x => if inA x then x - a + b else x - b + a
  let inW : Nat → Bool := fun w => inA (4 * w) || inB (4 * w)
  let m1 := (m.synd.filter (fun e => inW e.1)).foldl (fun t e => t.fix e.1) m
  { m1 with
    data := (m1.data.filter (fun c => inA c.1 || inB c.1)).foldl (fun d c => sset (0 : Byte) d (to_ c.1) c.2)
      (m1.data.filter (fun c => !(inA c.1 || inB c.1)))
    synd := (m1.synd.filter (fun e => inW e.1)).foldl (fun d e => sput d (to_ (4 * e.1) / 4) (0x7F : BitVec 8))
      (m1.synd.filter (fun e => !inW e.1)) }

/-- What core `own` is after it has changed places with core `guest`: the work, program and counters come over; the test
records, CC_ERR and CC_GROUP stay with the physical core. -/
def Core.inPlaceOf (own guest : Core) : Core :=
  { guest with
    testDue := own.testDue, group := own.group, groupHeld := own.groupHeld, err := own.err, firstPc := own.firstPc,
    variant := own.variant, segsDone := own.segsDone, goldenLast := own.goldenLast, resyncFrames := own.resyncFrames }

/-- Two cores in service change places, R297 and R313: Pond, counters and streams, the state at the boundary, the jobs. -/
def State.exchange (s : State) (a b : Nat) : State :=
  (((s.onMem (fun m => m.swapRanges (pondAt a 0) (pondAt b 0) 0x400000)).onCore a (fun c => c.inPlaceOf (s.core b))).onCore b
    (fun c => c.inPlaceOf (s.core a))).onSched (fun x =>
    { x with jobs := x.jobs.map (fun j => { j with core := j.core.map (fun k =>
        if k.toNat = a then BitVec.ofNat 6 b else if k.toNat = b then BitVec.ofNat 6 a else k) }) })

/-- The copy set's Pond part, R383: regions of every program with a live context on the donor, and the golden area. -/
def Core.liveRegions (c : Core) : List (Nat × Nat) :=
  ((match c.prog with | some p => [p] | none => []) ++ c.saved.map (·.prog)).map (fun p => (p.pondBase, p.pondSize))
    ++ [(0x3C0000, 0x40000)]

/-- The copy set is carried from one core to another: Pond regions and counter banks with their streams. -/
def State.copySet (s : State) (from_ to_ : Nat) : State :=
  let d := s.core from_
  (s.onMem (fun m => (d.liveRegions.dedup).foldl (fun t r => t.copyRange (pondAt from_ r.1) (pondAt to_ r.1) r.2) m)).onCore to_
    (fun c => { c with ctrs := d.ctrs, outs := d.outs, saved := d.saved, images := d.images })

/-- The sequencer state of the donor is taken over, R383 step 4, with what the program fixes. -/
def Core.takeState (d c : Core) : Core :=
  { c with
    st := d.st, ctx := d.ctx, pc := d.pc, x := d.x, lc := d.lc, v := d.v, prog := d.prog, work := d.work, waitOn := d.waitOn,
    atTb := d.atTb, tileEndPending := d.tileEndPending, ctlCtx := d.ctlCtx, ctlHdr := d.ctlHdr, ctlPart := d.ctlPart,
    since := d.since, preemptAt := d.preemptAt, sig := d.sig, unitCrc := d.unitCrc }

/-- The core is withdrawn. -/
def State.isWithdrawn (s : State) (n : Nat) : Bool := s.sched.withdrawn.getLsbD n

/-! ## Substitutes, R297, R298 and R410 -/

/-- The logical core is the trail member of a split pair, R324. -/
def State.isSplitTrail (s : State) (l : Nat) : Bool :=
  (List.range 32).any (fun g => (s.groupRt g).split && (s.groupCores g)[1]? == some l)

/-- The logical core lies in no enabled partition's core set, R294, or is a split pair's trail member, R324. -/
def State.isHeadroom (s : State) (l : Nat) : Bool :=
  (List.range 16).all (fun p => p == 0 || !s.partEnabled p || !bit (s.partCores p) l) || s.isSplitTrail l

/-- The partition whose core set holds a logical core. -/
def State.ownerOf (s : State) (l : Nat) : Option Nat :=
  (List.range 16).find? (fun p => p != 0 && s.partEnabled p && bit (s.partCores p) l)

/-- A physical core may serve as a substitute: in service and not part of a remap. -/
def State.usable (s : State) (p : Nat) : Bool :=
  !s.isWithdrawn p && !(s.core p).testDue && !s.sched.remaps.any (fun r => r.new.toNat == p || r.old.toNat == p)

/-- Physical headroom cores, lowest first. -/
def State.headroom (s : State) : List Nat := (List.range 64).filter (fun p => s.usable p && s.isHeadroom (s.logical p))

/-- Physical cores of QM partitions, lowest first. -/
def State.qmCores (s : State) : List Nat :=
  (List.range 64).filter (fun p => s.usable p && ((s.ownerOf (s.logical p)).map s.partClass) == some 0)

/-- The substitutes for physical core n: logical core and new physical core, for every core that moves. A pair moves as a
whole to a pair position; a triad takes the same local index in the free quadrant; R15. -/
def State.substitutes (s : State) (n : Nat) : List (Nat × Nat) :=
  let l := s.logical n
  match s.groupOf l with
  | none => (match s.headroom.head? with | some p => [(l, p)] | none => [])
  | some g =>
    if s.isTriad g then
      let others := (s.groupPhys g).filter (· != n)
      let fits : Nat → Bool := fun p => localIndex p == localIndex n && others.all (fun o => quadrant o != quadrant p) && p != n
      match (s.headroom ++ s.qmCores).find? fits with
      | some p => [(l, p)]
      | none => []
    else
      let ls := s.groupCores g
      let pairIn : List Nat → Option Nat := fun c => c.find? (fun p => p % 2 == 0 && c.contains (p + 1))
      match (pairIn s.headroom).orElse (fun _ => pairIn (s.headroom ++ s.qmCores)) with
      | some p => [(ls.getD 0 0, p), (ls.getD 1 0, p + 1)]
      | none => []

/-! ## Withdrawal, R381, R401 -/

/-- Core n is withdrawn until the next boot: a triad continues on its other members as a detecting pair, any other work
is torn down. A withdrawal that no substitute restores for the group of a partition of class A or above is a CAPACITY report, R410. -/
def State.withdrawCore (s : State) (n : Nat) : State :=
  if s.isWithdrawn n || decide (64 ≤ n) then s
  else
    let l := s.logical n
    let s0 := match s.groupOf l with
      | none => s.teardownCore n
      | some g =>
        let rest := (s.groupRt g).active.filter (· != s.memberIndex g l)
        let out := fun (t : State) => t.onGroup g (fun x => { x with active := rest, resync := none })
        if s.isTriad g && decide (2 ≤ rest.length) then
          ((out s).setDetect ((out s).activePhys g) true).chargeCore n
        else out (s.teardownGroup g)
    let s1 := ((s0.chargeCore n).onSched (fun x => { x with withdrawn := x.withdrawn ||| (1#64 <<< n) })).onCore n
      (fun c => { c.torn with st := .withdrawn })
    if ((s1.ownerOf l).map s1.rated).getD false && (s1.groupOf l).isSome && (s1.substitutes n).isEmpty then s1.raise srcSched 32 0 4 l else s1

/-! ## Re-synchronisation, R382 to R386 -/

/-- The frames, among the last 16, in which a member needed a re-synchronisation. -/
def State.resyncsOf (s : State) (n : Nat) : Nat :=
  ((s.core n).resyncFrames.filter (fun f => decide (s.frameAt s.now < f + 16))).length

/-- This need is the RESYNC_LIMIT-th within 16 consecutive frames, R384. -/
def State.resyncLimit (s : State) (n : Nat) : Bool := decide (s.cfg 0x710001 ≤ s.resyncsOf n + 1)

/-- Member m is restored from the active member with the highest other MEMBER index, R382 and R383: a triad's member leaves it and is reset;
the members of a pair go on together to their next tile boundary, and stop there until the restoration is done. -/
def State.restoreMember (s : State) (g m : Nat) (line : Option Nat) : State :=
  let rest := (s.groupRt g).active.filter (· != m)
  let n := (s.groupPhys g).getD m 0
  if !s.isTriad g then
    if (s.groupRt g).resync.isSome then s
    else s.onGroup g (fun x => { x with resync := some (m, rest.foldl max 0, .waitTb), lakeLine := line })
  else
  let s1 := (s.chargeCore n).onCore n (fun c =>
    { c.wiped with st := .resync, resyncFrames := (s.frameAt s.now :: c.resyncFrames).take 16 })
  let s2 := s1.onGroup g (fun x =>
    { x with active := rest, resync := some (m, rest.foldl max 0, .waitTb), lakeLine := line })
  s2.setDetect (s2.activePhys g) true

/-- A detecting pair, or a pair, disagrees or loses a member's data: torn down on all members, R381, R384. -/
def State.groupFails (s : State) (g : Nat) : State :=
  let s1 := s.teardownGroup g
  if (s.groupRt g).resync.isSome then
    ((s1.onGroup g (fun x => { x with resync := none })).onSched (fun x => { x with resyncAborts := x.resyncAborts + 1 })).logEvent
      srcSched 2 .resyncAbort [g]
  else s1

/-- A member's POND_UE in a pair, triad or detecting pair, R382 and R400; a single core loses its context. -/
def State.consumerUe (s : State) (n : Nat) (blame : Option (BitVec 12)) (addr : Nat) : State :=
  let c := s.core n
  let line := match s.placeOf addr with
    | .lake _ off => some (off / 64 * 64)
    | _ => none
  match s.groupOf (s.logical n) with
  | none => s.pondUe n blame addr
  | some g =>
    let m := s.memberIndex g (s.logical n)
    let two := s.isTriad g && decide ((s.groupRt g).active.length ≤ 2)
    if !(s.groupRt g).active.contains m then s.pondUe n blame addr
    else if two then
      (s.ccErrWith n ePondUe 2 blame c.ctx.toNat c.ctlPart.toNat (granule addr)).groupFails g
    else if s.isTriad g && s.resyncLimit n then
      (s.ccErrWith n ePondUe 3 blame c.ctx.toNat c.ctlPart.toNat (granule addr)).withdrawCore n
    else
      (s.ccErrWith n ePondUe 1 blame c.ctx.toNat c.ctlPart.toNat (granule addr)).restoreMember g m line

/-- The copy of step 2 and the forwarded writes of step 3 have landed: the copy set, and the line of R382. -/
def State.landCopy (s : State) (g m d : Nat) : State :=
  let from_ := (s.groupPhys g).getD d 0
  let to_ := (s.groupPhys g).getD m 0
  let s1 := s.copySet from_ to_
  match (s.groupRt g).lakeLine with
  | none => s1
  | some off => s1.onMem (fun x =>
      x.copyRange (s.store (from_ * 0x8000000 + off)) (s.store (to_ * 0x8000000 + off)) 64)

/-! ## The group port, R377 to R381 -/

/-- A report of a group port under the lead core's id, R399. -/
def State.portReport (s : State) (lead code cls : Nat) (blame : Option Nat) : State :=
  s.report { origin := BitVec.ofNat 12 (s.sourceId lead), group := 8, code := BitVec.ofNat 8 code, cls := BitVec.ofNat 3 cls,
             blame := blame.map (fun n => BitVec.ofNat 12 (s.sourceId n)), ctx := (s.core lead).ctx,
             part := (s.core lead).ctlPart, detail := BitVec.ofNat 32 lead }

/-- A member of a triad deviates from a majority, R381 and R384. `code` is the port's code. -/
def State.memberDeviates (s : State) (g m code : Nat) : State :=
  let n := (s.groupPhys g).getD m 0
  let lead := (s.groupPhys g).getD 0 0
  let limit := s.resyncLimit n
  let cls := if limit then 3 else 1
  let s1 := (s.ccErrWith n eCmp cls none (s.core n).ctx.toNat (s.core n).ctlPart.toNat lead).portReport lead code cls (some n)
  if limit then s1.withdrawCore n else s1.restoreMember g m none

/-- No majority, or a pair's copies differ, R381: the port's report, the members' CMP folded into it, the teardown. -/
def State.groupMismatch (s : State) (g code : Nat) : State :=
  let lead := (s.groupPhys g).getD 0 0
  let ns := s.activePhys g
  let s1 := s.portReport lead code 2 none
  (ns.foldl (fun t n => t.ccErrWith n eCmp 2 (some (BitVec.ofNat 12 (s.sourceId lead))) (s.core n).ctx.toNat
    (s.core n).ctlPart.toNat lead) s1).groupFails g

/-- The outcome of comparing one value of each active member: the value released, and the member that deviates. -/
inductive Vote where
  | agree (v : Word64)
  | majority (v : Word64) (m : Nat)
  | none
  deriving DecidableEq, Repr

/-- The decision of R377 over the copies of the active members, as (member, copy). -/
def decide377 (cs : List (Nat × Word64)) : Vote :=
  match cs with
  | [(_, a), (_, b)] => if a = b then .agree a else .none
  | [(i, a), (j, b), (k, c)] =>
    if a = b then (if b = c then .agree a else .majority a k)
    else if b = c then .majority b i
    else if a = c then .majority a j
    else .none
  | _ => .none

/-! ## Packets, R72 and R379 -/

/-- A sequence violation of a landing packet on core n, R72. -/
def State.seqViolation (s : State) (n : Nat) (bank ctr : Nat) : State :=
  let c := s.core n
  let own := ((s.sched.table.map (fun t => t.bankOwner (s.logical n) bank)).getD 15)
  let mine := c.busy && c.ctlPart.toNat == own && ((c.prog.map (fun p => p.bank.toNat == bank)).getD false)
  let s1 := s.ccErrWith n eSeqViol 2 none (if mine then c.ctx.toNat else 0) own (bank * 16 + ctr)
  if mine then s1.teardownCore n else s1

/-- A packet lands on a counter of physical core n. -/
def State.landAt (s : State) (n : Nat) (p : Packet) : State :=
  let r := landOn ((s.core n).ctr p.bank.toNat p.ctr.toNat) p.seq p.isVoid
  let s1 := s.onCore n (fun c => { c with ctrs := sset {} c.ctrs (p.bank.toNat * 16 + p.ctr.toNat) r.1 })
  if r.2 then s1.seqViolation n p.bank.toNat p.ctr.toNat else s1

/-- The physical cores that take a packet for a logical core: every active member of its group, R379. -/
def State.packetTargets (s : State) (l : Nat) : List Nat :=
  match s.groupOf l with
  | none => [s.phys l]
  | some g => if (s.activePhys g).isEmpty then [s.phys l] else s.activePhys g

/-- A packet lands; while its logical core is being remapped it is held, R298. -/
def State.landPacket (s : State) (p : Packet) : State :=
  if s.sched.remaps.any (fun r => r.logical == p.core) then
    s.onSched (fun x =>
      { x with remaps := x.remaps.map (fun r => if r.logical == p.core then { r with heldPackets := r.heldPackets ++ [p] } else r) })
  else (s.packetTargets p.core.toNat).foldl (fun t n => t.landAt n p) s

/-! ## Remaps, R297, R298 and R313 -/

/-- R313: the way back of the logical cores whose own place is physical core n, its whole group with it, when that place
is in service again. -/
def State.returnHome (s : State) (n : Nat) : List (Nat × Nat) :=
  let ls := match s.groupOf n with | some g => s.groupCores g | none => [n]
  if ls.any (fun k => s.phys k != k) && ls.all s.usable then (ls.filter (fun k => s.phys k != k)).map (fun k => (k, k)) else []

/-- A remap of the plan leaves a withdrawn core: the work on the substitutes ends (R297: "runs with one core fewer"). -/
def State.remapTakes (s : State) (ps : List (Nat × Nat)) : Bool := ps.any (fun p => s.isWithdrawn (s.phys p.1))

/-- Step 1 of R298: packets to the logical cores are held. Work on the substitutes of a withdrawn core is torn down. -/
def State.startRemap (s : State) (ps : List (Nat × Nat)) : State :=
  (if s.remapTakes ps then ps.foldl (fun t p => t.teardownCore p.2) s else s).onSched (fun x =>
    { x with remaps := x.remaps ++ ps.map (fun p =>
        { logical := BitVec.ofNat 6 p.1, old := BitVec.ofNat 6 (s.phys p.1), new := BitVec.ofNat 6 p.2, since := s.now }) })

/-- CORE_MAP with logical core l moved to physical core p; the logical core that p carried takes l's former core. -/
def moveMap (m : List (BitVec 6)) (l : Nat) (p : BitVec 6) : List (BitVec 6) :=
  let old := m.getD l 0
  (m.map (fun c => if c == p then old else c)).set l p

/-- The core that holds the state for a moved logical core: the old one, or a good member of its group. -/
def State.bankDonor (s : State) (r : Remap) : Option Nat :=
  if !s.isWithdrawn r.old.toNat then some r.old.toNat
  else match s.groupOf r.logical.toNat with
    | some g => (s.groupPhys g).find? (fun p => !s.isWithdrawn p)
    | none => none

/-- Step 3 of R298 for one core: a core in service changes places with the new one; for a withdrawn one a good member of
its group carries the banks, or its own banks and streams are copied, but those that cannot be restored. -/
def State.copyBanks (s : State) (r : Remap) (bad : BitVec 4) : State :=
  let old := s.core r.old.toNat
  if !s.isWithdrawn r.old.toNat then s.exchange r.old.toNat r.new.toNat
  else match s.groupOf r.logical.toNat, s.bankDonor r with
  | some _, some d => s.copySet d r.new.toNat
  | _, _ =>
    (s.onCore r.new.toNat (fun c =>
      { c with ctrs := old.ctrs.filter (fun e => !bit bad.toNat (e.1 / 16)), outs := old.outs.filter (fun e => !bit bad.toNat (e.1 / 16)) })).onSched
      (fun x => { x with lostBanks := x.lostBanks ||| (BitVec.ofNat 256 bad.toNat <<< (4 * r.logical.toNat)) })

/-- Steps 3 and 4 of R298 for the remaps of one group or core; each remap is an event and a report, R297. -/
def State.finishRemap (s : State) (rs : List Remap) (bad : BitVec 4) : State :=
  let s1 := (rs.filter (fun r => s.isWithdrawn r.old.toNat) ++ rs.filter (fun r => !s.isWithdrawn r.old.toNat)).foldl
    (fun t r => t.copyBanks r bad) s
  let s2 := rs.foldl (fun t r =>
    ((t.onSched (fun x =>
        { x with coreMap := moveMap x.coreMap r.logical.toNat r.new, remaps := x.remaps.filter (fun y => y.logical != r.logical) })).onCore
      r.old.toNat (fun c => { c with group := 0, groupHeld := none, prog := if c.st == .withdrawn then none else c.prog })).logEvent
      srcSched 0 .remap [r.logical.toNat, r.old.toNat, r.new.toNat]) s1
  let s3 := rs.foldl (fun t r => t.raise srcSched 22 1 0 r.logical.toNat) s2
  let s4 := match rs.head?.bind (fun r => s.groupOf r.logical.toNat) with
    | none => s3
    | some g =>
      let f := s3.formGroup g
      if s.isTriad g then
        match rs.head? with
        | some r =>
          let m := s.memberIndex g r.logical.toNat
          let rest := (f.groupRt g).active.filter (· != m)
          ((f.onCore r.new.toNat (fun c => { c.wiped with st := .resync })).onGroup g (fun x =>
            { x with active := rest, resync := some (m, rest.foldl max 0, .waitTb) })).setDetect ((f.groupPhys g).eraseIdx m) true
        | none => f
      else f.onGroup g
        (fun x => { x with active := [0, 1], resync := none })
  rs.foldl (fun t r => r.heldPackets.foldl (fun u p => u.landPacket p) t) s4

/-- The remaps that complete together with the one of old core n: those of its group. -/
def State.remapsOf (s : State) (n : Nat) : List Remap :=
  match s.sched.remaps.find? (fun r => r.old.toNat == n) with
  | none => []
  | some r =>
    match s.groupOf r.logical.toNat with
    | none => [r]
    | some g => s.sched.remaps.filter (fun y => (s.groupCores g).contains y.logical.toNat)

/-! ## Clock alarms -/

/-- Every member of a core's group is withdrawn, or the core alone, R400. -/
def State.withdrawGroupOf (s : State) (n : Nat) : State :=
  match s.groupOf (s.logical n) with
  | none => s.withdrawCore n
  | some g => (s.groupPhys g).foldl State.withdrawCore s

/-- The groups that a generator serves, R19. -/
def State.groupsOnGen (s : State) (g : Nat) : List Nat :=
  (List.range 32).filter (fun i => ((s.groupEntry i).map (·.gclk)) == some g)

/-- An alarm of group clock generator g: every group that it serves is withdrawn, and no group runs on it again, R18 and R399. -/
def State.withdrawGenerator (s : State) (g : Nat) : State :=
  (s.groupsOnGen g).foldl (fun t i => (s.groupPhys i).foldl State.withdrawCore t)
    (s.onSched (fun x => { x with badGens := x.badGens ||| (1#16 <<< g) }))

/-! ## The reaction to a class, R401 -/

/-- The core of this node that a report's origin names. -/
def State.coreOf (s : State) (o : BitVec 12) : Option Nat :=
  if o.toNat / 512 = s.fab.nodeId.toNat ∧ o.toNat % 512 < 64 then some (o.toNat % 512) else none

/-- The Lake channel of this node that a report's origin names. -/
def State.channelOf (s : State) (o : BitVec 12) : Option Nat :=
  if o.toNat / 512 = s.fab.nodeId.toNat ∧ 64 ≤ o.toNat % 512 ∧ o.toNat % 512 < 128 then some (o.toNat % 512 - 64) else none

/-- What the reporting unit does on its report, R401: a core loses its context at class 2 and is withdrawn at class 3, with its group on a clock
alarm (R400); at class 1, a POND_UE restores the member (R382). The groups of a generator with an alarm and a Lake channel with CA_FAIL are withdrawn. -/
def State.unitReaction (s : State) (r : ReportIn) : State :=
  if r.cls = 3 ∧ r.group = 9 then s.withdrawGenerator (r.detail.toNat % 16)
  else match s.channelOf r.origin with
  | some ch => if r.cls = 3 ∧ 4 ≤ r.group.toNat ∧ r.group.toNat < 8 ∧ r.code = 4 then s.onLake ch (fun l => { l with state := 3 }) else s
  | none =>
  match s.coreOf r.origin with
  | none => s
  | some n =>
    if r.cls = 3 ∧ r.group.toNat < 4 ∧ r.code.toNat = eClkMon then s.withdrawGroupOf n
    else if r.cls = 3 ∧ (r.group.toNat < 4 ∨ r.group = 33 ∨ r.group = 34) then s.withdrawCore n
    else if r.cls = 2 ∧ r.group.toNat < 4 then s.teardownCore n
    else if r.cls = 1 ∧ r.group.toNat < 4 ∧ r.code.toNat = ePondUe then
      match s.groupOf (s.logical n) with
      | some g =>
        if (s.groupRt g).active.contains (s.memberIndex g (s.logical n))
        then s.restoreMember g (s.memberIndex g (s.logical n)) none else s
      | none => s
    else s

/-- A preempted program resumes, R82: its SAVE_AREA is read back and continued; a word of it that cannot be corrected meets the resumed program as every
other bad word of Pond does, R384. -/
def State.resumeSaved (s : State) (n : Nat) (hdr : BitVec 16) : State :=
  match (s.core n).saved.find? (fun v => v.hdr == hdr) with
  | none => s
  | some v =>
    let r := s.readMem (pondBase + s.logical n * 0x400000 + v.prog.saveArea) 8448
    match r.2.2 with
    | none => r.1.resumeCore n hdr r.2.1
    | some a => (r.1.resumeCore n hdr r.2.1).consumerUe n none a

end Sys2Proof.Machine
end

