-- ==== Sys2Proof/Machine/BusOps.lean ====
section
/-! DEFINITION. The bus errors of R44 and R362, and the clearing of a fault record (R414, R415), which both a register
and a dictionary entry perform. -/

namespace Sys2Proof.Machine

/-- A decode error, R44. A compute core loses its context; an application core takes a bus error and a class 2 record;
the island takes a bus error; a fabric access is answered with an error by its door. -/
def State.busFault (s : State) (by_ : Initiator) (addr : Nat) : State :=
  match by_ with
  | .app h => (s.raise (0x80 + h.val) 25 1 2 (granule addr)).emit (.busError by_ addr)
  | .island => s.emit (.busError by_ addr)
  | .core n => s.decodeFault n.toNat addr
  | .engine _ src => s.raise src.toNat 29 0 2 (granule addr)
  | .fabric _ => s.emit (.busError by_ addr)

/-- What the initiator meets after a Shutter has refused its access, R362. -/
def State.refusedBus (s : State) (by_ : Initiator) (part addr : Nat) (write : Bool) (q : Option Nat) : State :=
  let s1 := s.refuse by_ part addr write q
  match by_ with
  | .app h => (s1.raise (0x80 + h.val) 25 1 2 (granule addr)).emit (.busError by_ addr)
  | .island => s1.emit (.busError by_ addr)
  | .core n => s1.teardownCore n.toNat
  | .engine _ src => s1.logEvent src.toNat 2 .engineRefused [addr, s.charged by_ part q]
  | .fabric _ => s1.emit (.busError by_ addr)

/-! ## Clearing a record, R414 and R415 -/

/-- The right to clear, R414: the origin by its code of R475 (0 F, 1 L, 2 S, 3 Y, 4 P). -/
def mayClear (origin cls : Nat) : Bool := if cls ≤ 2 then origin == 1 || origin == 2 || origin == 3 else origin == 3

/-- The result of a clear, FC_CLEAR_RES: 0 cleared; 1 no such record; 2 rights; 3 window open; 4 active. -/
def State.clearResult (s : State) (origin slot seq : Nat) : Nat :=
  match sfind s.fc.slots slot with
  | none => 1
  | some r =>
    if r.seq ≠ seq then 1
    else if !mayClear origin r.cls.toNat then 2
    else if s.now < r.made + 64 then 3
    else if r.active then 4
    else 0

/-- The key under which FC_CLEAR_RES is kept for an origin: an application core has its own. -/
def clearKey (origin who : Nat) : Nat := if origin = 1 then 0x100 + who else origin

/-- A clear by an origin; `who` is the application core for origin L, else 0. An accepted clear is a KIND 1 record. -/
def State.clearRecord (s : State) (origin who slot seq : Nat) : State :=
  let res := s.clearResult origin slot seq
  let s1 := s.onFc (fun c => { c with clearRes := sset 0 c.clearRes (clearKey origin who) res })
  match sfind s.fc.slots slot with
  | none => s1
  | some r =>
    if res = 0 then
      (s1.onFc (fun c =>
        ({ c with slots := sdel c.slots slot }.ring
          { r with time := s.now, seq := s.fcSeq, kind := 1, cleared := true, promoted := false,
                   blame := BitVec.ofNat 12 (origin + place who 4), detail := BitVec.ofNat 32 r.seq, folded := [], foldedGroups := [] }).settle)).takeSeq srcFc
    else s1

end Sys2Proof.Machine
end

