-- ==== Sys2Proof/Machine/AccessOps.lean ====
section
/-! DEFINITION. How the memory tiers serve an access that the Shutters have passed (R335 to R360, R378, R379), the page
and cache state they keep, and the accesses that wait. -/

namespace Sys2Proof.Machine

/-! ## Groups, R378 and R379 -/

/-- The address at which a core's access is performed: a group member's access to its lead's Lake channel goes to its own
channel, and an access to a Pond window of its own group to its own Pond. -/
def State.replicaAddr (s : State) (by_ : Initiator) (a : Nat) : Nat :=
  match by_ with
  | .core n =>
    match s.groupOf (s.logical n.toNat) with
    | none => a
    | some g =>
      let lead := (s.groupPhys g).getD 0 0
      if a < 0x200000000 ∧ a / 0x8000000 = lead then n.toNat * 0x8000000 + a % 0x8000000
      else if pondBase ≤ a ∧ a < pondBase + 0x10000000 ∧ (s.groupCores g).contains ((a - pondBase) / 0x400000) then
        pondBase + s.logical n.toNat * 0x400000 + (a - pondBase) % 0x400000
      else a
  | _ => a

/-- A member other than the lead makes no write outside the replica range: the port makes it once, R378. -/
def State.portMakes (s : State) (by_ : Initiator) (a : Nat) : Bool :=
  match by_ with
  | .core n =>
    match s.groupOf (s.logical n.toNat) with
    | none => true
    | some g =>
      let own := (s.activePhys g).head? == some n.toNat
      let lead := (s.groupPhys g).getD 0 0
      own || decide (a < 0x200000000 ∧ a / 0x8000000 = lead)
        || decide (pondBase ≤ a ∧ a < pondBase + 0x10000000 ∧ (s.groupCores g).contains ((a - pondBase) / 0x400000))
  | _ => true

/-- The other places of a replica write that the port makes, R378: the channels of the members in service that do not run, one that is being
re-synchronised among them. -/
def State.replicaRest (s : State) (by_ : Initiator) (a : Nat) : List Nat :=
  match by_ with
  | .core n =>
    match s.groupOf (s.logical n.toNat) with
    | none => []
    | some g =>
      if a < 0x200000000 ∧ a / 0x8000000 = (s.groupPhys g).getD 0 0 ∧ (s.activePhys g).head? = some n.toNat then
        ((s.groupPhys g).filter (fun p => !(s.activePhys g).contains p && !s.isWithdrawn p)).map (fun p => p * 0x8000000 + a % 0x8000000)
      else []
  | _ => []

/-- An initiator's bytes are written where its access is performed, and at the other places of a replica write. -/
def State.portWrite (s : State) (by_ : Initiator) (a : Nat) (bs : Bytes) (poisoned : Bool) : State :=
  (s.replicaRest by_ a).foldl (fun t b => t.poke b bs poisoned) (s.busWrite by_ (s.replicaAddr by_ a) bs poisoned)

/-! ## ROI headers, R216 and R217 -/

/-- The base of the Reservoir region that holds the ROI set of a camera stream: the k-th camera stream has the claimed named region
k; the spec does not say which region belongs to which stream. DESIGN CHOICE, log 40. -/
def State.roiBase (s : State) (n : Nat) : Option Nat :=
  let camera : Nat → Bool := fun m => s.cfgField (0x410000 + 256 * m) 0 1 == 1
  let k := ((List.range n).filter camera).length
  if camera n && decide (k < 64) then (sfind s.dict.claims (0x200 + k)).map (fun c => resBase + c.first * 0x10000) else none

/-- Bytes land at an address: the stamp of an ROI header is taken. -/
def State.noteRoi (s : State) (a len : Nat) : State :=
  if a < resBase ∨ resBase + 0x4000000 ≤ a then s
  else ((List.range 128).filter (fun n => match s.roiBase n with
    | some b => decide (a < b + 64) && decide (b < a + len)
    | none => false)).foldl (fun t n => t.onSpring (fun x => { x with roiLanded := sput x.roiLanded n s.now })) s

/-! ## Serving -/

/-- The reader of a poisoned or uncorrectable word, R360. -/
def State.consumerOf (s : State) (by_ : Initiator) (bad : Nat) : State :=
  match by_ with
  | .core n => s.consumerUe n.toNat (s.blameOf bad) bad
  | .app h => (s.report { origin := BitVec.ofNat 12 (s.sourceId (0x80 + h.val)), group := 25, code := 1, cls := 2,
                          blame := s.blameOf bad, ctx := 0, part := 0, detail := BitVec.ofNat 32 (granule bad) }).emit (.busError by_ bad)
  | _ => s

/-- The partition of an initiator's running program; an engine's or host's is not used. -/
def State.partOf (s : State) : Initiator → Nat
  | .core n => (s.core n.toNat).ctlPart.toNat
  | _ => 0

/-- An access that the Shutters have passed is served by its tier. -/
def State.serveMemory (s : State) (x : Access) : State :=
  let a := s.replicaAddr x.by_ x.addr
  let q := (s.shutter x.by_ (s.partOf x.by_) a x.len x.write.isSome).2
  let s0 := (s.onMem (fun m => m.upset (s.store a / 4) x.upset)).louvre (s.charged x.by_ (s.partOf x.by_) q) a x.len x.write.isSome
  match x.write with
  | some bs => if s.portMakes x.by_ x.addr then (s0.portWrite x.by_ x.addr bs x.poisonIn).noteRoi a bs.length else s0
  | none =>
    let r := s0.readMem a x.len
    let s1 := r.1.emit (.readData x.by_ x.addr r.2.1)
    match r.2.2 with
    | none => s1
    | some bad => s1.consumerOf x.by_ bad

/-- The waiting accesses that need wait no longer are served in order, R336, R354, R359. -/
def State.serveWaiting (s : State) : State :=
  (s.mem.waiting.filter (fun x => !s.mustWait x.addr x.len)).foldl State.serveMemory
    (s.onMem (fun m => { m with waiting := m.waiting.filter (fun x => s.mustWait x.addr x.len) }))

end Sys2Proof.Machine
end

