-- ==== Sys2Proof/Machine/BootOps.lean ====
section
/-! DEFINITION. Shared operations of boot and update: the activation record (R488), the image and its checks (R482 to
R487), the choice of the slot (R489), the resets (R511), measurement registers (R502). -/

namespace Sys2Proof.Machine

/-! ## The activation record, R488 -/

/-- The record in force. -/
def Flash.act (f : Flash) : ActRecord :=
  match f.ar0, f.ar1 with
  | some a, some b => if serialAfter b.seq a.seq then b else a
  | some a, none => a
  | none, some b => b
  | none, none => {}

/-- The record in force lies in AR0. -/
def Flash.inAr0 (f : Flash) : Bool :=
  match f.ar0, f.ar1 with
  | some a, some b => !serialAfter b.seq a.seq
  | some _, none => true
  | _, _ => false

/-- An update writes the other sector with SEQ + 1, R488. -/
def Flash.writeAct (f : Flash) (g : ActRecord → ActRecord) : Flash :=
  let r := { g f.act with seq := f.act.seq + 1 }
  if f.inAr0 then { f with ar1 := some r } else { f with ar0 := some r }

/-- The activation record updated. -/
def State.writeAct (s : State) (g : ActRecord → ActRecord) : State := s.onFlash (fun f => f.writeAct g)

/-! ## Slots; an erased byte reads 0xFF, log 5 -/

/-- The bytes of a slot that differ from erased. -/
def Flash.slot (f : Flash) (b : Bool) : List Host.Cell := if b then f.slotB else f.slotA

/-- A slot's contents changed. -/
def Flash.onSlot (f : Flash) (b : Bool) (g : List Host.Cell → List Host.Cell) : Flash :=
  if b then { f with slotB := g f.slotB } else { f with slotA := g f.slotA }

/-- n bytes of a slot. -/
def Flash.slotBytes (f : Flash) (b : Bool) (off n : Nat) : Bytes :=
  (List.range n).map (fun i => sget (0xFF : Byte) (f.slot b) (off + i))

/-- Bytes programmed into a slot. -/
def programBytes (m : List Host.Cell) (a : Nat) : Bytes → List Host.Cell
  | [] => m
  | b :: bs => programBytes (sset (0xFF : Byte) m a b) (a + 1) bs

/-- SLOT_SIZE in bytes, R481. -/
def Flash.slotLen (f : Flash) : Nat := f.slotSize * 0x4000000

/-! ## The image, R482 to R487 -/

/-- The header of a slot's image. -/
def Flash.header (f : Flash) (b : Bool) : Bytes := f.slotBytes b 0 512

/-- SECTIONS of an image. -/
def Flash.sections (f : Flash) (b : Bool) : Nat := fieldAt (f.slotBytes b 6 2) 0 2

/-- The 64-byte entry of section i. -/
def Flash.sectionRow (f : Flash) (b : Bool) (i : Nat) : Bytes := f.slotBytes b (512 + 64 * i) 64

/-- KIND, PHASE, OFFSET and LENGTH of section i. -/
def Flash.sectionKind (f : Flash) (b : Bool) (i : Nat) : Nat := fieldAt (f.sectionRow b i) 0 1
/-- PHASE -/
def Flash.sectionPhase (f : Flash) (b : Bool) (i : Nat) : Nat := fieldAt (f.sectionRow b i) 1 1
/-- TARGET -/
def Flash.sectionTarget (f : Flash) (b : Bool) (i : Nat) : Nat := fieldAt (f.sectionRow b i) 4 4

/-- The stored bytes of section i. -/
def Flash.sectionStored (f : Flash) (b : Bool) (i : Nat) : Bytes :=
  f.slotBytes b (fieldAt (f.sectionRow b i) 8 4 * 4096) (fieldAt (f.sectionRow b i) 0x0C 4)

/-- The section matches its DIGEST, R486. -/
def Flash.sectionOk (f : Flash) (b : Bool) (i : Nat) : Bool := sm3 (f.sectionStored b i) == slice (f.sectionRow b i) 0x20 32

/-- The section's content, decrypted when FLAGS[0] is set, R486. -/
def Flash.sectionBytes (f : Flash) (b : Bool) (i : Nat) : Bytes :=
  if bit (fieldAt (f.sectionRow b i) 2 1) 0
  then Config.sm4Decrypt (slice (f.header b) 0x80 16) (slice (f.sectionRow b i) 0x10 16) (f.sectionStored b i)
  else f.sectionStored b i

/-- Kind and phase of a section are allowed, R484. -/
def kindPhaseOk (k p : Nat) : Bool :=
  (decide (1 ≤ k) && decide (k ≤ 4) && p == 0) || (k == 5 && decide (p < 3)) || ((k == 6 || k == 7) && (p == 1 || p == 2))

/-- Total LENGTH of the sections of a phase. -/
def Flash.phaseBytes (f : Flash) (b : Bool) (p : Nat) : Nat :=
  ((List.range (f.sections b)).map (fun i => if f.sectionPhase b i = p then fieldAt (f.sectionRow b i) 0x0C 4 else 0)).sum

/-- Check 2 of R487. -/
def Flash.headerOk (f : Flash) (b : Bool) : Bool :=
  let h := f.header b
  let n := f.sections b
  fieldAt h 0 4 == 0x5A494D47 && fieldAt h 4 2 == 1 && decide (1 ≤ n) && decide (n ≤ 64)
    && decide (fieldAt h 8 8 ≤ f.slotLen) && decide (fieldAt h 0x10 1 ≤ 64) && decide (fieldAt h 0x11 1 ≤ 3)
    && allZero (slice h 0x12 6) && (slice h 0x20 32).all (fun c => decide (0x20 ≤ c.toNat) && decide (c.toNat ≤ 0x7E))
    && allZero (slice h 0x90 240) && allZero (slice h 0x1C0 64)
    && (List.range n).all (fun i => kindPhaseOk (f.sectionKind b i) (f.sectionPhase b i) && decide (fieldAt (f.sectionRow b i) 2 1 < 2)
         && fieldAt (f.sectionRow b i) 3 1 == 0)
    && decide (f.phaseBytes b 0 ≤ 0x3000000) && decide (f.phaseBytes b 1 ≤ 0x14000000)

/-- Check 3 of R487. -/
def Flash.keyOk (f : Flash) (b : Bool) : Bool :=
  let h := f.header b
  f.rootHash[fieldAt h 0x11 1]? == some (sm3 (slice h 0x40 64)) && !f.keyRevoked.getLsbD (fieldAt h 0x11 1)
    && (f.imgKeySet || (List.range (f.sections b)).all (fun i => !bit (fieldAt (f.sectionRow b i) 2 1) 0))

/-- The signed message of R486: header bytes 0x000 to 0x17F and the whole section table. -/
def Flash.signedMessage (f : Flash) (b : Bool) : Bytes := f.slotBytes b 0 0x180 ++ f.slotBytes b 512 (64 * f.sections b)

/-- Check 4 of R487. -/
def Flash.signatureOk (f : Flash) (b : Bool) : Bool :=
  sm2Verify (slice (f.header b) 0x40 64) (slice (f.header b) 0x180 64) (f.signedMessage b)

/-- The BAD flag of a slot. -/
def ActRecord.bad (r : ActRecord) (b : Bool) : Bool := if b then r.badB else r.badA

/-- The first section among those listed that misses its digest. -/
def Flash.badSection (f : Flash) (b : Bool) (which : Nat → Bool) : Option Nat :=
  (List.range (f.sections b)).find? (fun i => which i && !f.sectionOk b i)

/-- The checks of R487 in order: REASON, 0 for a valid slot. -/
def Flash.judge (f : Flash) (b readOk : Bool) : Nat :=
  if !readOk then 6
  else if !f.headerOk b then 1
  else if !f.keyOk b then 2
  else if !f.signatureOk b then 3
  else if fieldAt (f.header b) 0x10 1 < f.rollback then 4
  else if f.act.bad b || (f.badSection b (fun i => f.sectionPhase b i == 0)).isSome then 5
  else 0

/-! ## Measurement registers, R502 -/

/-- MR n. -/
def Boot.mrOf (b : Boot) (n : Nat) : Bytes := sget (List.replicate 32 0) b.mr n

/-- MR = SM3(MR ‖ D). -/
def Boot.extend (b : Boot) (n : Nat) (d : Bytes) : Boot := { b with mr := sput b.mr n (sm3 (b.mrOf n ++ d)) }

/-- FAB_IDENT, the first 64 bits of SM3 over ID_PUB, R501; taken as 8 little-endian bytes. -/
def State.ident (s : State) : Word64 := BitVec.ofNat 64 (leNat ((sm3 s.flash.idPub).take 8))

/-! ## Resets, R511 -/

/-- Sources whose event counters only a rise of PORST_N resets, R25. -/
def aonSource (src : Nat) : Bool := src == srcIsland || src == srcFc || src == srcTb

/-- The domains other than the always-on domain at their reset values; `wake` is the WAKE code of R495. LPDDR contents
stay: a zero-fill belongs to a cold boot only, R359. Their release needs REFCLK, from which time runs again, R30, R510; DEDUCED, log 83. -/
def State.resetDomains (s : State) (wake : Nat) : State :=
  { s with
    tb := { s.tb with refclk := true, src := 0, framesOn := false, runFrame0 := 0, runFrame := 0, fsyncEdge := [0, 0, 0, 0] }
    pins := { s.pins with fsync := [false, false, false, false], ppsOut := false, mfio := 0, gain := [0, 0] }
    fc := { s.fc with exercise := .before, exerciseOk := false, fnExercise := 0, exercised := false, exerciseHold := true }
    boot := { bootsel := s.boot.bootsel, nodeStrap := s.boot.nodeStrap, releasedAt := s.now, wake := wake }
    sec := {}
    dict := {}
    cores := List.replicate 64 {}
    sched := {}
    ctx := {}
    spring := {}
    radio := {}
    mem :=
      { data := s.mem.data.filter (fun c => decide (lpBase ≤ c.1) && decide (c.1 < 0xC00000000))
        synd := s.mem.synd.filter (fun c => decide (lpBase / 4 ≤ c.1) && decide (c.1 < 0xC00000000 / 4))
        lpInstalled := s.mem.lpInstalled
        lpTop := s.mem.lpTop
        lpMark := s.mem.lpMark
        lpAhead := s.mem.lpAhead }
    fab := {}
    pwr := {}
    evSeq := s.evSeq.filter (fun e => aonSource e.1) }

/-- RECOVERY is entered, R489 and R498. -/
def State.toRecovery (s : State) : State :=
  (s.onBoot (fun b => { b with outcome := 4, stage := .recovery, slot := none })).setDevState .recovery

/-- The slot that the ROM checks first, R489. -/
def ActRecord.firstSlot (r : ActRecord) : Bool :=
  if r.staged == some (!r.active) && r.passed then !r.active else r.active

/-- The boot begins after the release of the domains: straps latched (R479), identity checked (R491), the first slot
chosen (R489), and the application-core pairs in the mode that log 79 names. `strap` is the NODE_ID strap. -/
def State.beginBoot (s : State) (bootsel strap : BitVec 3) : State :=
  let s1 := s.onBoot (fun b =>
    { b with bootsel := bootsel, nodeStrap := strap, keyFault := !s.flash.idCheckOk,
             reservedBootsel := bootsel == 4 || bootsel == 5 || bootsel == 6,
             stage := .romCheck s.flash.act.firstSlot false })
  let s2 := ((s1.writeAct (fun r => { r with bootCount := r.bootCount + 1 })).onFab (fun f => { f with nodeId := strap })).onIsl
    (fun i => { i with lock := Config.lockPairs })
  let s3 := if s.flash.idCheckOk then s2 else s2.raise srcSec 28 1 4 0
  if bootsel = 3 then s3.toRecovery else s3

/-- A warm reset, R511: every domain except the always-on domain, and the boot again from stage 1 with the straps held. -/
def State.warmReset (s : State) : State :=
  (s.resetDomains 2).beginBoot s.boot.bootsel s.boot.nodeStrap

/-- GOLDEN_IMAGE of the booted image: its KIND 3 section. -/
def Flash.goldenImage (f : Flash) (b : Bool) : Bytes :=
  ((List.range (f.sections b)).find? (fun i => f.sectionKind b i == 3)).elim [] (fun i => f.sectionBytes b i)

/-- The stored configuration of the booted image: its KIND 4 section. -/
def Flash.storedConfig (f : Flash) (b : Bool) : Bytes :=
  ((List.range (f.sections b)).find? (fun i => f.sectionKind b i == 4)).elim [] (fun i => f.sectionBytes b i)

/-- The phase 0 digests of the listed kinds, in table order, R502. -/
def Flash.digestsOf (f : Flash) (b : Bool) (which : Nat → Bool) : List Bytes :=
  ((List.range (f.sections b)).filter (fun i => which (f.sectionKind b i))).map (fun i => slice (f.sectionRow b i) 0x20 32)

/-- A valid slot is booted, R489 and R490: the record, the measurements of R502, firmware running, the exercise
released. -/
def State.bootSlot (s : State) (b : Bool) (outcome : Nat) : State :=
  let f := s.flash
  let h := f.header b
  let mr0 : List Bytes :=
    [Config.romDigest, fitBytes 32 (leBytes 1 s.boot.bootsel.toNat), fitBytes 32 (leBytes 1 f.rollback),
     fitBytes 32 (slice h 0x11 1)]
  let s1 := s.onBoot (fun x =>
    let x0 := { x with stage := .exercise, slot := some b, outcome := outcome,
                       build := BitVec.ofNat 64 (fieldAt h 0x18 8), rollbackImg := fieldAt h 0x10 1 }
    let x1 := mr0.foldl (fun y d => y.extend 0 d) x0
    let x2 := x1.extend 1 (sm3 (f.signedMessage b))
    let x3 := (f.digestsOf b (fun k => k == 1 || k == 2)).foldl (fun y d => y.extend 2 d) x2
    (f.digestsOf b (fun k => k == 3 || k == 4)).foldl (fun y d => y.extend 3 d) x3)
  let s2 := s1.setEntry kGoldenImage (f.goldenImage b)
  let s3 := s2.onPwr (fun p => { p with avs := 1 })
  s3.onFc (fun c => { c with exercise := .release, exerciseHold := false, exerciseOk := true })

/-- The ROM's checks of the slot under judgement complete, R487 and R489. -/
def State.slotJudged (s : State) (slot second readOk : Bool) : State :=
  let r := s.flash.act
  let why := s.flash.judge slot readOk
  let staged := r.staged == some slot && slot != r.active && r.passed
  let refused := s.onBoot (fun b =>
   { b with
      reason := why
      refused := some slot
      failSection := if why = 5 then (s.flash.badSection slot (fun i => s.flash.sectionPhase slot i == 0)).or b.failSection else none })
  if staged then
    if why = 0 then
      (s.writeAct (fun x => { x with active := slot, staged := none, passed := false })).bootSlot slot 1
    else
      (refused.writeAct (fun x => { x with staged := none, passed := false })).onBoot
        (fun b => { b with outcome := 2, stage := .romCheck r.active true })
  else if slot == r.active then
    if why = 0 then s.bootSlot slot s.boot.outcome
    else if r.staged.isNone && s.boot.outcome != 2 && !second then
      refused.onBoot (fun b => { b with stage := .romCheck (!slot) true })
    else refused.toRecovery
  else
    if why = 0 then (s.writeAct (fun x => { x with active := slot })).bootSlot slot 3
    else refused.toRecovery

/-- Microseconds since the last reset release, R495. -/
def State.sinceRelease (s : State) : Nat := (s.now - s.boot.releasedAt) / 1000

/-- The sections of a phase of the booted image. -/
def State.phaseSections (s : State) (p : Nat) : List Nat :=
  match s.boot.slot with
  | none => []
  | some b => (List.range (s.flash.sections b)).filter (fun i => s.flash.sectionPhase b i == p)

/-- Every phase 1 section has been read and applied, check 4 of R493. -/
def State.phase1Done (s : State) : Bool := (s.phaseSections 1).all (fun i => s.boot.sectionsDone.contains i)

/-- The boot record, R495. -/
def State.bootRecord (s : State) : Bytes :=
  let b := s.boot
  let sl : Option Bool → Nat := fun x => match x with | none => 0xFF | some false => 0 | some true => 1
  leBytes 4 s.flash.act.bootCount.toNat ++ leBytes 1 b.bootsel.toNat ++ leBytes 1 (sl b.slot) ++ leBytes 1 b.outcome
    ++ leBytes 1 b.reason ++ leBytes 1 (sl b.refused) ++ leBytes 1 b.lpFail.toNat ++ leBytes 1 b.wake
    ++ leBytes 1 (flagAt b.reservedBootsel 0 + flagAt b.keyFault 1 + flagAt b.exerciseFailed 2)
    ++ leBytes 1 s.flash.rollback ++ leBytes 1 b.rollbackImg ++ leBytes 2 (b.failSection.getD 0xFFFF)
    ++ leBytes 8 b.lakeFailed.toNat ++ leBytes 8 b.build.toNat ++ leBytes 4 b.tConfig ++ leBytes 4 b.tRun
    ++ leBytes 4 b.tFirst ++ List.replicate 20 0

end Sys2Proof.Machine
end

