-- ==== Sys2Proof/Machine/FabricOps.lean ====
section
/-! DEFINITION. The Galron fabric: links, credits and retry (R422 to R427), transactions and their end-to-end order (R428 to
R431), routing (R436 to R438) and partner violations (R440, R441). -/

namespace Sys2Proof.Machine

/-! ## Shared lookups -/

/-- A door's link. -/
def State.link (s : State) (d : Nat) : FabLink := s.fab.links.getD d {}

/-- A door's link changed. -/
def State.onLink (s : State) (d : Nat) (f : FabLink → FabLink) : State := s.onFab (fun x => { x with links := updAt x.links d f })

/-- Counter i of a link record, R443: 0 FLITS_TX, 1 FLITS_RX, 2 CRC_ERR, 3 REPLAYS, 4 RETRAINS, 5 QUARANTINES, 6 E2E_DUP,
7 E2E_REPLAYED, 8 VIOL, 9 THROTTLED. -/
def FabLink.count (l : FabLink) (i n : Nat) : FabLink := { l with counters := supd 0 l.counters i (· + n) }

/-- End-to-end state of a node and VC. -/
def State.e2eOf (s : State) (node vc : Nat) : E2E := sget {} s.fab.e2e (node * 2 + vc)

/-- End-to-end state changed. -/
def State.onE2e (s : State) (node vc : Nat) (f : E2E → E2E) : State :=
  s.onFab (fun x => { x with e2e := supd {} x.e2e (node * 2 + vc) f })

/-- The node is set in FAB_NODES. -/
def State.reachable (s : State) (node : Nat) : Bool := s.fab.nodes.getLsbD node

/-- The primary door of a node. -/
def State.doorTo (s : State) (node : Nat) : Nat := (s.fab.routes.getD node 0xFF).toNat % 4

/-- The initiator of a source id, R26 and R431. -/
def initiatorOf (src : Nat) : Initiator :=
  let o := src % 512
  if o < 64 then .core (BitVec.ofNat 6 o)
  else if h : 0x80 ≤ o ∧ o < 0x8C then .app ⟨o - 0x80, by omega⟩
  else if o = 0x8C then .island
  else .engine 0 (BitVec.ofNat 9 o)

/-- What the initiator of a failed transaction meets, R429 and R431: a compute core loses its context, an engine records a
class 2 event, an application core takes a bus error. -/
def State.fabFails (s : State) (src addr : Nat) : State :=
  match initiatorOf src with
  | .engine _ o => s.logEvent o.toNat 2 .unreachable [addr]
  | i => s.busFault i addr

/-! ## Sending flits, R424 to R426 -/

/-- The 32-byte header of a transaction, R428. -/
def txnHeader (t : Txn) : Bytes :=
  leBytes 1 t.op.toNat ++ leBytes 1 t.flags.toNat ++ leBytes 2 t.len ++ leBytes 2 t.tag.toNat ++ leBytes 2 t.srcId.toNat
    ++ leBytes 5 t.addr.toNat ++ leBytes 1 (t.dst.toNat + place t.src.toNat 4) ++ leBytes 1 t.hops ++ leBytes 1 t.part.toNat
    ++ leBytes 4 t.e2e.toNat ++ leBytes 4 t.sseq.toNat ++ leBytes 4 t.pktBytes.toNat ++ leBytes 1 t.out.toNat ++ leBytes 1 t.dctr.toNat
    ++ leBytes 1 t.dcore.toNat ++ [0]

/-- A transaction as the bodies of DATA flits carry it: the header, then its data. -/
def txnBytes (t : Txn) : Bytes := txnHeader t ++ t.data

/-- The flits that a transaction fills, 240 bytes of it in each, R424 and R428. -/
def flitsOf (t : Txn) : Nat := ((txnBytes t).length + 239) / 240

/-- A link can send n flits of a VC and hop class now. -/
def FabLink.canSend (l : FabLink) (vc hop n : Nat) : Bool := decide (n ≤ l.credits.getD (vc * 4 + hop) 0) && decide (l.retry.length + n ≤ 128)

/-- The transaction's flits leave: numbered, kept for retry, paid from the credits. -/
def FabLink.send (l : FabLink) (now vc hop n : Nat) : FabLink :=
  { l.count 0 n with
    txSeq := l.txSeq + BitVec.ofNat 16 n
    retry := l.retry ++ (List.range n).map (fun i => (l.txSeq + BitVec.ofNat 16 i, now))
    credits := setAt l.credits (vc * 4 + hop) (l.credits.getD (vc * 4 + hop) 0 - n) }

/-- What waits on a link is sent in order, as far as credits and retry buffer reach; each VC and hop class keeps its order. -/
def FabLink.pump (now : Nat) : List (Txn × Nat × Nat) → FabLink → List (Nat × Nat) → FabLink × List (Txn × Nat × Nat) × List Txn
  | [], l, _ => (l, [], [])
  | (t, vc, hop) :: q, l, blocked =>
    if !blocked.contains (vc, hop) && l.canSend vc hop (flitsOf t) then
      let r := FabLink.pump now q (l.send now vc hop (flitsOf t)) blocked
      (r.1, r.2.1, t :: r.2.2)
    else
      let r := FabLink.pump now q l ((vc, hop) :: blocked)
      (r.1, (t, vc, hop) :: r.2.1, r.2.2)

/-- A door sends what it can. -/
def State.pumpLink (s : State) (d : Nat) : State :=
  let l := s.link d
  let r := FabLink.pump s.now l.queue l []
  r.2.2.foldl (fun t x => t.emit (.fabric d x)) (s.onLink d (fun _ => { r.1 with queue := r.2.1 }))

/-- A transaction is put on a door. -/
def State.linkSend (s : State) (d : Nat) (t : Txn) (vc hop : Nat) : State :=
  (s.onLink d (fun l => { l with queue := l.queue ++ [(t, vc, hop)] })).pumpLink d

/-! ## Issuing transactions, R429 and R430 -/

/-- Bytes of a node's copies, both VCs. -/
def State.copyBytes (s : State) (node : Nat) : Nat :=
  (((s.e2eOf node 0).copies ++ (s.e2eOf node 1).copies).map (fun t => 32 + t.data.length)).sum

/-- The destination takes no further transaction now, R430: 512 of its transactions, of both VCs, are unacknowledged, or the buffer is full. -/
def State.e2eFull (s : State) (node : Nat) (t : Txn) : Bool :=
  decide (512 ≤ (s.e2eOf node 0).copies.length + (s.e2eOf node 1).copies.length) || decide (2 ^ 20 < s.copyBytes node + 32 + t.data.length)

/-- A transaction takes its end-to-end number, is copied, and leaves by the node's primary door. -/
def State.e2eIssue (s : State) (node vc : Nat) (t : Txn) : State :=
  let x := { t with e2e := (s.e2eOf node vc).next, dst := BitVec.ofNat 3 node, src := s.fab.nodeId, hops := 0 }
  (s.onE2e node vc (fun e => { e with next := e.next + 1, copies := e.copies ++ [x] })).linkSend (s.doorTo node) x vc 0

/-- A transaction for a node that is set in FAB_NODES, or UNREACHABLE at the source. -/
def State.fabSend (s : State) (node vc : Nat) (t : Txn) : State :=
  if !s.reachable node then s.fabFails t.srcId.toNat t.addr.toNat
  else if !(s.e2eOf node vc).held.isEmpty || s.e2eFull node t then s.onE2e node vc (fun e => { e with held := e.held ++ [t] })
  else s.e2eIssue node vc t

/-- Held transactions are issued as far as the copies allow. -/
def State.issueHeld : Nat → State → Nat → Nat → State
  | 0, s, _, _ => s
  | f + 1, s, node, vc =>
    match (s.e2eOf node vc).held with
    | [] => s
    | t :: rest =>
      if s.e2eFull node t then s
      else State.issueHeld f ((s.onE2e node vc (fun e => { e with held := rest })).e2eIssue node vc t) node vc

/-- The header of a transaction from this node, R428. -/
def State.header (s : State) (op src part : Nat) : Txn :=
  { op := BitVec.ofNat 8 op, flags := 0, len := 0, tag := 0, srcId := BitVec.ofNat 16 (s.sourceId src), addr := 0, dst := 0,
    src := s.fab.nodeId, hops := 0, part := BitVec.ofNat 8 part, e2e := 0, sseq := 0, pktBytes := 0, out := 0xFF, dctr := 0xFF, dcore := 0,
    data := [] }

/-- One piece as writes of at most 4,096 bytes. -/
def chopPiece : Nat → Nat → Bytes → List (Nat × Bytes)
  | 0, _, _ => []
  | n + 1, a, bs => (a, bs.take 4096) :: (if 4096 < bs.length then chopPiece n (a + 4096) (bs.drop 4096) else [])

/-- The WRITE transactions of a packet's pieces, the last with LAST and PKT_BYTES, R429. -/
def writesOf (h : Txn) (poisoned : Bool) (pieces : List (Nat × Bytes)) : List Txn :=
  let ws := (pieces.map (fun p => chopPiece (p.2.length / 4096 + 1) p.1 p.2)).flatten
  let total := (ws.map (fun w => w.2.length)).sum
  ws.zipIdx.map (fun w =>
    let last := w.2 + 1 == ws.length
    { h with op := 1, flags := BitVec.ofNat 8 (flagAt last 0 + flagAt poisoned 1), len := w.1.2.length, addr := BitVec.ofNat 40 w.1.1,
             data := w.1.2, pktBytes := if last then BitVec.ofNat 32 total else 0 })

/-- The address of the map that names an address of another node, R43. -/
def remoteAddr (node addr : Nat) : Nat := 2 ^ 47 + node * 2 ^ 44 + addr % 2 ^ 40

/-- A remote read: a tag is taken, and the Louvre of tier 3 is charged at the source, R429. -/
def State.remoteRead (s : State) (by_ : Initiator) (part node addr len : Nat) : State :=
  let tag := s.fab.nextTag
  if !s.reachable node then s.fabFails (initiatorSource by_) addr
  else ((s.louvre (s.charged by_ part none) (remoteAddr node addr) len false).onFab (fun x => { x with nextTag := tag + 1, reads := x.reads ++ [(tag, by_, addr)] })).fabSend node 0
    { s.header 2 (initiatorSource by_) part with tag := tag, len := len, addr := BitVec.ofNat 40 addr }

/-- A remote write without a counter. -/
def State.remoteWrite (s : State) (by_ : Initiator) (part node addr : Nat) (bs : Bytes) (poisoned : Bool) : State :=
  (writesOf (s.header 1 (initiatorSource by_) part) poisoned [(addr, bs)]).foldl (fun t w => t.fabSend node 0 w)
    (s.louvre (s.charged by_ part none) (remoteAddr node addr) bs.length true)

/-! ## Answers and violations, R431, R440, R441 -/

/-- An ERROR to the source of a transaction: 1 RANGE, 2 SHUTTER, 3 DECODE, 4 THROTTLED, 5 UNREACHABLE. -/
def State.answerError (s : State) (t : Txn) (code : Nat) : State :=
  if !s.reachable t.src.toNat then s
  else s.fabSend t.src.toNat 1 { s.header 5 0xAD 0 with tag := BitVec.ofNat 16 code, srcId := t.srcId, addr := t.addr }

/-- A violation of a source node, with its record while the node is not throttled. -/
def State.fabViolation (s : State) (door : Nat) (t : Txn) : State :=
  let key := (t.src.toNat, 0, 0)
  let s1 := if violThrottled key s.fab.viols then s
            else s.logEvent (0xAD + door) 0 .violation [door, t.src.toNat, t.e2e.toNat, t.sseq.toNat]
  (s1.onFab (fun x => { x with viols := violAdd (s.cfg 0x160009) s.now key x.viols })).onLink door (fun l => l.count 8 1)

/-- A transaction that the receiver calls malformed: OP not the row's, a reserved field or code, LEN out of range, R428, R431 and R440. -/
def malformed (op : Nat) (t : Txn) : Bool :=
  t.op.toNat != op || decide (8 ≤ t.flags.toNat) || decide (4096 < t.len) || decide (t.len % 64 ≠ 0) || t.data.length != (if op = 2 then 0 else t.len)
    || (op == 4 && t.len != 0) || decide (16 ≤ t.part.toNat) || (decide (16 ≤ t.out.toNat) && t.out != 0xFF)
    || (decide (64 ≤ t.dctr.toNat) && t.dctr != 0xFF) || decide (64 ≤ t.dcore.toNat)
    || (op == 5 && (decide (t.tag.toNat = 0) || decide (5 < t.tag.toNat)))

/-! ## Delivery at the destination, R429 and R430 -/

/-- A place of the map that a remote access can reach. -/
def Place.isMemory : Place → Bool
  | .lake _ _ => true
  | .lpddr _ => true
  | .reservoir _ => true
  | .pond _ _ => true
  | _ => false

/-- First and last byte of an access lie in memory. -/
def State.inMemory (s : State) (a n : Nat) : Bool := (s.placeOf a).isMemory && (s.placeOf (a + n - 1)).isMemory

/-- The counter that a LAST write or a SIGNAL names, R65 and R72. -/
def State.fabCount (s : State) (t : Txn) : State :=
  if t.out = 0xFF ∨ t.dctr = 0xFF then s
  else s.landPacket { core := BitVec.ofNat 6 t.dcore.toNat, bank := BitVec.ofNat 2 (bits t.dctr.toNat 5 4), ctr := BitVec.ofNat 4 t.dctr.toNat,
                      seq := t.sseq, isVoid := t.flags.getLsbD 2 }

/-- The packet that a WRITE belongs to. -/
def packetKey (t : Txn) : Nat × Nat × Nat × Nat := (t.src.toNat, t.srcId.toNat, t.out.toNat, t.sseq.toNat)

/-- Bytes of a packet landed before. -/
def State.packetBytes (s : State) (t : Txn) : Nat := ((s.fab.packets.find? (fun p => p.1 == packetKey t)).map (·.2)).getD 0

/-- The bytes of a WRITE are counted to its packet; a LAST write ends it. -/
def State.packetTake (s : State) (t : Txn) : State :=
  let n := s.packetBytes t + t.len
  s.onFab (fun x =>
    let rest := x.packets.filter (fun p => p.1 != packetKey t)
    { x with packets := if t.flags.getLsbD 0 then rest else rest ++ [(packetKey t, n)] })

/-- A WRITE is applied: Shutters as an engine access of bit 5, the bytes, the packet, the counter, R429. -/
def State.fabApplyWrite (s : State) (door : Fin 3) (t : Txn) : State :=
  let a := t.addr.toNat
  if !s.inMemory a t.len then s.answerError t 3
  else
    let v := s.shutter (.fabric door) 0 a t.len true
    if !v.1 then (s.refuse (.fabric door) 0 a true v.2).answerError t 2
    else
      let s1 := ((s.louvre (s.charged (.fabric door) 0 v.2) a t.len true).busWrite (.fabric door) a t.data (t.flags.getLsbD 1))
      let sum := s.packetBytes t + t.len
      let s2 := s1.packetTake t
      if !t.flags.getLsbD 0 then s2
      else if sum = t.pktBytes.toNat then s2.fabCount t
      else (s2.fabViolation door.val t).answerError t 1

/-- A READ is answered with its data, R429. -/
def State.fabApplyRead (s : State) (door : Fin 3) (t : Txn) : State :=
  let a := t.addr.toNat
  if !s.inMemory a t.len then s.answerError t 3
  else
    let v := s.shutter (.fabric door) 0 a t.len false
    if !v.1 then (s.refuse (.fabric door) 0 a false v.2).answerError t 2
    else
      let r := (s.louvre (s.charged (.fabric door) 0 v.2) a t.len false).readMem a t.len
      if !s.reachable t.src.toNat then r.1
      else r.1.fabSend t.src.toNat 1
        { s.header 3 (0xAD + door.val) 0 with tag := t.tag, srcId := t.srcId, addr := t.addr, len := t.len, data := r.2.1,
                                              flags := BitVec.ofNat 8 (flagAt r.2.2.isSome 1) }

/-- The data of a READ goes to the tile move that asked for it. -/
def Move.takes (m : Move) (tag : BitVec 16) (data : Bytes) (poisoned : Bool) : Move :=
  match m.need.find? (fun x => x.1 == tag) with
  | none => m
  | some x =>
    { m with need := m.need.filter (fun y => y.1 != tag), src := pasteAt m.src x.2 data,
             bad := if poisoned then m.bad ++ [x.2] else m.bad }

/-- A tile move of the initiator waits for the tag. -/
def State.moveWaits (s : State) (by_ : Initiator) (tag : BitVec 16) : Bool :=
  match by_ with
  | .core n => (s.core n.toNat).tm.any (fun m => (m.map (fun x => x.need.any (fun y => y.1 == tag))).getD false)
  | _ => false

/-- The tile moves of a core take the data of a READ. -/
def State.feedMoves (s : State) (by_ : Initiator) (tag : BitVec 16) (data : Bytes) (poisoned : Bool) : State :=
  match by_ with
  | .core n => s.onCore n.toNat (fun c => { c with tm := c.tm.map (fun m => m.map (fun x => x.takes tag data poisoned)) })
  | _ => s

/-- A READ_RESP returns to its tag; an unknown tag is discarded, R440. -/
def State.fabApplyResp (s : State) (door : Fin 3) (t : Txn) : State :=
  match s.fab.reads.find? (fun r => r.1 == t.tag) with
  | none => s.fabViolation door.val t
  | some r =>
    let s0 := s.onFab (fun x => { x with reads := x.reads.filter (fun q => q.1 != t.tag) })
    let s1 := s0.emit (.readData r.2.1 r.2.2 t.data)
    if s.moveWaits r.2.1 t.tag then s0.feedMoves r.2.1 t.tag t.data (t.flags.getLsbD 1)
    else if t.flags.getLsbD 1 then s1.consumerOf r.2.1 r.2.2 else s1

/-- A delivered transaction takes its effect by OP. -/
def State.fabDeliver (s : State) (door : Fin 3) (op : Nat) (t : Txn) : State :=
  let key := (t.src.toNat, 0, 0)
  let vc0 := decide (op = 1) || decide (op = 2) || decide (op = 4)
  if malformed op t then (s.fabViolation door.val t).answerError t 1
  else if vc0 && violThrottled key s.fab.viols && decide (s.cfg 0x16000a ≤ (violOf key s.fab.viols).admitted) then
    ((s.onFab (fun x => { x with viols := violRequest key false x.viols })).onLink door.val (fun l => l.count 9 1)).answerError t 4
  else
    let s1 := if vc0 then s.onFab (fun x => { x with viols := violRequest key true x.viols }) else s
    match op with
    | 1 => s1.fabApplyWrite door t
    | 2 => s1.fabApplyRead door t
    | 3 => s1.fabApplyResp door t
    | 4 => s1.fabCount t
    | 5 => s1.fabFails t.srcId.toNat t.addr.toNat
    | _ => s1

/-- The VC of a transaction by OP, R425. -/
def vcOf (op : Nat) : Nat := if op = 3 ∨ op = 5 ∨ op = 6 then 1 else 0

/-- A transaction in order is delivered; after 64 deliveries an acknowledgement is sent, R430. -/
def State.e2eDeliver (s : State) (door : Fin 3) (op : Nat) (t : Txn) : State :=
  let vc := vcOf op
  let node := t.src.toNat
  let s1 := (s.onE2e node vc (fun e => { e with expect := e.expect + 1, since := e.since + 1 })).fabDeliver door op t
  if (s1.e2eOf node vc).since < 64 then s1
  else (s1.emit (.e2eAck node vc ((s1.e2eOf node vc).expect - 1).toNat)).onE2e node vc (fun e => { e with since := 0 })

/-- Transactions that arrived ahead are delivered as their turn comes. -/
def State.e2eAhead : Nat → State → Fin 3 → Nat → Nat → State
  | 0, s, _, _, _ => s
  | f + 1, s, door, node, vc =>
    let e := s.e2eOf node vc
    match e.ahead.find? (fun t => t.e2e == e.expect) with
    | none => s
    | some t =>
      State.e2eAhead f ((s.onE2e node vc (fun x => { x with ahead := x.ahead.filter (fun y => y.e2e != t.e2e) })).e2eDeliver door t.op.toNat t)
        door node vc

/-- A transaction in transit goes on by this node's table, R436; more than four links, or no route: UNREACHABLE, R440. -/
def State.fabTransit (s : State) (door : Fin 3) (op : Nat) (t : Txn) : State :=
  if 3 ≤ t.hops ∨ !s.reachable t.dst.toNat then (s.fabViolation door.val t).answerError t 5
  else s.linkSend (s.doorTo t.dst.toNat) { t with hops := t.hops + 1 } (vcOf op) (t.hops + 1)

/-- A transaction of the row's OP arrives at a door, R429 and R430. -/
def State.fabArrive (s : State) (door : Fin 3) (op : Nat) (t : Txn) : State :=
  if t.dst ≠ s.fab.nodeId then s.fabTransit door op t
  else if 3 < t.hops then (s.fabViolation door.val t).answerError t 5
  else
    let vc := vcOf op
    let node := t.src.toNat
    let e := s.e2eOf node vc
    let d := (t.e2e - e.expect).toNat
    if d = 0 then (s.e2eDeliver door op t).e2eAhead (e.ahead.length + 1) door node vc
    else if d ≤ 512 then
      (if e.ahead.any (fun x => x.e2e == t.e2e) then s.onLink door.val (fun l => l.count 6 1)
       else s.onE2e node vc (fun x => { x with ahead := x.ahead ++ [t] }))
    else if d ≤ 2 ^ 31 then s.fabViolation door.val t
    else s.onLink door.val (fun l => l.count 6 1)

/-! ## Routing, R436 -/

/-- This node's own LINK_STATE record: the links that are up, but for a door left out. -/
def State.ownRecord (s : State) (but : Option Nat) : LinkStateRec :=
  { ident := s.ident, strap := s.boot.nodeStrap, node := some s.fab.nodeId,
    links := (List.range 3).filterMap (fun d =>
      if (s.link d).state = 2 ∧ (s.link d).hello.isSome ∧ some d ≠ but then some (BitVec.ofNat 2 d, (s.link d).peerIdent) else none) }

/-- The links of a node that are joined at both ends. -/
def joinedTo (g : List LinkStateRec) (x : Word64) : List Word64 :=
  match g.find? (fun r => r.ident == x) with
  | none => []
  | some r => ((r.links.map (·.2)).filter (fun y => g.any (fun q => q.ident == y && q.links.any (fun l => l.2 == x)))).dedup

/-- Distances from a node, breadth first: every node reached with its distance. -/
def distances (g : List LinkStateRec) : Nat → List Word64 → List (Word64 × Nat) → Nat → List (Word64 × Nat)
  | 0, _, seen, _ => seen
  | f + 1, front, seen, d =>
    let next := (((front.map (joinedTo g)).flatten).dedup).filter (fun y => !seen.any (fun e => e.1 == y))
    distances g f next (seen ++ next.map (fun y => (y, d + 1))) (d + 1)

/-- The distance between two nodes. -/
def distance (g : List LinkStateRec) (x y : Word64) : Option Nat := ((distances g g.length [x] [(x, 0)] 0).find? (fun e => e.1 == y)).map (·.2)

/-- The graph that this node knows. -/
def State.graph (s : State) (but : Option Nat) : List LinkStateRec := s.ownRecord but :: s.fab.db

/-- The node id of an IDENT. -/
def State.idOf (s : State) (x : Word64) : Option Nat := (s.fab.ids.find? (fun e => e.1 == x)).map (·.2.toNat)

/-- The best door to a node, with its distance: the neighbour of the lowest node id on a shortest path, by its lowest door. -/
def State.bestDoor (s : State) (but : Option Nat) (y : Word64) : Option (Nat × Nat) :=
  let g := s.graph but
  match distance g s.ident y with
  | none => none
  | some d =>
    let c := ((s.ownRecord but).links.filter (fun l => (joinedTo g s.ident).contains l.2 && distance g l.2 y == some (d - 1) && decide (0 < d)))
    (c.mergeSort (fun a b => decide ((s.idOf a.2).getD 8 * 4 + a.1.toNat ≤ (s.idOf b.2).getD 8 * 4 + b.1.toNat))).head?.map
      (fun l => (l.1.toNat, d))

/-- Two nodes present one id, R434: every node refuses routes to it. -/
def State.twinId (s : State) (id : BitVec 3) : Bool := decide (2 ≤ (s.fab.ids.filter (fun e => e.2 == id)).length)

/-- FAB_ROUTE of a node id, R442. -/
def State.routeByte (s : State) (id : Nat) : Byte :=
  match s.fab.ids.find? (fun e => e.2.toNat == id) with
  | none => 0xFF
  | some e =>
    if s.twinId e.2 then 0xFF
    else match s.bestDoor none e.1 with
    | none => 0xFF
    | some (d, h) => if 4 < h then 0xFF else BitVec.ofNat 8 (d + place (((s.bestDoor (some d) e.1).map (·.1)).getD 3) 2 + place h 4)

/-- Every copy that a lost node has not acknowledged completes with UNREACHABLE, R438. -/
def State.failCopies (s : State) (node : Nat) : State :=
  let all := (s.e2eOf node 0).copies ++ (s.e2eOf node 0).held ++ (s.e2eOf node 1).copies ++ (s.e2eOf node 1).held
  let s1 := (s.onE2e node 0 (fun e => { e with copies := [], held := [] })).onE2e node 1 (fun e => { e with copies := [], held := [] })
  (all.filter (fun t => t.op == 1 || t.op == 2 || t.op == 4)).foldl (fun t x => t.fabFails x.srcId.toNat x.addr.toNat) s1

/-- ROUTE_LOST, once per node, R438. -/
def State.routeLost (s : State) (node door : Nat) : State :=
  let s1 := if s.fab.lostNodes.getLsbD node then s
    else ((s.onFab (fun x => { x with lostNodes := x.lostNodes ||| (1#8 <<< node) })).raise (0xAD + door) 19 1 3 node).logEvent (0xAD + door) 3
      .routeLost [node]
  s1.failCopies node

/-- The copies for a node are sent again over its newest route, in order, R437. -/
def State.replay (s : State) (node : Nat) : State :=
  let d := s.doorTo node
  let again := fun (t : State) (vc : Nat) =>
    ((s.e2eOf node vc).copies.foldl (fun u x => u.linkSend d x vc 0) t).onLink d (fun l => l.count 7 (s.e2eOf node vc).copies.length)
  again (again s 0) 1

/-- The routes are computed anew; nodes lost raise ROUTE_LOST, and nodes whose door was given up are replayed to, R436 to R438. -/
def State.recomputeRoutes (s : State) (gone : Option Nat) : State :=
  let routes := (List.range 8).map (fun i => if i = s.fab.nodeId.toNat then 0xFF else s.routeByte i)
  let nodes : Byte := BitVec.ofNat 8 (listMask ((List.range 8).filter (fun i => i == s.fab.nodeId.toNat || routes.getD i 0xFF != 0xFF)))
  let s1 := s.onFab (fun x => { x with routes := routes, nodes := nodes })
  let lost := (List.range 8).filter (fun i => s.fab.nodes.getLsbD i && !nodes.getLsbD i)
  let moved := (List.range 8).filter (fun i => nodes.getLsbD i && s.fab.nodes.getLsbD i && i != s.fab.nodeId.toNat && gone == some (s.doorTo i))
  moved.foldl State.replay (lost.foldl (fun t i => t.routeLost i (s.doorTo i % 3)) s1)

/-- A LINK_STATE record leaves on VC 2 by every door that is up, R432. -/
def State.flood (s : State) (r : LinkStateRec) (but : Option Nat) : State :=
  (List.range 3).foldl (fun t d => if ((s.link d).state = 2 ∨ (s.link d).state = 4) ∧ some d ≠ but then t.emit (.linkState d r) else t) s

/-- A link of this node has changed: its record is flooded, and the routes are new. -/
def State.linksChanged (s : State) (gone : Option Nat) : State :=
  ((s.onFab (fun x => { x with lastChange := some s.now })).flood (s.ownRecord none) none).recomputeRoutes gone

/-- The HELLO of this node on a door, R432; its node id once discovery has ended. -/
def State.ownHello (s : State) (d : Nat) : Hello :=
  { ident := s.ident, strap := s.boot.nodeStrap, node := if s.fab.state = 2 then some s.fab.nodeId else none, door := BitVec.ofNat 2 d,
    frameTicks := s.cfg kFrameTicks, frameOrigin := s.frameOrigin, expect := BitVec.ofNat 8 (s.cfg 0x160004) }

/-! ## Links, R426 and R427 -/

/-- What both ends of a link start from when it trains: numbers, retry buffer and credits. -/
def FabLink.fresh (l : FabLink) : FabLink :=
  { l with
    hello := none, txSeq := 0, rxSeq := 0, retry := [], resends := 0, credits := List.replicate 12 64, nakSent := false, queue := [] }

/-- The link is quarantined: out of routing, LINK_QUARANTINE, class 0. -/
def State.quarantine (s : State) (d : Nat) : State :=
  (((s.onLink d (fun l => { (l.fresh).count 5 1 with
      state := 3, testing := false, quarAt := s.now, trainFails := 0, replayStamps := [], downStamps := [] })).raise (0xAD + d) 19 0 0 d).logEvent
    (0xAD + d) 0 .quarantine [d]).linksChanged (some d)

/-- Stamps within a span before now, with now. -/
def recent (span now : Nat) (l : List Nat) : List Nat := l.filter (fun t => decide (now < t + span)) ++ [now]

/-- The link is down: it retrains at once, or is quarantined after four downs within 1 s. -/
def State.linkDown (s : State) (d : Nat) : State :=
  let downs := recent 1000000000 s.now (s.link d).downStamps
  if 4 ≤ downs.length then s.quarantine d
  else
    ((s.onLink d (fun l => { (l.fresh).count 4 1 with state := 1, downStamps := downs, trainFails := 0 })).logEvent (0xAD + d) 0 .linkChange
      [d, 1]).linksChanged (some d)

/-- One more resend event of a link: quarantine at FAB_QUAR_REPLAYS within 1 ms. -/
def State.replayEvent (s : State) (d : Nat) : State :=
  let l := recent 1000000 s.now (s.link d).replayStamps
  if s.cfg 0x160008 ≤ l.length then s.quarantine d else s.onLink d (fun x => { x with replayStamps := l })

/-- The flits after the last ACK are sent again; after four resends without the ACK moving the link is down. -/
def State.resendFrom (s : State) (d : Nat) : State :=
  let l := s.link d
  if l.retry.isEmpty then s
  else
    let s1 := l.retry.foldl (fun t e => t.emit (.resend d e.1.toNat))
      (s.onLink d (fun x => { x.count 3 1 with resends := x.resends + 1, retry := x.retry.map (fun e => (e.1, s.now)) }))
    if 4 ≤ l.resends + 1 then s1.linkDown d else s1.replayEvent d

/-- The flit is covered by an ACK, in a window of 2^15. -/
def covered16 (ack seq : BitVec 16) : Bool := decide ((ack - seq).toNat < 2 ^ 15)

/-- An ACK and a credit return are taken; a marginal ACK of the oldest flit is counted, R34, R35 and R426. -/
def State.takeAck (s : State) (d : Nat) (ack : BitVec 16) (vc hop n : Nat) : State :=
  let l := s.link d
  let rest := l.retry.filter (fun e => !covered16 ack e.1)
  let moved := decide (rest.length < l.retry.length)
  let late := moved && (l.retry.head?.map (fun e => marginal s.now (e.2 + s.cfg 0x160007))).getD false
  ((s.onLink d (fun x =>
    { x with
      retry := rest, resends := if moved then 0 else x.resends, heard := s.now,
      credits := if vc < 3 then setAt x.credits (vc * 4 + hop) (min 64 (x.credits.getD (vc * 4 + hop) 0 + n)) else x.credits })).onFab
    (fun x => { x with marginal := if late then x.marginal + 1 else x.marginal })).pumpLink d

/-- The link carries flits. -/
def State.linkLive (s : State) (d : Nat) : Bool := s.up && ((s.link d).state == 2 || (s.link d).state == 4)

/-- A DATA flit is discarded: NAK, once until one comes in order. -/
def State.discardFlit (s : State) (d : Nat) : State :=
  if (s.link d).nakSent then s
  else (s.emit (.nak d ((s.link d).rxSeq - 1).toNat)).onLink d (fun l => { l with nakSent := true })

end Sys2Proof.Machine
end

