-- ==== Sys2Proof/Machine/ContextOps.lean ====
section
/-! DEFINITION. KV pages, copy-on-write, swapping and the step boundary (R169 to R178, R191 to R198, R325, R326). -/

namespace Sys2Proof.Machine

/-! ## Pages, R169, R173 to R175 -/

/-- The channels of a partition: those of its cores in ascending order, R173. -/
def State.kvChannels (s : State) (p : Nat) : List Nat := maskList 64 (s.partCores p)

/-- A partition's share of a channel, R174: equal shares, the remainder one page each from the lowest channels. -/
def State.kvShare (s : State) (p k : Nat) : Nat :=
  let n := (s.kvChannels p).length
  if n = 0 then 0 else s.cfg (0x311001 + p) / n + (if k < s.cfg (0x311001 + p) % n then 1 else 0)

/-- Lake pages of a partition in a channel. -/
def State.kvUsedIn (s : State) (p ch : Nat) : Nat :=
  (s.ctx.pages.filter (fun e => e.2.1 == p && e.1 / 2 ^ 25 == ch)).length

/-- The lowest free index of a channel's part of the pool. -/
def State.freeIndex (s : State) (ch : Nat) : Option Nat :=
  (List.range (s.cfg 0x310003 / 64)).find? (fun i => (sfind s.ctx.pages (ch * 2 ^ 25 + i)).isNone)

/-- The position, counted from k, of the first channel whose share has a free page, R174. -/
def State.kvPlace (s : State) (p k : Nat) : Option Nat :=
  let n := (s.kvChannels p).length
  (List.range n).find? (fun i => decide (s.kvUsedIn p ((s.kvChannels p).getD ((k + i) % n) 0) < s.kvShare p ((k + i) % n)))

/-- A range of storage set to zero. -/
def Mem.zeroRange (m : Mem) (a n : Nat) : Mem :=
  { m with data := m.data.filter (fun c => !(decide (a ≤ c.1) && decide (c.1 < a + n)))
           synd := m.synd.filter (fun e => !(decide (a / 4 ≤ e.1) && decide (e.1 < (a + n) / 4))) }

/-- One page for a partition, from the channel of core index k or the next with a free page; filled with +0, R175. -/
def State.takePage (s : State) (p k : Nat) : State × Option Page :=
  match s.kvPlace p k with
  | none => (s, none)
  | some i =>
    let ch := (s.kvChannels p).getD ((k + i) % (s.kvChannels p).length) 0
    match s.freeIndex ch with
    | none => (s, none)
    | some x =>
      let s1 := s.onCtx (fun c =>
        { c with pages := sput c.pages (ch * 2 ^ 25 + x) (p, 1), kvSpills := if i = 0 then c.kvSpills else c.kvSpills + 1 })
      (s1.onMem (fun m => m.zeroRange (s.store (s.pageAddr (BitVec.ofNat 6 ch) x)) 0x4000), some (.lake (BitVec.ofNat 6 ch) x))

/-- n pages for a block of a context with SPLIT S, R172 and R173. -/
def State.takeRow (s : State) (p b split n : Nat) : State × List Page :=
  (List.range n).foldl (fun x _ =>
    let r := x.1.takePage p (b % split)
    (r.1, match r.2 with | some q => x.2 ++ [q] | none => x.2)) (s, [])

/-- Pages in one block row of a context, R172. -/
def Ctx.rowPages (c : Ctx) : Nat := 2 * c.layers * c.kvHeads

/-- The bytes of a block row in the block table, padded to 64, R172. -/
def rowBytes (row : List Page) : Bytes :=
  let b := (row.map (fun p => leBytes 4 (handleOf p))).flatten
  fitBytes ((b.length + 63) / 64 * 64) b

/-- Row b of a context is written in its block table; a forked context has no block table of its own, R177. -/
def State.writeRow (s : State) (id b : Nat) : State :=
  let c := s.ctxOf id
  let bs := rowBytes (c.rows.getD b [])
  if c.blockTable = 0 ∧ c.forked then s else s.poke (c.blockTable + b * bs.length) bs false

/-- Every row of a context is written. -/
def State.writeRows (s : State) (id : Nat) : State := (List.range (s.ctxOf id).rows.length).foldl (fun t b => t.writeRow id b) s

/-- The address of a page: of the pool, or of the swap area. -/
def State.addrOfPage (s : State) : Page → Nat
  | .lake ch i => s.pageAddr ch i
  | .swap i => s.cfg 0x310004 + i * 0x4000

/-- A page's 16 KiB copied: every word is checked, counted and reported under the code of its tier, R198 and R360; a bad one stays marked. -/
def State.copyPage (s : State) (a b : Page) : State :=
  ((s.readMem (s.addrOfPage a) 0x4000).1).onMem (fun m => m.copyRange (s.store (s.addrOfPage a)) (s.store (s.addrOfPage b)) 0x4000)

/-! ## Needs and copies, R178 and R191 -/

/-- Blocks that n positions fill. -/
def blocksOf (n : Nat) : Nat := (n + 63) / 64

/-- The positions that a context's step appends: those given, else its prompt, else one. -/
def appendOf (c : Ctx) (appends : List (BitVec 18 × Nat)) (id : Nat) : Nat :=
  match appends.find? (fun a => a.1.toNat == id) with
  | some a => a.2
  | none => if 0 < c.prompt then c.prompt else 1

/-- The block that a context writes first, when it is partly filled. -/
def Ctx.partialBlock (c : Ctx) : Option Nat := if c.positions % 64 = 0 then none else some (c.positions / 64)

/-- A page's count less the copies planned of it. -/
def plannedCount (x : Contexts) (copied : List Page) (p : Page) : Nat := x.count p - (copied.filter (· == p)).length

/-- The row that R178 copies before a context writes, with counts as planned so far. -/
def State.rowToCopy (s : State) (c : Ctx) (copied : List Page) (n : Nat) : Option (List Page) :=
  if n = 0 then none
  else match c.partialBlock with
    | none => none
    | some b => (c.rows[b]?).bind (fun row => if row.any (fun p => decide (1 < plannedCount s.ctx copied p)) then some row else none)

/-- The need of a context at step 2, R191. -/
def State.stepNeed (s : State) (c : Ctx) (copied : List Page) (n : Nat) : Nat :=
  (blocksOf (c.positions + n) - c.rows.length) * c.rowPages + (match s.rowToCopy c copied n with | some _ => c.rowPages | none => 0)

/-- Contexts of a partition in a state. -/
def State.ctxsOf (s : State) (p : Nat) (st : CtxState → Bool) : List (Nat × Ctx) :=
  s.ctx.table.filter (fun e => e.2.part.toNat == p && st e.2.st)

/-- The positions that a context appends in the step that a boundary begins: none for a context of another model. -/
def Boundary.append (b : Boundary) (id : Nat) (c : Ctx) : Nat := if c.modelId = b.model then appendOf c b.appends id else 0

/-- The boundary has ended a context. -/
def Boundary.ended (b : Boundary) (id reason : Nat) : Boundary :=
  { b with dec := { b.dec with ends := b.dec.ends ++ [(BitVec.ofNat 18 id, reason)] } }

/-- The boundary waits for the swap-out of a context, which gives back what was planned for it, R193. -/
def Boundary.swapsOut (b : Boundary) (id : Nat) : Boundary :=
  { b with swapped := b.swapped ++ [id], plan := b.plan.filter (fun e => e.1 != id), joined := b.joined.filter (fun e => e.1 != id),
           dec := { b.dec with swaps := b.dec.swaps ++ [BitVec.ofNat 18 id], joins := b.dec.joins.filter (fun j => j.toNat != id) } }

/-- FREE_p at a boundary: the smallest count that a node that holds the model has, R190 and R191. -/
def State.freeAt (s : State) (b : Boundary) : Nat := s.freePages b.part - b.short

/-- The order of step 2: PRIO descending, then ARRIVAL ascending. -/
def byPrio (l : List (Nat × Ctx)) : List (Nat × Ctx) :=
  l.mergeSort (fun a b => if a.2.prio = b.2.prio then decide (a.2.arrival ≤ b.2.arrival) else decide (b.2.prio ≤ a.2.prio))

/-- Ascending ARRIVAL. -/
def byArrival (l : List (Nat × Ctx)) : List (Nat × Ctx) := l.mergeSort (fun a b => decide (a.2.arrival ≤ b.2.arrival))

/-- The victim among RESIDENT contexts: lowest PRIO, largest ARRIVAL among equals. -/
def victimOf (l : List (Nat × Ctx)) : Option Nat := ((byPrio (l.filter (fun e => !e.2.pinned))).getLast?).map (·.1)

/-- The plan of step 2: the planned needs, or the context that failed. -/
def State.planStep (s : State) (b : Boundary) (l : List (Nat × Ctx)) : List (Nat × Nat) × Option Nat :=
  let r := l.foldl (fun (x : List (Nat × Nat) × List Page × Nat × Option Nat) e =>
    match x.2.2.2 with
    | some _ => x
    | none =>
      let n := b.append e.1 e.2
      let need := s.stepNeed e.2 x.2.1 n
      if x.2.2.1 < need then (x.1, x.2.1, x.2.2.1, some e.1)
      else (x.1 ++ [(e.1, need)], x.2.1 ++ (s.rowToCopy e.2 x.2.1 n).getD [], x.2.2.1 - need, none))
    ([], [], s.freeAt b, none)
  (r.1, r.2.2.2)

/-- The pages whose copy the contexts planned and admitted at a boundary will make, in order, R178. -/
def State.plannedCopies (s : State) (b : Boundary) : List Page :=
  ((b.plan ++ b.joined).map (·.1)).foldl (fun copied id =>
    let c := s.ctxOf id
    copied ++ (s.rowToCopy c copied (if c.inStep then c.appending else b.append id c)).getD []) []

/-! ## Swapping, R196 to R198 -/

/-- Pages of a context that a swap-out copies: those with count 1. -/
def State.ownPages (s : State) (c : Ctx) : List Page :=
  c.rows.flatten.filter (fun p => match p with | .lake _ _ => s.ctx.count p == 1 | .swap _ => false)

/-- Swap pages that running swap-outs of a partition will take; with none named, of all. -/
def State.swapComing (s : State) (p : Option Nat) : Nat :=
  ((s.ctx.table.filter (fun e => e.2.st == .swappingOut && (p.map (· == e.2.part.toNat)).getD true)).map (fun e => e.2.outgoing.length)).sum

/-- A swap-out begins; without room in SWAP_QUOTA, the pages of the swap-outs that still run counted, the victim ends with END_REASON 3, R197.
The flag says that a copy runs. -/
def State.beginSwapOut (s : State) (id : Nat) : State × Bool :=
  let c := s.ctxOf id
  let p := c.part.toNat
  let ps := s.ownPages c
  if s.cfg (0x314001 + p) < s.swapUsed p + s.swapComing (some p) + ps.length
      ∨ s.cfg 0x310005 < s.ctx.swapPages.length + s.swapComing none + ps.length then (s.endCtx id 3, false)
  else (((s.onCtxEntry id (fun x => { x with st := .swappingOut, inStep := false, appending := 0, outgoing := ps })).onCtx
          (fun x => { x with swapOuts := x.swapOuts + 1 })).logEvent srcSched 0 .ctxSwapOut [id, c.step.toNat], true)

/-- The lowest free swap page. -/
def State.freeSwap (s : State) : Nat :=
  ((List.range (s.ctx.swapPages.length + 1)).find? (fun i => (sfind s.ctx.swapPages i).isNone)).getD 0

/-- One page of a swap-out moved to the swap area, if it is one that the swap-out copies. -/
def State.pageOut (s : State) (c : Ctx) (q : Page) : State × Page :=
  if c.outgoing.contains q then
    let i := s.freeSwap
    let s1 := (s.onCtx (fun x => { x with swapPages := sput x.swapPages i c.part.toNat })).copyPage q (.swap i)
    (s1.onCtx (fun x => dropPage x q), .swap i)
  else (s, q)

/-- A row moved page by page by a function. -/
def mapRow (f : State → Page → State × Page) (s : State) (row : List Page) : State × List Page :=
  row.foldl (fun x q => let r := f x.1 q; (r.1, x.2 ++ [r.2])) (s, [])

/-- Rows moved. -/
def mapRows (f : Nat → State → Page → State × Page) (s : State) (rows : List (List Page)) : State × List (List Page) :=
  (rows.zipIdx).foldl (fun x r => let y := mapRow (f r.2) x.1 r.1; (y.1, x.2 ++ [y.2])) (s, [])

/-- The last byte of a swap-out has landed: handles of TIER 1, Lake pages free, R196. -/
def State.finishSwapOut (s : State) (id : Nat) : State :=
  let c := s.ctxOf id
  let r := mapRows (fun _ t q => t.pageOut c q) s c.rows
  (r.1.onCtxEntry id (fun x => { x with st := .swapped, rows := r.2, outgoing := [] })).writeRows id

/-- A swap-in begins: Lake pages are allocated for the swap pages, R198. -/
def State.beginSwapIn (s : State) (id : Nat) : State :=
  let c := s.ctxOf id
  let r := mapRows (fun b t q => match q with
    | .swap _ => let y := t.takePage c.part.toNat (b % c.split); (y.1, y.2.getD q)
    | .lake _ _ => (t, q)) s c.rows
  ((r.1.onCtxEntry id (fun x => { x with st := .swappingIn, incoming := r.2 })).onCtx (fun x => { x with swapIns := x.swapIns + 1 })).logEvent
    srcSched 0 .ctxSwapIn [id, c.step.toNat]

/-- The last page of a swap-in has landed: RESIDENT, or BLOCKED with the mark of R325. -/
def State.finishSwapIn (s : State) (id : Nat) : State :=
  let c := s.ctxOf id
  let pairs := (c.rows.flatten.zip c.incoming.flatten).filter (fun q => q.1 != q.2)
  let s1 := pairs.foldl (fun t q => (t.copyPage q.1 q.2).onCtx (fun x => dropPage x q.1)) s
  (s1.onCtxEntry id (fun x =>
    { x with st := if x.marked then .blocked else .resident, marked := false,
             rows := c.incoming ++ x.rows.drop c.incoming.length, incoming := [] })).writeRows id

/-! ## Carrying out the plan -/

/-- R178: the row of a partly filled shared block is copied to new pages of the context's own, which a running swap-in then keeps. -/
def State.copyRow (s : State) (id b : Nat) : State :=
  let c := s.ctxOf id
  let old := c.rows.getD b []
  let r := s.takeRow c.part.toNat b c.split c.rowPages
  let s1 := (old.zip r.2).foldl (fun t q => t.copyPage q.1 q.2) r.1
  let s2 := s1.onCtx (fun x => { (old ++ ((c.incoming.getD b []).filter (fun q => !old.contains q))).foldl dropPage x with cowCopies := x.cowCopies + 1 })
  ((s2.onCtxEntry id (fun x => { x with rows := x.rows.set b r.2, incoming := x.incoming.set b r.2 })).logEvent srcSched 0 .ctxCopy
    [id, c.step.toNat, b]).writeRow id b

/-- The copy that a context makes before it appends n positions, R178; whether it made one. -/
def State.copyPartial (s : State) (id n : Nat) : State × Bool :=
  match s.rowToCopy (s.ctxOf id) [] n, (s.ctxOf id).partialBlock with
  | some _, some b => (s.copyRow id b, true)
  | _, _ => (s, false)

/-- New block rows up to a number of blocks. -/
def State.openBlocks (s : State) (id blocks : Nat) : State :=
  (List.range (blocks - (s.ctxOf id).rows.length)).foldl (fun t _ =>
    let c := t.ctxOf id
    let r := t.takeRow c.part.toNat c.rows.length c.split c.rowPages
    (r.1.onCtxEntry id (fun x => { x with rows := x.rows ++ [r.2], kv := true })).writeRow id c.rows.length) s

/-- A context begins its step with n positions to append, in the blocks that they open. -/
def State.beginStep (s : State) (id n : Nat) : State :=
  (s.openBlocks id (blocksOf ((s.ctxOf id).positions + n))).onCtxEntry id (fun x => { x with appending := n, inStep := true, prompt := 0 })

/-! ## The order of a step boundary, R191 -/

/-- The step that ends: its positions are complete (R180), STEP and LAST_RUN follow, and ENDED entries become FREE. A context that is still
being swapped in has not taken its step. DESIGN CHOICE, log 96: no command tells when the last strip of a step lands, and the end of the step
stands for it. -/
def State.endStep (s : State) (p : Nat) (m : Word) : State :=
  s.onCtx (fun x =>
    { x with table := (x.table.filter (fun e => !(e.2.part.toNat == p && e.2.modelId == m && e.2.st == .ended))).map (fun e =>
        if e.2.part.toNat == p && e.2.modelId == m && e.2.inStep && e.2.st != .swappingIn then
          (e.1, { e.2 with positions := e.2.positions + e.2.appending, appending := 0, inStep := false, step := e.2.step + 1, lastRun := s.now })
        else e) })

/-- BLOCK and UNBLOCK take effect before step 1, R325. -/
def applyBlock (c : Ctx) : Ctx :=
  let c1 := match c.wantBlock with
    | none => c
    | some t =>
      if c.st = CtxState.resident then { c with st := CtxState.blocked, releaseAt := t, wantBlock := none }
      else if c.st = CtxState.swapped ∨ c.st = CtxState.swappingOut ∨ c.st = CtxState.swappingIn then { c with marked := true, releaseAt := t, wantBlock := none }
      else { c with wantBlock := none }
  if c1.wantUnblock then
    { c1 with st := if c1.st = CtxState.blocked then CtxState.resident else c1.st, marked := false, wantUnblock := false }
  else c1

/-- BLOCK and UNBLOCK commands of a model complete, R319. -/
def State.applyBlocks (s : State) (p : Nat) (m : Word) : State :=
  let mine : Nat → Bool := fun id => (s.ctxOf id).part.toNat == p && (s.ctxOf id).modelId == m
  let s1 := s.onCtx (fun x =>
    { x with table := x.table.map (fun e => if mine e.1 then (e.1, applyBlock e.2) else e)
             waiters := x.waiters.filter (fun w => !(mine w.1.toNat && w.2.2.2 != 4)) })
  (s.ctx.waiters.filter (fun w => mine w.1.toNat && w.2.2.2 != 4)).foldl (fun t w => t.complete w.2.1.toNat w.2.2.1 0 0) s1

/-- The sequences of a partition that leave, ascending ARRIVAL; a running swap is waited for. -/
def State.leavers (s : State) (p : Nat) : List Nat :=
  ((byArrival (s.ctxsOf p (fun st => st != .ended && st != .swappingOut && st != .swappingIn && st != .free))).filter (·.2.leave)).map (·.1)

/-- Step 1: contexts leave. -/
def State.leaveStep (s : State) (ids : List Nat) : State :=
  ids.foldl (fun t id => (t.endCtx id 1).logEvent srcSched 0 .ctxLeave [id, (s.ctxOf id).step.toNat]) s

/-- Contexts whose append goes beyond BLOCK_CAP x 64 positions end with END_REASON 6, R193. -/
def State.limitStep (s : State) (b : Boundary) : State × Boundary :=
  (s.ctxsOf b.part (· == .resident)).foldl (fun x e =>
    if e.2.blockCap * 64 < e.2.positions + b.append e.1 e.2 then (x.1.endCtx e.1 6, x.2.ended e.1 6) else x) (s, b)

/-- Step 2: the plan, or a victim. The result says whether the boundary waits for a swap-out. -/
def State.runStep : Nat → State → Boundary → State × Boundary × Bool
  | 0, s, b => (s, b, false)
  | f + 1, s, b =>
    let res := byPrio (s.ctxsOf b.part (· == .resident))
    match s.planStep b res with
    | (plan, none) => (s, { b with plan := plan, joining := true }, false)
    | (_, some failed) =>
      match victimOf res with
      | none =>
        let c := s.ctxOf failed
        let s1 := s.endCtx failed 4
        State.runStep f (if s.rated b.part then s1.raiseCtx srcSched 23 0 2 failed b.part c.step.toNat else s1) (b.ended failed 4)
      | some v =>
        let r := s.beginSwapOut v
        if r.2 then (r.1, b.swapsOut v, true) else State.runStep f r.1 (b.ended v 3)

/-- FREE_p as step 3 sees it: the free pages less the plan and what is kept for admitted joiners. -/
def State.freeAfterPlan (s : State) (b : Boundary) : Nat := s.freeAt b - (b.plan.map (·.2)).sum - (b.joined.map (·.2)).sum

/-- Lake pages that a context holds. -/
def Ctx.lakePages (c : Ctx) : Nat := (c.rows.flatten.filter (fun p => match p with | .lake _ _ => true | .swap _ => false)).length

/-- The pages of the row that a joiner copies, with the copies planned so far, R178. -/
def State.joinCopy (s : State) (b : Boundary) (c : Ctx) (n : Nat) : Nat :=
  match s.rowToCopy c (s.plannedCopies b) n with | some _ => c.rowPages | none => 0

/-- The need of a joiner: pages at the end of its first step, less those it holds in the Lake; with the row it copies. -/
def State.joinNeed (s : State) (b : Boundary) (c : Ctx) (n : Nat) : Nat :=
  blocksOf (c.positions + n) * c.rowPages - c.lakePages + s.joinCopy b c n

/-- The BLOCKED context that R326 evicts next: latest RELEASE_AT (0 latest), then earliest LAST_RUN. -/
def State.evictNext (s : State) (b : Boundary) : Option Nat :=
  let l := (s.ctx.table.filter (fun e => e.2.part.toNat == b.part && e.2.st == .blocked && !e.2.pinned)).mergeSort (fun x y =>
    let rx := if x.2.releaseAt = 0 then 2 ^ 64 else x.2.releaseAt
    let ry := if y.2.releaseAt = 0 then 2 ^ 64 else y.2.releaseAt
    if rx = ry then decide (x.2.lastRun ≤ y.2.lastRun) else decide (ry ≤ rx))
  l.head?.map (·.1)

/-- A joiner is admitted, swapped in or RESIDENT, with the pages of its first step; a context of the boundary's model takes that step now. -/
def State.admitCtx (s : State) (b : Boundary) (id n : Nat) : State :=
  let c := s.ctxOf id
  let s1 := if c.st = .swapped then s.beginSwapIn id
    else (s.onCtxEntry id (fun x => { x with st := .resident })).logEvent srcSched 0 .ctxJoin [id, c.step.toNat]
  if c.modelId = b.model then s1.beginStep id n else s1.openBlocks id (blocksOf (c.positions + n))

/-- The boundary has admitted a joiner, and keeps pages for the row that it copies. -/
def Boundary.joins (b : Boundary) (id pages : Nat) : Boundary :=
  { b with joined := b.joined ++ [(id, pages)], dec := { b.dec with joins := b.dec.joins ++ [BitVec.ofNat 18 id] } }

/-- What step 3 does with one joiner: done with it, or waiting for a swap-out. -/
def State.joinOne : Nat → State → Boundary → Nat → State × Boundary × Bool
  | 0, s, b, _ => (s, b, false)
  | f + 1, s, b, j =>
    let c := s.ctxOf j
    let n := appendOf c b.appends j
    let need := s.joinNeed b c n
    if c.blockCap * 64 < c.positions + n then (s.endCtx j 6, b.ended j 6, false)
    else if s.cfg (0x311001 + b.part) < need + 64 then (s.endCtx j 5, b.ended j 5, false)
    else if b.refused.any (fun q => decide (c.prio ≤ q)) then (s, { b with considered := b.considered ++ [j] }, false)
    else if need + 64 ≤ s.freeAfterPlan b then (s.admitCtx b j n, b.joins j (s.joinCopy b c n), false)
    else
      let lower := (s.ctxsOf b.part (· == .resident)).filter (fun e => decide (e.2.prio < c.prio))
      let v := (if c.st = .swapped then s.evictNext b else none).orElse (fun _ => victimOf lower)
      match v with
      | some v =>
        let r := s.beginSwapOut v
        if r.2 then (r.1, b.swapsOut v, true)
        else State.joinOne f r.1 ({ b with plan := b.plan.filter (fun e => e.1 != v), joined := b.joined.filter (fun e => e.1 != v) }.ended v 3) j
      | none =>
        (s.logEvent srcSched 0 .ctxRefused [j, c.step.toNat], { b with considered := b.considered ++ [j], refused := b.refused ++ [c.prio] }, false)

/-- The joiners still to be considered, ascending ARRIVAL; those with a blocked mark are not runnable. -/
def State.joiners (s : State) (b : Boundary) : List Nat :=
  ((byArrival (s.ctxsOf b.part (fun st => st == .joining || st == .swapped))).filter (fun e =>
    !b.swapped.contains e.1 && !b.considered.contains e.1 && !(e.2.st == .swapped && e.2.marked))).map (·.1)

/-- Step 3. -/
def State.joinStep : Nat → State → Boundary → State × Boundary × Bool
  | 0, s, b => (s, b, false)
  | f + 1, s, b =>
    match s.joiners b with
    | [] => (s, b, false)
    | j :: _ =>
      let r := s.joinOne (s.ctx.table.length + 1) b j
      if r.2.2 then r else State.joinStep f r.1 (if (r.1.joiners r.2.1).contains j then { r.2.1 with considered := r.2.1.considered ++ [j] } else r.2.1)

/-! ## The end of a boundary -/

/-- The listed bytes of a range of the map that are not zero. -/
def State.cellsIn (s : State) (a n : Nat) : List Host.Cell :=
  ((s.pieces a n).map (fun p => s.mem.data.filter (fun c => decide (p.1 ≤ c.1) && decide (c.1 < p.1 + p.2.2)))).flatten

/-- The snapshot of R47: the scale table with its history, and the context table with its pages. DESIGN CHOICE, log 93: taken at the end of every
step boundary. -/
def State.takeSnapshot (s : State) (m : Word) : State :=
  let p : Snapshot :=
    { model := m, time := s.now, scales := s.cellsIn (Config.scaleTableAddr m) (128 * Config.tensorCount m), table := s.ctx.table
      pages := (s.ctx.pages.map (fun e => s.cellsIn (s.pageAddr (BitVec.ofNat 6 (e.1 / 2 ^ 25)) (e.1 % 2 ^ 25)) 0x4000)).flatten }
  s.onCtx (fun x => { x with snapshot := some p })

/-- The copies of step 2's plan, then those of the admitted joiners, R178: the state, and the contexts that copied. -/
def State.makeCopies (s : State) (b : Boundary) : State × List (BitVec 18) :=
  ((b.plan ++ b.joined).map (·.1)).foldl (fun x id =>
    let c := x.1.ctxOf id
    let r := x.1.copyPartial id (if c.inStep then c.appending else b.append id c)
    (r.1, if r.2 then x.2 ++ [BitVec.ofNat 18 id] else x.2)) (s, [])

/-- The boundary ends: copies, the blocks of the planned contexts, the snapshot, and the decision to the other nodes, R190. -/
def State.endBoundary (s : State) (b : Boundary) : State :=
  let r := s.makeCopies b
  let s1 := b.plan.foldl (fun t e =>
    let c := t.ctxOf e.1
    if c.modelId = b.model ∧ !c.inStep then t.beginStep e.1 (b.append e.1 c) else t) r.1
  b.nodes.foldl (fun t n => t.emit (.stepDecision n.toNat b.model { b.dec with copies := r.2 })) (s1.takeSnapshot b.model)

/-- A boundary is left waiting. -/
def State.waitBoundary (s : State) (b : Boundary) : State := s.onCtx (fun x => { x with boundaries := x.boundaries ++ [b] })

/-- Steps 2 and 3 of a boundary, to its end or to a swap-out that it waits for. -/
def State.runBoundary (s : State) (b : Boundary) : State :=
  let f := s.ctx.table.length + 1
  let r2 := if b.joining then (s, b, false) else (s.limitStep b).1.runStep f (s.limitStep b).2
  let r3 := if r2.2.2 then r2 else r2.1.joinStep f r2.2.1
  if r3.2.2 then r3.1.waitBoundary r3.2.1 else r3.1.endBoundary r3.2.1

/-- The swap-outs of a decision, one after the other: what is left when the boundary waits for one. -/
def State.givenSwaps : Nat → State → Boundary → State × Boundary × Bool
  | 0, s, b => (s, b, false)
  | f + 1, s, b =>
    match b.dec.swaps.find? (fun c => !b.swapped.contains c.toNat) with
    | none => (s, b, false)
    | some c =>
      let r := s.beginSwapOut c.toNat
      let b1 := { b with swapped := b.swapped ++ [c.toNat] }
      if r.2 then (r.1, b1, true) else State.givenSwaps f r.1 b1

/-- A decision of the leader carried out unchanged, R190: its swap-outs, each waited for, its joins, its copies, and the step. -/
def State.runGiven (s : State) (b : Boundary) : State :=
  let r := s.givenSwaps (b.dec.swaps.length + 1) b
  if r.2.2 then r.1.waitBoundary r.2.1
  else
    let s1 := b.dec.joins.foldl (fun t c => t.admitCtx b c.toNat (appendOf (t.ctxOf c.toNat) b.appends c.toNat)) r.1
    let s2 := b.dec.copies.foldl (fun t c => match (t.ctxOf c.toNat).partialBlock with
      | some k => t.copyRow c.toNat k
      | none => t) s1
    ((s2.ctxsOf b.part (· == .resident)).foldl (fun t e =>
      if e.2.modelId = b.model ∧ !e.2.inStep then t.beginStep e.1 (b.append e.1 e.2) else t) s2).takeSnapshot b.model

/-- The boundary that waits for the swap-out of a context goes on after it has landed. -/
def State.resumeBoundary (s : State) (id : Nat) : State :=
  match s.ctx.boundaries.find? (fun b => b.swapped.getLast? == some id) with
  | none => s
  | some b =>
    let s1 := s.onCtx (fun x => { x with boundaries := x.boundaries.erase b })
    if b.given then s1.runGiven b else s1.runBoundary b

/-- A step boundary of a model in a partition, R191; `reports` are the free pages of the other nodes that hold the model, R190. -/
def State.stepBoundary (s : State) (p : Nat) (m : Word) (appends : List (BitVec 18 × Nat)) (written : List Nat)
    (reports : List (BitVec 3 × Nat)) : State :=
  let s1 := (s.endStep p m).applyBlocks p m
  let ids := s1.leavers p
  (s1.leaveStep ids).runBoundary
    { part := p, model := m, appends := appends, short := s.freePages p - reports.foldl (fun a r => min a r.2) (s.freePages p)
      nodes := reports.map (·.1)
      dec := { part := BitVec.ofNat 4 p, leaves := ids.map (BitVec.ofNat 18), swaps := [], joins := [], appends := appends, written := written } }

/-- The leader's decisions applied unchanged, R190. -/
def State.applyDecision (s : State) (m : Word) (d : StepDecision) : State :=
  let p := d.part.toNat
  let s1 := (((s.endStep p m).applyBlocks p m).leaveStep (d.leaves.map (·.toNat))).onCtx (fun x =>
    { x with heldSteps := x.heldSteps.filter (fun h => !(h.1 == d.part && h.2 == m))
             awaiting := x.awaiting.filter (fun h => !(h.1 == d.part && h.2.1 == m)) })
  (d.ends.foldl (fun t e => t.endCtx e.1.toNat e.2) s1).runGiven
    { part := p, model := m, appends := d.appends, dec := d, given := true }

end Sys2Proof.Machine
end

