-- ==== Sys2Proof/Machine/TimeOps.lean ====
section
/-! DEFINITION. The timebase's rules (R31 to R33), and claimed balls (R536 to R538). -/

namespace Sys2Proof.Machine

/-- The claim record held for a resource, R467. -/
def State.claimOf (s : State) (r : Nat) : Option Claim := sfind s.dict.claims r

/-- A ball is claimed with a function, R536. -/
def State.claimedWith (s : State) (r f : Nat) : Bool := ((s.claimOf r).map (·.function)) == some f

/-- The lock state changes; every change is a class 0 event, R32. SYNCED is set when LOCKED is reached, R42. -/
def State.setLock (s : State) (l : LockState) : State :=
  if s.tb.lock = l then s
  else (s.onTb (fun t => { t with lock := l, synced := t.synced || l == .locked })).logEvent srcTb 0 .tbState [s.tb.lock.code, l.code]

/-- TB_OFFSET saturates as an I32, R41. -/
def saturate32 (i : Int) : Int := clamp (-(2 ^ 31 : Nat)) ((2 ^ 31 : Nat) - 1) i

/-- The jump between two consecutive measurements, R32. -/
def Timebase.jump (t : Timebase) (offset : Int) : Nat := match t.lastMeas with | some m => (offset - m).natAbs | none => 0

/-- The source has been silent for 1 s before this measurement, so the 10 s of R32 start anew. -/
def Timebase.silent (t : Timebase) : Bool := match t.lastHeard with | some h => decide (h + 1000000000 < t.now) | none => true

/-- Since when HOLDOVER has heard its source without a jump beyond 1 us. -/
def Timebase.steady (t : Timebase) (offset : Int) : Option Nat :=
  if t.silent || decide (1000 < t.jump offset) then some t.now else some (t.steadySince.getD t.now)

/-- The timebase may step: before the first RUN, once, and forward only, R31. -/
def Timebase.mayStep (t : Timebase) (offset : Int) : Bool := !t.hasRun && !t.stepped && decide (0 ≤ offset)

/-! ## Violation seconds, R550 -/

/-- The throttled origins with counts of a second up to k, whose individual records the summaries replace. -/
def throttled (k : Nat) (l : List Viol) : List Viol := l.filter (fun v => v.throttledSince.isSome && decide (v.second ≤ k))

/-- The code's origin of the change log. -/
def clientWho (k : Nat × Nat × Nat) : Nat := if k.1 = 0 then k.2.1 % 65536 else if k.1 = 3 then 0 else k.2.1 % 2 ^ 64

/-- The KIND 6 record of one throttled client, R475. -/
def State.summary (s : State) (v : Viol) : State :=
  s.logChange ((v.second + 1) * 1000000000)
    { deviceChange with
      kind := 6, origin := v.key.1, who := clientWho v.key, result := aThrottled, newDigest := BitVec.ofNat 64 v.count, length := v.refused }

/-- The summary event of one throttled origin of a unit. -/
def State.violSummary (src : Nat) (s : State) (v : Viol) : State :=
  s.logEvent src 0 .violationSummary [v.key.1, v.key.2.1, v.key.2.2, v.count, v.refused]

/-- The violation seconds up to k end, R232, R287, R441, R473 and R550: a summary of each throttled origin, and its counts restart. -/
def State.endViolSeconds (s : State) (k : Nat) : State :=
  let s1 := (throttled k s.spring.viols).foldl (State.violSummary srcSpring) s
  let s2 := (throttled k s.radio.viols).foldl (fun t v => State.violSummary (0xAB + v.key.1) t v) s1
  let s3 := (throttled k s.fab.viols).foldl (State.violSummary 0xAD) s2
  let s4 := (throttled k s.dict.viols).foldl State.summary s3
  (((s4.onSpring (fun x => { x with viols := violEnd (s.cfg 0x400002) k x.viols })).onRadio
    (fun x => { x with viols := violEnd (s.cfg 0x500003) k x.viols })).onFab
    (fun x => { x with viols := violEnd (s.cfg 0x160009) k x.viols })).onDict
    (fun x => { x with viols := violEnd (s.cfg 0x170004) k x.viols })

/-- Device time takes a later value at once, R31; the violation seconds that this passes end. -/
def State.stepTime (s : State) (new : Nat) : State :=
  let s1 := s.onTb (fun t => { t with now := new })
  if violSecond s.now < violSecond new then s1.endViolSeconds (violSecond new - 1) else s1

/-- A measurement of the offset to the source (source time less device time), R31 and R32. -/
def State.measure (s : State) (offset : Int) : State :=
  let t := s.tb
  let heard : Timebase → Timebase := fun t => { t with offset := saturate32 offset, lastMeas := some offset, lastHeard := some t.now }
  if t.mayStep offset then
    let new := (t.now + offset.toNat) / 2 * 2
    ((((s.onTb heard).stepTime new).onTb (fun t => { t with stepped := true, lastMeas := some 0, lastHeard := some new })).logEvent srcTb 0
      .tbStep [t.now, new]).setLock .locked
  else match t.lock with
    | .holdover => s.onTb (fun t => { heard t with steadySince := t.steady offset })
    | .locked =>
      if 100000 < t.jump offset then ((s.onTb heard).onTb (fun t => { t with steadySince := some t.now })).setLock .holdover
      else (s.onTb heard).setLock (if offset.natAbs ≤ 1000 then .locked else .slewing)
    | _ => (s.onTb heard).setLock (if offset.natAbs ≤ 1000 then .locked else .slewing)

/-- The offset that a PPS edge shows: to the nearest whole second of the device count, R30. DESIGN CHOICE, log 31: an edge exactly half a
second from both whole seconds belongs to the next one. -/
def ppsOffset (now : Nat) : Int :=
  if now % 1000000000 < 500000000 then -((now % 1000000000 : Nat) : Int) else ((1000000000 - now % 1000000000 : Nat) : Int)

/-- A PPS edge disciplines the timebase: GPTP_PORT 2, and not within 100 ms of the previous edge, R546. -/
def State.ppsUsed (s : State) : Bool :=
  s.tb.src == 2 && (match s.tb.lastPps with | some t => decide (t + 100000000 ≤ s.now) | none => true)

/-! ## MFIO copies of FSYNC, R536 and R537 -/

/-- The MFIO balls claimed as copies of FSYNCn take a level. -/
def State.mfioCopies (s : State) (n : Nat) (b : Bool) : BitVec 32 :=
  (List.range 32).foldl (fun m k => if s.claimedWith k (5 + n) then BitVec.ofNat 32 (withBit m.toNat k b) else m) s.pins.mfio

/-- An FSYNC output and its copies take a level where they are claimed. -/
def State.driveFsync (s : State) (n : Nat) (b : Bool) : State :=
  s.onPins (fun p =>
    { p with fsync := if s.claimedWith (0x20 + n) 1 then setAt p.fsync n b else p.fsync, mfio := s.mfioCopies n b })

end Sys2Proof.Machine
end

