-- ==== Sys2Proof/Machine/ScheduleOps.lean ====
section
/-! DEFINITION. Shared operations of the schedule engine: models and loads (R328 to R331), releases and their cores (R302,
R304, R305, R551), jobs and pools (R321), deadlines (R314, R315), golden slots and self-test (R307 to R313, R388 to R390),
and the split and re-formation of pairs (R324, R385, R386). -/

namespace Sys2Proof.Machine

/-! ## Models -/

/-- The MODEL_ID that names no model, R302. -/
abbrev noModel : Word := 0xFFFFFFFF

/-- The model is resident, or none is named. -/
def State.resident (s : State) (m : Word) : Bool := m == noModel || s.sched.models.any (fun x => x.id == m)

/-- A package of the model is stored, R328. -/
def State.modelKnown (s : State) (m : Word) : Bool := (s.packageOf m).isSome

/-- A model of another partition, R331: entries of the table name it, and none of this partition. -/
def State.modelForeign (s : State) (p : Nat) (m : Word) : Bool :=
  let ps := (((s.sched.table.map (·.entries)).getD []).filter (fun e => e.kind != 3 && e.modelId == m)).map (·.part)
  !ps.isEmpty && !ps.contains p

/-- A model's package lies in a section that the boot refused, R492. -/
def State.modelRefused (s : State) (m : Word) : Bool :=
  match s.boot.slot with
  | none => false
  | some b => s.boot.sectionsBad.any (fun i => s.flash.sectionKind b i == 6 && Config.packageModel (s.flash.sectionBytes b i) == m)

/-- A load is queued, R329: once for a release or job, and once for each command that asks; a model with more than 4,096 tracked tensors is
refused, R113. -/
def State.requestLoad (s : State) (m : Word) (cmd : Option (BitVec 4 × Word)) (p : Nat) : State :=
  if s.resident m || decide (4096 < Config.tensorCount m) || (cmd.isNone && s.sched.loads.any (fun l => l.model == m)) then s
  else s.onSched (fun x => { x with loads := x.loads ++ [({ model := m, cmd := cmd, part := p } : LoadReq)] })

/-- The model is used now. -/
def State.useModel (s : State) (m : Word) : State :=
  s.onSched (fun x => { x with models := x.models.map (fun k => if k.id = m then { k with lastUse := s.now } else k) })

/-- A model is in use, R330. -/
def State.modelInUse (s : State) (m : Word) : Bool :=
  s.sched.jobs.any (fun j => j.model == m)
    || s.sched.rels.any (fun r => (r.st == .running || r.st == .preempted || r.st == .held || r.st == .queued)
         && ((s.workEntry r.entry).map (·.modelId)) == some m)
    || s.ctx.table.any (fun e => e.2.st == .resident && e.2.modelId == m)

/-- The resident model that is evicted next, R330. -/
def State.evictModel (s : State) : Option Word :=
  ((s.sched.models.filter (fun k => !k.pinned && !s.modelInUse k.id)).mergeSort (fun a b => decide (a.lastUse ≤ b.lastUse))).head?.map (·.id)

/-- The scale table of a resident model is written back to its package, R330. -/
def State.saveScales (s : State) (m : Word) : State :=
  s.onSched (fun x => { x with scaleStore := sput x.scaleStore m.toNat (s.peek (Config.scaleTableAddr m) (128 * Config.tensorCount m)) })

/-- An entry of a scale table at load, R113: the package's calibration, sixteen slots of its maximum, and counters of 0. DESIGN CHOICE, log 94:
HEAD starts at 0. -/
def loadedEntry (c : Config.Calibration) : Bytes :=
  (List.replicate 16 (leBytes 4 c.max.toNat)).flatten ++ leBytes 4 c.scale.toNat ++ leBytes 4 c.inv.toNat ++ List.replicate 5 0
    ++ leBytes 1 c.fmt ++ leBytes 1 c.margin ++ leBytes 1 c.flags ++ List.replicate 48 0

/-- The scale table of a package as loaded. -/
def loadedTable (b : Bytes) (n : Nat) : Bytes := ((List.range n).map (fun t => loadedEntry (Config.calibration b t))).flatten

/-- The scale table of a loaded model: as written back at an eviction, else the calibration values, R113 and R330. -/
def State.loadScales (s : State) (m : Word) : State :=
  match s.packageOf m with
  | none => s
  | some b => s.poke (Config.scaleTableAddr m) (fitBytes (128 * Config.tensorCount m)
      ((sfind s.sched.scaleStore m.toNat).getD (loadedTable b (Config.tensorCount m)))) false

/-- Room for n more bytes in the model cache and for one more model, by evictions, R330; none when nothing can be evicted. -/
def State.makeRoom : Nat → State → Nat → Option State
  | 0, _, _ => none
  | f + 1, s, n =>
    if (s.sched.models.map (·.bytes)).sum + n ≤ s.cfg 0x320002 ∧ s.sched.models.length < 64 then some s
    else match s.evictModel with
      | none => none
      | some m => State.makeRoom f ((s.saveScales m).onSched (fun x =>
          { x with models := x.models.filter (fun k => k.id != m), modelEvicts := x.modelEvicts + 1 })) n

/-- A model becomes resident, with what waits for it. -/
def State.modelLoaded (s : State) (m : Word) (p : Nat) : State :=
  let n := s.hotSet m
  let s1 := ((s.loadScales m).onSched (fun x =>
    { x with models := x.models ++ [({ id := m, bytes := n, pinned := false, lastUse := s.now } : Model)],
             modelLoads := x.modelLoads + 1 })).onAcct p (fun a => { a with modelLoadBytes := a.modelLoadBytes + n })
  ((s1.sched.loads.filter (fun l => l.model == m)).filterMap (·.cmd)).foldl (fun t c => t.complete c.1.toNat c.2 0 n)
    (s1.onSched (fun x => { x with loads := x.loads.filter (fun l => l.model != m) }))

/-! ## Programs and their images -/

/-- HDR of a program: the Pond granule of its header, R328. -/
def State.hdrOf (s : State) (m : Word) (prog : Nat) : BitVec 16 :=
  match s.packageOf m with
  | some b => BitVec.ofNat 16 (Config.packageHeader b prog / 64)
  | none => 0

/-- A program's image is loaded into core n's Pond from the model cache, unless it lies there, R381. -/
def State.loadImage (s : State) (n : Nat) (m : Word) (prog : Nat) : State :=
  match s.packageOf m with
  | none => s
  | some b =>
    if (s.core n).images.contains (m, prog) then s
    else ((Config.packageImage b prog).foldl (fun t e => t.pondWrite n e.1 e.2 false) s).onCore n
      (fun c => { c with images := c.images ++ [(m, prog)] })

/-! ## Targets, R300, R302, R551 -/

/-- The logical cores that serve an entry: of a split pair the lead only, R324. -/
def State.entryCores (s : State) (w : WorkEntry) : List Nat :=
  let l := ((s.sched.table.map (fun t => t.coresOf w)).getD []).map (·.toNat)
  if w.isGroup && (s.groupRt w.index).split then l.take 1 else l

/-- The physical cores that run an entry's work: of a group the active members. -/
def State.entryPhys (s : State) (w : WorkEntry) : List Nat :=
  if w.isGroup && !(s.groupRt w.index).split then s.activePhys w.index else (s.entryCores w).map s.phys

/-- The golden slot k names physical core n. -/
def State.slotNames (s : State) (k n : Nat) : Bool :=
  ((s.sched.table.bind (fun t => t.goldens[k]?)).map (fun g => g.cores.getLsbD (s.logical n))).getD false

/-- A golden slot holds core n. -/
def State.goldenBusy (s : State) (n : Nat) : Bool := s.sched.goldenSlots.any (fun k => s.slotNames k n)

/-- Core n can take work now. -/
def State.coreFree (s : State) (n : Nat) : Bool :=
  (s.core n).st == CcState.idle && !s.goldenBusy n && !s.isWithdrawn n
    && !s.sched.remaps.any (fun r => r.old.toNat == n || r.new.toNat == n)

/-- A core of the entry lost a bank of its partition: its releases are not made, R298. -/
def State.entryLost (s : State) (w : WorkEntry) : Bool :=
  (s.entryCores w).any (fun l => (List.range 4).any (fun b =>
    s.sched.lostBanks.getLsbD (4 * l + b) && (s.sched.table.map (fun t => t.bankOwner l b)) == some w.part))

/-- R551: a group entry's group has the members that its mode needs; of a pair a TEST_DUE member is out, R312, and one being restored, R382. -/
def State.entryWhole (s : State) (w : WorkEntry) : Bool :=
  if w.isGroup && !(s.groupRt w.index).split then
    s.groupWhole w.index && (s.isTriad w.index || ((s.groupRt w.index).resync.isNone && (s.activePhys w.index).all (fun n => !(s.core n).testDue)))
  else true

/-- An entry's work can start now. -/
def State.startable (s : State) (w : WorkEntry) : Bool :=
  s.resident w.modelId && s.entryWhole w && !s.entryLost w && !(s.entryPhys w).isEmpty && (s.entryPhys w).all s.coreFree

/-- A program of a piece of work starts on physical cores: its image, START with its HDR, context and partition, R302. -/
def State.startOn (s : State) (ns : List Nat) (m : Word) (prog ctx part runFrame : Nat) (w : Work) : State :=
  ns.foldl (fun t n =>
    ((t.loadImage n m prog).startCore n (s.hdrOf m prog) (BitVec.ofNat 18 ctx) (BitVec.ofNat 4 part) runFrame).onCore n
      (fun c => if c.busy then { c with work := some w } else c)) (s.useModel m)

/-- A release whose START was refused on every core, R79, was not made: its streams are filled at its deadline, R76. -/
def State.unlessRefused (s : State) (e frame : Nat) : State :=
  if s.workRuns (some (.rel e frame)) then s
  else s.onSched (fun x => { x with rels := x.rels.map (fun r => if r.runsAs (some (.rel e frame)) then { r with st := .notMade } else r) })

/-! ## Releases -/

/-- The instant of an entry's start lies now. -/
def State.entryStarts (s : State) (w : WorkEntry) : Bool :=
  s.up && s.inFrames && !s.sched.stopped && s.now == s.thisFrame + w.from_

/-- The members of a triad whose re-synchronisation a second mismatch stopped, R384. -/
def State.strayMembers (s : State) (g : Nat) : List Nat :=
  if s.isTriad g && (s.groupRt g).resync.isNone then
    (List.range 3).filter (fun m => !(s.groupRt g).active.contains m && (s.core ((s.groupPhys g).getD m 0)).st == .resync)
  else []

/-- At its next release a triad whose re-synchronisation was stopped runs with all its members again, R384: the counters of one that comes back are
those of the highest member that stayed, as in R383; its images are loaded anew. -/
def State.rejoin (s : State) (w : WorkEntry) : State :=
  if !w.isGroup || (s.strayMembers w.index).isEmpty then s
  else
    let g := w.index
    let d := s.core ((s.groupPhys g).getD ((s.groupRt g).active.foldl max 0) 0)
    let all := (List.range 3).filter (fun m => (s.groupRt g).active.contains m || (s.strayMembers g).contains m)
    let s1 := (s.strayMembers g).foldl (fun t m =>
      t.onCore ((s.groupPhys g).getD m 0) (fun c => { c with st := .idle, ctrs := d.ctrs, outs := d.outs, saved := d.saved, images := [] })) s
    (s1.onGroup g (fun x => { x with active := all })).setDetect (all.map (fun m => (s.groupPhys g).getD m 0)) (decide (all.length < 3))

/-- The release of entry e, at its start, R302 and R551: started, held, or not made. -/
def State.makeRelease (s0 : State) (e : Nat) (w : WorkEntry) : State :=
  let s := s0.rejoin w
  let add : JobSt → State → State := fun st t => t.onSched (fun x =>
    { x with rels := x.rels ++ [({ entry := e, frame := s.frameAt s.now, ctx := w.ctx, cores := (s.entryCores w).map (BitVec.ofNat 6),
                                   at_ := s.now, deadline := if w.deadline = 0 then 0 else s.now + w.deadline, st := st } : Rel)] })
  if s.entryLost w then add .notMade s
  else if s.startable w then
    ((add .running s).startOn (s.entryPhys w) w.modelId w.prog w.ctx w.part s.runFrameNo (.rel e (s.frameAt s.now))).unlessRefused e
      (s.frameAt s.now)
  else (add .held s).requestLoad w.modelId none w.part

/-- The held release of entry e, if one can start now. -/
def State.heldRelease (s : State) (e : Nat) : Option Rel :=
  s.sched.rels.find? (fun r => r.entry == e && r.st == .held && (r.deadline == 0 || decide (s.now ≤ r.deadline)))

/-- A held release starts, R551. -/
def State.startHeld (s : State) (r : Rel) (w : WorkEntry) : State :=
  ((s.onSched (fun x => { x with rels := x.rels.map (fun y => if y = r then { y with st := .running } else y) })).startOn
    (s.entryPhys w) w.modelId w.prog w.ctx w.part (r.frame - s.tb.runFrame0) (.rel r.entry r.frame)).unlessRefused r.entry r.frame

/-- The release that a CONTINUE entry continues: the latest of its target in the frame, R302. -/
def State.continued (s : State) (w : WorkEntry) : Option Rel :=
  (s.sched.rels.filter (fun r => r.frame == s.frameAt s.now && (r.st == .running || r.st == .preempted || r.st == .held)
    && ((s.workEntry r.entry).map (fun v => v.target == w.target && v.part == w.part && v.modelId == w.modelId && v.prog == w.prog
        && v.ctx == w.ctx)).getD false)).getLast?

/-- The preempted programs of physical cores resume, R305. -/
def State.resumeOn (s : State) (ns : List Nat) (hdr : BitVec 16) : State := ns.foldl (fun t n => t.resumeSaved n hdr) s

/-! ## Jobs and pools, R321 -/

/-- The queued job that is served next: highest PRIO, then sequence number; its model must be resident. -/
def State.nextJob (s : State) (p : Nat) : Option Job :=
  ((s.sched.jobs.filter (fun j => j.part.toNat == p && j.st == .queued && s.resident j.model)).mergeSort
    (fun a b => if a.prio = b.prio then !serialAfter a.seq b.seq else decide (b.prio ≤ a.prio))).head?

/-- One job changed. -/
def State.onJob (s : State) (part : BitVec 4) (seq : Word) (f : Job → Job) : State :=
  s.onSched (fun x => { x with jobs := x.jobs.map (fun j => if j.part = part ∧ j.seq = seq then f j else j) })

/-- A queued job starts on physical cores. -/
def State.startJob (s : State) (j : Job) (ns : List Nat) : State :=
  (s.onJob j.part j.seq (fun y => { y with st := .running, core := ns.head?.map (BitVec.ofNat 6), since := s.now })).startOn ns j.model
    j.prog j.ctx.toNat j.part.toNat s.runFrameNo (.job j.part j.seq)

/-- The preempted job of a partition on physical cores. -/
def State.preemptedJob (s : State) (p : Nat) (ns : List Nat) : Option Job :=
  s.sched.jobs.find? (fun j => j.part.toNat == p && j.st == .preempted && ((j.core.map (fun c => ns.contains c.toNat)).getD false))

/-- A POOL entry serves its partition: the preempted job continues, else the next queued job starts. -/
def State.servePool (s0 : State) (w : WorkEntry) : State :=
  let s := s0.rejoin w
  let ns := s.entryPhys w
  if s.startable { w with modelId := noModel } then
    match s.preemptedJob w.part ns with
    | some j => s.resumeOn ns (s.hdrOf j.model j.prog)
    | none => match s.nextJob w.part with
      | some j => s.startJob j ns
      | none => s
  else s

/-- An instant's place in its frame, the frame in progress or a later one. -/
def State.inFrame (s : State) (t : Nat) : Nat := (t - s.thisFrame) % s.frameLen

/-- The entry that covers an instant on a logical core, with its index, R304. -/
def State.coversAt (s : State) (l t : Nat) : Option (Nat × WorkEntry) :=
  ((((s.sched.table.map (·.entries)).getD []).zipIdx).find? (fun e =>
    (s.entryCores e.1).contains l && decide (e.1.from_ ≤ s.inFrame t) && decide (s.inFrame t < e.1.to_))).map (fun e => (e.2, e.1))

/-- An instant lies in a golden slot of a logical core or in the slot's drain, R304. -/
def State.goldenAt (s : State) (l t : Nat) : Bool :=
  ((s.sched.table.map (·.goldens)).getD []).any (fun g => g.cores.getLsbD l
    && ((decide (g.from_ ≤ s.inFrame t + 3000) && decide (s.inFrame t < g.from_ + 120000))
      || decide (s.frameLen + g.from_ ≤ s.inFrame t + 3000)))

/-- The POOL entries that cover this instant serve their partitions. -/
def State.servePools (s : State) : State :=
  if s.inFrames && !s.sched.stopped then
    (((s.sched.table.map (·.entries)).getD []).filter (fun w =>
      w.kind == 2 && decide (s.thisFrame + w.from_ ≤ s.now) && decide (s.now < s.thisFrame + w.to_))).foldl State.servePool s
  else s

/-! ## Deadlines, R314 and R315 -/

/-- The event, report and count of a missed deadline. -/
def State.missed (s : State) (part ctx entry frame : Nat) : State :=
  ((s.logEvent srcSched 2 .deadlineMiss [entry, frame, ctx]).raiseCtx srcSched 23 0 2 ctx part entry).onAcct part
    (fun a => { a with deadlineMiss := a.deadlineMiss + 1 })

/-- The run of missed deadlines of an entry; at MISS_RUN a class 4 fault of the partition. -/
def State.countMiss (s : State) (e part : Nat) : State :=
  let s1 := s.onSched (fun x => { x with missRun := sinc x.missRun e })
  if s.partMissRun part ≠ 0 ∧ s.partMissRun part ≤ sget 0 s1.sched.missRun e then
    (s1.logEvent srcSched 4 .missRun [e, part]).raiseCtx srcSched 23 1 4 0 part e
  else s1

/-- A preempted program of physical cores is discarded: its saved state, and the context's pages when it holds some, R323. -/
def State.discardOn (s : State) (ns : List Nat) (hdr : BitVec 16) (ctx part : Nat) : State :=
  let s1 := (ns.foldl (fun t n => t.discardSaved n hdr) s).onAcct part (fun a => { a with teardowns := a.teardowns + 1 })
  if (s1.ctxOf ctx).kv then s1.endCtx ctx 2 else s1

/-- The streams of a release that is not made are filled with voids at its deadline, R76, to the destinations fixed before where there are any, R71. -/
def State.voidUnmade (s : State) (n : Nat) (m : Word) (prog : Nat) : State :=
  let hdr := s.hdrOf m prog
  let r := s.pondRead n (hdr.toNat * 64) 64
  let p := parseHeader hdr r.2.1
  let t := r.1.pondRead n (fieldAt r.2.1 0x30 4) 128
  if fieldAt r.2.1 0 2 = 0x5450 ∧ !r.2.2 then
    t.1.onCore n (fun c =>
      let k := openStreams c p.bank.toNat p.outMask.toNat t.2.1
      { k with voidDue := k.voidDue ++ k.voidsOf p.bank.toNat p.outMask.toNat })
  else s

/-- What a missed release still holds is torn down, or its streams are filled when it was never made; of one that a fault tore down nothing is left
to do. -/
def State.dropRelease (s : State) (r : Rel) (w : WorkEntry) : State :=
  let ns := r.cores.map (fun l => s.phys l.toNat)
  match r.st with
  | .running => ns.foldl State.teardownCore s
  | .preempted => s.discardOn ns (s.hdrOf w.modelId w.prog) w.ctx w.part
  | .done => s
  | _ => ns.foldl (fun t n => (t.loadImage n w.modelId w.prog).voidUnmade n w.modelId w.prog) s

/-- The check of a release at its deadline instant. -/
def State.checkRelease (s : State) (r : Rel) (w : WorkEntry) : State :=
  let gone := fun (t : State) => t.onSched (fun x =>
    { x with rels := x.rels.filter (fun y => !(y.entry == r.entry && y.frame == r.frame)) })
  match r.completed with
  | some t =>
    if t ≤ r.deadline then
      (gone s).onSched (fun x =>
        { x with missRun := sdel x.missRun r.entry,
                 deadlineMarginal := if marginal t r.deadline then x.deadlineMarginal + 1 else x.deadlineMarginal })
    else ((gone s).missed w.part w.ctx r.entry r.frame).countMiss r.entry w.part
  | none => (((gone (s.dropRelease r w))).missed w.part w.ctx r.entry r.frame).countMiss r.entry w.part

/-- The core time that a job has used up to now, R319 and R332. -/
def State.jobNs (s : State) (j : Job) : Nat :=
  ((s.sched.jobs.find? (fun y => y.part == j.part && y.seq == j.seq)).map (·.coreNs)).getD j.coreNs

/-- A job misses its deadline: status DEADLINE, teardown, event, report. -/
def State.missJob (s : State) (j : Job) : State :=
  let ns := match j.core with | some c => s.members c.toNat | none => []
  let s0 := if j.st = .running then ns.foldl State.chargeCore s else s
  let s1 := s0.onSched (fun x => { x with jobs := x.jobs.filter (fun y => !(y.part == j.part && y.seq == j.seq)) })
  let s2 := match j.st with
    | .running => ns.foldl State.teardownCore s1
    | .preempted => s1.discardOn ns (s.hdrOf j.model j.prog) j.ctx.toNat j.part.toNat
    | _ => s1
  (s2.complete j.part.toNat j.seq 8 (s0.jobNs j)).missed j.part.toNat j.ctx.toNat 0xFFFF (s.frameAt s.now)

/-! ## Golden slots and self-test -/

/-- The start of golden slot k: of this frame, or of the next when its drain begins in this one, R307. -/
def State.slotStarts (s : State) (g : GoldenEntry) : List Nat := [s.thisFrame + g.from_, s.thisFrame + s.frameLen + g.from_]

/-- The golden entry k. -/
def State.goldenEntry (s : State) (k : Nat) : Option GoldenEntry := s.sched.table.bind (fun t => t.goldens[k]?)

/-- The physical cores of a golden entry. -/
def State.goldenPhys (s : State) (g : GoldenEntry) : List Nat := (maskList 64 g.cores.toNat).map s.phys

/-- SEG_SIG of segment k in GOLDEN_IMAGE, R387. -/
def State.segSig (s : State) (k : Nat) : Nat := fieldAt (s.entry kGoldenImage) (0x40088 + 8 * k) 8

/-- The first instant after t at which a place of the frame comes. -/
def State.nextAt (s : State) (t place : Nat) : Nat :=
  (List.range 3).foldr (fun k b => if t < s.thisFrame + k * s.frameLen + place then s.thisFrame + k * s.frameLen + place else b)
    (s.thisFrame + 3 * s.frameLen + place)

/-- Starts, after an instant, of the entries of a logical core that a predicate admits. -/
def State.laterStarts (s : State) (l t : Nat) (which : WorkEntry → Bool) : List Nat :=
  (((s.sched.table.map (·.entries)).getD []).filter (fun w => which w && (s.entryCores w).contains l)).map (fun w => s.nextAt t w.from_)

/-- Drain starts, after an instant, of the golden slots of a logical core. -/
def State.laterDrains (s : State) (l t : Nat) : List Nat :=
  (((s.sched.table.map (·.goldens)).getD []).filter (fun g => g.cores.getLsbD l)).map (fun g => s.nextAt (t + 3000) g.from_ - 3000)

/-- R311: a 40 us segment that starts on core n at an instant fits. -/
def State.segmentFitsAt (s : State) (n t : Nat) : Bool :=
  let l := s.logical n
  let stop := t + 40000
  (s.laterStarts l t (·.isRated)).all (fun u => decide (stop ≤ u - 2000))
    && (s.laterDrains l t).all (fun u => decide (stop ≤ u))
    && (s.laterStarts l t (fun w => w.kind == 1)).all (fun u => decide (stop ≤ u))
    && ((s.core n).testDue || (s.laterStarts l t (fun _ => true)).all (fun u => decide (stop ≤ u)))

/-- R311 at this instant. -/
def State.segmentFits (s : State) (n : Nat) : Bool := s.segmentFitsAt n s.now

/-- What occupies a core, R304. Slack is a job that continues past its entry, a BACKGROUND job, or nothing. -/
inductive Occupant where
  | golden
  | entry (index : Nat) (w : WorkEntry)
  | segment
  | slack
  deriving DecidableEq, Repr

/-- occupant(core, t) of R304. -/
def State.occupantAt (s : State) (n t : Nat) : Occupant :=
  let due := (s.core n).testDue
  if s.goldenAt (s.logical n) t || (t == s.now && s.goldenBusy n) then .golden
  else
    let e := s.coversAt (s.logical n) t
    match e.filter (fun x => x.2.kind == 1) with
    | some x => .entry x.1 x.2
    | none =>
      if due && s.segmentFitsAt n t && e.all (fun x => s.rated x.2.part || s.partClass x.2.part == 0) then .segment
      else match e.filter (fun x => !(due && s.rated x.2.part)) with
        | some x => .entry x.1 x.2
        | none =>
          if (decide (s.thisFrame + s.frameLen ≤ t) || decide ((s.core n).segsDone < s.cfg 0x230001)) && s.segmentFitsAt n t then .segment
          else .slack

/-- R304 and R310: core n may run a segment now, by the arbitration or in its SELFTEST entry. -/
def State.segmentAllowed (s : State) (n : Nat) : Bool :=
  match s.occupantAt n s.now with
  | .segment => true
  | .entry _ w => w.kind == 3
  | .golden | .slack => false

/-- A member returns to its triad by R383, or its core is free again, when its test set is complete, R313. -/
def State.testSetDone (s : State) (n : Nat) : State :=
  let s1 := s.onCore n (fun c => { c with testDue := false })
  if !(s.core n).testDue then s1
  else match s.groupOf (s.logical n) with
    | none => s1
    | some g =>
      let m := s.memberIndex g (s.logical n)
      if (s.groupRt g).active.contains m then s1
      else if s.isTriad g then
        (s1.onGroup g (fun x => { x with resync := some (m, x.active.foldl max 0, .waitTb) })).onCore n (fun c => { c with st := .resync })
      else s1.onGroup g (fun x => { x with active := (List.range 2).filter (fun i => x.active.contains i || i == m) })

/-! ## Split and re-formation of pairs -/

/-- Both members of a pair stand at a tile boundary. -/
def State.pairAtBoundary (s : State) (g : Nat) : Bool := (s.activePhys g).all (fun n => (s.core n).atBoundary)

/-- The SPLIT_PAIR or REFORM_PAIR of a group completes. -/
def State.groupCmdDone (s : State) (g : Nat) : State :=
  match (s.groupRt g).cmd with
  | none => s
  | some c => (s.onGroup g (fun x => { x with cmd := none })).complete c.1.toNat c.2 0 0

/-- R385 at the common tile boundary: signatures compared, the lead single on its own clock, the trail a headroom core. -/
def State.finishSplit (s : State) (g : Nat) : State :=
  let lead := (s.groupPhys g).getD 0 0
  let trail := (s.groupPhys g).getD 1 0
  let s1 := if (s.core lead).sig = (s.core trail).sig then s else s.groupMismatch g 2
  ((((s1.onCore lead (fun c => { c with group := 0, groupHeld := none })).onCore trail (fun c =>
      { c with group := 0, groupHeld := none, st := .idle, ctx := 0, pc := 0, atTb := false, prog := none, x := List.replicate 16 0,
               lc := List.replicate 4 0, v := [], acc := [], waitOn := none, tileEndPending := false, preemptAt := none, since := none })).onGroup g
    (fun x => { x with split := true, active := [0], resync := none }))).groupCmdDone g

end Sys2Proof.Machine
end

