-- ==== Sys2Proof/Machine/CommandOps.lean ====
section
/-! DEFINITION. Shared operations on command records (R316 to R320): submission, the checks that every command shares, and
the checks and effects of the context commands (R167, R168, R177, R323, R325). -/

namespace Sys2Proof.Machine

/-! ## SUBMIT, R316 to R318 -/

/-- REFUSE of a submission in partition p by application core h: 3 STATE, 2 NO_RING, 1 BUSY, 0 none. -/
def State.submitRefusal (s : State) (p h : Nat) : Nat :=
  let w := s.window p
  if !s.inRun || !s.partEnabled p || (s.isl.wdBarred.getD (h / 2) false && s.rated p) then 3
  else if w.cqLog2.toNat < 8 ∨ 16 < w.cqLog2.toNat then 2
  else if s.partMaxPending p ≤ w.pending then 1
  else 0

/-- The value that a read of SUBMIT returns, R317. -/
def State.submitValue (s : State) (p h : Nat) : Word64 :=
  if s.submitRefusal p h = 0 then BitVec.ofNat 64 (2 ^ 32 + (s.window p).subNext.toNat) else BitVec.ofNat 64 (place (s.submitRefusal p h) 40)

/-- Word k of the record of slot h. -/
def Window.recWord (w : Window) (h k : Nat) : Word64 := sget 0 w.recW (h * 4 + k)

/-- A read of SUBMIT in slot h, R318: the record is taken with the next number, or the read is refused. A record with an
opcode of no command completes at once with OPCODE, R320. -/
def State.submitRead (s : State) (p h : Nat) : State :=
  let v := s.submitValue p h
  let w := s.window p
  let s1 := s.onWindow p (fun x => { x with subStat := sset 0 x.subStat h v })
  if s.submitRefusal p h ≠ 0 then s1.onWindow p (fun x => { x with refused := true })
  else
    let c : Cmd := { seq := w.subNext, w0 := w.recWord h 0, w1 := w.recWord h 1, w2 := w.recWord h 2, w3 := w.recWord h 3 }
    let s2 := s1.onWindow p (fun x => { x with subNext := x.subNext + 1, pending := x.pending + 1, cmds := x.cmds ++ [c] })
    if 0x0C < bits c.w0.toNat 7 0 then s2.complete p c.seq 11 0 else s2

/-! ## Records -/

/-- The accepted record of a number that is still to be carried out, if its opcode is the given one. -/
def State.cmdOf (s : State) (part : BitVec 4) (seq : Word) (opcode : Nat) : Option Cmd :=
  (s.window part.toNat).cmds.find? (fun c => c.seq == seq && !c.taken && bits c.w0.toNat 7 0 == opcode)

/-- The record is taken up. -/
def State.takeCmd (s : State) (part : BitVec 4) (seq : Word) : State :=
  s.onWindow part.toNat (fun w => { w with cmds := w.cmds.map (fun c => if c.seq = seq then { c with taken := true } else c) })

/-- CTX of a record. -/
def Cmd.ctx (c : Cmd) : Nat := bits c.w0.toNat 49 32

/-- The reserved bits of word 0 are zero, and words 1 to 3 hold nothing outside the given bits. -/
def Cmd.form (c : Cmd) (m1 m2 m3 : Nat) : Bool :=
  bits c.w0.toNat 31 9 == 0 && bits c.w0.toNat 63 50 == 0 && Nat.land c.w1.toNat m1 == c.w1.toNat
    && Nat.land c.w2.toNat m2 == c.w2.toNat && Nat.land c.w3.toNat m3 == c.w3.toNat

/-- The status of a record that names a model: RANGE for none stored or for more than 4,096 tensors (R113), RIGHTS for another partition's. -/
def State.modelStatus (s : State) (p : Nat) (m : Word) : Nat :=
  if !s.modelKnown m || decide (4096 < Config.tensorCount m) then 1 else if s.modelForeign p m then 3 else 0

/-- The status of a record that names a context: RANGE for 0, STATE for none, RIGHTS for another partition's. -/
def State.ctxStatus (s : State) (p id : Nat) : Nat :=
  if id = 0 then 1
  else if (s.ctxOf id).st = CtxState.free ∨ (s.ctxOf id).st = CtxState.ended then 2
  else if (s.ctxOf id).part.toNat ≠ p then 3
  else 0

/-- The status of a record that names a group, R319 and R320. -/
def State.groupStatus (s : State) (p g : Nat) : Nat :=
  match s.groupEntry g with
  | none => 1
  | some e => if e.part ≠ p then 3 else if e.mode ≠ 1 ∨ s.partClass p ≠ 0 then 6 else 0

/-- A record is carried out: taken up and completed with a status and a result, or, with status 0, given its effect. -/
def State.carry (s : State) (part : BitVec 4) (seq : Word) (status : Nat) (effect : State → State) : State :=
  if status = 0 then effect (s.takeCmd part seq) else (s.takeCmd part seq).complete part.toNat seq status 0

/-! ## OPEN and FORK -/

/-- The lowest free context id, R168. -/
def State.freeCtx (s : State) : Option Nat :=
  ((List.range (s.ctx.table.length + 1)).map (· + 1)).find? (fun i => (sfind s.ctx.table i).isNone && decide (i < 262144))

/-- The context that OPEN describes. -/
def openCtx (part : BitVec 4) (c : Cmd) : Ctx :=
  { st := .joining, part := part, prio := bits c.w2.toNat 57 50, modelId := BitVec.ofNat 32 c.w2.toNat,
    layers := bits c.w2.toNat 39 32 + 1, kvHeads := bits c.w2.toNat 45 40 + 1, split := bits c.w2.toNat 49 46 + 1,
    blockTable := bits c.w1.toNat 47 0, blockCap := bits c.w1.toNat 59 48 + 1, prompt := bits c.w3.toNat 31 0 }

/-- The block table lies within the partition's Lake region: the region that decides its first byte holds it whole. -/
def State.tableInRegion (s : State) (p a n : Nat) : Bool :=
  decide (a + n ≤ 0x200000000) && match s.decider a with
    | some q => bits (s.region q).rights.toNat 55 52 == p && decide (a + n ≤ (bits (s.region q).limit.toNat 47 16 + 1) * 0x10000)
    | none => false

/-- The status of OPEN, R168. -/
def State.openStatus (s : State) (p : Nat) (c : Cmd) : Nat :=
  let x := openCtx (BitVec.ofNat 4 p) c
  let row := (4 * x.rowPages + 63) / 64 * 64
  if !c.form (2 ^ 60 - 1) (2 ^ 58 - 1) (2 ^ 32 - 1) then 1
  else if x.blockTable % 64 ≠ 0 ∨ s.cfg 0x310003 = 0 ∨ x.blockCap * 64 < x.prompt then 1
  else if s.modelStatus p x.modelId ≠ 0 then s.modelStatus p x.modelId
  else if !s.tableInRegion p x.blockTable (x.blockCap * row) then 1
  else if s.freeCtx.isNone then 4
  else if s.cfg (0x311001 + p) < blocksOf x.prompt * x.rowPages + 64 then 5
  else 0

/-- A context is allocated: its ARRIVAL, PINNED by the partition's class (R167), and the completion with its id. -/
def State.allocCtx (s : State) (part : BitVec 4) (seq : Word) (x : Ctx) : State :=
  match s.freeCtx with
  | none => s
  | some id =>
    let p := part.toNat
    ((s.onCtxEntry id (fun _ => { x with cls := s.partClass p % 8, pinned := s.rated p, arrival := sget 0 s.ctx.arrivals p })).onCtx
      (fun y => { y with arrivals := sset 0 y.arrivals p ((sget 0 y.arrivals p + 1) % 2 ^ 32) })).complete p seq 0 id

/-- The status of FORK, R177. -/
def State.forkStatus (s : State) (p : Nat) (c : Cmd) : Nat :=
  let id := bits c.w1.toNat 17 0
  let n := bits c.w2.toNat 31 0
  let x := s.ctxOf id
  let rows := x.rows.take (blocksOf n)
  if !c.form (2 ^ 18 - 1) (2 ^ 32 - 1) 255 then 1
  else if s.ctxStatus p id ≠ 0 then s.ctxStatus p id
  else if x.st ≠ CtxState.resident ∧ x.st ≠ CtxState.blocked then 2
  else if n = 0 ∨ x.positions < n then 1
  else if s.freeCtx.isNone then 4
  else if rows.flatten.any (fun q => decide (65535 ≤ s.ctx.count q)) then 5
  else 0

/-- The child of FORK: the first rows of its parent, every page shared once more, R177. -/
def State.forkCtx (s : State) (part : BitVec 4) (seq : Word) (c : Cmd) : State :=
  let id := bits c.w1.toNat 17 0
  let n := bits c.w2.toNat 31 0
  let x := s.ctxOf id
  let rows := x.rows.take (blocksOf n)
  (s.onCtx (fun y => rows.flatten.foldl sharePage y)).allocCtx part seq
    { st := .joining, part := part, prio := bits c.w3.toNat 7 0, kv := !rows.isEmpty, forked := true, modelId := x.modelId, positions := n,
      layers := x.layers, kvHeads := x.kvHeads, split := x.split, parent := BitVec.ofNat 18 id, blockCap := x.blockCap, rows := rows }

/-! ## TEARDOWN, R323 -/

/-- A queued job is cancelled; a running or preempted one is torn down and its saved state discarded. -/
def State.tearJob (s : State) (j : Job) : State :=
  let rest := s.onSched (fun x => { x with jobs := x.jobs.filter (fun y => !(y.part == j.part && y.seq == j.seq)) })
  let ns := match j.core with | some n => s.members n.toNat | none => []
  match j.st with
  | .running => ns.foldl State.teardownCore s
  | .preempted => (rest.discardOn ns (s.hdrOf j.model j.prog) j.ctx.toNat j.part.toNat).complete j.part.toNat j.seq 7 j.coreNs
  | _ => rest.complete j.part.toNat j.seq 9 j.coreNs

/-- Every core that runs a context is torn down, its saved states are discarded, and its pages released. -/
def State.tearCtx (s : State) (id : Nat) : State :=
  let s1 := ((List.range 64).filter (fun n => (s.core n).busy && (s.core n).ctx.toNat == id)).foldl State.teardownCore s
  let s2 := (List.range 64).foldl (fun t n =>
    ((t.core n).saved.filter (fun v => v.prog.ctx.toNat == id)).foldl (fun u v => u.discardSaved n v.hdr) t) s1
  let s3 := (s2.sched.jobs.filter (fun j => j.ctx.toNat == id)).foldl State.tearJob s2
  if (s3.ctxOf id).kv then s3.endCtx id 2 else s3

end Sys2Proof.Machine
end

