-- ==== Sys2Proof/Machine/CoreControl.lean ====
section
/-! DEFINITION. Core control: writes of CC_CTL and CC_GROUP (R82 to R86), tile boundaries and overruns (R80, R81, R83), the
group port (R377, R380, R381) and the re-synchronisation of members (R383, R386). In a row that a write of a control
register makes, n is the logical core that its address names (R298); in every other row n is the physical core. -/

namespace Sys2Proof.Machine

/-! ## CC_CTL -/

/-- The schedule engine and the island may write the control registers, R85. -/
def mayControl : Initiator → Bool
  | .island => true
  | .engine b src => b == 3 && src == 0x8E
  | _ => false

/-- The fields CTX_ID, HDR and PART of a CC_CTL write, R85. -/
def Core.ctlFields (c : Core) (v : Word64) : Core :=
  { c with ctlCtx := BitVec.ofNat 18 (bits v.toNat 49 32), ctlHdr := BitVec.ofNat 16 (bits v.toNat 31 16),
           ctlPart := BitVec.ofNat 4 (bits v.toNat 15 12) }

/-- RESET of core n, R85: what ran on it ends. -/
def State.resetCore (s : State) (n : Nat) : State := ((s.chargeCore n).dropWork (s.core n).work).onCore n Core.wiped

/-- The state of core n accepts command bit k of CC_CTL, R85. -/
def State.ctlAccepted (s : State) (n k : Nat) (v : Word64) : Bool :=
  let c := s.core n
  match k with
  | 0 => c.st != CcState.withdrawn
  | 1 => c.st == CcState.idle
  | 2 => c.st == CcState.running || c.st == CcState.waiting
  | 3 => c.st == CcState.idle && c.saved.any (fun x => x.hdr.toNat == bits v.toNat 31 16)
  | 4 => c.st == CcState.running || c.st == CcState.waiting
  | _ => c.st == CcState.idle

/-- A write of CC_CTL that sets bit k, R85: from another initiator a decode error; with a second command bit, or in a state
that does not accept it, ignored with CC_ERR.CMD; else the fields are stored and the command has its effect. -/
def State.ctlWrite (s : State) (by_ : Initiator) (l k : Nat) (v : Word64) (effect : State → Nat → State) : State :=
  let n := s.phys l
  if !mayControl by_ then s.busFault by_ (0x2001000000 + l * 0x10000)
  else if bits v.toNat 5 0 ≠ 2 ^ k ∨ !s.ctlAccepted n k v then s.ccErr n eCmd n
  else effect (s.onCore n (fun c => c.ctlFields v)) n

/-- The write sets the command bit of the row. -/
def ctlHas (v : Word64) (k : Nat) : Bool := v.getLsbD k

/-- RESET, R85. -/
def execReset (by_ : Initiator) (n : BitVec 6) (ctl : Word64) (s : State) : Host.Outcome State Fault Refusal :=
  .next (if s.up && ctlHas ctl 0 then s.ctlWrite by_ n.toNat 0 ctl State.resetCore else s)

/-- START, R75, R79 and R85. -/
def execStart (by_ : Initiator) (n : BitVec 6) (ctl : Word64) (s : State) : Host.Outcome State Fault Refusal :=
  .next (if s.up && ctlHas ctl 1 then
    s.ctlWrite by_ n.toNat 1 ctl (fun t m => t.startCore m (t.core m).ctlHdr (t.core m).ctlCtx (t.core m).ctlPart t.runFrameNo)
  else s)

/-- PREEMPT, R82 and R85. -/
def execPreempt (by_ : Initiator) (n : BitVec 6) (ctl : Word64) (s : State) : Host.Outcome State Fault Refusal :=
  .next (if s.up && ctlHas ctl 2 then s.ctlWrite by_ n.toNat 2 ctl State.preemptCore else s)

/-- RESUME, R82 and R85. -/
def execResume (by_ : Initiator) (n : BitVec 6) (ctl : Word64) (s : State) : Host.Outcome State Fault Refusal :=
  .next (if s.up && ctlHas ctl 3 then s.ctlWrite by_ n.toNat 3 ctl (fun t m => t.resumeSaved m (t.core m).ctlHdr) else s)

/-- TEARDOWN, R83 and R85. -/
def execTeardown (by_ : Initiator) (n : BitVec 6) (ctl : Word64) (s : State) : Host.Outcome State Fault Refusal :=
  .next (if s.up && ctlHas ctl 4 then s.ctlWrite by_ n.toNat 4 ctl State.teardownCore else s)

/-- GOLDEN, R388 and R85. -/
def execGolden (by_ : Initiator) (n : BitVec 6) (ctl : Word64) (s : State) : Host.Outcome State Fault Refusal :=
  .next (if s.up && ctlHas ctl 5 then
    s.ctlWrite by_ n.toNat 5 ctl (fun t m => t.onCore m (fun c => { c.wiped with st := .golden, variant := some (t.frameAt t.now % 16) }))
  else s)

/-! ## CC_GROUP -/

/-- A CC_GROUP value is one that R15, R85 and R86 allow for physical core n. DESIGN CHOICE, log 87: the generator of another member is its value in
force, not one it holds for its next boundary; a reserved LAG, MEMBER or MODE value is refused with CMD. -/
def State.groupValueOk (s : State) (n : Nat) (v : Nat) : Bool :=
  let mode := v % 4
  let peers := if mode = 1 then [bits v 14 9] else if mode = 2 then [bits v 14 9, bits v 20 15] else []
  let placed := if mode = 1 then bits v 14 9 == n / 2 * 2 + (1 - n % 2)
    else if mode = 2 then peers.all (fun p => localIndex p == localIndex n && quadrant p != quadrant n)
      && quadrant (bits v 14 9) != quadrant (bits v 20 15)
    else true
  decide (mode < 3) && decide (bits v 3 2 < 3) && decide (bits v 23 21 < 3) && placed
    && peers.all (fun p => (s.core p).group.toNat % 4 == 0 || bits (s.core p).group.toNat 7 4 == bits v 7 4)

/-- The writable bits of CC_GROUP, with DETECT as it is. -/
def groupBits (old v : Word64) : Word64 := (v &&& 0xFFFFFF#64) ||| (old &&& 0x2000000#64)

/-- A CC_GROUP value takes effect on core n, R84 and R86; one that breaks the rules sets CC_ERR.CMD and the core stays
single. -/
def State.applyGroup (s : State) (n : Nat) (v : Word64) : State :=
  if s.groupValueOk n v.toNat then s.onCore n (fun c => { c with group := groupBits c.group v, groupHeld := none })
  else (s.onCore n (fun c => { c with group := 0, groupHeld := none })).ccErr n eCmd n

/-- CC_GROUP_WRITE, R84 to R86: at a tile boundary it takes effect at once, between boundaries it is held. -/
def execCcGroupWrite (by_ : Initiator) (n : BitVec 6) (v : Word64) (s : State) : Host.Outcome State Fault Refusal :=
  .next (if s.up then
    let m := s.phys n.toNat
    if !mayControl by_ then s.busFault by_ (0x2001000010 + n.toNat * 0x10000)
    else if (s.core m).atBoundary then s.applyGroup m v
    else s.onCore m (fun c => { c with groupHeld := some v })
  else s)

/-- GROUP_CHANGE_APPLY, R84: a held write takes effect at the tile boundary. -/
def execGroupChangeApply (n : BitVec 6) (s : State) : Host.Outcome State Fault Refusal :=
  .next (match (s.core n.toNat).groupHeld with
    | some v => if s.up && (s.core n.toNat).atBoundary then s.applyGroup n.toNat v else s
    | none => s)

/-! ## The group port -/

/-- GROUP_PORT_DECIDE, R377, R381 and R383: the copies of the active members are compared; a value two or more agree on is
released. -/
def execGroupPortDecide (g : BitVec 5) (c0 c1 c2 : Word64) (s : State) : Host.Outcome State Fault Refusal :=
  .next (if s.up && !(s.groupRt g.toNat).split && decide (2 ≤ (s.groupRt g.toNat).active.length) then
    match decide377 ((s.groupRt g.toNat).active.map (fun m => (m, ([c0, c1, c2] : List Word64).getD m 0))) with
    | .agree v => s.emit (.groupWord g.toNat v)
    | .majority v m => (s.emit (.groupWord g.toNat v)).memberDeviates g.toNat m 0
    | .none => s.groupMismatch g.toNat (if (s.groupRt g.toNat).active.length = 3 then 1 else 0)
  else s)

/-- R380: when every active member of a core's group stands at its tile boundary, the port compares their CC_SIG. -/
def State.compareSigs (s : State) (n : Nat) : State :=
  match s.groupOf (s.logical n) with
  | none => s
  | some g =>
    if (s.activePhys g).contains n && (s.activePhys g).all (fun m => (s.core m).atTb) && decide (2 ≤ (s.activePhys g).length) then
      match decide377 ((s.groupRt g).active.map (fun m => (m, (s.core ((s.groupPhys g).getD m 0)).sig))) with
      | .agree _ => s
      | .majority _ m => s.memberDeviates g m 2
      | .none => s.groupMismatch g 2
    else s

/-! ## Tile boundaries -/

/-- Core n stands at a tile boundary, R80: TILE_END or a WAIT_SEQ waits for everything earlier, and it is complete. -/
def Core.reachesTb (c : Core) : Bool :=
  (c.tileEndPending || c.waitOn.isSome) && (c.st == CcState.running || c.st == CcState.waiting || c.st == CcState.draining) && c.quiet
    && c.accBusy == [false, false] && !c.atTb

/-- A pair's SPLIT_PAIR waits for the boundary that core n has reached. -/
def State.splitHere (s : State) (n : Nat) : State :=
  match s.groupOf (s.logical n) with
  | some g => if (s.groupRt g).cmd.isSome && !(s.groupRt g).split && s.pairAtBoundary g then s.finishSplit g else s
  | none => s

/-- TILE_BOUNDARY_REACHED, R73, R80 to R82 and R84: the signature is latched and compared, a held group change is applied, a
split takes effect, a WAIT_SEQ for an unordered number is a violation, a preempted core saves its state. -/
def execTileBoundaryReached (n : BitVec 6) (s : State) : Host.Outcome State Fault Refusal :=
  .next (let c := s.core n.toNat
    if s.up && c.reachesTb then
      let s1 := s.onCore n.toNat (fun c =>
        { c.latchSig with atTb := true, tileEndPending := false, st := if c.waitOn.isSome then .waiting else .running })
      let s2 := match c.groupHeld with
        | some v => s1.applyGroup n.toNat v
        | none => s1
      let s3 := (s2.compareSigs n.toNat).splitHere n.toNat
      if (s3.core n.toNat).waitUnordered then s3.coreFault n.toNat eSeqViol n.toNat
      else if (s3.core n.toNat).preemptAt.isSome && (s3.core n.toNat).busy then s3.saveCore n.toNat else s3
    else if s.up && c.atTb && c.busy && c.preemptAt.isSome then s.saveCore n.toNat
    else s)

/-- TILE_OVERRUN, R83: no tile boundary was reached 2.5 us after the preemption request. -/
def execTileOverrun (n : BitVec 6) (s : State) : Host.Outcome State Fault Refusal :=
  .next (match (s.core n.toNat).preemptAt with
    | some t => if s.up && (s.core n.toNat).busy && !(s.core n.toNat).atTb && decide (t + 2500 ≤ s.now) then s.coreFault n.toNat eTileOverrun n.toNat else s
    | none => s)

/-! ## Re-synchronisation and re-formation -/

/-- The members of group g that run stand at a tile boundary. -/
def State.donorsAtBoundary (s : State) (g : Nat) : Bool :=
  !(s.activePhys g).isEmpty && (s.activePhys g).all (fun n => (s.core n).atBoundary && !s.goldenBusy n)

/-- The re-synchronisation of a group moves on, from one stage to the next. -/
def State.resyncTo (s : State) (g : Nat) (r : Nat × Nat × ResyncSt) (st : ResyncSt) : State :=
  s.onGroup g (fun x => { x with resync := some (r.1, r.2.1, st) })

/-- RESYNC_COPY_START, R383 step 2 and R386. -/
def execResyncCopyStart (g : BitVec 5) (s : State) : Host.Outcome State Fault Refusal :=
  .next (match (s.groupRt g.toNat).resync with
    | some r => if s.up && r.2.2 == .waitTb && s.donorsAtBoundary g.toNat then s.resyncTo g.toNat r .copying else s
    | none => s)

/-- RESYNC_COPY_LANDED, R383 step 3: the copy set and the forwarded writes have landed. -/
def execResyncCopyLanded (g : BitVec 5) (s : State) : Host.Outcome State Fault Refusal :=
  .next (match (s.groupRt g.toNat).resync with
    | some r => if s.up && r.2.2 == .copying then (s.landCopy g.toNat r.1 r.2.1).resyncTo g.toNat r .landed else s
    | none => s)

/-- RESYNC_STATE_SEND, R383 step 4: at the next tile boundary the donor sends its state; what it wrote since the copy has
been forwarded. -/
def execResyncStateSend (g : BitVec 5) (s : State) : Host.Outcome State Fault Refusal :=
  .next (match (s.groupRt g.toNat).resync with
    | some r =>
      if s.up && r.2.2 == .landed && s.donorsAtBoundary g.toNat then (s.landCopy g.toNat r.1 r.2.1).resyncTo g.toNat r .stateSent else s
    | none => s)

/-- The group runs with every member again: DETECT clears, RESYNCS counts, a REFORM_PAIR completes. -/
def State.groupRestarts (s : State) (g : Nat) (r : Nat × Nat × ResyncSt) : State :=
  let ns := s.groupPhys g
  let from_ := ns.getD r.2.1 0
  let to_ := ns.getD r.1 0
  let all := (List.range ns.length).filter (fun m => (s.groupRt g).active.contains m || m == r.1)
  let reform := (s.groupRt g).split
  let s1 := s.onCore to_ (fun c => (s.core from_).takeState c)
  let s2 := s1.onGroup g (fun x => { x with active := all, resync := none, split := false, lakeLine := none })
  let s3 := (if reform then s2.formGroup g else s2).setDetect (all.map (fun m => ns.getD m 0)) (s.isTriad g && decide (all.length < 3))
  if reform then s3.groupCmdDone g
  else (s3.onSched (fun x => { x with resyncs := x.resyncs + 1 })).logEvent srcSched 1 .resync [g, r.1]

/-- RESYNC_RESTART, R383 step 4 and R386: the state has landed, and all members restart together. -/
def execResyncRestart (g : BitVec 5) (s : State) : Host.Outcome State Fault Refusal :=
  .next (match (s.groupRt g.toNat).resync with
    | some r => if s.up && r.2.2 == .stateSent then s.groupRestarts g.toNat r else s
    | none => s)

end Sys2Proof.Machine
end

