-- ==== Sys2Proof/Machine/Numerics.lean ====
section
/-! DEFINITION. Arithmetic: the formats of R88 to R90, exact values, one rounding per operation (R91 to R93), conversions
(R101 to R103), the vector operations of R100, the reduction tree of R61 and the SFU of R62. -/

namespace Sys2Proof.Machine

/-! ## Exact values -/

/-- A value on its way through an operation: a NaN, an infinity, or the exact number m x 2^e with its sign. -/
inductive Num where
  | nan
  | inf (neg : Bool)
  | fin (neg : Bool) (m : Nat) (e : Int)
  deriving DecidableEq, Repr

/-- A binary floating-point format: exponent and fraction widths and bias. -/
structure FloatFmt where
  ew : Nat
  fw : Nat
  bias : Nat
  /-- E4M3: no infinity, and only the all-ones fraction is NaN in the top exponent, R89 -/
  finiteTop : Bool := false
  deriving DecidableEq, Repr

/-- FP32, R88. -/
def fp32 : FloatFmt := ⟨8, 23, 127, false⟩
/-- FP16, R88. -/
def fp16 : FloatFmt := ⟨5, 10, 15, false⟩
/-- BF16, R88. -/
def bf16 : FloatFmt := ⟨8, 7, 127, false⟩
/-- E5M2, R88. -/
def e5m2 : FloatFmt := ⟨5, 2, 15, false⟩
/-- E4M3, R88 and R89. -/
def e4m3 : FloatFmt := ⟨4, 3, 7, true⟩

/-- The exponent of a format's smallest subnormal. -/
def FloatFmt.qmin (f : FloatFmt) : Int := 1 - f.bias - f.fw

/-- The value that a bit pattern encodes, R88 and R89. -/
def FloatFmt.decode (f : FloatFmt) (v : Nat) : Num :=
  let s := v / 2 ^ (f.ew + f.fw) % 2 == 1
  let e := v / 2 ^ f.fw % 2 ^ f.ew
  let m := v % 2 ^ f.fw
  if f.finiteTop && e == 2 ^ f.ew - 1 && m == 2 ^ f.fw - 1 then .nan
  else if !f.finiteTop && e == 2 ^ f.ew - 1 then (if m = 0 then .inf s else .nan)
  else if e = 0 then .fin s m f.qmin
  else .fin s (m + 2 ^ f.fw) (f.qmin + (e - 1 : Nat))

/-- m x 2^(-d) rounded to an integer, nearest with ties to even. -/
def rneShift (m d : Nat) : Nat :=
  let q := m / 2 ^ d
  let r := m % 2 ^ d
  if d = 0 then m
  else if 2 ^ (d - 1) < r ∨ (r = 2 ^ (d - 1) ∧ q % 2 = 1) then q + 1 else q

/-- The magnitude m x 2^e rounded once to a format's fraction width, as an encoding without sign that may lie beyond the
largest finite one. -/
def FloatFmt.roundMag (f : FloatFmt) (m : Nat) (e : Int) : Nat :=
  if m = 0 then 0
  else
    let q := max ((Nat.log2 m : Int) + e - f.fw) f.qmin
    let r := if q ≤ e then m * 2 ^ (e - q).toNat else rneShift m (q - e).toNat
    (q - f.qmin).toNat * 2 ^ f.fw + r

/-- The first encoding beyond the largest finite value. -/
def FloatFmt.top (f : FloatFmt) : Nat := if f.finiteTop then 2 ^ (f.ew + f.fw) - 1 else (2 ^ f.ew - 1) * 2 ^ f.fw

/-- The sign bit of a format. -/
def FloatFmt.signBit (f : FloatFmt) (s : Bool) : Nat := flagAt s (f.ew + f.fw)

/-- The canonical NaN, R88. -/
def FloatFmt.qnan (f : FloatFmt) : Nat := if f.finiteTop then f.top else f.top + 2 ^ (f.fw - 1)

/-- An FP32 word's value. -/
def num (w : Word) : Num := fp32.decode w.toNat

/-- The canonical NaN 0x7FC0_0000, R93. -/
abbrev nan32 : Word := 0x7FC00000

/-- A value rounded once to FP32, nearest with ties to even; overflow gives an infinity, R91 and R93. -/
def rnd : Num → Word
  | .nan => nan32
  | .inf s => BitVec.ofNat 32 (fp32.signBit s + fp32.top)
  | .fin s m e => BitVec.ofNat 32 (fp32.signBit s + min (fp32.roundMag m e) fp32.top)

/-- The exact product, R91 and R93. -/
def mulNum : Num → Num → Num
  | .nan, _ => .nan
  | _, .nan => .nan
  | .inf s, .inf t => .inf (s != t)
  | .inf s, .fin t m _ => if m = 0 then .nan else .inf (s != t)
  | .fin s m _, .inf t => if m = 0 then .nan else .inf (s != t)
  | .fin s m e, .fin t k f => .fin (s != t) (m * k) (e + f)

/-- The exact sum; a zero sum is -0 only when both are -0, R93 and R94. -/
def addNum : Num → Num → Num
  | .nan, _ => .nan
  | _, .nan => .nan
  | .inf s, .inf t => if s = t then .inf s else .nan
  | .inf s, .fin _ _ _ => .inf s
  | .fin _ _ _, .inf t => .inf t
  | .fin s m e, .fin t k f =>
    let g := min e f
    let a : Int := (m * 2 ^ (e - g).toNat : Nat)
    let b : Int := (k * 2 ^ (f - g).toNat : Nat)
    let c := (if s then -a else a) + (if t then -b else b)
    if c = 0 then .fin (m == 0 && k == 0 && s && t) 0 0 else .fin (decide (c < 0)) c.natAbs g

/-- The value with its sign turned. -/
def negNum : Num → Num
  | .nan => .nan
  | .inf s => .inf (!s)
  | .fin s m e => .fin (!s) m e

/-- A quotient of naturals times 2^e, with enough bits and a sticky bit for one rounding. -/
def ratNum (s : Bool) (n d : Nat) (e : Int) : Num :=
  let k := 64 + Nat.log2 d
  .fin s (2 * (n * 2 ^ k / d) + (if n * 2 ^ k % d = 0 then 0 else 1)) (e - k - 1)

/-- The quotient, for one rounding. -/
def divNum : Num → Num → Num
  | .nan, _ => .nan
  | _, .nan => .nan
  | .inf _, .inf _ => .nan
  | .inf s, .fin t _ _ => .inf (s != t)
  | .fin s _ _, .inf t => .fin (s != t) 0 0
  | .fin s m e, .fin t k f =>
    if k = 0 then (if m = 0 then .nan else .inf (s != t)) else ratNum (s != t) m k (e - f)

/-- x + y, one rounding. -/
def fadd (x y : Word) : Word := rnd (addNum (num x) (num y))
/-- x - y, one rounding. -/
def fsub (x y : Word) : Word := rnd (addNum (num x) (negNum (num y)))
/-- x x y, one rounding. -/
def fmul (x y : Word) : Word := rnd (mulNum (num x) (num y))
/-- x x y + z, one rounding. -/
def ffma (x y z : Word) : Word := rnd (addNum (mulNum (num x) (num y)) (num z))
/-- x / y, correctly rounded. -/
def fdiv (x y : Word) : Word := rnd (divNum (num x) (num y))

/-- The order of FP32 values without NaN as an integer key: -0 lies below +0, R100. -/
def orderKey (w : Word) : Int := if w.toNat < 2 ^ 31 then w.toNat else -((w.toNat - 2 ^ 31 : Nat) : Int) - 1

/-- A NaN. -/
def isNan (w : Word) : Bool := num w == .nan

/-- VMAX, R100. -/
def fmax (x y : Word) : Word := if isNan x || isNan y then nan32 else if orderKey x < orderKey y then y else x

/-- VMIN, R100. -/
def fmin (x y : Word) : Word := if isNan x || isNan y then nan32 else if orderKey y < orderKey x then y else x

/-- x < y of values: both zeros are equal; false with a NaN. -/
def fless (x y : Word) : Bool :=
  !isNan x && !isNan y && decide (orderKey x < orderKey y) && !(x &&& 0x7FFFFFFF == 0 && y &&& 0x7FFFFFFF == 0)

/-- x = y of values. -/
def feq (x y : Word) : Bool := !isNan x && !isNan y && (x == y || (x &&& 0x7FFFFFFF == 0 && y &&& 0x7FFFFFFF == 0))

/-- The magnitude. -/
def fabs (w : Word) : Word := w &&& 0x7FFFFFFF

/-! ## Integers -/

/-- A word as INT32. -/
def int32 (w : Word) : Int := w.toInt

/-- INT32 to FP32, rounded once, R101. -/
def intNum (i : Int) : Num := .fin (decide (i < 0)) i.natAbs 0

/-- The saturating INT32 add of R95, and whether it saturated. -/
def satAdd (a : Word) (i : Int) : Word × Bool :=
  let s := int32 a + i
  (BitVec.ofInt 32 (clamp (-(2 ^ 31 : Nat)) ((2 ^ 31 : Nat) - 1) s), decide (s < -(2 ^ 31 : Nat)) || decide (((2 ^ 31 : Nat) : Int) - 1 < s))

/-- A finite value rounded to the nearest integer, ties to even. -/
def roundInt (s : Bool) (m : Nat) (e : Int) : Int :=
  let a : Int := (if 0 ≤ e then m * 2 ^ e.toNat else rneShift m (-e).toNat : Nat)
  if s then -a else a

/-- A value to a signed integer of w bits: saturating, infinities saturate, NaN gives 0; and whether it saturated, R101 and
R102. -/
def toInt (w : Nat) : Num → Nat × Bool
  | .nan => (0, false)
  | .inf s => (unsigned w (if s then -(2 ^ (w - 1) : Nat) else (2 ^ (w - 1) : Nat) - 1), true)
  | .fin s m e =>
    let i := roundInt s m e
    let j := clamp (-(2 ^ (w - 1) : Nat)) ((2 ^ (w - 1) : Nat) - 1) i
    (unsigned w j, decide (i ≠ j))

/-! ## Conversions -/

/-- The formats of R122 in code order. -/
inductive Fmt where
  | fp32 | bf16 | fp16 | e5m2 | e4m3 | int8 | int16
  deriving DecidableEq, Repr

/-- The format of a code, R122. -/
def fmtOf : Nat → Option Fmt
  | 0 => some .fp32 | 1 => some .bf16 | 2 => some .fp16 | 3 => some .e5m2 | 4 => some .e4m3 | 5 => some .int8 | 6 => some .int16
  | _ => none

/-- Quantised, R122. -/
def Fmt.quantised : Fmt → Bool
  | .e5m2 | .e4m3 | .int8 | .int16 => true
  | _ => false

/-- Bytes of one element. -/
def Fmt.size : Fmt → Nat
  | .fp32 => 4
  | .bf16 | .fp16 | .int16 => 2
  | _ => 1

/-- The exact value of a stored element. -/
def Fmt.value (f : Fmt) (v : Nat) : Num :=
  match f with
  | .fp32 => Machine.fp32.decode v
  | .bf16 => Machine.bf16.decode v
  | .fp16 => Machine.fp16.decode v
  | .e5m2 => Machine.e5m2.decode v
  | .e4m3 => Machine.e4m3.decode v
  | .int8 => intNum (signed 8 v)
  | .int16 => intNum (signed 16 v)

/-- FP32 narrowed to FP16 or BF16, R101. -/
def narrow (f : FloatFmt) : Num → Nat
  | .nan => f.qnan
  | .inf s => f.signBit s + f.top
  | .fin s m e => f.signBit s + min (f.roundMag m e) f.top

/-- A value to E5M2, R101: a finite overflow gives 57,344; and whether it saturated. -/
def toE5m2 : Num → Nat × Bool
  | .nan => (e5m2.qnan, false)
  | .inf s => (e5m2.signBit s + e5m2.top, false)
  | .fin s m e => let r := e5m2.roundMag m e; (e5m2.signBit s + min r (e5m2.top - 1), decide (e5m2.top ≤ r))

/-- The magnitude m x 2^e is at least 464, R101. -/
def atLeast464 (m : Nat) (e : Int) : Bool := if 0 ≤ e then decide (464 ≤ m * 2 ^ e.toNat) else decide (464 * 2 ^ (-e).toNat ≤ m)

/-- A value to E4M3, R101: 464 and above, and infinities, give 448; and whether it saturated. -/
def toE4m3 : Num → Nat × Bool
  | .nan => (e4m3.qnan, false)
  | .inf s => (e4m3.signBit s + 0x7E, true)
  | .fin s m e => (e4m3.signBit s + min (e4m3.roundMag m e) 0x7E, atLeast464 m e)

/-- A value rounded once to a stored element, and whether it saturated: R101, and R102 with the value already scaled. -/
def Fmt.store (f : Fmt) (x : Num) : Nat × Bool :=
  match f with
  | .fp32 => ((rnd x).toNat, false)
  | .bf16 => (narrow Machine.bf16 x, false)
  | .fp16 => (narrow Machine.fp16 x, false)
  | .e5m2 => toE5m2 x
  | .e4m3 => toE4m3 x
  | .int8 => toInt 8 x
  | .int16 => toInt 16 x

/-! ## Quantisation, R102, R103, R109 -/

/-- What conversions into one quantisation granule have collected: largest magnitude, saturations, NaNs, infinities. -/
structure QCount where
  max : Word := 0
  sat : Nat := 0
  nan : Nat := 0
  inf : Nat := 0
  deriving DecidableEq, Repr

/-- One value presented to a conversion, and whether it saturated. -/
def QCount.take (q : QCount) (x : Word) (sat : Bool) : QCount :=
  match num x with
  | .nan => { q with nan := q.nan + 1 }
  | .inf _ => { q with inf := q.inf + 1, sat := if sat then q.sat + 1 else q.sat }
  | .fin _ _ _ => { q with max := fmax q.max (fabs x), sat := if sat then q.sat + 1 else q.sat }

/-- The quantising conversion of an FP32 value with INV_SCALE, R102. -/
def quantise (f : Fmt) (x inv : Word) : Nat × Bool := f.store (mulNum (num x) (num inv))

/-- Dequantisation, R103. -/
def dequantise (f : Fmt) (v : Nat) (scale : Word) : Word := rnd (mulNum (f.value v) (num scale))

/-! ## The reduction tree, R61 -/

/-- One level: pairs (2i, 2i + 1). -/
def pairUp (f : Word → Word → Word) : List Word → List Word
  | a :: b :: t => f a b :: pairUp f t
  | l => l

/-- n levels of the tree. -/
def treeLevels (f : Word → Word → Word) : Nat → List Word → List Word
  | 0, l => l
  | n + 1, l => treeLevels f n (pairUp f l)

/-- The tree over 64 lanes. -/
def tree64 (f : Word → Word → Word) (l : List Word) : Word := (treeLevels f 6 l).getD 0 0

/-- The FP32 tree over up to 128 lanes, the missing ones +0: two registers, in ascending order, R136. -/
def tree128 (l : List Word) : Word :=
  let p := l ++ List.replicate (128 - l.length) 0
  fadd (tree64 fadd (p.take 64)) (tree64 fadd (p.drop 64))

/-! ## The SFU, R62 -/

/-- A subnormal input counts as zero of its sign. -/
def flush (w : Word) : Word := if w &&& 0x7F800000 = 0 then w &&& 0x80000000 else w

/-- The exact magnitude m x 2^e is at most k x 2^f. -/
def magAtMost (x : Num) (k : Nat) (f : Int) : Bool :=
  match x with
  | .fin _ m e => decide (m * 2 ^ (e - min e f).toNat ≤ k * 2 ^ (f - min e f).toNat)
  | _ => false

/-- The exact magnitude lies below 2^-126, the smallest normal value. -/
def belowNormal (x : Num) : Bool :=
  match x with
  | .fin _ m e => decide (m * 2 ^ (e - min e (-126)).toNat < 2 ^ (-126 - min e (-126)).toNat)
  | _ => false

/-- The exponent of one unit in the last place of a normal value. -/
def ulpExp (w : Word) : Int := ((bits w.toNat 30 23 : Nat) : Int) - 150

/-- The values within k ulp of a normal value w, chosen by a number c: w moved by up to 2k encodings, where that stays within the bound
and normal. -/
def nearUlp (w : Word) (k c : Nat) : Word :=
  let m := max ((w &&& 0x7FFFFFFF).toNat + c % (4 * k + 1)) (0x00800000 + 2 * k) - 2 * k
  let v := (w &&& 0x80000000) ||| BitVec.ofNat 32 (min m 0x7F7FFFFF)
  if magAtMost (addNum (num v) (negNum (num w))) k (ulpExp w) then v else w

/-- A result of the SFU: zero of the exact result's sign below the smallest normal value, else within k ulp of the correctly rounded one;
which value is the chip's fixed function, log 8. -/
def sfuResult (f k : Nat) (x : Word) (exact : Num) : Word :=
  if belowNormal exact then rnd exact &&& 0x80000000 else nearUlp (rnd exact) k (Config.sfuUlp f x)

/-- The inverse square root of m x 2^e, for one rounding. -/
def rsqrtNum (m : Nat) (e : Int) : Num :=
  let m2 := if e % 2 = 0 then m else 2 * m
  let e2 := if e % 2 = 0 then e else e - 1
  let k := 64 + Nat.log2 m2
  let r := Nat.sqrt (2 ^ (2 * k) / m2)
  .fin false (2 * r + (if r * r * m2 = 2 ^ (2 * k) then 0 else 1)) (-(e2 / 2) - k - 1)

/-- Reals as multiples of 2^-192, more than a hundred bits beyond FP32: the natural logarithm of 2. -/
abbrev ln2Fix : Nat := 4350955369971217654477563090224794165364344896676135745069

/-- The sum of n more terms of the exponential series of t x 2^-192, from term j with value a. -/
def expTerms (t : Nat) : Nat → Nat → Nat → Nat
  | 0, _, _ => 0
  | n + 1, j, a => a + expTerms t n (j + 1) (a * t / (2 ^ 192 * j))

/-- exp(t x 2^-192) for t x 2^-192 below 1, as a multiple of 2^-192. -/
def expFix (t : Nat) : Nat := expTerms t 60 1 (2 ^ 192)

/-- exp(t x 2^-192), as a multiple of 2^-192. -/
def expBig (t : Nat) : Nat := expFix (t % ln2Fix) * 2 ^ (t / ln2Fix)

/-- n terms of z + z^3/3 + z^5/5 + ... from the power a = z^j. -/
def atanhTerms (zz : Nat) : Nat → Nat → Nat → Nat
  | 0, _, _ => 0
  | n + 1, j, a => a / j + atanhTerms zz n (j + 2) (a * zz / 2 ^ 192)

/-- The natural logarithm of y x 2^-192, from 1 to 2, as a multiple of 2^-192. -/
def lnFix (y : Nat) : Nat :=
  let z := (y - 2 ^ 192) * 2 ^ 192 / (y + 2 ^ 192)
  2 * atanhTerms (z * z / 2 ^ 192) 64 1 z

/-- The magnitude m x 2^e as a multiple of 2^-192; every FP32 value is one. -/
def fixOf (m : Nat) (e : Int) : Nat := m * 2 ^ (e + 192).toNat

/-- 2 to the power of m x 2^e with its sign. -/
def exp2Num (s : Bool) (m : Nat) (e : Int) : Num :=
  let t := fixOf m e
  let f := if s then (2 ^ 192 - t % 2 ^ 192) % 2 ^ 192 else t % 2 ^ 192
  let i : Int := if s then -(((t + f) / 2 ^ 192 : Nat) : Int) else ((t / 2 ^ 192 : Nat) : Int)
  if f = 0 then .fin false 1 i else .fin false (2 * expFix (f * ln2Fix / 2 ^ 192) + 1) (i - 193)

/-- The logarithm to base 2 of m x 2^e, m not 0. -/
def log2Num (m : Nat) (e : Int) : Num :=
  let k := Nat.log2 m
  let y := m * 2 ^ 192 / 2 ^ k
  let l : Int := (e + k) * (2 ^ 192 : Nat) + ((lnFix y * 2 ^ 192 / ln2Fix : Nat) : Int)
  if m = 2 ^ k then intNum (e + k) else .fin (decide (l < 0)) (2 * l.natAbs + 1) (-193)

/-- tanh of m x 2^e with its sign. -/
def tanhNum (s : Bool) (m : Nat) (e : Int) : Num :=
  let x := expBig (2 * fixOf m e)
  ratNum s (x - 2 ^ 192) (x + 2 ^ 192) 0

/-- The sigmoid of m x 2^e with its sign. -/
def sigmoidNum (s : Bool) (m : Nat) (e : Int) : Num :=
  let x := expBig (fixOf m e)
  ratNum false (if s then 2 ^ 192 else x) (x + 2 ^ 192) 0

/-- log2 within [0.5, 2]: a value within 2^-23 of the correctly rounded one, R62; which is the chip's fixed function, log 8. -/
def nearLog2 (x w : Word) : Word :=
  let d : Int := ((Config.sfuUlp 1 x % (2 ^ 127 + 1) : Nat) : Int) - (2 ^ 126 : Nat)
  let v := rnd (addNum (num w) (.fin (decide (d < 0)) d.natAbs (-149)))
  if magAtMost (addNum (num v) (negNum (num w))) 1 (-23) then v else w

/-- The six functions of R62: 0 exp2, 1 log2, 2 reciprocal, 3 reciprocal square root, 4 tanh, 5 sigmoid. Special values are the spec's; every
other result lies within the spec's bound of the correctly rounded one. -/
def sfu (k : Nat) (x0 : Word) : Word :=
  let x := flush x0
  match num x with
  | .nan => nan32
  | .inf s => match k with
    | 0 => if s then 0 else x
    | 1 => if s then nan32 else x
    | 2 => BitVec.ofNat 32 (fp32.signBit s)
    | 3 => if s then nan32 else 0
    | 4 => BitVec.ofNat 32 (fp32.signBit s) ||| 0x3F800000
    | _ => if s then 0 else 0x3F800000
  | .fin s m e => match k with
    | 0 =>
      if !s && decide (0x43000000 ≤ x.toNat) then 0x7F800000
      else if fless x 0xC2FC0000 then 0
      else sfuResult 0 2 x (exp2Num s m e)
    | 1 =>
      if m = 0 then 0xFF800000
      else if s then nan32
      else if fless x 0x3F000000 || fless 0x40000000 x then sfuResult 1 2 x (log2Num m e)
      else if x = 0x3F800000 then 0
      else nearLog2 x (rnd (log2Num m e))
    | 2 => if m = 0 then BitVec.ofNat 32 (fp32.signBit s + fp32.top) else sfuResult 2 1 x (ratNum s 1 m (-e))
    | 3 =>
      if m = 0 then BitVec.ofNat 32 (fp32.signBit s + fp32.top)
      else if s then nan32
      else sfuResult 3 2 x (rsqrtNum m e)
    | 4 =>
      if m = 0 then x
      else if decide (0x4111999A ≤ (x &&& 0x7FFFFFFF).toNat) then (x &&& 0x80000000) ||| 0x3F800000
      else sfuResult 4 3 x (tanhNum s m e)
    | _ =>
      if !s && decide (0x41900000 ≤ x.toNat) then 0x3F800000
      else if s && decide (0x43000000 ≤ (x &&& 0x7FFFFFFF).toNat) then 0
      else sfuResult 5 3 x (sigmoidNum s m e)

/-! ## ACT, R127 -/

/-- c1, the FP32 value nearest the square root of 2 / pi. -/
abbrev geluC1 : Word := 0x3F4C422A
/-- c2, the FP32 value nearest 0.044715. -/
abbrev geluC2 : Word := 0x3D372713
/-- L2E, R136. -/
abbrev log2e : Word := 0x3FB8AA3B
/-- 1.0 -/
abbrev one32 : Word := 0x3F800000

/-- The functions of R127 by A[3:0], with parameter B. -/
def act (k : Nat) (b x : Word) : Word :=
  if isNan x then nan32
  else match k with
  | 0 => fmax x 0
  | 1 => if fless x 0 then fmul x b else x
  | 2 =>
    let u := fmul (fmul x x) x
    let v := ffma geluC2 u x
    let t := sfu 4 (fmul geluC1 v)
    fmul (fmul 0x3F000000 x) (fadd one32 t)
  | 3 => fmul x (sfu 5 x)
  | 4 => sfu 5 x
  | _ => sfu 4 x

/-! ## Scales, R107 and R111 -/

/-- Qmax by the FMT of a scale table entry, R107 and R113. DESIGN CHOICE, log 95: a reserved FMT takes that of E5M2. -/
def qmaxOf (fmt : Nat) : Nat := if fmt = 0 then 127 else if fmt = 1 then 32767 else if fmt = 2 then 448 else 57344

/-- SCALE and INV_SCALE from M and MARGIN, R107, with M clamped to the largest finite value when M x 2^MARGIN is infinite,
R111. -/
def scalesOf (m : Word) (margin fmt : Nat) : Word × Word :=
  let big := rnd (mulNum (num m) (.fin false 1 margin)) == 0x7F800000
  let x := if big then Num.fin false (2 ^ 24 - 1) (104 + margin) else mulNum (num m) (.fin false 1 margin)
  let q := Num.fin false (qmaxOf fmt) 0
  (rnd (divNum x q), rnd (divNum q x))

end Sys2Proof.Machine
end

