-- ==== Sys2Proof/Machine/Codes.lean ====
section
/-! DEFINITION. The channel codes of the decoder engines: CRC and scrambling, tail-biting Viterbi and turbo (R263), layered
offset min-sum (R264), CRC-aided polar list decoding (R265). What 3GPP's tables fix (interleavers, base graphs, reliability
orders) comes in as an argument; the generators, CRC polynomials and the scrambling sequence are PRESUMED from 3GPP, log 106. -/

namespace Sys2Proof.Machine

/-! ## Bits -/

/-- Bytes as bits, most significant first. -/
def bitsMsb (bs : Bytes) : List Bool := (bs.map (fun b => (List.range 8).map (fun i => b.getLsbD (7 - i)))).flatten

/-- Bits as bytes, most significant first, the last byte filled with 0. -/
def bytesMsb : Nat → List Bool → Bytes
  | 0, _ => []
  | n + 1, l => BitVec.ofNat 8 (((List.range 8).foldl (fun a i => 2 * a + (l.getD i false).toNat) 0)) :: bytesMsb n (l.drop 8)

/-- The bytes that n bits fill. -/
def bytesOfBits (l : List Bool) : Bytes := bytesMsb ((l.length + 7) / 8) l

/-- A cyclic redundancy check of w bits over bits, most significant first, from zero. -/
def crcBits (w poly : Nat) (l : List Bool) : Nat :=
  l.foldl (fun r b =>
    let top := (r / 2 ^ (w - 1) % 2 == 1) != b
    let s := r * 2 % 2 ^ w
    if top then Nat.xor s poly else s) 0

/-- Bits with their check bits after them. -/
def withCrc (w poly : Nat) (l : List Bool) : List Bool :=
  l ++ (List.range w).map (fun i => bit (crcBits w poly l) (w - 1 - i))

/-- The check of bits that end in their check bits. -/
def crcPasses (w poly : Nat) (l : List Bool) : Bool := crcBits w poly l == 0

/-- One step of a 31-bit register of the scrambling sequence. -/
def lfsr31 (taps x : Nat) : Nat := x / 2 + (parityOf 5 (Nat.land x taps)).toNat * 2 ^ 30

/-- n steps. -/
def lfsrRun (taps : Nat) : Nat → Nat → Nat
  | 0, x => x
  | n + 1, x => lfsrRun taps n (lfsr31 taps x)

/-- n bits of the sequence from two registers. -/
def goldFrom : Nat → Nat → Nat → List Bool
  | 0, _, _ => []
  | n + 1, a, b => ((a % 2 == 1) != (b % 2 == 1)) :: goldFrom n (lfsr31 9 a) (lfsr31 15 b)

/-- The scrambling sequence that CINIT starts. -/
def scrambling (cinit n : Nat) : List Bool := goldFrom n (lfsrRun 9 1600 1) (lfsrRun 15 1600 (cinit % 2 ^ 31))

/-- An LLR, R259: -128 reads as -127. -/
def llrOf (b : Byte) : Int := max (-127) (signed 8 b.toNat)

/-- LLRs with the scrambling taken off. -/
def descramble (cinit : Nat) (l : List Int) : List Int := List.zipWith (fun x c => if c then -x else x) l (scrambling cinit l.length)

/-- An integer quotient by 16, rounded down or up as the chip does. -/
def over16 (up : Int → Bool) (x : Int) : Int := x / 16 + (if x % 16 ≠ 0 ∧ up x then 1 else 0)

/-! ## Tail-biting convolutional code, R263 -/

/-- The three output bits for a state (the six bits before, the latest in bit 5) and an input bit. -/
def tbccOut (s : Nat) (b : Bool) : List Bool :=
  ([0o133, 0o171, 0o165] : List Nat).map (fun g => parityOf 7 (Nat.land (s + 64 * b.toNat) g))

/-- The state after an input bit. -/
def tbccNext (s : Nat) (b : Bool) : Nat := (s + 64 * b.toNat) / 2

/-- The code of a block: three streams one after another. -/
def tbccEncode (l : List Bool) : List Bool :=
  let s0 := (l.drop (l.length - 6)).foldl tbccNext 0
  let r := l.foldl (fun (a : Nat × List (List Bool)) b => (tbccNext a.1 b, a.2 ++ [tbccOut a.1 b])) (s0, [])
  ((List.range 3).map (fun k => r.2.map (fun o => o.getD k false))).flatten

/-- The gain of an output against its LLRs: an LLR counts for 0. -/
def branchGain (out : List Bool) (llr : List Int) : Int := ((List.zipWith (fun (o : Bool) (x : Int) => if o then -x else x) out llr)).sum

/-- One trellis stage: new metrics, and for every state whether its odd predecessor survives. -/
def viterbiStage (tie : Bool) (m : List Int) (llr : List Int) : List Int × List Bool :=
  let r := (List.range 64).map (fun s =>
    let b := decide (32 ≤ s)
    let p := s % 32 * 2
    let x := m.getD p 0 + branchGain (tbccOut p b) llr
    let y := m.getD (p + 1) 0 + branchGain (tbccOut (p + 1) b) llr
    if x < y ∨ (x = y ∧ tie) then (y, true) else (x, false))
  (r.map (·.1), r.map (·.2))

/-- The first state with the greatest metric. -/
def bestState (m : List Int) : Nat :=
  ((List.range m.length).foldl (fun b i => if m.getD b 0 < m.getD i 0 then i else b) 0)

/-- Traceback over stages, newest first: the input bits, oldest first. -/
def viterbiTrace : Nat → List (List Bool) → List Bool → List Bool
  | _, [], acc => acc
  | s, d :: ds, acc => viterbiTrace (s % 32 * 2 + (d.getD s false).toNat) ds (decide (32 ≤ s) :: acc)

/-- Tail-biting Viterbi of K bits from three streams of LLRs, R263: two wrap-around passes of K + 48 stages, traceback from the
best end state. The bits are those of the second pass's first K stages. DESIGN CHOICE, log 106. -/
def viterbi (tie : Nat → Bool) (k : Nat) (llr : List Int) : List Bool :=
  let stage := fun i => [llr.getD i 0, llr.getD (k + i) 0, llr.getD (2 * k + i) 0]
  let r := (List.range (2 * (k + 48))).foldl (fun (a : List Int × List (List Bool)) t =>
    let x := viterbiStage (tie t) a.1 (stage (t % k))
    (x.1, x.2 :: a.2)) (List.replicate 64 0, [])
  let u := viterbiTrace (bestState r.1) r.2 []
  (List.range k).map (fun i => u.getD (k + 48 + (i + 2 * k - (k + 48) % k) % k) false)

/-! ## Turbo code, R263 -/

/-- A constituent encoder's step: state (r1 in bit 0, r3 in bit 2) and input to parity and next state. -/
def rscStep (s : Nat) (b : Bool) : Bool × Nat :=
  let f := (b != bit s 1) != bit s 2
  ((f != bit s 0) != bit s 2, f.toNat + s * 2 % 8)

/-- The input bit that brings the feedback to 0, for the tail. -/
def rscTail (s : Nat) : Bool := bit s 1 != bit s 2

/-- A constituent encoder over bits: parities, and the end state. -/
def rscRun (l : List Bool) : List Bool × Nat :=
  l.foldl (fun a b => let r := rscStep a.2 b; (a.1 ++ [r.1], r.2)) ([], 0)

/-- The three tail steps: systematic and parity bits. -/
def rscTails (s : Nat) : List (Bool × Bool) :=
  let t0 := rscTail s; let r0 := rscStep s t0
  let t1 := rscTail r0.2; let r1 := rscStep r0.2 t1
  let t2 := rscTail r1.2; let r2 := rscStep r1.2 t2
  [(t0, r0.1), (t1, r1.1), (t2, r2.1)]

/-- The mother code of a block: systematic bits, first and second parities, then the tails of both encoders, systematic and parity
in turn. -/
def turboEncode (perm : Nat → Nat) (l : List Bool) : List Bool :=
  let a := rscRun l
  let b := rscRun ((List.range l.length).map (fun i => l.getD (perm i) false))
  l ++ a.1 ++ b.1 ++ ((rscTails a.2 ++ rscTails b.2).map (fun t => [t.1, t.2])).flatten

/-- Less than any metric. -/
abbrev noPath : Int := -(2 ^ 40)

/-- The branch metric, doubled: input and parity against their LLRs. -/
def rscGain (b p : Bool) (ls lp : Int) : Int := (if b then -ls else ls) + (if p then -lp else lp)

/-- One step forward of the state metrics. -/
def alphaStep (m : List Int) (ls lp : Int) : List Int :=
  (List.range 8).map (fun s => ((List.range 16).map (fun k =>
    let b := decide (8 ≤ k)
    let r := rscStep (k % 8) b
    if r.2 = s then m.getD (k % 8) 0 + rscGain b r.1 ls lp else noPath)).foldl max noPath)

/-- One step backward. -/
def betaStep (m : List Int) (ls lp : Int) : List Int :=
  (List.range 8).map (fun s => ([false, true].map (fun b =>
    let r := rscStep s b
    m.getD r.2 0 + rscGain b r.1 ls lp)).foldl max noPath)

/-- The metrics in which only state 0 is possible. -/
def fromZero : List Int := 0 :: List.replicate 7 noPath

/-- A posteriori LLRs of a constituent decoder, max-log-MAP: the steps' LLRs (systematic with the a priori, and parity), tails
included. -/
def maxLogMap (ls lp : List Int) : List Int :=
  let st := List.zip ls lp
  let alphas := st.foldl (fun a x => a ++ [alphaStep (a.getLastD fromZero) x.1 x.2]) [fromZero]
  let betas := st.foldr (fun x b => betaStep (b.headD fromZero) x.1 x.2 :: b) [fromZero]
  (List.range st.length).map (fun t =>
    let best := fun (b : Bool) => ((List.range 8).map (fun s =>
      let r := rscStep s b
      (alphas.getD t []).getD s 0 + rscGain b r.1 (ls.getD t 0) (lp.getD t 0) + (betas.getD (t + 1) []).getD r.2 0)).foldl max (2 * noPath)
    (best false - best true) / 2)

/-- What a turbo decoder of one block works on: K, the LLRs of the mother code, the interleaver, and its inverse. -/
structure TurboIn where
  k : Nat
  llr : List Int
  perm : Nat → Nat
  inv : Nat → Nat

/-- One full iteration, R263: from the extrinsic values of the second decoder to the new ones and the decisions. -/
def turboIteration (t : TurboIn) (scale : Int → Int) (ext2 : List Int) : List Int × List Bool :=
  let k := t.k
  let at_ := fun i => t.llr.getD i 0
  let tail := fun o => (List.range 3).map (fun i => at_ (3 * k + o + 2 * i))
  let sys := (List.range k).map at_
  let la1 := List.zipWith (· + ·) sys ext2
  let l1 := maxLogMap (la1 ++ tail 0) ((List.range k).map (fun i => at_ (k + i)) ++ tail 1)
  let ext1 := (List.range k).map (fun i => scale (l1.getD i 0 - la1.getD i 0))
  let la2 := (List.range k).map (fun i => sys.getD (t.perm i) 0 + ext1.getD (t.perm i) 0)
  let l2 := maxLogMap (la2 ++ tail 6) ((List.range k).map (fun i => at_ (2 * k + i)) ++ tail 7)
  ((List.range k).map (fun i => scale (l2.getD (t.inv i) 0 - la2.getD (t.inv i) 0)),
    (List.range k).map (fun i => decide (l2.getD (t.inv i) 0 < 0)))

/-- At most n further iterations, R263 and R266: it stops after the first one whose bits pass. Bits, whether they passed, and
the iterations used. -/
def turboRun (t : TurboIn) (scale : Int → Int) (passes : List Bool → Bool) : Nat → Nat → List Int → List Bool → List Bool × Bool × Nat
  | 0, used, _, u => (u, false, used)
  | n + 1, used, ext, _ =>
    let r := turboIteration t scale ext
    if passes r.2 then (r.2, true, used + 1) else turboRun t scale passes n (used + 1) r.1 r.2

/-- A turbo decode: at most 6 full iterations. -/
def turboDecode (t : TurboIn) (scale : Int → Int) (passes : List Bool → Bool) : List Bool × Bool × Nat :=
  turboRun t scale passes 6 0 (List.replicate t.k 0) []

/-! ## LDPC, R264 -/

/-- A lifted base graph: its lifting size and, for each layer, columns and shifts. -/
structure BaseGraph where
  z : Nat
  rows : List (List (Nat × Nat))

/-- The message of a check node on one edge, from the other edges' inputs. -/
def checkMessage (a b : Nat) (others : List Int) : Int :=
  let min1 := (others.map Int.natAbs).foldl min 511
  let mag := (min1 * a + 32) / 64 - b
  if (others.filter (· < 0)).length % 2 = 0 then (min mag 127 : Nat) else -(min mag 127 : Nat)

/-- The bits of one check: layer edges at lane z. -/
def rowBits (g : BaseGraph) (row : List (Nat × Nat)) (lane : Nat) : List Nat := row.map (fun e => e.1 * g.z + (lane + e.2) % g.z)

/-- One check: posteriors and its messages updated, posteriors INT10 saturated to 511. -/
def checkUpdate (a b : Nat) (ix : List Nat) (p : List Int) (old : List Int) : List Int × List Int :=
  let q := List.zipWith (fun i r => p.getD i 0 - r) ix old
  let new := (List.range q.length).map (fun j => checkMessage a b (q.eraseIdx j))
  ((List.zip ix (List.zipWith (fun x m => clamp (-511) 511 (x + m)) q new)).foldl (fun t e => t.set e.1 e.2) p, new)

/-- One iteration: layers in ascending row order, each over its lanes. -/
def ldpcIteration (g : BaseGraph) (a b : Nat) (p : List Int) (msgs : List (List Int)) : List Int × List (List Int) :=
  ((List.range g.rows.length).map (fun r => (List.range g.z).map (fun l => (r, l)))).flatten.foldl (fun st rl =>
    let k := rl.1 * g.z + rl.2
    let row := g.rows.getD rl.1 []
    let u := checkUpdate a b (rowBits g row rl.2) st.1 (st.2.getD k (List.replicate row.length 0))
    (u.1, st.2.set k u.2)) (p, msgs)

/-- All parity checks hold. -/
def parityHolds (g : BaseGraph) (u : List Bool) : Bool :=
  g.rows.all (fun row => (List.range g.z).all (fun l => ((rowBits g row l).filter (fun i => u.getD i false)).length % 2 == 0))

/-- At most n further iterations, R264 and R266. -/
def ldpcRun (g : BaseGraph) (ab : Nat → Nat × Nat) (passes : List Bool → Bool) :
    Nat → Nat → List Int → List (List Int) → List Bool × Bool × Nat
  | 0, used, p, _ => (p.map (fun x => decide (x < 0)), false, used)
  | n + 1, used, p, msgs =>
    let r := ldpcIteration g (ab used).1 (ab used).2 p msgs
    let u := r.1.map (fun x => decide (x < 0))
    if parityHolds g u && passes u then (u, true, used + 1) else ldpcRun g ab passes n (used + 1) r.1 r.2

/-- An LDPC decode: at most 10 iterations, with the scale and offset of each. -/
def ldpcDecode (g : BaseGraph) (ab : Nat → Nat × Nat) (passes : List Bool → Bool) (llr : List Int) : List Bool × Bool × Nat :=
  ldpcRun g ab passes 10 0 llr ((g.rows.map (fun row => List.replicate g.z (List.replicate row.length 0))).flatten)

/-! ## Polar code, R265 -/

/-- The transform of 2^n bits. -/
def polarTransform : Nat → List Bool → List Bool
  | 0, l => l
  | n + 1, l =>
    let a := polarTransform n (l.take (2 ^ n))
    let b := polarTransform n (l.drop (2 ^ n))
    List.zipWith (fun x y => x != y) a b ++ b

/-- The LLR of the next bit of 2^n, given the bits before it. -/
def polarLlr : Nat → List Int → List Bool → Int
  | 0, l, _ => l.headD 0
  | n + 1, l, u =>
    let x := l.take (2 ^ n)
    let y := l.drop (2 ^ n)
    if u.length < 2 ^ n then
      polarLlr n (List.zipWith (fun a b => let m : Int := (min a.natAbs b.natAbs : Nat); if (a < 0) = (b < 0) then m else -m) x y) u
    else
      let c := polarTransform n (u.take (2 ^ n))
      polarLlr n (List.zipWith (fun (e : Int × Bool) b => if e.2 then b - e.1 else b + e.1) (List.zip x c) y) (u.drop (2 ^ n))

/-- A path: its bits so far and its metric, INT16. -/
abbrev PolarPath := List Bool × Nat

/-- A path takes a bit: its metric grows, saturating, by the LLR's magnitude when the bit goes against it. -/
def PolarPath.take (p : PolarPath) (l : Int) (b : Bool) : PolarPath :=
  (p.1 ++ [b], min 32767 (p.2 + (if b = decide (l < 0) then 0 else l.natAbs)))

/-- The best paths of a list, at most `size`, in their own order: those that fewer than `size` others precede by metric and, at a
tie, by index. -/
def polarBest (size : Nat) (ps : List PolarPath) : List PolarPath :=
  let z := ps.zipIdx
  (z.filter (fun p => decide ((z.filter (fun q =>
    decide (q.1.2 < p.1.2) || (q.1.2 == p.1.2 && decide (q.2 < p.2)))).length < size))).map (·.1)

/-- One bit position over all paths. -/
def polarStep (n size : Nat) (llr : List Int) (frozen : Bool) (ps : List PolarPath) : List PolarPath :=
  polarBest size ((ps.map (fun p =>
    let l := polarLlr n llr p.1
    if frozen then [PolarPath.take p l false] else [PolarPath.take p l false, PolarPath.take p l true])).flatten)

/-- Every path's bits in order of metric, ties by index: the list that the CRC chooses from. -/
def polarOrder (ps : List PolarPath) : List PolarPath :=
  (List.range ps.length).filterMap (fun k => (polarBest (k + 1) ps).find? (fun p => !(polarBest k ps).contains p))

/-- CRC-aided list decoding: the 2^n input bits of the first path that passes; else of the best path. -/
def polarDecode (n size : Nat) (frozen : Nat → Bool) (passes : List Bool → Bool) (llr : List Int) : List Bool × Bool :=
  let ps := (List.range (2 ^ n)).foldl (fun ps i => polarStep n size llr (frozen i) ps) [([], 0)]
  match (polarOrder ps).find? (fun p => passes p.1) with
  | some p => (p.1, true)
  | none => (((polarOrder ps).head?.map (·.1)).getD [], false)

end Sys2Proof.Machine
end

