-- ==== Sys2Proof/Machine/Codewords.lean ====
section
/-! DEFINITION. A codeword's way through a decoder engine: the job granule (R261), LLRs and soft bits (R259, R273), decoding and
encoding by channel (R263 to R266), and the label of a replay record (R280). The framing that 3GPP fixes is Config's, log 106. -/

namespace Sys2Proof.Machine

/-! ## Fields of a job, R261 -/

/-- JOB_SEQ -/
def jobSeq (j : Bytes) : Word := BitVec.ofNat 32 (fieldAt j 0 4)
/-- CARRIER -/
def jobCarrier (j : Bytes) : Nat := fieldAt j 4 1 % 4
/-- CHANNEL -/
def jobChannel (j : Bytes) : Nat := fieldAt j 5 1
/-- OP -/
def jobOp (j : Bytes) : Nat := fieldAt j 6 1
/-- FLAGS[0], combine with the HARQ buffer. -/
def jobCombines (j : Bytes) : Bool := bit (fieldAt j 7 1) 0
/-- FLAGS[1], a retransmission. -/
def jobRetransmits (j : Bytes) : Bool := bit (fieldAt j 7 1) 1
/-- SLOT -/
def jobSlot (j : Bytes) : Nat := fieldAt j 8 4
/-- CW_SEQ -/
def jobCw (j : Bytes) : Word := BitVec.ofNat 32 (fieldAt j 0x0C 4)
/-- E, coded bits. -/
def jobE (j : Bytes) : Nat := fieldAt j 0x18 4
/-- TBS, payload bits. -/
def jobTbs (j : Bytes) : Nat := fieldAt j 0x1C 4
/-- CINIT -/
def jobCinit (j : Bytes) : Nat := fieldAt j 0x20 4
/-- DEADLINE -/
def jobDeadline (j : Bytes) : Nat := fieldAt j 0x28 8

/-! ## Soft bits, R259 and R273 -/

/-- The LLRs of a job added into the positions of its redundancy version, in order, saturating at 127. -/
def softAdd (j : Bytes) (old llr : List Int) : List Int :=
  (descramble (jobCinit j) llr).zipIdx.foldl (fun m p =>
    let k := Config.rvPosition j p.2
    m.set k (clamp (-127) 127 (m.getD k 0 + p.1))) old

/-- Soft bits as a soft buffer holds them. -/
def softBytes (l : List Int) : Bytes := l.map (fun x => BitVec.ofNat 8 (unsigned 8 x))

/-- The LLRs of a code block's mother code, of n bits: soft bits by position, 0 for a bit that was not sent. -/
def motherLlrs (j : Bytes) (b n : Nat) (soft : List Int) : List Int :=
  soft.zipIdx.foldl (fun m p => match Config.motherBit j p.2 with
    | some (c, i) => if c = b then m.set i p.1 else m
    | none => m) ((List.range n).map (fun i => if i < Config.blockLen j b && Config.filler j b i then 127 else 0))

/-! ## Checks -/

/-- Width and polynomial of a channel's transport-block check. -/
def tbCrc (ch tbs : Nat) : Nat × Nat :=
  if ch = 0 ∨ ch = 2 then (16, 0x1021)
  else if ch = 1 ∨ (ch = 5 ∧ 3824 < tbs) then (24, 0x864CFB)
  else if ch = 5 then (16, 0x1021)
  else (24, 0xB2B117)

/-- Width and polynomial of a code block's check. -/
def blockCrc : Nat × Nat := (24, 0x800063)

/-- A code block's information bits without its filler bits. -/
def blockInfo (j : Bytes) (b : Nat) (u : List Bool) : List Bool :=
  ((u.take (Config.blockLen j b)).zipIdx.filter (fun p => !Config.filler j b p.2)).map (·.1)

/-- A code block's own check: that of the transport block when it is the only one. -/
def blockPasses (j : Bytes) (b : Nat) (u : List Bool) : Bool :=
  let c := if Config.blockCount j ≤ 1 then tbCrc (jobChannel j) (jobTbs j) else blockCrc
  crcPasses c.1 c.2 (blockInfo j b u)

/-- A code block's part of the transport block. -/
def blockPart (j : Bytes) (b : Nat) (u : List Bool) : List Bool :=
  if Config.blockCount j ≤ 1 then blockInfo j b u else (blockInfo j b u).take ((blockInfo j b u).length - 24)

/-! ## Decoding -/

/-- What the active weight bank gives the decoders, R260: extrinsic scale, and the scale and offset of each iteration. -/
def bankExt (bank : Bytes) : Int → Int := fun x => over16 Config.extUp ((Config.extScale bank % 17 : Nat) * x)
/-- A[i] and B[i]. -/
def bankMinSum (bank : Bytes) (g i : Nat) : Nat × Nat := (Config.minSumScale bank g i % 65, Config.minSumOffset bank g i % 16)

/-- The turbo decoder's view of a code block. -/
def turboIn (j : Bytes) (b : Nat) (soft : List Int) : TurboIn :=
  let k := Config.blockLen j b
  let f := Config.qpp k
  let perm := fun i => (f.1 * i + f.2 * i * i) % max 1 k
  { k := k, llr := motherLlrs j b (3 * k + 12) soft, perm := perm, inv := fun i => ((List.range k).find? (fun q => perm q == i)).getD 0 }

/-- The lifted base graph of a code block. -/
def graphIn (j : Bytes) (b : Nat) : BaseGraph := { z := (Config.baseGraph j b).1, rows := (Config.baseGraph j b).2 }

/-- The bits of an LDPC code block's mother code. -/
def BaseGraph.length (g : BaseGraph) : Nat := g.z * ((g.rows.flatten.map (·.1 + 1)).foldl max 0)

/-- The input positions of a polar code's information bits. -/
def polarPlaces (j : Bytes) : List Nat := (List.range (Config.blockLen j 0)).map (Config.polarInput j)

/-- One code block decoded by its channel's code, R263 to R266: its information bits, whether it passed, the iterations used. `list`
is the carrier's LIST. -/
def decodeCodeBlock (j : Bytes) (list : Nat) (bank : Bytes) (soft : List Int) (b : Nat) : List Bool × Bool × Nat :=
  let k := Config.blockLen j b
  match jobChannel j with
  | 0 | 2 =>
    let u := viterbi Config.trellisTie k (motherLlrs j b (3 * k) soft)
    (u, blockPasses j b u, Config.iterNone.toNat)
  | 1 => turboDecode (turboIn j b soft) (bankExt bank) (blockPasses j b)
  | 5 =>
    let g := graphIn j b
    ldpcDecode g (bankMinSum bank (Config.graphOf j)) (blockPasses j b) (motherLlrs j b g.length soft)
  | _ =>
    let n := Config.polarLog j
    let info := fun (u : List Bool) => (polarPlaces j).map (fun i => u.getD i false)
    let r := polarDecode n list (fun i => !(polarPlaces j).contains i) (fun u => blockPasses j b (info u)) (motherLlrs j b (2 ^ n) soft)
    (info r.1, r.2, Config.iterNone.toNat)

/-- A decode: payload, whether every code block's and the transport block's check passed, and the most iterations a code block
used. -/
def decodeJob (j : Bytes) (list : Nat) (bank : Bytes) (soft : List Int) : Bytes × Bool × Nat :=
  let r := (List.range (Config.blockCount j)).map (decodeCodeBlock j list bank soft)
  let tb := (r.zipIdx.map (fun x => blockPart j x.2 x.1.1)).flatten
  let c := tbCrc (jobChannel j) (jobTbs j)
  (bytesOfBits (tb.take (jobTbs j)), r.all (·.2.1) && crcPasses c.1 c.2 tb, (r.map (·.2.2)).foldl max 0)

/-! ## Encoding -/

/-- The information bits of the code blocks of a transport block: each takes its part, its own check when there are several, and
filler bits of 0. -/
def fillBlock (j : Bytes) (b : Nat) (tb : List Bool) : List Bool × List Bool :=
  let k := Config.blockLen j b
  let room := ((List.range k).filter (fun i => !Config.filler j b i)).length
  let several := decide (1 < Config.blockCount j)
  let own := tb.take (if several then room - 24 else room)
  let info := if several then withCrc blockCrc.1 blockCrc.2 own else own
  ((List.range k).map (fun i =>
    if Config.filler j b i then false else info.getD ((List.range i).filter (fun q => !Config.filler j b q)).length false), tb.drop own.length)

/-- The mother code of a code block, R263 and R265. -/
def motherCode (j : Bytes) (b : Nat) (u : List Bool) : List Bool :=
  match jobChannel j with
  | 0 | 2 => tbccEncode u
  | 1 => let f := Config.qpp u.length; turboEncode (fun i => (f.1 * i + f.2 * i * i) % max 1 u.length) u
  | 5 => u ++ Config.ldpcParity j b u
  | _ =>
    let x := (List.range (2 ^ Config.polarLog j)).map (fun i => match (polarPlaces j).findIdx? (· == i) with
      | some q => u.getD q false
      | none => false)
    polarTransform (Config.polarLog j) x

/-- The coded bits of an encoding job, rate-matched. -/
def codedBits (j payload : Bytes) : List Bool :=
  let c := tbCrc (jobChannel j) (jobTbs j)
  let tb := withCrc c.1 c.2 ((bitsMsb payload).take (jobTbs j))
  let blocks := ((List.range (Config.blockCount j)).foldl (fun (a : List (List Bool) × List Bool) b =>
    let r := fillBlock j b a.2
    (a.1 ++ [motherCode j b r.1], r.2)) ([], tb)).1
  (List.range (jobE j)).map (fun i => match Config.motherBit j (Config.rvPosition j i) with
    | some (b, q) => (blocks.getD b []).getD q false
    | none => false)

/-- Coded bits scrambled by CINIT. -/
def scrambled (j : Bytes) (l : List Bool) : List Bool := List.zipWith (· != ·) l (scrambling (jobCinit j) l.length)

/-- What an engine writes for an encoding job: the trellis engine scrambles too, R263. -/
def encodeJob (e : Nat) (j payload : Bytes) : Bytes := bytesOfBits (if e = 0 then scrambled j (codedBits j payload) else codedBits j payload)

/-! ## The label, R280 -/

/-- X of a replay record of so many PRBs: the transmitted values of the transport block's resources, +0 outside them. -/
def labelGrid (prbs : Nat) (j payload : Bytes) : Bytes :=
  let bs := scrambled j (codedBits j payload)
  ((List.range 14).map (fun l => ((List.range (12 * prbs)).map (fun k =>
    leBytes 4 (if k / 12 < Config.jobSci j 9 then (Config.labelCell j bs l k).toNat else 0))).flatten)).flatten

end Sys2Proof.Machine
end

