-- ==== Sys2Proof/Machine/FrontEnd.lean ====
section
/-! DEFINITION. The front end's arithmetic for one symbol, R249, its levels in quarter-dBFS (R253, R256) and the chips of the
correlator (R251). What the spec leaves to the chip (filters, rotations, the transform's scaling, roundings) is Config's, log 9. -/

namespace Sys2Proof.Machine

/-- A sample of both antennas: I and Q of antenna 0, then of antenna 1. -/
abbrev RfSample := List Int

/-- Interface samples of 8 bytes, R240. -/
def rfSamples (b : Bytes) : List RfSample :=
  (List.range (b.length / 8)).map (fun i => (List.range 4).map (fun k => signed 16 (fieldAt b (8 * i + 2 * k) 2)))

/-- DC removal of one sample, R249 step 3, component by component: y = x - d and the new d. -/
def dcStep (shift : Nat) (d : List Int) (x : RfSample) : List Int × RfSample :=
  let y := List.zipWith (· - ·) x d
  (List.zipWith (fun a b => a + Config.dcRound shift b) d y, y)

/-- DC removal of a run of samples. -/
def dcRemove (shift : Nat) (d : List Int) (xs : List RfSample) : List Int × List RfSample :=
  xs.foldl (fun a x => let r := dcStep shift a.1 x; (r.1, a.2 ++ [r.2])) (d, [])

/-- Steps 1 to 4 for the samples of one symbol: the stream at the taps, and the DC removal's new state. `first` is the number of
the first sample, `tail` the interface samples before it. -/
def tapStream (rec_ : Bytes) (first : Nat) (tail now : Bytes) (d : List Int) : List Int × List RfSample :=
  let r := dcRemove (fieldAt rec_ 0x26 1) d (Config.decimate rec_ first (rfSamples tail) (rfSamples now))
  (r.1, Config.rotate (-(signed 32 (fieldAt rec_ 8 4))) first r.2)

/-- Samples at the taps that stand at full scale in either antenna. -/
def clipCount (xs : List RfSample) : Nat :=
  (xs.filter (fun x => x.any (fun v => decide (32767 * 2 ^ Config.sampleFrac ≤ v) || decide (v ≤ -32768 * 2 ^ Config.sampleFrac)))).length

/-- FFT size of a numerology, R236. -/
def fftSize (scs bw : Nat) : Nat := 1024 * 2 ^ (bw % 3) / 2 ^ (scs % 3)

/-- Samples of the cyclic prefix of symbol l of slot n; the first of each half millisecond is longer. PRESUMED from 3GPP, log 9. -/
def prefixLen (scs bw n l : Nat) : Nat :=
  let long := if scs % 3 = 0 then l % 7 == 0 else if scs % 3 = 1 then l == 0 else l == 0 && n % 2 == 0
  fftSize scs bw * 144 / 2048 + (if long then 8 * 2 ^ (bw % 3) else 0)

/-- The samples before symbol l of slot n, from the slot's start. -/
def symbolStart (scs bw n l : Nat) : Nat := ((List.range l).map (fun i => fftSize scs bw + prefixLen scs bw n i)).sum

/-- The symbol of slot n in which a sample lies. -/
def symbolOf (scs bw n sample : Nat) : Nat := ((List.range 14).filter (fun l => decide (symbolStart scs bw n l ≤ sample))).length - 1

/-- The greatest r with r^80 at most x, below 2^84. -/
def root80 (x : Nat) : Nat := (List.range 84).foldl (fun r i => if (r + 2 ^ (83 - i)) ^ 80 ≤ x then r + 2 ^ (83 - i) else r) 0

/-- GCOMP, R249 step 8: 10^(k/80) rounded to FP32, k = GI x GAIN_STEP_Q. -/
def gcomp (k : Nat) : Word :=
  let x := 2 ^ 4800 * 10 ^ k
  let r := root80 x
  rnd (.fin false (2 * r + (if r ^ 80 = x then 0 else 1)) (-61))

/-- One antenna's used subcarriers of a symbol, lowest first, in complex FP16: steps 6 to 9. -/
def symbolGrid (rec_ : Bytes) (n symbol gi nsc : Nat) (ant : List (Int × Int)) : Bytes :=
  let scs := fieldAt rec_ 2 1
  let bw := fieldAt rec_ 3 1
  let size := fftSize scs bw
  let win := (ant.drop (prefixLen scs bw n symbol - fieldAt rec_ 0x24 2)).take size
  let win2 := if fieldAt rec_ 0 1 = 0 then Config.halfShift win else win
  let f := Config.fft size win2
  let g := gcomp (gi * fieldAt rec_ 0x1F 1)
  ((List.range nsc).map (fun i =>
    let x := f.getD ((size - nsc / 2 + i) % size) (0, 0)
    leBytes 2 (Fmt.fp16.store (num (fmul x.1 g))).1 ++ leBytes 2 (Fmt.fp16.store (num (fmul x.2 g))).1)).flatten

/-- The grid packet of a symbol, antenna 0 first, R249 and R256. -/
def gridPacket (rec_ : Bytes) (n symbol gi nsc : Nat) (xs : List RfSample) : Bytes :=
  symbolGrid rec_ n symbol gi nsc (xs.map (fun x => (x.getD 0 0, x.getD 1 0)))
    ++ symbolGrid rec_ n symbol gi nsc (xs.map (fun x => (x.getD 2 0, x.getD 3 0)))

/-! ## Levels -/

/-- 10^q <= (n / d x 2^e)^40. -/
def levelAtMost (n d : Nat) (e q : Int) : Bool :=
  decide (10 ^ q.toNat * d ^ 40 * 2 ^ (40 * (-e).toNat) ≤ n ^ 40 * 2 ^ (40 * e.toNat) * 10 ^ (-q).toNat)

/-- A power n / d x 2^e of full scale in quarter-decibels, rounded down or up as the chip does; none for no power. -/
def quarterDb (n d : Nat) (e : Int) : Int :=
  if n = 0 ∨ d = 0 then signed 16 Config.silence.toNat
  else
    let q := (((List.range 4096).filter (fun i => levelAtMost n d e ((i : Int) - 2048))).length : Int) - 2049
    q + (if Config.levelUp n d e then 1 else 0)

/-- The power of a complex FP16 value in units of 2^-48. -/
def cellPower (b : Bytes) (off : Nat) : Nat :=
  let sq := fun o => match Fmt.fp16.value (fieldAt b o 2) with
    | .fin _ m e => m * m * 2 ^ (2 * e + 48).toNat
    | _ => 2 ^ 80
  sq off + sq (off + 2)

/-- The mean power of cells of a slot's packets, over symbols 1 to 12, in quarter-dBFS. Full scale is the value 1. DESIGN CHOICE,
log 9. -/
def cellsLevel (packets : Bytes) (packetLen : Nat) (offs : List Nat) : Int :=
  let p := ((List.range 12).map (fun l => (offs.map (fun o => cellPower packets ((l + 1) * packetLen + o))).sum)).sum
  quarterDb p (12 * offs.length) (-48)

/-- RSSI per antenna and the S-RSSI of every PRB, R249 step 10 and R256: 16-bit values. -/
def slotLevels (packets : Bytes) (prbs : Nat) : Bytes :=
  let nsc := 12 * prbs
  let len := 8 * nsc
  let i16 := fun (x : Int) => leBytes 2 (unsigned 16 (clamp (-32768) 32767 x))
  ((List.range 2).map (fun a => i16 (cellsLevel packets len ((List.range nsc).map (fun i => 4 * (a * nsc + i)))))).flatten
    ++ ((List.range prbs).map (fun b => i16 (cellsLevel packets len
      ((List.range 24).map (fun k => 4 * (k / 12 * nsc + 12 * b + k % 12)))))).flatten

/-! ## Chips, R251 -/

/-- The chips of a run of one antenna's tap samples, I and Q of 16 bits: the sign bits at every SYNC_DEC-th sample. -/
def chipsOf (dec : Nat) (samples : Bytes) (k : Nat) : List Bool :=
  (List.range (samples.length / (4 * max 1 dec))).map (fun i => bit (fieldAt samples (4 * max 1 dec * i + 2 * k) 2) 15)

end Sys2Proof.Machine
end

