-- ==== Sys2Proof/Machine/SpringOps.lean ====
section
/-! DEFINITION. Shared operations of the Spring: descriptors (R204, R208, R233), violations (R231, R232), conversion (R213,
R214), releasing lines and ROI crops (R215 to R217, R229), the lossless decoder (R219), batches (R209 to R212, R218, R223) and
store batches (R224 to R227). -/

namespace Sys2Proof.Machine

/-! ## Descriptors -/

/-- A field of stream n's descriptor, R204. -/
def State.streamField (s : State) (n off len : Nat) : Nat := s.cfgField (0x410000 + 256 * n) off len
/-- A field of batch b's descriptor, R208. -/
def State.batchField (s : State) (b off len : Nat) : Nat := s.cfgField (0x440000 + 256 * b) off len
/-- KIND of stream n. -/
def State.streamKind (s : State) (n : Nat) : Nat := s.streamField n 0 1
/-- HEIGHT of stream n. -/
def State.streamHeight (s : State) (n : Nat) : Nat := s.streamField n 0x1E 2
/-- VOID_LEN of stream n. -/
def State.voidLen (s : State) (n : Nat) : Nat := s.streamField n 0x32 2
/-- REC_BYTES of stream n. -/
def State.recBytes (s : State) (n : Nat) : Nat := s.streamField n 0x34 2
/-- The conversion profile of stream n, R233. -/
def State.streamProfile (s : State) (n : Nat) : Bytes := s.entry (0x430000 + 256 * s.streamField n 0x1B 1)

/-- The enabled camera streams of a door and virtual channel, R201. -/
def State.cameraStreams (s : State) (door vc : Nat) : List Nat :=
  (List.range 128).filter (fun n => s.streamKind n == 1 && s.streamField n 1 1 == door && s.streamField n 2 1 == vc)

/-- The stream that a line packet matches, R201. -/
def State.cameraStream (s : State) (door vc dt : Nat) : Option Nat :=
  (s.cameraStreams door vc).find? (fun n => s.streamField n 3 1 == dt)

/-- A live batch, R208. -/
def State.batchLive (s : State) (b : Nat) : Bool := s.batchField b 0 1 == 0 && s.batchField b 2 2 != 0
/-- The streams of a live batch in slot order, R208. -/
def State.batchStreams (s : State) (b : Nat) : List Nat := maskList 128 (s.batchField b 8 16)
/-- The live batches that hold a stream. -/
def State.batchesOf (s : State) (n : Nat) : List Nat :=
  (List.range 64).filter (fun b => s.batchLive b && (s.batchStreams b).contains n)
/-- PACK. -/
def State.batchPacks (s : State) (b : Nat) : Bool := bit (s.batchField b 1 1) 4

/-! ## Run time -/

/-- The run time of a stream. -/
def State.streamRt (s : State) (n : Nat) : StreamRt := sget {} s.spring.streams n
/-- The run time of a stream changed. -/
def State.onStream (s : State) (n : Nat) (f : StreamRt → StreamRt) : State :=
  s.onSpring (fun x => { x with streams := supd {} x.streams n f })
/-- k more in counter i of STREAM_CNT, R234. -/
def State.streamCount (s : State) (n i k : Nat) : State :=
  s.onStream n (fun r => { r with counters := supd 0 r.counters i (· + k) })
/-- The run time of a batch. -/
def State.batchRt (s : State) (b : Nat) : BatchRt := sget {} s.spring.batches b
/-- The run time of a batch changed. -/
def State.onBatch (s : State) (b : Nat) (f : BatchRt → BatchRt) : State :=
  s.onSpring (fun x => { x with batches := supd {} x.batches b f })
/-- A sample changed, by stream and number. -/
def State.onSample (s : State) (n : Nat) (seq : Word) (f : Sample → Sample) : State :=
  s.onSpring (fun x => { x with samples := x.samples.map (fun y => if y.stream.toNat = n ∧ y.seq = seq then f y else y) })
/-- A sample by stream and number. -/
def State.sampleOf (s : State) (n : Nat) (seq : Word) : Option Sample :=
  s.spring.samples.find? (fun y => y.stream.toNat == n && y.seq == seq)
/-- The open camera sample of a stream. -/
def State.openCamera (s : State) (n : Nat) : Option Sample :=
  s.spring.samples.find? (fun y => y.stream.toNat == n && !y.complete)
/-- Batch b has closed since a sample opened. -/
def State.closedFor (s : State) (x : Sample) (b : Nat) : Bool :=
  match (s.batchRt b).lastClose with
  | some t => decide (x.openedAt ≤ t)
  | none => false

/-- Samples that no batch can take any more are let go. -/
def State.pruneSamples (s : State) : State :=
  s.onSpring (fun x => { x with samples := x.samples.filter (fun y =>
    !(y.complete && y.settled && (s.batchesOf y.stream.toNat).all (fun b => s.closedFor y b && (s.batchRt b).closedAt.isNone))) })

/-! ## Violations, R231 and R232 -/

/-- A violation of an origin: counted, with its record while the origin is not throttled. The key is (0, door, VC) for CSI-2,
(1, 0, address) and (2, 0, address) for Ethernet. -/
def State.springViolation (s : State) (key : Nat × Nat × Nat) (door : Nat) (n : Option Nat) (seq : Nat) : State :=
  let s1 := if violThrottled key s.spring.viols then s
            else s.logEvent srcSpring 0 .violation [door, key.1, key.2.1, key.2.2, n.getD 0xFF, seq]
  let s2 := s1.onSpring (fun x => { x with viols := violAdd (s.cfg 0x400002) s.now key x.viols })
  match n with
  | some k => s2.streamCount k 12 1
  | none => s2

/-- A violation of an open camera sample, with its outcome. -/
def State.springMarginal (s : State) (n : Nat) : State :=
  (s.onSpring (fun x => { x with marginal := x.marginal + 1 })).streamCount n 15 1

/-! ## Numbers, R207 -/

/-- A capture stamp lies in the run, R207. -/
def State.captureCounts (s : State) (capture : Nat) : Bool :=
  s.inRun && decide (s.frameStartOf s.tb.runFrame0 ≤ capture)

/-- A sample opens with the next number of its stream. -/
def State.openSample (s : State) (x : Sample) : State :=
  let n := x.stream.toNat
  (s.onStream n (fun r => { r with next := r.next + 1, counters := sinc r.counters 0 })).onSpring (fun y =>
    { y with samples := y.samples ++ [{ x with seq := (s.streamRt n).next, openedAt := s.now }] })

/-- A sample completes. When a batch of its stream has closed since it opened, it is LATE and no batch receives it. -/
def State.completeSample (s : State) (n : Nat) (seq : Word) : State :=
  match s.sampleOf n seq with
  | none => s
  | some x =>
    let s1 := s.onSample n seq (fun y => { y with complete := true, doneAt := s.now })
    if (s.batchesOf n).any (s.closedFor x) then
      ((s1.onSample n seq (fun y => { y with reason := if y.reason = 0 then 3 else y.reason, settled := true })).streamCount n 10 1).logEvent
        srcSpring 0 .late [n, seq.toNat]
    else s1

/-! ## Packets to consumers, R212 and R215 -/

/-- A SIGNAL to a TARGET, with the next number of the Spring's stream for that consumer; DCTR 0xFF names no counter, R65. -/
def State.springSignal (s : State) (target : Nat) : State :=
  let dcore := bits target 5 0
  let dctr := bits target 23 16
  let node := bits target 26 24
  let key := target % 2 ^ 27
  let seq := sget 0 s.spring.outSeq key
  if dctr = 0xFF then s
  else
    let s1 := s.onSpring (fun x => { x with outSeq := sset 0 x.outSeq key (seq + 1) })
    if node = s.fab.nodeId.toNat then s1.emit (.packet dcore (bits dctr 5 4) (bits dctr 3 0) seq.toNat false)
    else s1.fabSend node 0
      { s.header 4 srcSpring 0 with sseq := seq, out := 0, dctr := BitVec.ofNat 8 dctr, dcore := BitVec.ofNat 8 dcore }

/-! ## Colour conversion, R213 and R214 -/

/-- A coefficient of a preset in millionths, with its sign: preset, row and column. -/
def presetMicros (preset c j : Nat) : Bool × Nat :=
  let red : List Nat := [0, 1402000, 1574800, 1474600]
  let cb : List Nat := [0, 344136, 187324, 164553]
  let cr : List Nat := [0, 714136, 468124, 571353]
  let blue : List Nat := [0, 1772000, 1855600, 1881400]
  match c, j with
  | _, 0 => (false, 1000000)
  | 0, 2 => (false, red.getD preset 0)
  | 1, 1 => (true, cb.getD preset 0)
  | 1, 2 => (true, cr.getD preset 0)
  | 2, 1 => (false, blue.getD preset 0)
  | _, _ => (false, 0)

/-- A word of a record at a byte offset. -/
def wordAt (p : Bytes) (off : Nat) : Word := BitVec.ofNat 32 (fieldAt p off 4)

/-- M[c][j] of a profile. -/
def profileM (p : Bytes) (ten : Bool) (c j : Nat) : Word :=
  if fieldAt p 0 1 = 0 then wordAt p (4 + 4 * (3 * c + j))
  else
    let m := presetMicros (fieldAt p 0 1) c j
    if fieldAt p 1 1 = 0 then rnd (ratNum m.1 m.2 1000000 0)
    else rnd (ratNum m.1 (m.2 * (if ten then 1023 else 255))
      (1000000 * (if j = 0 then (if ten then 876 else 219) else (if ten then 896 else 224))) 0)

/-- OFF[j] of a profile. -/
def profileOff (p : Bytes) (ten : Bool) (j : Nat) : Word :=
  if fieldAt p 0 1 = 0 then wordAt p (0x28 + 4 * j)
  else rnd (intNum ((if j = 0 then (if fieldAt p 1 1 = 0 then 0 else 16) else 128) * (if ten then 4 else 1) : Nat))

/-- A RAW data type, R200. -/
def isRaw (dt : Nat) : Bool := decide (0x2A ≤ dt) && decide (dt ≤ 0x2E)

/-- CHANNELS of a profile for a data type: RAW passes as one channel. -/
def channelsOf (p : Bytes) (dt : Nat) : Nat := if isRaw dt || fieldAt p 3 1 == 1 then 1 else 3

/-- The output values y of one pixel, R213. -/
def convertPixel (p : Bytes) (dt : Nat) (px : List Nat) : List Word :=
  let ten := dt == 0x1F
  let t : Nat → Word := fun j => fsub (rnd (intNum (px.getD j 0 : Nat))) (profileOff p ten j)
  let y : Nat → Word → Word := fun c r => fmul (fsub r (wordAt p (0x34 + 4 * c))) (wordAt p (0x40 + 4 * c))
  if channelsOf p dt = 1 then [y 0 (t 0)]
  else (List.range 3).map (fun c =>
    y c (fadd (fadd (fmul (profileM p ten c 0) (t 0)) (fmul (profileM p ten c 1) (t 1))) (fmul (profileM p ten c 2) (t 2))))

/-- Values in an output format, and how many saturated in INT8. -/
def storeAll (fmt : Fmt) (ys : List Word) : Bytes × Nat :=
  let r := ys.map (fun y => fmt.store (num y))
  ((r.map (fun v => leBytes fmt.size v.1)).flatten, if fmt == .int8 then (r.filter (·.2)).length else 0)

/-- One line converted. -/
def convertLine (p : Bytes) (dt : Nat) (pixels : List (List Nat)) : Bytes × Nat :=
  match fmtOf (fieldAt p 2 1) with
  | some fmt => storeAll fmt ((pixels.map (convertPixel p dt)).flatten)
  | none => ([], 0)

/-- Bytes of one output pixel of stream n. -/
def State.pixelBytes (s : State) (n : Nat) : Nat :=
  channelsOf (s.streamProfile n) (s.streamField n 3 1) * ((fmtOf (fieldAt (s.streamProfile n) 2 1)).map Fmt.size).getD 0

/-- Bits per pixel in a line packet, R200; the legacy YUV420 line carries 3 bytes for 2 pixels. -/
def pixelBits (dt : Nat) : Nat :=
  match dt with
  | 0x2A => 8 | 0x2B => 10 | 0x2C => 12 | 0x2D => 14 | 0x2E => 16
  | 0x1A => 12 | 0x1E => 16 | 0x1F => 20 | 0x24 => 24
  | _ => 0

/-! ## Slots of a live batch -/

/-- Bytes of a stream's slot in a batch without PACK. A slot of records holds VOID_LEN of them: DESIGN CHOICE, log 41. -/
def State.slotBytes (s : State) (n : Nat) : Nat :=
  if s.streamKind n = 1 then s.streamHeight n * s.streamField n 0x1C 2 * s.pixelBytes n else s.voidLen n * s.recBytes n

/-- The address of a stream's slot: slots lie one after another from OUT_BASE. DESIGN CHOICE, log 41. -/
def State.slotAddr (s : State) (b n : Nat) : Nat :=
  s.batchField b 0x18 8 + (((s.batchStreams b).filter (fun m => decide (m < n))).map s.slotBytes).sum

/-! ## Lines and crops, R215 to R217 and R229 -/

/-- Line y of a stream is written to batch b, with the SIGNAL after every 64 lines and after the last. -/
def State.writeLine (s : State) (b n y : Nat) (line : Bytes) : State :=
  let t := (s.engineWrite 0 srcSpring (s.slotAddr b n + y * line.length) line).1
  if (y + 1) % 64 = 0 ∨ y + 1 = s.streamHeight n then t.springSignal (s.batchField b 0x28 4) else t

/-- Row r of an ROI crop is written, with its SIGNALs. -/
def State.cropRow (s : State) (roi : Bytes) (r : Nat) (row : Bytes) : State :=
  let t := (s.engineWrite 0 srcSpring (fieldAt roi 8 8 + r * fieldAt roi 0x10 4) row).1
  if (r + 1) % 64 = 0 ∨ r + 1 = fieldAt roi 6 2 then t.springSignal (fieldAt roi 0x14 4) else t

/-- Line y passes an ROI: its row of the crop; after the last line the rows below the image, and the count of a clip. -/
def State.cropLine (s : State) (n y : Nat) (line : Bytes) (roi : Bytes) : State :=
  let x0 := fieldAt roi 0 2; let y0 := fieldAt roi 2 2; let w := fieldAt roi 4 2; let h := fieldAt roi 6 2
  let pb := s.pixelBytes n
  let top := s.streamHeight n
  if w = 0 ∨ h = 0 then s
  else
    let s1 := if y0 ≤ y ∧ y < y0 + h then s.cropRow roi (y - y0) (fitBytes (w * pb) (line.drop (x0 * pb))) else s
    if y + 1 = top then
      let below := (List.range h).filter (fun r => decide (top ≤ y0 + r))
      let s2 := below.foldl (fun t r => t.cropRow roi r (List.replicate (w * pb) 0)) s1
      if top < y0 + h ∨ s.streamField n 0x1C 2 < x0 + w then
        (s2.streamCount n 17 1).logEvent srcSpring 0 .roiClipped [n, s.frameAt s.now]
      else s2
    else s1

/-- Line y of a sample is released to the batches that still take it and to the ROI crops. -/
def State.releaseLine (s : State) (x : Sample) (y : Nat) (line : Bytes) : State :=
  let n := x.stream.toNat
  let s1 := ((s.batchesOf n).filter (fun b => !s.closedFor x b)).foldl (fun t b => t.writeLine b n y line) s
  (s.streamRt n).rois.foldl (fun t r => t.cropLine n y line r) s1

/-- A line of +0. -/
def State.zeroLine (s : State) (n : Nat) : Bytes := List.replicate (s.streamField n 0x1C 2 * s.pixelBytes n) 0

/-- A camera sample fails: from its next line on it is +0 and released, R229. -/
def State.failCamera (s : State) (x : Sample) (reason : Reason) : State :=
  let n := x.stream.toNat
  if x.reason ≠ 0 then s
  else ((List.range (s.streamHeight n - x.lines)).foldl (fun t i => t.releaseLine x (x.lines + i) (s.zeroLine n)) s).onSample n x.seq
    (fun y => { y with reason := reason })

/-- A violation on a stream: recorded, and its open sample fails with a reason. -/
def State.cameraViolation (s : State) (door vc n : Nat) (reason : Option Reason) : State :=
  let x := s.openCamera n
  let s1 := s.springViolation (0, door, vc) door (some n) ((x.map (·.seq.toNat)).getD 0)
  match x, reason with
  | some y, some r => s1.failCamera y r
  | _, _ => s1

/-! ## The DRC decoder, R219 -/

/-- At most n leading ones, and what follows. -/
def leadingOnes : Nat → List Bool → Nat × List Bool
  | n + 1, true :: t => ((leadingOnes n t).1 + 1, (leadingOnes n t).2)
  | _, l => (0, l)

/-- n bits as a number. -/
def takeBits (n : Nat) (l : List Bool) : Option (Nat × List Bool) :=
  if l.length < n then none else some ((l.take n).foldl (fun a b => 2 * a + b.toNat) 0, l.drop n)

/-- One code: z, whether it escaped, and what follows. -/
def drcCode (k : Nat) (l : List Bool) : Option (Nat × Bool × List Bool) :=
  let o := leadingOnes 16 l
  if o.1 = 16 then (takeBits 16 o.2).map (fun r => (r.1, true, r.2))
  else match o.2 with
    | _ :: t => (takeBits k t).map (fun r => ((o.1 * 2 ^ k + r.1) % 65536, false, r.2))
    | [] => none

/-- The difference that a code value stands for, modulo 2^16. -/
def unzigzag (z : Nat) : Nat := if z % 2 = 0 then z / 2 else 65535 - z / 2

/-- What a decoding has produced: values in order, cycles used, and the bits left (none after a failure). -/
structure DrcRun where
  vals : List Nat
  cycles : Nat
  rest : Option (List Bool)
  deriving DecidableEq, Repr

/-- n records of one field. -/
def drcField (k : Nat) : Nat → Nat → DrcRun → DrcRun
  | 0, _, r => r
  | n + 1, prev, r =>
    match r.rest with
    | none => r
    | some l =>
      match drcCode k l with
      | none => { r with rest := none }
      | some c =>
        let v := (prev + unzigzag c.1) % 65536
        drcField k n v ⟨v :: r.vals, r.cycles + (if c.2.1 then 2 else 1), some c.2.2⟩

/-- The header of a payload is readable, R219. -/
def drcReadable (b : Bytes) : Bool :=
  decide (20 ≤ b.length) && fieldAt b 0 2 == 0x4443 && decide (1 ≤ fieldAt b 2 1) && decide (fieldAt b 2 1 ≤ 16)
    && decide (1 ≤ fieldAt b 4 4) && decide (fieldAt b 4 4 ≤ 1048576)

/-- Every field in turn; the values of a field are newest first. -/
def drcFields (b : Bytes) : List (List Nat) × Nat × Option (List Bool) :=
  (List.range (fieldAt b 2 1)).foldl (fun r f =>
    match r.2.2 with
    | none => r
    | some l =>
      let x := drcField (bits (fieldAt b 8 8) (4 * f + 3) (4 * f)) (fieldAt b 4 4) 0 ⟨[], r.2.1, some l⟩
      (r.1 ++ [x.vals.reverse], x.cycles, x.rest)) ([], 0, some (bitsMsb (b.drop 20)))

/-- The cycles, 1 ns each, that a payload takes. -/
def drcCycles (b : Bytes) : Nat := if drcReadable b then (drcFields b).2.1 else 0

/-- The decoded records, field-interleaved; none when header, length or CRC fails. The bitstream ends within its last byte. -/
def drcDecode (rb : Nat) (b : Bytes) : Option Bytes :=
  if drcReadable b && rb == 2 * fieldAt b 2 1 then
    let r := drcFields b
    match r.2.2 with
    | none => none
    | some l =>
      let out := ((List.range (fieldAt b 4 4)).map (fun i => (r.1.map (fun v => leBytes 2 (v.getD i 0))).flatten)).flatten
      if l.length < 8 ∧ crc32c out = fieldAt b 0x10 4 then some out else none
  else none

/-! ## Settling a sample of records -/

/-- The decode budget of stream n, R221. -/
def State.decodeMean (s : State) (n : Nat) : Nat :=
  let d := (s.streamRt n).decodes
  if d.isEmpty then 0 else d.sum / d.length

/-- 8 times the mean, bounded to 20,000 to 2,000,000 ns. -/
def State.decodeBudget (s : State) (n : Nat) : Nat :=
  let d := (s.streamRt n).decodes
  if d.isEmpty then 2000000 else max 20000 (min 2000000 (8 * d.sum / d.length))

/-- STALE_NS is exceeded at an instant, R218. -/
def State.staleAt (s : State) (n capture t : Nat) : Bool :=
  let lim := s.streamField n 0x20 4
  s.streamKind n != 1 && lim != 0 && decide (capture + lim < t)

/-- The payload of a sample of records is complete: without a codec its length decides, with DRC a decoder takes it. -/
def State.payloadComplete (s : State) (n : Nat) (seq : Word) (data : Bytes) : State :=
  let rb := s.recBytes n
  let s1 := s.onSample n seq (fun y =>
    if s.streamField n 0x30 1 = 1 then
      { y with data := data, nrec := if drcReadable data then fieldAt data 4 4 else s.voidLen n, settled := y.settled || y.reason != 0 }
    else if rb ≠ 0 ∧ data.length % rb = 0 then { y with data := data, nrec := data.length / rb, settled := true }
    else { y with reason := if y.reason = 0 then 2 else y.reason, settled := true })
  (s1.completeSample n seq).pruneSamples

/-- The samples that wait for a decoder, R220. -/
def State.decodable (s : State) : List Sample :=
  s.spring.samples.filter (fun y => y.complete && !y.settled && y.reason == 0
    && !s.spring.decoders.any (fun d => match d with | some e => e.stream == y.stream && e.seq == y.seq | none => false))

/-- a is taken before b, R220. -/
def decodeBefore (a b : Sample) : Bool :=
  if a.capture ≠ b.capture then decide (a.capture < b.capture)
  else if a.stream ≠ b.stream then decide (a.stream.toNat < b.stream.toNat)
  else serialAfter b.seq a.seq

/-- The first of a list of samples in decoding order. -/
def firstSample (l : List Sample) : Option Sample :=
  l.foldl (fun m x => match m with
    | none => some x
    | some y => if decodeBefore x y then some x else some y) none

/-- The job of a decoder: its sample. -/
def State.decoding (s : State) (d : Nat) : Option (Decoder × Sample) :=
  match s.spring.decoders.getD d none with
  | none => none
  | some e => (s.sampleOf e.stream.toNat e.seq).map (fun x => (e, x))

/-- A decoder becomes free. -/
def State.freeDecoder (s : State) (d : Nat) : State := s.onSpring (fun x => { x with decoders := setAt x.decoders d none })

/-! ## Closing a live batch, R208 and R230 -/

/-- The sample that batch b takes for a stream: the latest opened since its last close. DESIGN CHOICE, log 42. -/
def State.candidate (s : State) (b n : Nat) : Option Sample :=
  (s.spring.samples.filter (fun y => y.stream.toNat == n && !s.closedFor y b)).getLast?

/-- A camera slot at close: the open or absent sample is MISSING, and its lines are +0 and released. -/
def State.closeCamera (s : State) (b n : Nat) : State × (Nat × Reason × Word × Nat) :=
  match s.candidate b n with
  | none => ((List.range (s.streamHeight n)).foldl (fun t y => t.writeLine b n y (s.zeroLine n)) s, (n, 3, 0, 0))
  | some x =>
    if !x.complete then (s.failCamera x 3, (n, 3, x.seq, x.capture))
    else if x.reason = 3 then (s, (n, 3, x.seq, x.capture))
    else (if marginal x.doneAt s.now then s.springMarginal n else s, (n, x.reason, x.seq, x.capture))

/-- A slot of records at close, R218. -/
def State.closeRecords (s : State) (b n : Nat) : State × (Nat × Reason × Word × Nat) :=
  match s.candidate b n with
  | none => (s, (n, 3, 0, 0))
  | some x =>
    let lim := s.streamField n 0x20 4
    if x.reason = 3 ∨ (x.reason = 0 ∧ !x.complete) then (s, (n, 3, x.seq, x.capture))
    else if x.reason ≠ 0 then (s, (n, x.reason, x.seq, x.capture))
    else if s.staleAt n x.capture s.now then (s, (n, 4, x.seq, x.capture))
    else
      let near := marginal x.doneAt s.now || (lim != 0 && marginal s.now (x.capture + lim))
      (if near then s.springMarginal n else s, (n, 0, x.seq, x.capture))

/-- The slots of batch b, in order. -/
def State.closeSlots (s : State) (b : Nat) : State × List (Nat × Reason × Word × Nat) :=
  (s.batchStreams b).foldl (fun r n =>
    let c := if s.streamKind n = 1 then r.1.closeCamera b n else r.1.closeRecords b n
    (c.1, r.2 ++ [c.2])) (s, [])

/-- Samples that have missed two closes of every batch of their stream are forgotten, so that the list stays short. -/
def State.forgetSamples (s : State) (b : Nat) : State :=
  s.onSpring (fun x => { x with samples := x.samples.filter (fun y =>
    !(s.streamKind y.stream.toNat == 2 && !y.complete && (s.batchStreams b).contains y.stream.toNat
      && (s.batchesOf y.stream.toNat).all (s.closedFor y))) })

/-- The slot's outcome as it stands: a sample of records that a decoder has failed or abandoned carries its reason. -/
def State.slotReason (s : State) (x : Nat × Reason × Word × Nat) : Reason :=
  if x.2.1 ≠ 0 then x.2.1 else ((s.sampleOf x.1 x.2.2.1).map (·.reason)).getD 0

/-- Every slot outcome of a closed batch is settled, R212. -/
def State.slotsSettled (s : State) (b : Nat) : Bool :=
  (s.batchRt b).slots.all (fun x => x.2.1 != 0 || x.1 == 0xFF || ((s.sampleOf x.1 x.2.2.1).map (·.settled)).getD true)

/-! ## Placing the samples of a batch, R209, R223, R228 -/

/-- The length of a slot in records; a void keeps its sample's length where it is known. -/
def State.slotLength (s : State) (x : Nat × Reason × Word × Nat) : Nat :=
  match (if x.2.1 = 3 then none else s.sampleOf x.1 x.2.2.1) with
  | some y => if y.nrec = 0 then s.voidLen x.1 else y.nrec
  | none => s.voidLen x.1

/-- One placed slot: reason, row, column and length. -/
structure Placed where
  stream : Nat
  reason : Reason
  seq : Word
  capture : Nat
  row : Nat := 0
  col : Nat := 0
  len : Nat := 0
  deriving DecidableEq, Repr

/-- The packing of R223. `maxRows` is what the output region holds. -/
def packSlots (rowLen maxRows : Nat) (voidLen : Nat → Nat) (slots : List (Placed × Nat)) : List Placed × Nat :=
  let r := slots.foldl (fun (a : List Placed × Nat × Nat × Bool) x =>
    let tooLong := decide (rowLen < x.2)
    let n := if tooLong then min (voidLen x.1.stream) rowLen else x.2
    let p := if tooLong then { x.1 with reason := 2 } else x.1
    let row := if rowLen < a.2.2.1 + n then a.2.1 + 1 else a.2.1
    let col := if rowLen < a.2.2.1 + n then 0 else a.2.2.1
    if a.2.2.2 || decide (maxRows ≤ row) then (a.1 ++ [{ p with reason := 2 }], a.2.1, a.2.2.1, true)
    else (a.1 ++ [{ p with row := row, col := col, len := n }], row, col + n, false)) ([], 0, 0, false)
  (r.1, r.2.1 + 1)

/-- Bytes from OUT_BASE to the end of its output region: the Shutter region that holds it, else its Lake channel or Pond
window. DESIGN CHOICE, log 41. -/
def State.outRoom (s : State) (base : Nat) : Nat :=
  match (if s.mem.enforce then s.decider base else none) with
  | some q => bits (s.region q).limit.toNat 47 16 * 0x10000 + 0x10000 - base
  | none => if base < 0x200000000 then 0x8000000 - base % 0x8000000 else 0x400000 - base % 0x400000

/-- The bytes of a sample's records, or of its void. -/
def State.placedBytes (s : State) (p : Placed) (n : Nat) : Bytes :=
  fitBytes n (if p.reason = 0 then ((s.sampleOf p.stream p.seq).map (·.data)).getD [] else [])

/-- The record plane and the mark plane, R223. -/
def State.planes (s : State) (rb rowLen rows : Nat) (ps : List Placed) : Bytes × Bytes :=
  let recs := ps.foldl (fun m p => pasteAt m ((p.row * rowLen + p.col) * rb) (s.placedBytes p (p.len * rb))) (List.replicate (rows * rowLen * rb) 0)
  let marks := ps.zipIdx.foldl (fun m p => pasteAt m ((p.1.row * rowLen + p.1.col) * 2)
    ((List.replicate p.1.len (leBytes 2 (if p.1.reason = 0 then p.2 else 0xFFFF))).flatten)) (List.replicate (rows * rowLen * 2) (BitVec.ofNat 8 0xFF))
  let used : Nat → Bool := fun i => ps.any (fun p => decide (p.row * rowLen + p.col ≤ i) && decide (i < p.row * rowLen + p.col + p.len))
  (recs, ((List.range (rows * rowLen)).map (fun i => if used i then slice marks (2 * i) 2 else leBytes 2 0xFFFE)).flatten)

/-- Samples of records are written to their places of a live batch: what was placed, and ROWS. -/
def State.placeBatch (s : State) (b : Nat) : State × List Placed × Nat :=
  let slots := (s.batchRt b).slots.map (fun x => (({ stream := x.1, reason := s.slotReason x, seq := x.2.2.1, capture := x.2.2.2 } : Placed), s.slotLength x))
  if s.batchField b 0 1 ≠ 0 then (s, slots.map (·.1), 0)
  else if s.batchPacks b then
    let rb := ((slots.head?).map (fun x => s.recBytes x.1.stream)).getD 0
    let rowLen := s.batchField b 6 2
    let base := s.batchField b 0x18 8
    let r := packSlots rowLen (s.outRoom base / (rowLen * (rb + 2))) s.voidLen slots
    let pl := s.planes rb rowLen r.2 r.1
    (((s.engineWrite 0 srcSpring base pl.1).1.engineWrite 0 srcSpring (base + rowLen * r.2 * rb) pl.2).1, r.1, r.2)
  else
    let fits := slots.map (fun x =>
      if s.streamKind x.1.stream = 1 ∨ x.1.reason ≠ 0 ∨ x.2 ≤ s.voidLen x.1.stream then x.1 else { x.1 with reason := 2 })
    (fits.foldl (fun t p => if s.streamKind p.stream = 1 then t
      else (t.engineWrite 0 srcSpring (s.slotAddr b p.stream) (s.placedBytes p (s.slotBytes p.stream))).1) s, fits, 0)

/-- The batch record, R210. -/
def batchRecord (slots frame close epoch rows : Nat) (ps : List Placed) : Bytes :=
  let valid := (ps.zipIdx.filter (fun p => p.1.reason == 0)).map (·.2)
  leBytes 2 0x4252 ++ leBytes 2 slots ++ leBytes 4 frame ++ leBytes 8 close ++ leBytes 4 epoch ++ leBytes 2 valid.length
    ++ leBytes 2 rows ++ List.replicate 40 0 ++ leBytes ((slots + 511) / 512 * 64) (listMask valid)
    ++ (ps.map (fun p => leBytes 1 p.stream ++ leBytes 1 p.reason ++ leBytes 2 p.row ++ leBytes 4 (if p.reason = 3 then 0 else p.seq.toNat)
        ++ leBytes 4 (p.col + place p.len 16) ++ leBytes 4 p.capture)).flatten

/-- The counters and the event of one slot, R211. -/
def State.settleSlot (s : State) (p : Placed) : State :=
  let s1 := if p.stream < 128 ∧ p.reason ≤ 8 then s.streamCount p.stream (1 + p.reason) 1 else s
  if p.reason = 0 then s1 else s1.logEvent srcSpring 0 .slotVoid [p.stream, p.seq.toNat, p.reason]

/-- The batch record is written, then the SIGNAL goes to TARGET, R212. -/
def State.finishBatch (s : State) (b : Nat) : State :=
  let rt := s.batchRt b
  let r := s.placeBatch b
  let rows := if s.batchPacks b && s.batchField b 0 1 == 0 then r.2.2 else 0
  let w := (r.1.engineWrite 0 srcSpring (s.batchField b 0x20 8)
    (batchRecord (s.batchField b 2 2) rt.frame (rt.closedAt.getD 0) rt.epoch rows r.2.1)).1
  (((r.2.1.foldl State.settleSlot w).springSignal (s.batchField b 0x28 4)).onBatch b
    (fun x => { x with closedAt := none, slots := [] })).pruneSamples

/-! ## Store batches, R224 to R227 -/

/-- mix64, R225. -/
def mix64 (z : Word64) : Word64 :=
  let a := (z ^^^ (z >>> 31)) * 0x8F3B9C1D52A7E64B
  let b := (a ^^^ (a >>> 29)) * 0xE1D46F07B35C92A9
  b ^^^ (b >>> 32)

/-- The smallest even w >= 2 with 2^w >= n, searched from w upward, R226. -/
def feistelBits : Nat → Nat → Nat → Nat
  | 0, _, w => w
  | f + 1, n, w => if n ≤ 2 ^ w then w else feistelBits f n (w + 2)

/-- perm of R226 over 2h bits. -/
def feistel (seed : Word64) (e h x : Nat) : Nat :=
  let r := (List.range 4).foldl (fun (p : Nat × Nat) k =>
    let key := mix64 (seed ^^^ mix64 ((BitVec.ofNat 64 e <<< 8) ||| BitVec.ofNat 64 k))
    (p.2, p.1 ^^^ (mix64 (key ^^^ BitVec.ofNat 64 p.2)).toNat % 2 ^ h)) (x / 2 ^ h, x % 2 ^ h)
  r.1 * 2 ^ h + r.2

/-- Cycle walking, at most f further applications. -/
def cycleWalk (seed : Word64) (e h n : Nat) : Nat → Nat → Nat
  | 0, y => y
  | f + 1, y => if n ≤ y then cycleWalk seed e h n f (feistel seed e h y) else y

/-- The permutation of R226; a walk over 2^w values ends within 2^w steps. -/
def shuffle (seed : Word64) (e n g : Nat) : Nat :=
  let w := feistelBits 16 n 2
  cycleWalk seed e (w / 2) n (2 ^ w) (feistel seed e (w / 2) g)

/-- U(c) of R227, exact in FP32. -/
def augDraw (seed : Word64) (e i c : Nat) : Word :=
  let sk := mix64 (mix64 (seed ^^^ 0x3C5A1E970B64D2F8) ^^^ ((BitVec.ofNat 64 e <<< 32) ||| BitVec.ofNat 64 i))
  rnd (.fin false ((mix64 (sk ^^^ mix64 (BitVec.ofNat 64 c))).toNat / 2 ^ 40) (-24))

/-- 2U - 1, exact. -/
def centred (u : Word) : Word := fsub (fmul 0x40000000 u) one32

/-- One element augmented, R227: k is its index within the sample, ch the channels. -/
def augment (d : Bytes) (seed : Word64) (e i ch k : Nat) (y0 : Word) : Word :=
  let fl := fieldAt d 1 1
  let u := augDraw seed e i
  let y1 := if bit fl 1 ∧ ch = 3 then
      fadd (fmul y0 (fadd one32 (fmul (centred (u 1)) (wordAt d 0x4C)))) (fmul (centred (u 0)) (wordAt d 0x48))
    else y0
  let y2 := if bit fl 2 then fadd y1 (fmul (centred (u (16 + k))) (wordAt d 0x50)) else y1
  if bit fl 3 && fless (u (2 + k % ch)) (wordAt d 0x54) then 0 else y2

/-- A stored sample augmented and converted to OUT_FMT. -/
def augmentAll (d : Bytes) (seed : Word64) (e i ch : Nat) (f out : Fmt) (raw : Bytes) : Bytes :=
  (storeAll out ((List.range (raw.length / f.size)).map (fun k =>
    augment d seed e i (max 1 ch) k (rnd (f.value (fieldAt raw (k * f.size) f.size)))))).1

/-- The store index of position p of batch k, and its epoch, R224. -/
def storeIndex (d : Bytes) (k p : Nat) : Nat × Option Nat :=
  let slots := fieldAt d 2 2
  let n := fieldAt d 0x3C 4
  let nb := (n + slots - 1) / slots
  let e := (fieldAt d 0x38 4 + k / nb) % 2 ^ 32
  let g := k % nb * slots + p
  (e, if n ≤ g then none else some (if bit (fieldAt d 1 1) 0 then shuffle (BitVec.ofNat 64 (fieldAt d 0x30 8)) e n g else g))

/-- The values of a stored sample: LEN elements of CH interleaved channels, R281's complex values among them. DEDUCED, log 108. -/
def storeLen (row : Bytes) : Nat := fieldAt row 8 4 * max 1 (fieldAt row 13 1)

/-- One position of a store batch: its slot is written, and its outcome. `size` is the slot's length in bytes. -/
def State.storeSlot (s : State) (d : Bytes) (k size p : Nat) : State × (Nat × Reason × Word × Nat) :=
  let at_ := fieldAt d 0x18 8 + p * size
  let x := storeIndex d k p
  let void : State → Reason → Nat → State × (Nat × Reason × Word × Nat) := fun t r i =>
    ((t.engineWrite 0 srcSpring at_ (List.replicate size 0)).1, (0xFF, r, BitVec.ofNat 32 i, 0))
  match x.2 with
  | none => void s 9 0
  | some i =>
    let e := s.engineRead 0 srcSpring (fieldAt d 0x40 8 + 16 * i) 16
    match e.2 with
    | none => void e.1 10 i
    | some row =>
      match fmtOf (fieldAt row 12 1), fmtOf (fieldAt d 0x2C 1) with
      | some f, some out =>
        if !bit (fieldAt row 14 1) 0 then void e.1 10 i
        else if size < storeLen row * out.size then void e.1 2 i
        else
          let r := e.1.engineRead 0 srcSpring (bits (fieldAt row 0 8) 47 0) (storeLen row * f.size)
          match r.2 with
          | none => void r.1 1 i
          | some raw =>
            ((r.1.engineWrite 0 srcSpring at_ (fitBytes size
              (augmentAll d (BitVec.ofNat 64 (fieldAt d 0x30 8)) x.1 i (fieldAt row 13 1) f out raw))).1, (0xFF, 0, BitVec.ofNat 32 i, 0))
      | _, _ => void e.1 2 i

/-- Bytes of a slot of a store batch: those of the store's first entry in OUT_FMT. DESIGN CHOICE, log 41. -/
def State.storeSlotBytes (s : State) (d : Bytes) : Nat :=
  storeLen (s.peek (fieldAt d 0x40 8) 16) * ((fmtOf (fieldAt d 0x2C 1)).map Fmt.size).getD 0

/-- BATCH_NEXT accepts k, R224. -/
def State.nextOk (s : State) (b : Nat) (k : Word) : Bool :=
  match (s.batchRt b).lastK with
  | some l => k == l + 1
  | none => k == 0

/-- Store batch k is assembled; its record follows. -/
def State.assembleStore (s : State) (b : Nat) (k : Word) : State :=
  let d := s.entry (0x440000 + 256 * b)
  let size := s.storeSlotBytes d
  let r := (List.range (fieldAt d 2 2)).foldl (fun (a : State × List (Nat × Reason × Word × Nat)) p =>
    let x := a.1.storeSlot d k.toNat size p
    (x.1, a.2 ++ [x.2])) (s, [])
  r.1.onBatch b (fun x =>
    { x with closedAt := some s.now, frame := k.toNat, epoch := (storeIndex d k.toNat 0).1, slots := r.2, lastK := some k })

/-! ## ROI sets, R216 and R217 -/

/-- The Spring adopts, or keeps, the ROI set of one stream at the start of frame f. -/
def State.adoptRoi (s : State) (f n : Nat) : State :=
  match s.roiBase n with
  | none => s
  | some base =>
    let r := s.engineRead 0 srcSpring base 64
    let hdr := r.2.getD []
    if r.2.isSome && fieldAt hdr 0 4 == f % 2 ^ 32 then
      let cnt := min 64 (fieldAt hdr 4 1)
      let e := r.1.engineRead 0 srcSpring (base + 64) (32 * cnt)
      let b := e.2.getD []
      let near := match sfind s.spring.roiLanded n with
        | some t => marginal t s.now
        | none => false
      let s1 := e.1.onStream n (fun x => { x with rois := (List.range cnt).map (fun i => slice b (32 * i) 32) })
      ((if near then s1.springMarginal n else s1)).logEvent srcSpring 0 .roiAdopted [n, f]
    else (r.1.streamCount n 16 1).logEvent srcSpring 0 .roiKept [n, f]

/-- Every camera stream's ROI set at the start of frame f. -/
def State.adoptRois (s : State) (f : Nat) : State :=
  ((List.range 128).filter (fun n => s.streamKind n == 1)).foldl (fun t n => t.adoptRoi f n) s

end Sys2Proof.Machine
end

