-- ==== Sys2Proof/Machine/RadioOps.lean ====
section
/-! DEFINITION. Shared operations of the radio: records (R236, R289 to R291), violations (R286, R287), slots and their records
(R245, R247, R256), the AGC (R254, R255), transmission (R276 to R278), decoder jobs and their reports (R261 to R275), replay
(R279, R280) and the candidate bank (R282 to R285). -/

namespace Sys2Proof.Machine

/-! ## Records -/

/-- A field of carrier c's record, R289. -/
def State.carrierField (s : State) (c off len : Nat) : Nat := s.cfgField (0x510000 + 256 * c) off len
/-- A field of carrier c's rings record, R291. -/
def State.ringField (s : State) (c off len : Nat) : Nat := s.cfgField (0x512000 + 256 * c) off len
/-- A field of door d's JESD record, R290. -/
def State.jesdField (s : State) (d off len : Nat) : Nat := s.cfgField (0x501000 + 256 * d) off len
/-- The door of carrier c. -/
def State.carrierDoor (s : State) (c : Nat) : Nat := s.carrierField c 1 1 % 2
/-- Slot length of carrier c in ns, R236. -/
def State.slotLen (s : State) (c : Nat) : Nat := 1000000 / 2 ^ (s.carrierField c 2 1 % 3)
/-- Correlator chips in a slot: the sample rate of R236 over SYNC_DEC. -/
def State.chipsPerSlot (s : State) (c : Nat) : Nat :=
  15360 * 2 ^ (s.carrierField c 3 1 % 3) / 2 ^ (s.carrierField c 2 1 % 3) / max 1 (s.carrierField c 0x1A 1)
/-- GAIN_STEP_Q. -/
def State.gainStep (s : State) (c : Nat) : Nat := s.carrierField c 0x1F 1
/-- RADIO_EPOCH, R245. -/
def State.radioEpoch (s : State) : Nat := s.cfg 0x500001

/-- PRBs by RAT, SCS and bandwidth, R236. -/
def prbCount (rat scs bw : Nat) : Nat :=
  if rat = 0 then (if bw = 0 then 50 else 100)
  else (([[52, 106, 216], [24, 51, 106], [11, 24, 51]] : List (List Nat)).getD scs []).getD bw 0

/-- PRBs of carrier c. -/
def State.prbs (s : State) (c : Nat) : Nat := prbCount (s.carrierField c 0 1) (s.carrierField c 2 1) (s.carrierField c 3 1)

/-- Bytes of a grid packet: both antennas in complex FP16, R256. -/
def State.packetLen (s : State) (c : Nat) : Nat := 2 * 12 * s.prbs c * 4

/-! ## Run time -/

/-- Carrier c. -/
def State.carrier (s : State) (c : Nat) : Carrier := s.radio.carriers.getD c {}
/-- Carrier c changed. -/
def State.onCarrier (s : State) (c : Nat) (f : Carrier → Carrier) : State :=
  s.onRadio (fun r => { r with carriers := updAt r.carriers c f })
/-- Radio door d. -/
def State.radioDoor (s : State) (d : Nat) : RadioDoor := s.radio.doors.getD d {}
/-- Radio door d changed. -/
def State.onRadioDoor (s : State) (d : Nat) (f : RadioDoor → RadioDoor) : State :=
  s.onRadio (fun r => { r with doors := updAt r.doors d f })
/-- Decoder engine e: 0 trellis, 1 block. -/
def State.decoder (s : State) (e : Nat) : Engine := s.radio.engines.getD e {}
/-- Decoder engine e changed. -/
def State.onDecoder (s : State) (e : Nat) (f : Engine → Engine) : State :=
  s.onRadio (fun r => { r with engines := updAt r.engines e f })
/-- Counter i of RADIO_CNT. -/
def State.radioCount (s : State) (c i : Nat) : State := s.onCarrier c (fun x => { x with counters := sinc x.counters i })
/-- The carriers of a door that are switched on. -/
def State.doorCarriers (s : State) (d : Nat) : List Nat := (List.range 4).filter (fun c => (s.carrier c).on && s.carrierDoor c == d)
/-- The slot in progress of carrier c. -/
def State.curSlot (s : State) (c : Nat) : Option SlotRt := (s.carrier c).slots.head?
/-- The slot in progress changed. -/
def State.onCurSlot (s : State) (c : Nat) (f : SlotRt → SlotRt) : State :=
  s.onCarrier c (fun x => { x with slots := updAt x.slots 0 f })
/-- A slot changed, by number. -/
def State.onSlot (s : State) (c n : Nat) (f : SlotRt → SlotRt) : State :=
  s.onCarrier c (fun x => { x with slots := x.slots.map (fun y => if y.n = n then f y else y) })
/-- Local source id of door d's front end, and of its link. -/
def frontSrc (d : Nat) : Nat := 0x94 + d

/-- The slot number at this instant, R245. -/
def State.slotNow (s : State) (c : Nat) : Nat := (s.now - s.radioEpoch) / s.slotLen c
/-- The start of slot n of carrier c, R245. -/
def State.slotStart (s : State) (c n : Nat) : Nat := s.radioEpoch + n * s.slotLen c

/-! ## Antenna time, R241 and R247 -/

/-- Samples of door d per 25,000 ns: IRATE of R240. -/
def State.irate (s : State) (d : Nat) : Nat := 3072 * 2 ^ (s.jesdField d 0 1 % 2)

/-- The antenna time of receive sample k of door d, T_S + k / IRATE - RX_DELAY, in units of 2^-16 ns. -/
def State.antennaTime (s : State) (d k : Nat) : Option Int :=
  (s.radioDoor d).ts.map (fun t =>
    ((t : Int) - signed 32 (s.jesdField d 4 4)) * 65536 + ((k * 25000 * 65536 / s.irate d : Nat) : Int))

/-- The receive sample that arrives now. -/
def State.sampleNow (s : State) (d : Nat) : Nat := (((s.radioDoor d).ts.map (fun t => s.now - t)).getD 0) * s.irate d / 25000

/-- The antenna time of the sample that arrives now, in ns; device time while the link is not up. -/
def State.airNow (s : State) (d : Nat) : Nat :=
  match s.antennaTime d (s.sampleNow d) with
  | some t => (t / 65536).toNat
  | none => s.now

/-- The first transmit sample of an instant: the least j with T_S + j / IRATE + TX_DELAY at or after it. -/
def State.transmitSample (s : State) (d at_ : Nat) : Int :=
  let x := (at_ : Int) - signed 32 (s.jesdField d 8 4) - (((s.radioDoor d).ts.getD 0 : Nat) : Int)
  (x * (s.irate d : Int) + 24999) / 25000

/-- The slot of carrier c whose boundary sample has arrived, R247. -/
def State.slotOnAir (s : State) (c : Nat) : Nat := (s.airNow (s.carrierDoor c) - s.radioEpoch) / s.slotLen c

/-- Samples of a slot at IRATE when sample clock and device time agree. -/
def State.slotSamples (s : State) (c : Nat) : Nat := s.slotLen c * s.irate (s.carrierDoor c) / 25000

/-- The full number of a slot given modulo 2^32, near the present one. -/
def State.fullSlot (s : State) (c : Nat) (n : Nat) : Nat :=
  ((s.slotNow c : Nat) + signed 32 ((n + 2 ^ 32 - s.slotNow c % 2 ^ 32) % 2 ^ 32)).toNat

/-! ## Switching carriers, R242 -/

/-- A door's links start with its first carrier and stop with its last, R242. -/
def State.doorFollows (s : State) (d : Nat) : State :=
  s.onRadioDoor d (fun x =>
    if (s.doorCarriers d).isEmpty then { x with link := .down, aligned := false, ts := none, transmitting := false }
    else if x.link = .down then { x with link := .aligning, aligned := false } else x)

/-- The claimable balls of radio door d, R536. -/
def radioPins (d : Nat) : List Nat := ((List.range 4).map (· + (0x28 + 4 * d))) ++ ((List.range 4).map (· + (0x30 + 4 * d)))

/-! ## Violations, R286 and R287 -/

/-- A violation of a radio door, with its record while the door is not throttled. -/
def State.radioViolation (s : State) (d what : Nat) : State :=
  let key := (d, 0, 0)
  let slot := (((s.doorCarriers d).head?.bind s.curSlot).map (·.n)).getD 0
  let s1 := if violThrottled key s.radio.viols then s else s.logEvent (0xAB + d) 0 .violation [d, what, slot]
  (s.doorCarriers d).foldl (fun t c => t.radioCount c 19)
    (s1.onRadio (fun x => { x with viols := violAdd (s.cfg 0x500003) s.now key x.viols }))

/-! ## The AGC, R243, R254 and R255 -/

/-- Half-even rounding of a quotient. -/
def roundHalfEven (a : Int) (d : Nat) : Int :=
  let q := a / (d : Int)
  let r := (a % (d : Int)).toNat
  if d < 2 * r ∨ (2 * r = d ∧ q % 2 = 1) then q + 1 else q

/-- A door's first instance, whose AGC the door follows, R243. -/
def State.leadsDoor (s : State) (c : Nat) : Bool := (s.doorCarriers (s.carrierDoor c)).head? == some c

/-- The balls follow the AGC of a door's first instance, and the other instance uses the same GI, R243. -/
def State.driveGain (s : State) (c gi : Nat) : State :=
  let d := s.carrierDoor c
  if s.leadsDoor c then
    (s.doorCarriers d).foldl (fun t k => t.onCurSlot k (fun x => if k = c ∨ !x.frozen then { x with gi := gi } else x))
      (s.onPins (fun p => { p with gain := setAt p.gain d (BitVec.ofNat 4 gi) }))
  else s

/-- The door's AGC has settled: so have the slots that are not frozen. -/
def State.settleGain (s : State) (c : Nat) : State :=
  (s.doorCarriers (s.carrierDoor c)).foldl (fun t k => t.onCurSlot k (fun x => if k = c ∨ !x.frozen then { x with settled := true } else x)) s

/-- The AGC freezes GI, R255. -/
def SlotRt.freeze (x : SlotRt) : SlotRt := if x.frozen then x else { x with frozen := true, unsettled := !x.settled }

/-! ## Slot records, R256 -/

/-- Bytes from one slot of the grid ring to the next: 14 packets, the slot record and the S-RSSI values. DESIGN CHOICE, log 44. -/
def State.gridSlotLen (s : State) (c : Nat) : Nat := 14 * s.packetLen c + 64 + (2 * s.prbs c + 63) / 64 * 64

/-- The address of a slot in the grid ring, four slots deep. -/
def State.gridAddr (s : State) (c n : Nat) : Nat := s.carrierField c 0x28 8 + n % 4 * s.gridSlotLen c

/-- The slot record with its S-RSSI values. -/
def State.slotRecord (s : State) (c : Nat) (x : SlotRt) : Bytes :=
  let rssi := fitBytes (4 + 2 * s.prbs c) (slotLevels (s.peek (s.gridAddr c x.n) (14 * s.packetLen c)) (s.prbs c))
  leBytes 4 x.n ++ leBytes 1 c
    ++ leBytes 1 (flagAt x.lost 0 + flagAt x.impaired 1 + flagAt x.tx 2 + flagAt x.detect 3 + flagAt x.unsettled 4 + flagAt (x.clip != 0) 5)
    ++ leBytes 1 x.gi ++ leBytes 1 x.bank ++ leBytes 8 (s.slotStart c x.n) ++ rssi.take 4
    ++ leBytes 2 (match x.rssiSync with | some p => unsigned 16 p | none => 0x8000) ++ leBytes 2 x.detM ++ leBytes 4 x.detChip
    ++ leBytes 4 x.clip ++ leBytes 2 x.txSym ++ leBytes 2 (12 * s.prbs c) ++ leBytes 4 (s.carrierField c 8 4)
    ++ leBytes 8 (s.gridAddr c x.n) ++ leBytes 4 x.gridSeq.toNat ++ List.replicate 12 0
    ++ fitBytes ((2 * s.prbs c + 63) / 64 * 64) (rssi.drop 4)

/-- The SIGNAL to P3's receiving core, R256 and R74. -/
def State.slotSignal (s : State) (c : Nat) : State :=
  let t := Config.radioTarget c
  (s.emit (.packet t.1 t.2.1 t.2.2 (s.carrier c).signalSeq.toNat false)).onCarrier c (fun x => { x with signalSeq := x.signalSeq + 1 })

/-- The slot record is written after the last packet, or for a lost slot at its end. -/
def State.writeSlot (s : State) (c : Nat) (x : SlotRt) : State :=
  let w := (s.engineWrite 1 (frontSrc (s.carrierDoor c)) (s.gridAddr c x.n + 14 * s.packetLen c) (s.slotRecord c x)).1.slotSignal c
  let n : Bool → Nat → State → State := fun b i t => if b then t.radioCount c i else t
  n (x.clip != 0) 5 (n x.unsettled 4 (n x.impaired 2 (n x.lost 1 w)))

/-! ## Deadlines of jobs, R268 -/

/-- The slot of a job, as the carrier holds it. -/
def State.jobSlotRt (s : State) (j : Bytes) : Option SlotRt :=
  (s.carrier (jobCarrier j)).slots.find? (fun x => x.n % 2 ^ 32 == jobSlot j)

/-- D_NR of a carrier, ns: (MIN_GAP - 1) x slot length - 100 us. -/
def State.nrDeadline (s : State) (c : Nat) : Nat := (s.carrierField c 0x0F 1 - 1) * s.slotLen c - 100000

/-- A job's deadline by the table of R268, from the end of the received slot, or the start of the transmitted one; none for a
label. -/
def State.tableDeadline (s : State) (j : Bytes) : Option Nat :=
  let c := jobCarrier j
  let start := s.slotStart c (s.fullSlot c (jobSlot j))
  let stop := start + s.slotLen c
  match jobOp j, jobChannel j with
  | 0, 0 => some (stop + 500000)
  | 0, 1 | 0, 2 | 0, 6 => some (stop + 1000000)
  | 0, 3 | 0, 4 | 0, 5 => some (stop + s.nrDeadline c)
  | 1, _ => some (start - 100000)
  | _, _ => none

/-- The deadline that is watched: DEADLINE, and no later than the table gives, R267 and R268. -/
def State.jobLimit (s : State) (j : Bytes) : Nat := (s.tableDeadline j).elim (jobDeadline j) (min (jobDeadline j))

/-! ## Replay records, R279 and R280 -/

/-- Bytes of Y and of X of a replay record: 14 symbols, REPLAY_PRB PRBs, complex FP16. -/
def State.replayY (s : State) (c : Nat) : Nat := 14 * 2 * 12 * s.carrierField c 0x27 1 * 4
/-- Bytes of X. -/
def State.replayX (s : State) (c : Nat) : Nat := 14 * 12 * s.carrierField c 0x27 1 * 4
/-- The address of replay record r. -/
def State.replayAddr (s : State) (c r : Nat) : Nat := s.ringField c 0x20 8 + r * (s.replayY c + s.replayX c)

/-- A store entry of 16 bytes: FMT 0x2, CH 2, LEN in complex values. -/
def storeRow (addr len : Nat) (valid : Bool) : Bytes :=
  leBytes 8 addr ++ leBytes 4 len ++ [0x02, 0x02] ++ leBytes 1 (flagAt valid 0) ++ [0]

/-- The grid of the window from the block's first PRB, all symbols and both antennas. -/
def State.gridWindow (s : State) (c n prb : Nat) : Bytes :=
  let w := 12 * s.carrierField c 0x27 1 * 4
  ((List.range 28).map (fun k => s.peek (s.gridAddr c n + k / 2 * s.packetLen c + k % 2 * (12 * s.prbs c * 4) + 12 * prb * 4) w)).flatten

/-- A PSSCH block that passed adds its replay record; its label is due from an OP 2 job. -/
def State.addReplay (s : State) (j : Bytes) : State :=
  let c := jobCarrier j
  let cnt := s.ringField c 0x28 4
  let r := (s.carrier c).replayNext
  let src := frontSrc (s.carrierDoor c)
  let yl := s.replayY c / 4
  let xl := s.replayX c / 4
  let put : State → Nat → Bytes → State := fun t a bs => (t.engineWrite 1 src a bs).1
  if cnt = 0 then s
  else
    let s1 := put (put s (s.ringField c 0x30 8 + 16 * r) (storeRow (s.replayAddr c r) yl false)) (s.ringField c 0x38 8 + 16 * r)
      (storeRow (s.replayAddr c r + s.replayY c) xl false)
    let s2 := put (put s1 (s.replayAddr c r) (s.gridWindow c (s.fullSlot c (jobSlot j)) (Config.jobSci j 7)))
      (s.ringField c 0x30 8 + 16 * r) (storeRow (s.replayAddr c r) yl true)
    s2.onCarrier c (fun x => { x with replayNext := (r + 1) % cnt, labels := x.labels.filter (fun l => l.2 != r) ++ [(jobCw j, r)] })

/-- The label of a replay record lands. -/
def State.addLabel (s : State) (j payload : Bytes) : State :=
  let c := jobCarrier j
  let src := frontSrc (s.carrierDoor c)
  match (s.carrier c).labels.find? (fun l => l.1 == jobCw j) with
  | none => s
  | some (_, r) =>
    let a := s.replayAddr c r + s.replayY c
    (((s.engineWrite 1 src a (fitBytes (s.replayX c) (labelGrid (s.carrierField c 0x27 1) j payload))).1.engineWrite 1 src (s.ringField c 0x38 8 + 16 * r)
      (storeRow a (s.replayX c / 4) true)).1).onCarrier c (fun x => { x with labels := x.labels.filter (fun l => l.1 != jobCw j) })

/-! ## Passing a block to the Spring, R270 -/

/-- A transport block becomes a KIND 3 sample of the stream of its carrier. -/
def State.springBlock (s : State) (j payload : Bytes) : State :=
  let c := jobCarrier j
  let cap := s.slotStart c (s.fullSlot c (jobSlot j))
  match (List.range 128).find? (fun n => s.streamKind n == 3 && s.streamField n 0x36 1 == c) with
  | none => s
  | some n =>
    let rb := s.recBytes n
    let recs := if rb = 0 then 0 else (fieldAt j 0x1C 4 + 8 * rb - 1) / (8 * rb)
    if s.captureCounts cap then
      (s.openSample { stream := BitVec.ofNat 7 n, seq := 0, capture := cap, openedAt := s.now }).payloadComplete n (s.streamRt n).next
        (fitBytes (recs * rb) (fitBytes ((fieldAt j 0x1C 4 + 7) / 8) payload))
    else s

/-! ## Order of CW_SEQ, R207 and R279 -/

/-- Jobs of one engine that are not finished. -/
def Engine.jobs (e : Engine) : List Bytes := e.landed ++ e.pending ++ (e.running.map (·.1)).toList

/-- An engine still holds a transport block of carrier c with an earlier CW_SEQ. Codewords whose jobs have not landed are not waited
for. DEDUCED, log 109. -/
def State.earlierOpen (s : State) (c : Nat) (cw : Word) : Bool :=
  s.radio.engines.any (fun e => e.jobs.any (fun k =>
    jobCarrier k == c && jobOp k == 0 && (jobChannel k == 1 || jobChannel k == 5) && serialAfter cw (jobCw k)))

/-- Blocks that passed go on in order of CW_SEQ, to the Spring and to the replay ring, as soon as no earlier one is open. -/
def State.releasePassed : Nat → State → Nat → State
  | 0, s, _ => s
  | f + 1, s, c =>
    let l := (s.carrier c).passed
    match l.find? (fun p => l.all (fun q => !serialAfter (jobCw p.1) (jobCw q.1))) with
    | none => s
    | some p =>
      if s.earlierOpen c (jobCw p.1) then s
      else State.releasePassed f
        (((s.onCarrier c (fun x => { x with passed := x.passed.filter (· != p) })).springBlock p.1 p.2).addReplay p.1) c

/-! ## Codeword reports, R269 -/

/-- No engine holds another job of a carrier's slot. -/
def State.lastOfSlot (s : State) (c n : Nat) : Bool :=
  s.radio.engines.all (fun e => e.jobs.all (fun j => !(jobCarrier j == c && jobSlot j == n)))

/-- The engine bit of the decoder engines, and the source id of engine e. -/
def decoderSrc (e : Nat) : Nat := 0x91 + e

/-- The report of a job: outcome, iterations, buffer used and flags. After a slot's last report the carrier's interrupt is
raised. -/
def State.reportJob (s : State) (e : Nat) (j : Bytes) (outcome iter buf : Nat) (combined : Bool) (fb : Nat) : State :=
  let c := jobCarrier j
  let imp := ((s.jobSlotRt j).map (·.impaired)).getD false
  let out := if outcome = 1 ∧ imp then 5 else outcome
  let n := s.ringField c 8 4
  let rec_ := leBytes 4 (jobCw j).toNat ++ leBytes 4 (jobSlot j) ++ leBytes 1 c ++ leBytes 1 (jobChannel j) ++ leBytes 1 out
    ++ leBytes 1 iter ++ leBytes 4 (fieldAt j 0x1C 4) ++ leBytes 8 (if out = 0 then fieldAt j 0x30 8 else 0) ++ leBytes 2 buf
    ++ leBytes 1 (flagAt imp 0 + flagAt combined 1 + flagAt (fb == 1) 2 + flagAt (fb == 2) 3) ++ List.replicate 5 0
  let s1 := (s.engineWrite 2 (decoderSrc e) (s.ringField c 0 8 + (s.carrier c).reportNext % max 1 n * 32) rec_).1.onCarrier c
    (fun x => { x with reportNext := (x.reportNext + 1) % max 1 n })
  let s2 := match out with
    | 0 => s1.radioCount c 7
    | 1 => s1.radioCount c 8
    | 2 => (s1.radioCount c 9).logEvent (decoderSrc e) 0 .codewordCut [c, jobSlot j, (jobCw j).toNat, 2]
    | 3 => (s1.radioCount c 10).logEvent (decoderSrc e) 0 .codewordCut [c, jobSlot j, (jobCw j).toNat, 3]
    | 5 => s1.radioCount c 8
    | 6 => s1.radioCount c 11
    | _ => s1
  (if s2.lastOfSlot c (jobSlot j) then s2.emit (.carrierIrq c) else s2).releasePassed ((s2.carrier c).passed.length + 1) c

/-! ## Feedback, R274 -/

/-- The feedback that a PSSCH job's outcome asks for: 0 none, 1 ACK, 2 NACK. A lost slot sends none, R286. -/
def State.feedbackOf (s : State) (j : Bytes) (outcome : Nat) : Nat :=
  let c := jobCarrier j
  let kind := Config.jobSci j 4
  if s.carrierField c 0 1 ≠ 1 ∨ jobChannel j ≠ 5 ∨ jobOp j ≠ 0 ∨ outcome = 4 ∨ s.carrierField c 0x10 1 = 0 ∨ s.carrierField c 0x0E 1 ≠ 1 then 0
  else if kind = 1 then (if outcome = 0 then 1 else 2)
  else if kind = 2 then (if outcome = 0 then 0 else 2)
  else 0

/-- The first PSFCH occasion at least MIN_GAP slots after a slot. -/
def State.occasionAfter (s : State) (c n : Nat) : Nat :=
  let p := max 1 (s.carrierField c 0x10 1)
  (n + s.carrierField c 0x0F 1 + p - 1) / p * p

/-- Feedback falls due. -/
def State.addFeedback (s : State) (j : Bytes) (fb : Nat) : State :=
  let c := jobCarrier j
  if fb = 0 then s
  else s.onCarrier c (fun x => { x with feedback := x.feedback ++
    [({ slot := s.occasionAfter c (s.fullSlot c (jobSlot j)), prio := Config.jobSci j 5, subch := Config.jobSci j 6, ack := fb == 1 } : Feedback)] })

/-- A job ends with an outcome but without a decode of its own. -/
def State.cutJob (s : State) (e : Nat) (j : Bytes) (outcome : Nat) : State :=
  let fb := s.feedbackOf j outcome
  (s.reportJob e j outcome 0 0xFFFF false fb).addFeedback j fb

/-! ## Shares and order, R261 to R263 -/

/-- Admission in JOB_SEQ order while the pending set has room, R261. -/
def admitJobs : Nat → Engine → Engine
  | 0, e => e
  | n + 1, e =>
    if e.pending.length < 64 then
      match e.landed.find? (fun j => jobSeq j == e.next) with
      | some j => admitJobs n { e with next := e.next + 1, landed := e.landed.filter (fun k => jobSeq k != e.next), pending := e.pending ++ [j] }
      | none => e
    else e

/-- The share of a carrier that is left, with the running job's time since the share was refilled taken off. -/
def State.shareLeft (s : State) (e c : Nat) : Nat :=
  let x := s.decoder e
  (x.share.getD c 0) - (match x.running with
    | some (j, t) => if jobCarrier j = c then s.now - t else 0
    | none => 0)

/-- The key under which a job's codeword combines: NR by SCI; LTE by its own slot and first subchannel. -/
def State.harqKey (s : State) (j : Bytes) : Nat × Nat × Nat :=
  if s.carrierField (jobCarrier j) 0 1 = 1 then (Config.jobSci j 0, Config.jobSci j 1, Config.jobSci j 2)
  else (s.fullSlot (jobCarrier j) (jobSlot j), Config.jobSci j 6, 0)

/-- The key under which a failed codeword is kept: its own, or for an initial LTE transmission that of the retransmission which it
announces. -/
def State.keepKey (s : State) (j : Bytes) : Nat × Nat × Nat :=
  if s.carrierField (jobCarrier j) 0 1 = 1 || jobRetransmits j then s.harqKey j else (Config.jobSci j 8, Config.jobSci j 6, 0)

/-- A job waits for an earlier codeword of its HARQ key, R273. -/
def State.harqWaits (s : State) (e : Nat) (j : Bytes) : Bool :=
  jobCombines j && ((s.decoder e).pending ++ ((s.decoder e).running.map (·.1)).toList).any (fun k =>
    jobCarrier k == jobCarrier j && serialAfter (jobCw j) (jobCw k) && jobOp k == 0 && fieldAt k 0x26 2 != 0xFFFF
      && s.keepKey k == s.harqKey j)

/-- Order of service, R262. -/
def jobBefore (a b : Bytes) : Bool :=
  if jobDeadline a ≠ jobDeadline b then decide (jobDeadline a < jobDeadline b)
  else if jobCarrier a ≠ jobCarrier b then decide (jobCarrier a < jobCarrier b)
  else serialAfter (jobSeq b) (jobSeq a)

/-- The job that an idle engine starts. -/
def State.nextDecode (s : State) (e : Nat) : Option Bytes :=
  ((s.decoder e).pending.filter (fun j => decide (0 < s.shareLeft e (jobCarrier j)) && !s.harqWaits e j
    && decide (s.now ≤ s.jobLimit j))).foldl (fun m j => match m with
      | none => some j
      | some k => if jobBefore j k then some j else some k) none

/-- The symbols that a codeword of a slot needs: not those of a PSFCH occasion. DESIGN CHOICE, log 45. -/
def State.neededSymbols (s : State) (c n : Nat) : Nat :=
  let p := s.carrierField c 0x10 1
  if p ≠ 0 ∧ n % p = 0 then 0x03FF else 0x3FFF

/-- The outcome that a decode job has from its slot alone: 4 LOST, 6 BLANKED. -/
def State.slotOutcome (s : State) (j : Bytes) : Option Nat :=
  if jobOp j ≠ 0 then none
  else match s.jobSlotRt j with
    | some x =>
      if x.lost then some 4
      else if Nat.land x.txSym (s.neededSymbols (jobCarrier j) x.n) ≠ 0 then some 6 else none
    | none => none

/-- The running job leaves its engine and its time is taken off its carrier's share. -/
def State.endJob (s : State) (e : Nat) : State :=
  match (s.decoder e).running with
  | none => s
  | some (j, t) => s.onDecoder e (fun x =>
      admitJobs 64 { x with running := none, share := updAt x.share (jobCarrier j) (fun v => v - (s.now - t)) })

/-! ## Soft buffers, R271 to R273 -/

/-- Bytes of a soft buffer. -/
def State.harqLen (s : State) (c : Nat) : Nat := if s.carrierField c 0 1 = 1 then 0x20000 else 0x10000

/-- The address of soft buffer i. -/
def State.harqAddr (s : State) (c i : Nat) : Nat := s.ringField c 0x18 8 + i * s.harqLen c

/-- The buffer that a job's codeword combines with, if its key is held with its NDI. -/
def State.harqHeld (s : State) (j : Bytes) : Option Harq :=
  if jobCombines j then
    (s.carrier (jobCarrier j)).harq.find? (fun h => h.key == s.harqKey j && (s.carrierField (jobCarrier j) 0 1 == 0 || h.ndi == Config.jobSci j 3))
  else none

/-- The soft bits of a codeword: those of the buffer that it combines with, or none, with its own LLRs added, R259 and R273. -/
def State.softBits (s : State) (j : Bytes) (held : Option Harq) (llr : Bytes) : List Int :=
  let c := jobCarrier j
  let old := match held with
    | some h => (s.peek (s.harqAddr c h.idx) (s.harqLen c)).map llrOf
    | none => List.replicate (s.harqLen c) 0
  softAdd j old (llr.map llrOf)

/-- The buffer for a new key: the one that the job names when it is free, else the lowest free one, else the least recently used
one, which is evicted. -/
def State.harqPick (s : State) (j : Bytes) : Nat × Bool :=
  let c := jobCarrier j
  let used := (s.carrier c).harq
  let free := (List.range (s.carrierField c 0x14 2)).filter (fun i => !used.any (fun h => h.idx == i))
  if free.contains (fieldAt j 0x26 2) then (fieldAt j 0x26 2, false)
  else match free.head? with
    | some i => (i, false)
    | none => (((used.foldl (fun m h => match m with
        | none => some h
        | some g => if h.lastUse < g.lastUse then some h else some g) none).map (·.idx)).getD 0, true)

/-- The soft bits of a failed codeword are kept, R271 and R272: under its key (NR), or under the retransmission that an initial
LTE transmission announces; the buffer that it used is reported. -/
def State.keepHarq (s : State) (e : Nat) (j : Bytes) (soft : List Int) (held : Option Harq) : State × Nat :=
  let c := jobCarrier j
  let keeps := if s.carrierField c 0 1 = 1 then jobChannel j == 5 else jobChannel j == 1 && !jobRetransmits j && Config.jobSci j 8 != 0
  if fieldAt j 0x26 2 = 0xFFFF ∨ !keeps then (s, (held.map (·.idx)).getD 0xFFFF)
  else
    let same := (s.carrier c).harq.find? (fun h => h.key == s.keepKey j)
    let pick := match held.orElse (fun _ => same) with
      | some h => (h.idx, false)
      | none => s.harqPick j
    let w := (s.engineWrite 2 (decoderSrc e) (s.harqAddr c pick.1) (softBytes soft)).1
    let w2 := if pick.2 then w.radioCount c 12 else w
    (w2.onCarrier c (fun x => { x with harq := x.harq.filter (fun h => h.idx != pick.1) ++
      [({ idx := pick.1, key := s.keepKey j, ndi := Config.jobSci j 3, lastUse := s.now } : Harq)] }), pick.1)

/-! ## Finishing a job -/

/-- The bytes of bank b of carrier c. -/
def State.bankBytes (s : State) (c b : Nat) : Bytes :=
  s.peek (s.carrierField c 0x30 8 + b * s.carrierField c 0x38 4) (s.carrierField c 0x38 4)

/-- A decode job finishes, R266 and R269 to R274: with the bank of its slot, R260. A block that passes frees the buffer of its key; one
with a new NDI does not use it, R271. -/
def State.finishDecodeJob (s : State) (e : Nat) (j : Bytes) : State :=
  let c := jobCarrier j
  let r := s.engineRead 2 (decoderSrc e) (fieldAt j 0x10 8) (jobE j)
  let held := s.harqHeld j
  let soft := s.softBits j held (r.2.getD [])
  let bank := ((s.jobSlotRt j).map (·.bank)).getD (s.carrier c).bank
  let out := decodeJob j (s.carrierField c 0x12 1) (s.bankBytes c bank) soft
  let outcome := if out.2.1 then 0 else 1
  let fb := s.feedbackOf j outcome
  let s1 := if marginal s.now (s.jobLimit j) then r.1.onRadio (fun x => { x with marginal := x.marginal + 1 }) else r.1
  if out.2.1 then
    let s2 := (s1.engineWrite 2 (decoderSrc e) (fieldAt j 0x30 8) out.1).1
    let s3 := if jobChannel j = 1 ∨ jobChannel j = 5 then
        s2.onCarrier c (fun x => { x with harq := x.harq.filter (fun g => g.key != s.harqKey j), passed := x.passed ++ [(j, out.1)] })
      else s2
    (s3.reportJob e j 0 out.2.2 ((held.map (·.idx)).getD 0xFFFF) held.isSome fb).addFeedback j fb
  else
    let k := s1.keepHarq e j soft held
    (k.1.reportJob e j 1 out.2.2 k.2 held.isSome fb).addFeedback j fb

/-- The channels that a transmission needs encoded, R276: PSCCH with PSSCH, or SLSS with PSBCH. -/
def State.txChannels (s : State) (c : Nat) (desc : Bytes) : List Nat :=
  match s.carrierField c 0 1, fieldAt desc 5 1 with
  | 0, 0 => [0, 1]
  | 0, _ => [2]
  | _, 0 => [3, 4, 5]
  | _, _ => [6]

/-- A descriptor takes the coded bits of one of its channels. -/
def Tx.take (t : Tx) (need : List Nat) (ch : Nat) (bs : List Bool) : Tx :=
  let coded := t.coded.filter (fun x => x.1 != ch) ++ [(ch, bs)]
  { t with coded := coded, encoded := need.all (fun n => coded.any (fun x => x.1 == n)) }

/-- An encoding job finishes: its coded bits are written; the transmission, or the label, has them, R276 and R280. -/
def State.finishEncodeJob (s : State) (e : Nat) (j : Bytes) : State :=
  let c := jobCarrier j
  let r := s.engineRead 2 (decoderSrc e) (fieldAt j 0x10 8) ((jobTbs j + 7) / 8)
  let payload := r.2.getD []
  let s1 := (r.1.engineWrite 2 (decoderSrc e) (fieldAt j 0x30 8) (encodeJob e j payload)).1
  let s2 := if jobOp j = 1 then
      s1.onCarrier c (fun x => { x with txs := x.txs.map (fun t =>
        if t.slot % 2 ^ 32 = jobSlot j then t.take (s.txChannels c t.bytes) (jobChannel j) (scrambled j (codedBits j payload)) else t) })
    else s1.addLabel j payload
  s2.reportJob e j 0 0 0xFFFF false 0

/-! ## Transmission, R276 to R278 -/

/-- A transmit report, 8 bytes after the transmit ring: TX_SEQ, then 0 SENT, 1 LATE, 2 CONFLICT, 3 MISSED, 4 NOSYNC. DESIGN
CHOICE, log 44. -/
def State.txReport (s : State) (c : Nat) (desc : Bytes) (outcome : Nat) : State :=
  let n := max 1 (s.ringField c 0x0C 4)
  ((s.engineWrite 1 (frontSrc (s.carrierDoor c)) (s.ringField c 0x10 8 + 64 * n + 8 * (s.carrier c).txReportNext)
    (desc.take 4 ++ leBytes 4 outcome)).1.onCarrier c (fun x => { x with txReportNext := (x.txReportNext + 1) % n })).radioCount c (14 + outcome)

/-- The symbols of a slot of carrier k that the symbols m of carrier c's slot n overlap, as a mask. -/
def State.overlap (s : State) (c n m k slot : Nat) : Nat :=
  listMask ((List.range 14).filter (fun i => (maskList 14 m).any (fun q =>
    decide (14 * n * s.slotLen c + q * s.slotLen c < 14 * slot * s.slotLen k + (i + 1) * s.slotLen k)
      && decide (14 * slot * s.slotLen k + i * s.slotLen k < 14 * n * s.slotLen c + (q + 1) * s.slotLen c))))

/-- The door does not receive what it transmits: symbols m of carrier c's slot n are blanked on its carriers, in the slots in progress
and in those that begin before they are over, R278. -/
def State.blank (s : State) (c n m : Nat) : State :=
  let d := s.carrierDoor c
  (s.doorCarriers d).foldl (fun t k => t.onCurSlot k (fun x => { x with txSym := Nat.lor x.txSym (s.overlap c n m k x.n) }))
    (s.onRadioDoor d (fun x => { x with sent := x.sent.filter (fun y => decide (s.now < s.slotStart y.1 (y.2.1 + 1))) ++ [(c, n, m)] }))

/-- The symbols of carrier k's slot that its door's own transmissions blank. -/
def State.blanked (s : State) (k slot : Nat) : Nat :=
  (s.radioDoor (s.carrierDoor k)).sent.foldl (fun m y => Nat.lor m (s.overlap y.1 y.2.1 y.2.2 k slot)) 0

/-- The symbols of a PSFCH. PRESUMED from 3GPP, log 45. -/
abbrev psfchSymbols : Nat := 0x1800

/-- The transmit list of a door and its power table, R244: 16 transfers, 16 transfers, 64 power words, 3 bytes each. PRESUMED,
log 44. -/
def State.rfList (s : State) (d list : Nat) : Bytes := slice (s.entry (0x502000 + 256 * d)) (48 * list) 48

/-- A list runs. -/
def State.runList (s : State) (d list : Nat) (bs : Bytes) : State :=
  (s.emit (.spi d list bs)).onRadioDoor d (fun x => { x with listEnd := s.now + bs.length / 3 * 960, transmitting := list == 0 })

/-- Carrier c's slot n holds a transmission: a descriptor, or the slot in progress is being sent. -/
def State.sendsIn (s : State) (c n : Nat) : Bool :=
  (s.carrier c).txs.any (fun t => t.slot == n) || ((s.curSlot c).map (fun x => x.tx && x.n == n)).getD false

/-- Starts of transmit lists of a door: RF_LEAD before the first slot of a transmission. -/
def State.listStarts (s : State) (d : Nat) : List (Nat × Tx) :=
  ((s.doorCarriers d).map (fun c => ((s.carrier c).txs.filter (fun t => !(decide (0 < t.slot) && s.sendsIn c (t.slot - 1)))).map (fun t =>
    (s.slotStart c t.slot - s.jesdField d 0x0C 2, t)))).flatten

/-- Starts of receive lists of a door: the end of the last slot of a transmission, also of the one for which TX_LIST has run. -/
def State.listEnds (s : State) (d : Nat) : List Nat :=
  ((s.doorCarriers d).map (fun c =>
    let slots := (s.carrier c).txs.map (·.slot)
      ++ (if (s.radioDoor d).transmitting && s.carrierField c 0x0E 1 == 1 then ((s.curSlot c).map (·.n)).toList else [])
    (slots.filter (fun n => !s.sendsIn c (n + 1))).map (fun n => s.slotStart c (n + 1)))).flatten

/-- OS transfers may run now: no list runs, and none would start while they run, R244. -/
def State.spiFree (s : State) (d len : Nat) : Bool :=
  decide ((s.radioDoor d).listEnd ≤ s.now)
    && !((s.listStarts d).map (·.1) ++ s.listEnds d).any (fun t => decide (s.now ≤ t) && decide (t < s.now + len / 3 * 960))

/-- OS transfers that wait run as far as they may, in order. -/
def State.pumpSpi : Nat → State → Nat → State
  | 0, s, _ => s
  | f + 1, s, d =>
    match (s.radioDoor d).spiQueue with
    | [] => s
    | b :: rest =>
      if s.spiFree d b.length then
        State.pumpSpi f ((s.emit (.spi d 2 b)).onRadioDoor d (fun x => { x with spiQueue := rest, listEnd := s.now + b.length / 3 * 960 })) d
      else s

/-- A write of RF_SPI_XFER. -/
def State.spiXfer (s : State) (d : Nat) (v : Bytes) : State :=
  (s.onRadioDoor d (fun x => { x with spiQueue := x.spiQueue ++ [v] })).pumpSpi 64 d

/-- The descriptor of slot n, when the slot begins: sent, or reported with why not, R248, R277 and R286. -/
def State.startTx (s : State) (c n : Nat) (t : Tx) : State :=
  let d := s.carrierDoor c
  let s1 := s.onCarrier c (fun x => { x with txs := x.txs.filter (fun y => y.slot != n) })
  if s.tb.lock ≠ .locked then s1.txReport c t.bytes 4
  else if !t.encoded || (s.radioDoor d).link != .up || (s.radioDoor d).txStopped then s1.txReport c t.bytes 3
  else
    let p := s.carrierField c 0x10 1
    let m := if p ≠ 0 ∧ n % p = 0 then 0x03FF else 0x3FFF
    (((s1.emit (.transmit c n (s.transmitSample d (s.slotStart c n)) (Config.waveform (s.entry (0x510000 + 256 * c)) t.bytes t.coded))).onCurSlot c
      (fun x => { x with tx := true })).blank c n m).txReport c t.bytes 0

/-- A switched-off carrier sends nothing more: each descriptor that it holds is reported, R277. DEDUCED, log 110. -/
def State.dropTxs (s : State) (c : Nat) : State :=
  (s.carrier c).txs.foldl (fun t x => t.txReport c x.bytes 3) s

/-- CARRIER_ON takes a value. -/
def State.switchCarriers (s : State) (v : Nat) : State :=
  let s0 := (List.range 4).foldl (fun t c => if (s.carrier c).on && !bit v c then t.dropTxs c else t) s
  let s1 := (List.range 4).foldl (fun t c => t.onCarrier c (fun x =>
    if bit v c = x.on then x
    else if bit v c then { x with on := true, live := false, lastSlot := none, slots := [], lastSamples := none, prevGi := none }
    else { x with on := false, slots := [], txs := [], feedback := [] })) s0
  [0, 1].foldl State.doorFollows s1

/-! ## Slot boundaries, R247, R254, R260, R262, R284 and R285 -/

/-- The weight bank at a boundary: a revert wins over a swap that falls on it; a candidate submitted since the revert stays, R284 and
R285. -/
def State.swapBank (s : State) (c n : Nat) : State :=
  let x := s.carrier c
  let src := frontSrc (s.carrierDoor c)
  let due := x.swapAfter.any (fun t => decide (t + s.slotLen c ≤ s.slotStart c n))
  if x.revert then
    let s1 := (s.onCarrier c (fun y => { y with bank := 0, revert := false })).logEvent src 0 .bankRevert [c, n]
    if due then (s1.onCarrier c (fun y => { y with verdict := 4, candidate := none, swapAfter := none })).logEvent src 0 .bankSwap [c, n, 0xFF]
    else s1
  else match due, x.candidate with
    | true, some (_, b) =>
      ((s.onCarrier c (fun y => { y with bank := b, candidate := none, swapAfter := none })).radioCount c 20).logEvent src 0 .bankSwap [c, n, b]
    | _, _ => s

/-- The slot that ends: a lost one gets its record now; GI passes on when it was received. -/
def State.endSlot (s : State) (c : Nat) : State :=
  match s.curSlot c with
  | none => s
  | some x =>
    let s1 := s.onCarrier c (fun y => { y with prevGi := if x.lost || x.tx then none else some x.gi })
    if x.lost then s1.writeSlot c x else s1

/-- RX_LIST runs when the last slot of a transmission has ended, whether or not it was sent. -/
def State.endTx (s : State) (c n : Nat) : State :=
  let d := s.carrierDoor c
  if (s.radioDoor d).transmitting && s.carrierField c 0x0E 1 == 1 && !(s.carrier c).txs.any (fun t => t.slot == n) then
    s.runList d 1 (s.rfList d 1)
  else s

/-- Slot n of carrier c begins. -/
def State.beginSlot (s : State) (c n : Nat) : State :=
  let d := s.carrierDoor c
  let up := (s.radioDoor d).link == .up
  let x := s.carrier c
  let gi := if s.leadsDoor c then x.prevGi.getD (s.carrierField c 0x1E 1 % 16) else (s.pins.gain.getD d 0).toNat
  let lead := ((s.doorCarriers d).head?).bind s.curSlot
  let slot : SlotRt :=
    { n := n, gi := gi, settled := !s.leadsDoor c && (lead.map (·.settled)).getD false, lost := !up, bank := x.bank, gridSeq := x.gridSeq,
      txSym := s.blanked c n, synced := s.tb.lock == .locked }
  let s1 := s.onCarrier c (fun y =>
    { y with slots := (slot :: y.slots).take 16, live := true, noDetBefore := y.noDetBefore - s.chipsPerSlot c })
  ((s1.radioCount c 0).driveGain c gi)

/-- Each engine's share of carrier c is refilled, R262. -/
def State.refillShares (s : State) (c : Nat) : State :=
  s.onRadio (fun r => { r with engines := r.engines.map (fun e =>
    { e with share := setAt e.share c (s.slotLen c * s.carrierField c 0x13 1 / 100)
             running := e.running.map (fun x => if jobCarrier x.1 = c then (x.1, s.now) else x) }) })

/-- The boundary of slot n. Samples before the first boundary after UP and before RUN_FRAME0 are discarded, R242. -/
def State.slotBoundary (s : State) (c n samples : Nat) : State :=
  let d := s.carrierDoor c
  let x := s.carrier c
  let slip := x.lastSamples.isSome && samples != s.slotSamples c
  let s1 := (s.endSlot c).onCarrier c (fun y => { y with lastSlot := some n, lastSamples := some samples })
  let s2 := if slip then s1.radioCount c 6 else s1
  let s3 := ((s2.refillShares c).swapBank c n).endTx c n
  let starts := x.live || ((s.radioDoor d).link == .up && s.inFrames && decide (s.frameStartOf s.tb.runFrame0 ≤ s.slotStart c n))
  let s4 := if starts then s3.beginSlot c n else s3.onCarrier c (fun y => { y with slots := [] })
  let s5 := match x.txs.find? (fun t => t.slot == n) with
    | some t => s4.startTx c n t
    | none => s4
  s5.pumpSpi 64 d

/-! ## The candidate bank, R282 to R285 -/

/-- The inactive bank that a submission names: A when P or B is active, else B. -/
def Carrier.inactive (x : Carrier) : Nat := if x.bank = 1 then 2 else 1

/-- Bank b of carrier c is in use by a slot whose codewords are not finished, R260. -/
def State.bankInUse (s : State) (c b : Nat) : Bool :=
  ((s.curSlot c).map (fun x => x.bank == b)).getD false
    || (s.carrier c).slots.any (fun x => x.bank == b && !s.lastOfSlot c (x.n % 2 ^ 32))

/-- A submission meets a conflict, R282. -/
def State.submitConflict (s : State) (c : Nat) : Bool :=
  (s.carrier c).verdict == 1 || s.bankInUse c (s.carrier c).inactive

/-- RX_SUBMIT is accepted: the bank is locked and validation starts; a passed candidate whose swap is pending in that bank gives way.
DESIGN CHOICE, log 59. -/
def State.submitBank (s : State) (c : Nat) (crc : Word) : State :=
  s.onCarrier c (fun x => { x with candidate := some (crc, x.inactive), verdict := 1, swapAfter := none })

/-- RX_REVERT takes 1. -/
def State.revertBank (s : State) (c : Nat) : State :=
  let x := s.carrier c
  let cancels := x.verdict == 1 || x.swapAfter.isSome
  let s1 := s.onCarrier c (fun y =>
    { y with revert := true, verdict := if cancels then 4 else y.verdict, candidate := if cancels then none else y.candidate, swapAfter := none })
  if x.swapAfter.isSome then s1.logEvent (frontSrc (s.carrierDoor c)) 0 .bankSwap [c, s.slotNow c + 1, 0xFF] else s1

end Sys2Proof.Machine
end

