-- ==== Sys2Proof/Machine/DictValues.lean ====
section
/-! DEFINITION. What a read of each dictionary entry returns (R41, R199, R233, R288, R334, R368, R396, R421, R442, R478,
R507, R525): a stored value, or the state that the entry shows. -/

namespace Sys2Proof

/-- The number of an origin's own QUOTE entries, R507. -/
def Origin.quoteSub : Origin → Nat
  | .f => 1 | .l => 2 | .s => 3 | .y => 4 | .p => 5

end Sys2Proof

namespace Sys2Proof.Machine

/-! ## Records that entries show -/

/-- The 32 bytes of a fault record, R408. -/
def faultBytes (r : FaultRec) : Bytes :=
  leBytes 8 r.time ++ leBytes 6 r.seq ++ leBytes 2 r.origin.toNat ++ leBytes 1 r.code.toNat
    ++ leBytes 1 (r.cls.toNat + flagAt r.promoted 3 + flagAt r.active 4 + flagAt r.cleared 5) ++ leBytes 1 r.group.toNat
    ++ leBytes 1 r.kind ++ leBytes 2 r.blame.toNat ++ leBytes 2 r.secondary ++ leBytes 4 (r.ctx.toNat + place r.part.toNat 18)
    ++ leBytes 4 r.detail.toNat

/-- The 64 bytes of a change-log record, R475. -/
def State.changeBytes (s : State) (c : Change) : Bytes :=
  leBytes 8 c.time ++ leBytes 6 c.chseq ++ leBytes 2 (s.sourceId srcDict) ++ leBytes 2 c.index.toNat ++ leBytes 1 c.sub.toNat
    ++ leBytes 1 c.origin ++ leBytes 2 c.result ++ leBytes 1 c.kind ++ leBytes 1 (flagAt c.unchanged 0)
    ++ leBytes 8 c.oldDigest.toNat ++ leBytes 8 c.newDigest.toNat ++ leBytes 8 c.who ++ leBytes 2 c.tid.toNat
    ++ leBytes 2 c.resource ++ leBytes 4 c.length ++ leBytes 2 c.otherOwner ++ List.replicate 6 0

/-- The 24 bytes of a claim record, R468. -/
def claimBytes (c : Claim) : Bytes :=
  leBytes 2 c.owner ++ leBytes 1 c.function ++ leBytes 1 c.sregion ++ leBytes 2 c.first ++ leBytes 2 c.last
    ++ fitBytes 8 c.name ++ leBytes 1 c.how ++ leBytes 1 c.by_ ++ List.replicate 6 0

/-- n counters of 8 bytes. -/
def counterBytes (n : Nat) (m : Sparse Nat) : Bytes := ((List.range n).map (fun i => leBytes 8 (sget 0 m i))).flatten

/-- The accounting record of a partition, R332. -/
def State.acctBytes (s : State) (p : Nat) : Bytes :=
  let a := sget {} s.sched.acct p
  ([a.coreNs, a.jobs, a.preempts, a.teardowns, a.deadlineMiss].map (leBytes 8)).flatten
    ++ ((List.range 4).map (fun t => leBytes 8 (sget {} s.mem.louvres (4 * p + t)).bytes)).flatten
    ++ leBytes 8 a.modelLoadBytes ++ leBytes 8 (a.energy / 1000000)

/-- The link record of door d, R443. -/
def State.linkBytes (s : State) (d : Nat) : Bytes :=
  let l := s.link d
  leBytes 1 l.state ++ leBytes 1 l.peer ++ List.replicate 6 0 ++ leBytes 8 l.peerIdent.toNat ++ counterBytes 10 l.counters

/-- LK_RETIRED, R368: a U32 per retired unit, by channel. -/
def State.retiredBytes (s : State) : Bytes :=
  ((List.range 64).map (fun ch => ((s.lake ch).remap.map (fun r =>
    leBytes 4 (r.1 + place ch 16 + place r.2 24))).flatten)).flatten

/-- The nominal voltage of a fixed rail in mV, R508. -/
def railNominal (r : Nat) : Nat := ([800, 850, 800, 1050, 500, 850, 1800, 1800, 500] : List Nat).getD r 0

/-- The record of a rail, R525. The measured voltage is a free value. -/
def State.railBytes (s : State) (r : Nat) : Bytes :=
  leBytes 2 (s.pwr.target.getD r (railNominal r)) ++ leBytes 2 (Config.freeNat s.fresh) ++ leBytes 4 (s.pwr.current.getD r 0)
    ++ leBytes 2 (sget 0 s.pwr.warn r) ++ leBytes 2 (sget 0 s.pwr.out r)

/-- A temperature as I16; a failed sensor reads 0x8000. -/
def State.tempWord (s : State) (sensor : Nat) (t : Int) : Nat := if s.pwr.failed.contains sensor then 0x8000 else unsigned 16 t

/-- CAP_STATE, R525. -/
def State.capState (s : State) : Nat := s.pwr.level + flagAt s.pwr.unmet 4 + flagAt s.pwr.thermalCap.isSome 5

/-- CAP_EFFECTIVE, R518. -/
def State.capEffective (s : State) : Nat := match s.pwr.thermalCap with | some t => min (s.cfg kPwrCap) t | none => s.cfg kPwrCap

/-- MARGINAL_TOTAL, R41: every marginal counter. -/
def State.marginalTotal (s : State) : Nat :=
  s.spring.marginal + s.radio.marginal + s.sched.deadlineMarginal + s.fab.marginal + s.dict.kdpMarginal

/-- The slot that STAGE writes: the one ACTIVE does not name, R496. -/
def State.stageSlot (s : State) : Bool := !s.flash.act.active

/-- ACT_STATE, R507. -/
def State.actState (s : State) : Nat :=
  if s.dict.transfers.any (fun t => t.isWrite && t.key == kStage) then 1
  else if s.flash.act.staged.isNone then 0
  else if s.flash.act.passed then 4
  else if s.flash.act.epoch ≠ 0 then 3
  else 2

/-! ## Numbers that entries show: i is the position within the row -/

/-- Time, contexts and models. -/
def State.shownA (s : State) (first i : Nat) : Option Nat :=
  match first with
  | 0x180002 => some s.tb.lock.code
  | 0x180003 => some (unsigned 32 s.tb.offset)
  | 0x200003 => some s.tb.runFrame0
  | 0xa01001 => some s.marginalTotal
  | 0x310001 => some Config.ctxTableBase
  | 0x310002 => some Config.kvRefcountBase
  | 0x310006 => some (262143 - s.ctx.table.length)
  | 0x312001 => some (s.freePages i)
  | 0x313001 => some s.ctx.swapOuts
  | 0x313002 => some s.ctx.swapIns
  | 0x313003 => some s.ctx.cowCopies
  | 0x313004 => some s.ctx.ctxEnds
  | 0x313005 => some s.ctx.kvSpills
  | _ => none

/-- The Spring, the radio and the schedule engine. -/
def State.shownB (s : State) (first i : Nat) : Option Nat :=
  match first with
  | 0x400001 => some s.spring.marginal
  | 0x500002 => some (listMask ((List.range 4).filter (fun c => (s.carrier c).on)))
  | 0x500004 => some s.radio.marginal
  | 0x530001 => some (s.carrier i).bank
  | 0x532001 => some (s.carrier i).verdict
  | 0x201101 => some ((s.sched.table.map (·.build.toNat)).getD 0)
  | 0x220001 => some (s.phys i)
  | 0x230002 => some s.sched.deadlineMarginal
  | 0x320001 => some Config.modelCacheBase
  | 0x320003 => some s.sched.models.length
  | 0x320004 => some s.sched.modelLoads
  | 0x320005 => some s.sched.modelEvicts
  | _ => none

/-- Memory and safety. -/
def State.shownC (s : State) (first i : Nat) : Option Nat :=
  match first with
  | 0x600201 => some (s.lake i).state
  | 0x620001 => some s.mem.lpInstalled
  | 0x620002 => some s.mem.lpTop
  | 0x620003 => some s.mem.lpMark
  | 0x622001 => some s.mem.sramCe
  | 0x622002 => some s.mem.sramUe
  | 0x710101 => some (s.isl.wdValue.getD i 0).toNat
  | 0x712001 => some s.sched.resyncs
  | 0x712002 => some s.sched.resyncAborts
  | 0x712003 => some s.sched.goldenFail
  | 0x712004 => some s.sched.selftestFail
  | 0x712005 => some s.sched.withdrawn.toNat
  | 0x712006 => some s.sched.detectNs
  | 0x712007 => some s.isl.hbMisses
  | 0x713001 => some (s.core i).goldenLast
  | _ => none

/-- Faults and the fabric. -/
def State.shownD (s : State) (first i : Nat) : Option Nat :=
  match first with
  | 0x700001 => some s.fc.threshold
  | 0x700002 => some s.fc.altClass
  | 0x700004 => some s.fc.fnExercise
  | 0x702001 => some s.fc.secondary
  | 0x702002 => some s.fc.dropped
  | 0x702003 => some s.fc.status.toNat
  | 0x160001 => some s.fab.nodeId.toNat
  | 0x160002 => some s.fab.state
  | 0x160003 => some s.ident.toNat
  | 0x160005 => some s.fab.nodes.toNat
  | 0x16000b => some s.fab.marginal
  | 0x161001 => some (s.fab.routes.getD i 0xFF).toNat
  | _ => none

/-- The dictionary, boot and security. -/
def State.shownE (s : State) (first : Nat) : Option Nat :=
  match first with
  | 0x000004 => some s.dict.state.code
  | 0x000006 => some s.dict.stateFail.toNat
  | 0x000007 => some s.dict.claims.length
  | 0x170006 => some s.dict.kdpMarginal
  | 0x170007 => some s.dict.kdpDup
  | 0x170008 => some s.dict.kdpViol
  | 0xa02101 => some s.dict.chHead
  | 0x900002 => some s.boot.bootsel.toNat
  | 0x910001 => some s.flash.act.epoch
  | 0x910002 => some s.actState
  | 0x910003 => some (if s.stageSlot then 1 else 0)
  | 0x912001 => some s.flash.rollback
  | 0x940003 => some s.sec.dbgState.toNat
  | 0x950002 => some s.sec.verifies
  | 0x950003 => some s.sec.invalid
  | _ => none

/-- Power and temperature. -/
def State.shownF (s : State) (first i : Nat) : Option Nat :=
  match first with
  | 0x800002 => some s.pwr.estimate
  | 0x800003 => some s.capEffective
  | 0x800004 => some s.pwr.floor
  | 0x800005 => some s.capState
  | 0x800006 => some s.pwr.capEvents
  | 0x800007 => some s.pwr.throttleNs
  | 0x800008 => some (s.pwr.energy / 1000000)
  | 0x801001 => some (s.tempWord i (s.pwr.die.getD i 0))
  | 0x801101 => some (s.tempWord (40 + i) (s.pwr.lake.getD i 0))
  | 0x801201 => some (unsigned 16 s.pwr.tjMax)
  | 0x801202 => some (unsigned 16 s.pwr.tjPeak)
  | 0x803002 => some s.pwr.avs
  | _ => none

/-- The number that an entry shows. -/
def State.shown (s : State) (first i : Nat) : Option Nat :=
  (((((s.shownA first i).or (s.shownB first i)).or (s.shownC first i)).or (s.shownD first i)).or (s.shownE first)).or
    (s.shownF first i)

/-! ## Byte strings that entries show -/

/-- Records and byte strings of the engines, memory, faults and the fabric. -/
def State.shownBytesA (s : State) (first i : Nat) : Option Bytes :=
  match first with
  | 0x420000 => some (counterBytes 18 (s.streamRt i).counters ++ leBytes 4 (s.decodeMean i))
  | 0x520000 => some (counterBytes 22 (s.carrier i).counters)
  | 0xa10000 => some (s.acctBytes i)
  | 0x600100 => some s.retiredBytes
  | 0x610000 => some (counterBytes 7 (s.lake i).counters)
  | 0x621000 => some (((List.range 3).map (fun k => leBytes 8 (sget 0 s.mem.lpCounters (3 * i + k)))).flatten)
  | 0x701000 => some ((s.fc.log.map faultBytes).flatten)
  | 0x701100 => some ((s.fc.slots.map (fun kv => faultBytes kv.2)).flatten)
  | 0x162000 => some (s.linkBytes i)
  | 0x802001 => some (s.railBytes i)
  | _ => none

/-- STREAM n as it reads: CHANNEL of a radio stream is set by the radio configuration, the slot length of its CARRIER, R204 and
R270. -/
def State.streamShown (s : State) (n : Nat) : Bytes :=
  let v := s.entry (0x410000 + 256 * n)
  if fieldAt v 0 1 = 3 then pasteAt v 0x37 (leBytes 1 (s.cfgField (0x510000 + 256 * fieldAt v 0x36 1) 2 1)) else v

/-- Records and byte strings of the dictionary, boot and security. -/
def State.shownBytesB (s : State) (first i : Nat) : Option Bytes :=
  match first with
  | 0x000003 => some s.flash.serial
  | 0x010000 => some (claimBytes (sget {} s.dict.claims i))
  | 0x410000 => some (s.streamShown i)
  | 0xa02000 => some ((s.dict.changes.map s.changeBytes).flatten)
  | 0x900001 => some s.bootRecord
  | 0x920001 => some (fitBytes 64 s.flash.idPub)
  | 0x920100 => some s.flash.idCert
  | 0x930101 => some (sget [] s.sec.quotes (i + 1))
  | 0x931001 => some (s.boot.mrOf i)
  | _ => none

/-- The value of an entry as a read returns it. -/
def State.entryValue (s : State) (key : Nat) (e : Entry) : Bytes :=
  match (s.shownBytesA e.first (e.pos key)).or (s.shownBytesB e.first (e.pos key)) with
  | some b => b
  | none => match s.shown e.first (e.pos key) with
    | some n => leBytes e.size n
    | none => s.entry key

/-- The greatest length of an entry: SIZE of DESCRIBE. A staged image is at most SLOT_SIZE, R496. -/
def State.entrySize (s : State) (e : Entry) : Nat :=
  if e.first = kStage ∨ e.first = kRecImage then s.flash.slotLen else e.size

end Sys2Proof.Machine
end

