-- ==== Sys2Proof/Machine/DictChecks.lean ====
section
/-! DEFINITION. The checks of R453 on the content of a write, entry by entry: length and encoding (TYPE), ranges and reserved
fields (RANGE), claims and exclusivity (CONFLICT). -/

namespace Sys2Proof.Machine

/-- A field of n bytes at an offset lies within bounds. -/
def inRange (v : Bytes) (off n lo hi : Nat) : Bool := decide (lo ≤ fieldAt v off n) && decide (fieldAt v off n ≤ hi)

/-! ## The encoding of a type, R445 -/

/-- A scalar value that its type and its entry's range allow, R445. -/
def scalarOk (e : Entry) (v : Bytes) : Bool :=
  let n := leNat v
  if e.ty = 9 then v.all (fun c => decide (0x20 ≤ c.toNat) && decide (c.toNat ≤ 0x7E))
  else if e.ty = 8 then n % 2 == 0 && decide (e.lo ≤ n) && decide (n ≤ e.hi)
  else if e.ty = 10 ∨ e.ty = 11 then true
  else decide (e.lo ≤ n) && decide (n ≤ e.hi)

/-! ## Stream, profile and batch records, R201, R202, R204, R208, R213 -/

/-- The capture stamp sources of a kind, R205. -/
def tsSrcOk (kind ts : Nat) : Bool :=
  if kind = 1 then decide (ts ≤ 1) else if kind = 2 then ts == 2 || ts == 3 else ts == 4

/-- The CSI-2 data types of R200. -/
def dataTypes : List Nat := [0x2A, 0x2B, 0x2C, 0x2D, 0x2E, 0x1A, 0x1E, 0x1F, 0x24]

/-- Fields of a stream record, R204; an off descriptor holds nothing but its kind to check. -/
def streamFieldsOk (v : Bytes) : Bool :=
  let k := fieldAt v 0 1
  decide (k ≤ 3) && allZero (slice v 0x38 8)
    && (k == 0 ||
      (tsSrcOk k (fieldAt v 0x1A 1) && fieldAt v 0x24 4 % 2 == 0 && inRange v 0x30 1 0 1 && inRange v 0x31 1 0 3
        && inRange v 0x32 2 1 4096 && inRange v 0x34 2 2 64 && fieldAt v 0x34 2 % 2 == 0
        && (k != 1 || (inRange v 1 1 0 7 && inRange v 2 1 0 15 && dataTypes.contains (fieldAt v 3 1) && inRange v 0x1B 1 0 31))
        && (k != 2 || inRange v 1 1 8 9)
        && (k != 3 || (inRange v 1 1 0 9 && inRange v 0x36 1 0 3 && inRange v 0x37 1 0 2))))

/-- Two enabled descriptors would match one packet, R201 and R202. -/
def streamsMeet (a b : Bytes) : Bool :=
  let k := fieldAt a 0 1
  k != 0 && k == fieldAt b 0 1 &&
    (if k = 1 then slice a 1 3 == slice b 1 3
     else if k = 2 then
       fieldAt a 1 1 == fieldAt b 1 1 && slice a 4 20 == slice b 4 20
         && (fieldAt a 0x18 2 == fieldAt b 0x18 2 || fieldAt a 0x18 2 == 0 || fieldAt b 0x18 2 == 0)
     else fieldAt a 0x36 1 == fieldAt b 0x36 1)

/-- The other streams of a given one. -/
def otherStreams (n : Nat) : List Nat := (List.range 128).filter (· != n)

/-- RANGE checks of STREAM n, the 33rd CSI-2 descriptor among them. -/
def State.streamOk (s : State) (n : Nat) (v : Bytes) : Bool :=
  streamFieldsOk v
    && (fieldAt v 0 1 != 1 || decide (((otherStreams n).filter (fun m => s.streamKind m == 1)).length < 32))

/-- A profile record, R213, R214 and R233. -/
def profileOk (v : Bytes) : Bool :=
  inRange v 0 1 0 3 && inRange v 1 1 0 1 && [5, 2, 1].contains (fieldAt v 2 1)
    && (fieldAt v 3 1 == 1 || fieldAt v 3 1 == 3) && allZero (slice v 0x4C 20)

/-- A batch record, R208. -/
def State.batchOk (s : State) (v : Bytes) : Bool :=
  let live := fieldAt v 0 1 == 0
  inRange v 0 1 0 1 && decide (fieldAt v 1 1 < 32) && inRange v 2 2 1 4096
    && (!live || (fieldAt v 2 2 == (maskList 128 (fieldAt v 8 16)).length && decide (fieldAt v 4 2 < s.cfg kFrameTicks)))
    && (!bit (fieldAt v 1 1) 4 || inRange v 6 2 1 8192) && decide (fieldAt v 0x28 4 < 2 ^ 27)
    && (live || ([1, 2, 5].contains (fieldAt v 0x2C 1) && inRange v 0x3C 4 1 16777216))
    && allZero (slice v 0x2D 3) && allZero (slice v 0x58 8)

/-! ## Radio records, R236, R237, R262, R289 to R291 -/

/-- JESD record, R290. -/
def jesdOk (v : Bytes) : Bool :=
  inRange v 0 1 0 1 && inRange v 1 1 0 1 && decide (fieldAt v 2 1 < 64) && fieldAt v 3 1 == 0 && fieldAt v 4 4 % 2 == 0
    && fieldAt v 8 4 % 2 == 0 && fieldAt v 0x0C 2 % 2 == 0 && fieldAt v 0x0E 2 == 0

/-- Rings record, R291. -/
def ringsOk (v : Bytes) : Bool :=
  inRange v 8 4 256 65536 && inRange v 0x0C 4 16 1024 && decide (fieldAt v 0x28 4 ≤ 1048576) && fieldAt v 0x2C 4 == 0

/-- A numerology of R236. -/
def numerologyOk (v : Bytes) : Bool :=
  inRange v 0 1 0 1 && inRange v 2 1 0 2 && inRange v 3 1 0 2 && (fieldAt v 0 1 == 1 || (fieldAt v 2 1 == 0 && fieldAt v 3 1 != 2))

/-- Samples in the shortest cyclic prefix of a numerology: 144 of a 2,048-point FFT. -/
def shortestCp (v : Bytes) : Nat := 144 * 2 ^ fieldAt v 3 1 / 2 / 2 ^ fieldAt v 2 1

/-- The sum of the other carriers' shares on the engine of a radio, R262. -/
def State.otherShares (s : State) (c rat : Nat) : Nat :=
  (((List.range 4).filter (fun k => k != c && s.carrierField k 0 1 == rat)).map (fun k => s.carrierField k 0x13 1)).sum

/-- A carrier record, R289. -/
def State.carrierOk (s : State) (c : Nat) (v : Bytes) : Bool :=
  let nr := fieldAt v 0 1 == 1
  numerologyOk v && inRange v 1 1 0 1 && inRange v 0x0D 1 1 27 && inRange v 0x0E 1 0 1
    && (if nr then inRange v 0x0F 1 2 3 && [0, 1, 2, 4].contains (fieldAt v 0x10 1) else fieldAt v 0x0F 1 == 0)
    && inRange v 0x11 1 1 8 && [1, 2, 4, 8].contains (fieldAt v 0x12 1) && inRange v 0x13 1 1 100
    && (if nr then inRange v 0x14 2 8 64 else inRange v 0x14 2 16 128) && inRange v 0x16 2 64 1024
    && decide (fieldAt v 0x18 2 ≤ 2 * fieldAt v 0x16 2) && [1, 2, 4, 8].contains (fieldAt v 0x1A 1) && inRange v 0x1B 1 0 1
    && inRange v 0x1E 1 0 15 && inRange v 0x1F 1 4 32 && inRange v 0x20 2 32 1024 && fieldAt v 0x22 2 % 2 == 0
    && decide (fieldAt v 0x24 2 ≤ shortestCp v) && inRange v 0x26 1 8 20 && inRange v 0x27 1 1 16
    && fieldAt v 0x38 4 % 0x10000 == 0 && decide (fieldAt v 0x38 4 ≤ 0x1000000)
    && decide (s.otherShares c (fieldAt v 0 1) + fieldAt v 0x13 1 ≤ 100)

/-- The other carriers with a record. -/
def State.otherCarriers (s : State) (c : Nat) : List Nat :=
  (List.range 4).filter (fun k => k != c && !allZero (s.entry (0x510000 + 256 * k)))

/-- The limits of R237 hold with a carrier's record. -/
def State.carriersFit (s : State) (c : Nat) (v : Bytes) : Bool :=
  let l := s.otherCarriers c
  let same := l.filter (fun k => s.carrierDoor k == fieldAt v 1 1)
  (fieldAt v 0 1 != 1 || decide ((l.filter (fun k => s.carrierField k 0 1 == 1)).length < 2)) && decide (same.length < 2)
    && (fieldAt v 0x0E 1 == 0 || same.all (fun k => s.carrierField k 0x0E 1 == 0))

/-! ## Partitions, memory and power -/

/-- A partition record, R294 and R296. -/
def partitionOk (v : Bytes) : Bool :=
  let on := bit (fieldAt v 2 1) 0
  decide (fieldAt v 0 1 ≤ 4) && decide (fieldAt v 1 1 ≤ 2) && decide (fieldAt v 2 1 < 4) && decide (fieldAt v 4 4 ≤ 250000)
    && fieldAt v 4 4 % 2 == 0 && (!bit (fieldAt v 2 1) 1 || fieldAt v 8 8 == 0)
    && (!on || (inRange v 0x10 2 1 256 && inRange v 0x12 2 1 4096)) && allZero (slice v 0x14 12)

/-- The core sets of enabled partitions stay disjoint, R294. -/
def State.coresDisjoint (s : State) (p : Nat) (v : Bytes) : Bool :=
  !bit (fieldAt v 2 1) 0 || (List.range 16).all (fun q => q == p || q == 0 || !s.partEnabled q || Nat.land (s.partCores q) (fieldAt v 8 8) == 0)

/-- A SHUTTER record's reserved fields and order, R363. -/
def shutterFieldsOk (v : Bytes) : Bool :=
  let b := fieldAt v 0 8
  let l := fieldAt v 8 8
  let r := fieldAt v 16 8
  bits b 63 48 == 0 && bits b 15 1 == 0 && bits l 63 48 == 0 && bits l 15 0 == 0 && bits r 63 56 == 0 && bits r 51 50 == 0
    && (!bit b 0 || decide (bits b 47 16 ≤ bits l 47 16))

/-- A region grants no write to a partition of lower class than its owner, R364. -/
def State.shutterFair (s : State) (v : Bytes) : Bool :=
  let r := fieldAt v 16 8
  !bit (fieldAt v 0 8) 0 || (List.range 16).all (fun p =>
    !bit r (16 + p) || decide (classRank (s.partClass (bits r 55 52)) ≤ classRank (s.partClass p)))

/-- A LOUVRE record of partition p, tier t, R367. -/
def State.louvreOk (s : State) (p t : Nat) (v : Bytes) : Bool :=
  decide (fieldAt v 0 2 ≤ fieldAt v 2 2) && decide (fieldAt v 2 2 ≤ 256) && inRange v 4 2 1 4096
    && decide ((((List.range 16).filter (· != p)).map (fun q => s.cfgField (0x640000 + 256 * (4 * q + t)) 0 2)).sum + fieldAt v 0 2 ≤ 256)

/-- A KV quota of partition p within the pool, R199. -/
def State.quotaOk (s : State) (p n : Nat) : Bool :=
  decide ((((List.range 16).filter (· != p)).map (fun q => s.cfg (0x311001 + q))).sum + n ≤ s.cfg 0x310003)

/-- RADIO_EPOCH keeps to the tick grid, R246. -/
def State.epochOk (s : State) (n : Nat) : Bool := decide (((n : Int) - (s.frameOrigin : Int)) % 250000 = 0)

/-! ## Claims and timers, R467 to R471 -/

/-- The owners of R468. -/
def ownerOk (o : Nat) : Bool :=
  decide (o ≤ 0xF) || (decide (0x100 ≤ o) && decide (o ≤ 0x103)) || o == 0x110 || o == 0x111 || o == 0x120 || o == 0x121
    || o == 0x130 || o == 0x131 || o == 0x140 || (decide (0x200 ≤ o) && decide (o ≤ 0x20B)) || o == 0xFFFF

/-- The highest function of a resource, R468 and R536. -/
def maxFunction (r : Nat) : Nat := if r < 0x20 then 8 else if r < 0x200 then 1 else 0

/-- The SHUTTER entry covers exactly the granules FIRST to LAST of the Reservoir, R469. -/
def State.coversRegion (s : State) (q first last : Nat) : Bool :=
  let b := s.cfgField (0x630000 + 256 * q) 0 8
  let l := s.cfgField (0x630000 + 256 * q) 8 8
  bit b 0 && bits b 47 16 == resBase / 0x10000 + first && bits l 47 16 == resBase / 0x10000 + last

/-- RANGE checks of a claim of resource r; HOW and BY are read-only and not looked at. -/
def State.claimOk (s : State) (r : Nat) (v : Bytes) : Bool :=
  ownerOk (fieldAt v 0 2) && allZero (slice v 0x12 6)
    && (fieldAt v 0 2 == 0xFFFF ||
      (decide (fieldAt v 2 1 ≤ maxFunction r)
        && (if 0x200 ≤ r then
              decide (fieldAt v 3 1 < 128) && decide (fieldAt v 4 2 ≤ fieldAt v 6 2) && decide (fieldAt v 6 2 < 1024)
                && (slice v 8 8).all (fun c => decide (0x20 ≤ c.toNat) && decide (c.toNat ≤ 0x7E))
                && s.coversRegion (fieldAt v 3 1) (fieldAt v 4 2) (fieldAt v 6 2)
            else allZero (slice v 3 13))))

/-- The owner that excludes a claim of resource r, R469: its holder, or another owner's overlapping region. -/
def State.claimRival (s : State) (r : Nat) (v : Bytes) : Option Nat :=
  let o := fieldAt v 0 2
  if o = 0xFFFF then none
  else match sfind s.dict.claims r with
    | some c => if c.owner = o then none else some c.owner
    | none =>
      if r < 0x200 then none
      else ((s.dict.claims.filter (fun kv => decide (0x200 ≤ kv.1) && kv.2.owner != o && decide (kv.2.first ≤ fieldAt v 6 2)
        && decide (fieldAt v 4 2 ≤ kv.2.last))).head?).map (·.2.owner)

/-- A release is refused, R469: STATE for a claim held until boot, RIGHTS for another origin's. A claim made by an enable is
released by its feature only. -/
def State.releaseCode (s : State) (origin r : Nat) : Nat :=
  match sfind s.dict.claims r with
  | none => aOk
  | some c => if c.how ≠ 2 then aState else if c.by_ = origin ∨ origin = 3 then aOk else aRights

/-- Fields of a TIMER record, R471. -/
def timerFieldsOk (v : Bytes) : Bool :=
  fieldAt v 0 8 % 2 == 0 && fieldAt v 8 4 % 2 == 0 && fieldAt v 12 4 % 2 == 0 && decide (fieldAt v 28 1 ≤ 1) && allZero (slice v 29 3)

/-- The owner that excludes a TIMER record, R471: an unclaimed timer (owner free), or a ball that its owner does not hold. -/
def State.timerRival (s : State) (n : Nat) (v : Bytes) : Option (Nat × Nat) :=
  match sfind s.dict.claims (0x100 + n) with
  | none => some (0x100 + n, 0xFFFF)
  | some c =>
    let b := fieldAt v 26 2
    if b = 0xFFFF then none
    else match sfind s.dict.claims b with
      | some d => if d.owner = c.owner then none else some (b, d.owner)
      | none => some (b, 0xFFFF)

/-! ## The pins of an enable, R33, R244 and R470 -/

/-- The first pin among those listed that another owner holds. -/
def State.pinRival (s : State) (owner : Nat) (pins : List Nat) : Option (Nat × Nat) :=
  (pins.filterMap (fun r => (sfind s.dict.claims r).bind (fun c => if c.owner = owner then none else some (r, c.owner)))).head?

/-- The doors that a value of CARRIER_ON leaves with a carrier. -/
def State.doorsOn (s : State) (v : Nat) : List Nat := [0, 1].filter (fun d => (List.range 4).any (fun c => bit v c && s.carrierDoor c == d))

/-- The first pin that excludes a value of CARRIER_ON, R244. -/
def State.carrierRival (s : State) (v : Nat) : Option (Nat × Nat) :=
  ((s.doorsOn v).filterMap (fun d => s.pinRival (0x120 + d) (radioPins d))).head?

/-! ## Every entry -/

/-- RANGE checks of the Spring's and the radio's entries. -/
def State.rangeA (s : State) (first i : Nat) (v : Bytes) : Bool :=
  match first with
  | 0x410000 => s.streamOk i v
  | 0x430000 => profileOk v
  | 0x440000 => s.batchOk v
  | 0x448000 => s.nextOk i (BitVec.ofNat 32 (leNat v))
  | 0x500001 => s.epochOk (leNat v)
  | 0x501000 => jesdOk v
  | 0x503001 => v.length % 3 == 0
  | 0x510000 => s.carrierOk i v
  | 0x512000 => ringsOk v
  | _ => true

/-- RANGE checks of the schedule's, memory's and safety entries. -/
def State.rangeB (s : State) (first i : Nat) (v : Bytes) : Bool :=
  match first with
  | 0x310003 => leNat v % 64 == 0 && decide (((List.range 16).map (fun q => s.cfg (0x311001 + q))).sum ≤ leNat v)
  | 0x311001 => s.quotaOk i (leNat v)
  | 0x210100 => partitionOk v
  | 0x320002 => leNat v % 0x100000 == 0
  | 0x630000 => shutterFieldsOk v
  | 0x640000 => s.louvreOk (i / 4) (i % 4) v
  | 0x710002 => decide (leNat v < s.cfg 0x710003)
  | 0x710003 => decide (s.cfg 0x710002 < leNat v)
  | 0x160007 => leNat v % 2 == 0
  | 0x800001 => decide (s.pwr.floor ≤ leNat v)
  | 0x200002 => decide (((s.radioEpoch : Int) - (leNat v : Int)) % 250000 = 0)
  | _ => true

/-- RANGE checks of the dictionary's, boot's and security's entries. -/
def State.rangeC (s : State) (first i : Nat) (v : Bytes) : Bool :=
  match first with
  | 0x010000 => s.claimOk i v
  | 0x040000 => timerFieldsOk v
  | 0x170003 => leNat v % 2 == 0
  | 0x912002 => decide (s.flash.rollback ≤ leNat v) && decide (leNat v ≤ fieldAt (s.flash.header s.flash.act.active) 0x10 1)
  | 0x930001 => allZero (slice v 33 3)
  | 0x931101 => (fieldAt v 0 1 == 6 || fieldAt v 0 1 == 7) && allZero (slice v 1 3)
  | 0x940002 => decide (fieldAt v 0 1 < 16) && decide (fieldAt v 1 1 ≤ 1) && allZero (slice v 2 6)
  | 0x950001 => inRange v 24 2 16 4096 && allZero (slice v 28 4)
  | _ => true

/-- RANGE checks of the content. -/
def State.rangeOk (s : State) (first i : Nat) (v : Bytes) : Bool := s.rangeA first i v && s.rangeB first i v && s.rangeC first i v

/-- What excludes a value: the resource and its owner, 0xFFFF for none. -/
def State.rival (s : State) (first i : Nat) (v : Bytes) : Option (Nat × Nat) :=
  let no : Bool → Option (Nat × Nat) := fun b => if b then none else some (0xFFFF, 0xFFFF)
  match first with
  | 0x410000 => no (!(otherStreams i).any (fun m => streamsMeet v (s.entry (0x410000 + 256 * m))))
  | 0x510000 => no (s.carriersFit i v)
  | 0x531001 => no (!s.submitConflict i)
  | 0x210100 => no (s.coresDisjoint (i + 1) v)
  | 0x630000 => no (s.shutterFair v)
  | 0x180001 => if leNat v = 2 then s.pinRival 0x111 [0x25] else none
  | 0x500002 => s.carrierRival (leNat v)
  | 0x010000 => (s.claimRival i v).map (fun o => (i, o))
  | 0x040000 => s.timerRival i v
  | 0x910001 => no s.flash.act.staged.isSome
  | _ => none

/-- The result of the content checks of R453, with the resource and owner that a CONFLICT names. -/
structure Verdict where
  code : Nat
  resource : Nat := 0xFFFF
  owner : Nat := 0xFFFF
  deriving DecidableEq, Repr

/-- The checks of a write's content, from length and encoding onward; `origin` is the code of R475. -/
def State.contentVerdict (s : State) (origin key : Nat) (e : Entry) (v : Bytes) : Verdict :=
  let i := e.pos key
  if e.ty ≠ 10 ∧ v.length ≠ e.size then { code := aType }
  else if e.ty = 10 ∧ s.entrySize e < v.length then { code := aRange }
  else if !scalarOk e v then { code := aRange }
  else if e.first = kSchedule then { code := (s.checkTable v).1 }
  else if !s.rangeOk e.first i v then { code := aRange }
  else if e.first = 0x010000 ∧ fieldAt v 0 2 = 0xFFFF then { code := s.releaseCode origin i, resource := i }
  else match s.rival e.first i v with
    | some (r, o) => { code := aConflict, resource := r, owner := o }
    | none => { code := aOk }

/-! ## Entry, rights and state, R447 to R453 -/

/-- The bit of ACCESS for an origin's read or write, R458. -/
def accessBit (o : Origin) (write : Bool) : Nat :=
  2 * (match o with | .f => 0 | .l => 1 | .s => 2 | .y => 3 | .p => 4) + (if write then 1 else 0)

/-- The origin has the right, R448; QUOTE_REQ and QUOTE belong to one origin each, R507. -/
def hasRight (o : Origin) (key : Nat) (e : Entry) (write : Bool) : Bool :=
  bit e.access (accessBit o write)
    && ((e.first != 0x930001 && e.first != 0x930101) || e.pos key + 1 == o.quoteSub)

/-- The state admits a write to an entry, R447, R449, R245, R451, R497, R499, R500, R515. -/
def State.stateAdmits (s : State) (o : Origin) (e : Entry) : Bool :=
  let d := s.dict.state
  let running := d == .config || d == .run || d == .degraded
  match e.first with
  | 0x000005 => d == .config
  | 0x700003 => running || d == .safe
  | 0x803001 => running || d == .safe
  | 0x500001 => d == .config || (d == .run && s.radio.carriers.all (fun c => !c.on))
  | 0x500002 => d == .config || d == .run
  | 0x910001 => running || d == .safe
  | 0x911000 => running || d == .safe
  | 0x912002 => d == .run || d == .degraded
  | 0x9f0001 => d == .recovery && o == .s
  | 0x9f0002 => d == .recovery && o == .s
  | 0x9f0100 => d == .recovery && o == .s
  | _ => if e.gate = 0 then d == .config else if e.gate = 1 then running else false

/-- The state admits a read, R449. -/
def State.readAdmits (s : State) (key : Nat) : Bool :=
  key / 256 == 0 || !(s.dict.state == .boot || s.dict.state == .recovery)

/-- The entry is locked, R451, R453 and R515: an open transfer writes it, or its own operation runs. -/
def State.entryBusy (s : State) (key : Nat) (e : Entry) : Bool :=
  s.dict.transfers.any (fun t => t.isWrite && t.key == key)
    || match e.first with
      | 0x000005 => s.dict.transition.isSome
          || s.dict.transfers.any (fun t => t.isWrite && ((findEntry t.key).map (fun x => x.gate == 0)).getD false)
      | 0x803001 => s.pwr.req.isSome
      | 0x912002 => s.sec.commit.isSome
      | 0x448000 => (s.batchRt (e.pos key)).closedAt.isSome
      | _ => false

/-- The mode of a batch that BATCH_NEXT names is store mode; another is refused with STATE. DESIGN CHOICE, log 64. -/
def State.modeAdmits (s : State) (key : Nat) (e : Entry) : Bool := e.first != 0x448000 || s.batchField (e.pos key) 0 1 == 1

/-- The first four checks of R453 on a write: entry, rights, state, lock. -/
def State.openVerdict (s : State) (o : Origin) (key : Nat) : Nat :=
  match findEntry key with
  | none => aNoEntry
  | some e =>
    if !hasRight o key e true then aRights
    else if !s.stateAdmits o e || !s.modeAdmits key e then aState
    else if s.entryBusy key e then aBusy
    else aOk

/-- The checks of a read. -/
def State.readVerdict (s : State) (o : Origin) (key : Nat) : Nat :=
  match findEntry key with
  | none => aNoEntry
  | some e => if !hasRight o key e false then aRights else if !s.readAdmits key then aState else aOk

end Sys2Proof.Machine
end

