-- ==== Sys2Proof/Machine/Faults.lean ====
section
/-! DEFINITION. The commands of the fault collector (R398 to R420) and of the safety island (R391 to R393). -/

namespace Sys2Proof.Machine

/-- A report that R398 and R399 allow: class 0 to 4 and a group of FC_STATUS. -/
def reportLegal (r : ReportIn) : Bool := decide (r.cls.toNat ≤ 4) && decide (r.group.toNat < 36)

/-- FAULT_REPORT, R405: a unit's report enters the fault network; the collector drives FAULT_N and makes or folds a
record, the unit takes its own reaction (R401), and a core's CC_ERR bit is set (R87). -/
def execFaultReport (r : ReportIn) (s : State) : Host.Outcome State Fault Refusal :=
  .next (if s.aonUp && reportLegal r then
    let s1 := match s.coreOf r.origin with
      | some n => if r.group.toNat < 4 && decide (r.code.toNat < 15) then s.onCore n (·.setErr r.code.toNat) else s
      | none => s
    (s1.report r).unitReaction r
  else s)

/-- ATTRIBUTION_TIMEOUT, R405: the waiting reports whose window has ended are promoted. -/
def execAttributionTimeout (s : State) : Host.Outcome State Fault Refusal :=
  .next (if s.aonUp then s.promoteDue else s)

/-- ALT_PULSE_END, R412: a pulse of at least 10 us ends. -/
def execAltPulseEnd (s : State) : Host.Outcome State Fault Refusal :=
  .next (match s.fc.altPulse with
    | some t => if s.aonUp && decide (t + 10000 ≤ s.now) then s.onFc (fun c => { c with altPulse := none }) else s
    | none => s)

/-- FC_CLEAR, R415: a write of the register by an application core or the island; from any other initiator it is a decode
error (R416). -/
def execFcClear (by_ : Initiator) (slot : Byte) (seq : BitVec 48) (s : State) : Host.Outcome State Fault Refusal :=
  .next (if s.aonUp then
    match by_ with
    | .app h => s.clearRecord 1 h.val slot.toNat seq.toNat
    | .island => s.clearRecord 3 0 slot.toNat seq.toNat
    | _ => s.busFault by_ 0x2000020038
  else s)

/-- The writing source that INJECT_REFUSED names, R420. -/
def injectSource : Initiator → Option Nat
  | .app h => some (0x80 + h.val)
  | .island => some srcIsland
  | _ => none

/-- The report that FC_INJECT states, R416: class, origin, code and group. -/
def injectReport (v : Word64) : ReportIn :=
  { origin := BitVec.ofNat 12 (bits v.toNat 55 44), group := BitVec.ofNat 6 (bits v.toNat 35 30),
    code := BitVec.ofNat 8 (bits v.toNat 43 36), cls := BitVec.ofNat 3 (bits v.toNat 58 56), blame := none, ctx := 0, part := 0,
    detail := 0 }

/-- An injection is admitted, R419 and R420: factory test mode, a class up to 4, a group, a unit that reports in it, and
a code of the group. -/
def State.injectOk (s : State) (v : Word64) : Bool :=
  let r := injectReport v
  s.boot.bootsel == 7 && reportLegal r && decide (r.origin.toNat / 512 = s.fab.nodeId.toNat)
    && unitInGroup r.group.toNat (r.origin.toNat % 512) && decide (r.code.toNat < groupCodes r.group.toNat)

/-- FC_INJECT, R419 and R420: the report enters as if the unit had raised it, or an INJECT_REFUSED primary is logged. An
injected report has no pin, so ACTIVE is clear. -/
def execFcInject (by_ : Initiator) (v : Word64) (s : State) : Host.Outcome State Fault Refusal :=
  .next (if s.aonUp then
    match injectSource by_ with
    | none => s.busFault by_ 0x2000020050
    | some src =>
      if s.injectOk v then (s.reportWith (injectReport v) false).unitReaction (injectReport v)
      else s.reportWith { origin := BitVec.ofNat 12 (s.sourceId srcFc), group := 35, code := 2, cls := 0, blame := none, ctx := 0,
                          part := 0, detail := BitVec.ofNat 32 src } false
  else s)

/-- FC_ALT_SW, R412 and R416: the island sets the level of FAULT_ALT outside pulses. -/
def execFcAltSw (by_ : Initiator) (level : Bool) (s : State) : Host.Outcome State Fault Refusal :=
  .next (if s.aonUp then
    match by_ with
    | .island => s.onFc (fun c => { c with altSw := level })
    | _ => s.busFault by_ 0x2000020048
  else s)

/-- OVERFLOW_CLEAR, R407 and R404: the island clears FC_SUMMARY.OVERFLOW. -/
def execOverflowClear (by_ : Initiator) (s : State) : Host.Outcome State Fault Refusal :=
  .next (if s.aonUp then
    match by_ with
    | .island => s.onFc (fun c => { c with overflow := false }.settle)
    | _ => s.busFault by_ 0x2000020008
  else s)

/-- ERROR_PIN_RELEASE, R408: the pin is deasserted and ACTIVE of its record clears. -/
def execErrorPinRelease (origin : BitVec 12) (group : BitVec 6) (code : Byte) (s : State) : Host.Outcome State Fault Refusal :=
  .next (if s.aonUp then
    s.onFc (fun c =>
      { c with slots := c.slots.map (fun kv =>
          if kv.2.origin == origin && kv.2.group == group && kv.2.code == code then (kv.1, { kv.2 with active := false }) else kv) })
  else s)

/-! ## The safety island -/

/-- ISLAND_TMR_DEVIATE, R392: the deviating core is reset and reloaded, class 1; a disagreement of the other two in that
time is class 4. -/
def execIslandTmrDeviate (k : Fin 3) (s : State) : Host.Outcome State Fault Refusal :=
  .next (if s.aonUp then
    match s.isl.tmrOut with
    | none => (s.onIsl (fun i => { i with tmrOut := some k })).raise srcIsland 27 0 1 k.val
    | some j => if j = k then s else s.raise srcIsland 27 1 4 k.val
  else s)

/-- ISLAND_RELOAD_COMPLETE, R392: the deviating core is reloaded and TMR resumes. -/
def execIslandReloadComplete (s : State) : Host.Outcome State Fault Refusal :=
  .next (if s.aonUp then s.onIsl (fun i => { i with tmrOut := none }) else s)

/-- A heartbeat was missing or wrong, R391: the second in a row is class 4. -/
def State.heartbeatMiss (s : State) : State :=
  let s1 := s.onIsl (fun i => { i with hbMisses := i.hbMisses + 1, hbRun := i.hbRun + 1 })
  if 2 ≤ s1.isl.hbRun then s1.raise srcSched 22 0 4 0 else s1

/-- The island waits for a heartbeat whose 25 us have passed. -/
def State.heartbeatLate (s : State) : Bool :=
  s.inFrames && match s.isl.lastHeartbeat with
    | none => expired s.now (s.thisFrame + 25000)
    | some t => expired s.now (t + 250000 + 25000)

/-- HEARTBEAT_TIMEOUT, R391: no correct heartbeat within 25 us of a tick boundary. The boundary counts as passed, so the
next one is awaited. -/
def execHeartbeatTimeout (s : State) : Host.Outcome State Fault Refusal :=
  .next (if s.up && s.heartbeatLate then
    (s.onIsl (fun i => { i with lastHeartbeat := some ((i.lastHeartbeat.map (· + 250000)).getD s.thisFrame) })).heartbeatMiss
  else s)

/-- A class 3 fault of an application-core pair, R393; its commands to rated windows are no longer admitted. -/
def State.watchdogFault (s : State) (pair : Nat) : State :=
  (s.onIsl (fun i => { i with wdBarred := setAt i.wdBarred pair true })).raise (0x80 + 2 * pair) 26 0 3 pair

/-- A kick is right, R393: the previous value plus 1, within WD_MIN to WD_MAX of the previous write. -/
def State.kickOk (s : State) (pair : Nat) (v : BitVec 16) : Bool :=
  match s.isl.wdLast.getD pair none with
  | none => v == s.isl.wdValue.getD pair 0 + 1
  | some t => v == s.isl.wdValue.getD pair 0 + 1 && decide (t + s.cfg 0x710002 * 1000000 ≤ s.now)
      && decide (s.now ≤ t + s.cfg 0x710003 * 1000000)

/-- The effect of an admitted write of WD_KICK, R393. -/
def State.kick (s : State) (pair : Nat) (v : BitVec 16) : State :=
  let s1 := s.onIsl (fun i => { i with wdValue := setAt i.wdValue pair v, wdLast := setAt i.wdLast pair (some s.now) })
  if s.kickOk pair v then s1 else s1.watchdogFault pair

/-- WATCHDOG_EXPIRY, R393: WD_MAX has passed since the previous write without a kick. -/
def execWatchdogExpiry (pair : Fin 6) (s : State) : Host.Outcome State Fault Refusal :=
  .next (match s.isl.wdLast.getD pair.val none with
    | some t =>
      if s.up && expired s.now (t + s.cfg 0x710003 * 1000000) then
        (s.onIsl (fun i => { i with wdLast := setAt i.wdLast pair.val none })).watchdogFault pair.val
      else s
    | none => s)

end Sys2Proof.Machine
end

