-- ==== Sys2Proof/WellFormed.lean ====
section
/-! DEFINITION. Which commands are well formed: the ranges that the rules give their operands and that the types do not already
fix. A command that is not well formed stands for no event of the hardware. -/

namespace Sys2Proof

/-- Payload bytes of a frame of a client's carrier, R456, or of the window's data registers, R463. -/
def Client.payload (c : Client) : Nat := match c.origin with | .f => 2024 | .s => 1448 | .p => 4072 | .l => 128 | .y => 128

/-- A client's identity on its path, R448: F door and CAN source address, L application core, S source address and port, Y none, P
node. -/
def clientOk (c : Client) : Bool :=
  match c.origin with
  | .f => decide (c.who < 512) && c.port == 0
  | .l => decide (c.who < 12) && c.port == 0
  | .s => decide (c.who < 2 ^ 128) && decide (c.port < 65536)
  | .y => c.who == 0 && c.port == 0
  | .p => decide (c.who < 8) && c.port == 0

/-- A request: a known client, and TID 0 on the window, R475. -/
def reqOk (q : Req) : Bool :=
  clientOk q.client && (match q.client.origin with | .l => q.tid == 0 | .y => q.tid == 0 | _ => true)

/-- An access: within the 48-bit map, R43, of at least one byte, with as many bytes written as its length. -/
def accessOk (a : Access) : Bool :=
  decide (1 ≤ a.len) && decide (a.addr + a.len ≤ 2 ^ 48)
    && (match a.write with | some bs => bs.length == a.len | none => !a.poisonIn)

/-- A flit names a virtual channel and credits of a virtual channel, R424 and R425. -/
def flitOk (f : Flit) : Bool := decide (f.vc.toNat < 3) && decide (f.crVc.toNat < 3)

/-- The command is well formed. -/
def wellFormed : Instr → Bool
  | .gptpPort q _ => reqOk q
  | .release e => decide (e < 65536)
  | .continueEntry e => decide (e < 65536)
  | .poolEntry e => decide (e < 65536)
  | .radioEntry e => decide (e < 65536)
  | .entryEnd e => decide (e < 65536)
  | .heldReleaseStart e => decide (e < 65536)
  | .goldenDrain slot => decide (slot < 16)
  | .goldenSlotStart slot => decide (slot < 16)
  | .goldenCheck slot => decide (slot < 16)
  | .csi2Line _ _ _ wc pixels _ _ _ => decide (wc < 65536) && pixels.all (fun p => p.all (fun x => decide (x < 65536)))
  | .ethFrameReceive f => decide (f.payload.length ≤ f.bytes)
  | .batchNext q _ _ => reqOk q
  | .carrierOn q _ => reqOk q
  | .syncDetection _ _ ant0 ant1 _ => ant0.length == ant1.length && ant0.length % 4 == 0
  | .gridSymbol _ symbol samples => decide (symbol.toNat < 14) && samples.length % 8 == 0
  | .rfSpiXfer q _ v => reqOk q && decide (v.length ≤ q.client.payload)
  | .decoderJobLand _ job => job.length == 64
  | .txDescriptorLand _ desc => desc.length == 64
  | .rxSubmit q _ _ => reqOk q
  | .rxRevert q _ _ => reqOk q
  | .memoryAccess a => accessOk a
  | .scrubRead _ addr _ _ => addr % 4 == 0 && decide (addr < 2 ^ 48)
  | .faultReport r => decide (r.group.toNat < 36) && decide (r.cls.toNat ≤ 4)
  | .wdKick q _ _ => reqOk q
  | .flitData _ f => flitOk f
  | .flitIdle _ f => flitOk f
  | .read q => reqOk q
  | .write q v => reqOk q && decide (v.length ≤ q.client.payload)
  | .openRead q _ => reqOk q
  | .openWrite q _ => reqOk q
  | .seg q _ v => reqOk q && decide (v.length ≤ q.client.payload)
  | .end_ q _ => reqOk q
  | .describe q => reqOk q
  | .abort q => reqOk q
  | .response q => reqOk q
  | .kdpTransferExpiry c _ => clientOk c
  | .kdpDupExpiry c _ => clientOk c
  | .stateReq q _ => reqOk q
  | .claim q v => reqOk q && decide (v.length ≤ q.client.payload)
  | .timerWrite q _ v => reqOk q && decide (v.length ≤ q.client.payload)
  | .actEpoch q _ => reqOk q
  | .rollbackCommit q _ => reqOk q
  | .quoteReq q v => reqOk q && decide (v.length ≤ q.client.payload)
  | .mrExtend q v => reqOk q && decide (v.length ≤ q.client.payload)
  | .dbgChallenge q => reqOk q
  | .dbgResponse q v => reqOk q && decide (v.length ≤ q.client.payload)
  | .secJobLand job => job.length == 192
  | .recSlot q _ => reqOk q
  | .recReboot q _ => reqOk q
  | .pwrStateReq q _ => reqOk q
  | .pwrCap q _ => reqOk q
  | .thermalSample die lake => die.length == 40 && lake.length == 8
  | .registerWrite _ addr _ => addr % 8 == 0 && decide (addr < 2 ^ 48)
  | .kdpFrameDiscard c _ _ => clientOk c
  | .porstNRise _ _ | .porstNFall _ | .warmReset | .slotCheckComplete _ | .lakeTrainingComplete _ _
  | .lpddrTrainingComplete _ _ | .memoryInitComplete _ | .lpInitAdvance | .phase1SectionRead _ | .phase2SectionRead _
  | .exerciseReadback _ | .exerciseLatch _ _ | .exerciseClear _ | .clockMonitorAlarm _ | .voltageMonitorAlarm _ _
  | .timebaseMeasurement _ | .sourceSilenceTimeout | .holdoverExit | .ppsInEdge | .ppsOutEdge | .tickStart
  | .heartbeatTimeout | .frameStart | .fsyncEdge _ | .violationSecondEnd | .packetLand _ | .voidFill _ | .nop _ | .halt _
  | .tileEnd _ | .jump _ _ | .loop _ _ _ | .setlc _ _ _ | .setx _ _ _ | .addx _ _ _ | .addxr _ _ _ _ | .mulxi _ _ _ _
  | .illegalInstruction _ | .waitSeq _ _ _ _ _ | .waitSeqRetire _ | .signal _ _ _ _ _ | .mloadw _ _ _ _ _
  | .mpass _ _ _ _ _ _ _ _ _ _ _ | .passStart _ | .passComplete _ | .drainComplete _ _ _ | .interlockRelease _ | .tmv _ _ _
  | .tileMoveStart _ _ | .tileMoveLand _ _ | .vadd _ _ _ _ _ _ | .vsub _ _ _ _ _ _ | .vmul _ _ _ _ _ _ | .vfma _ _ _ _ _ _
  | .vmin _ _ _ _ _ _ | .vmax _ _ _ _ _ _ | .vcmp _ _ _ _ _ _ | .vsel _ _ _ _ _ _ | .vcvt _ _ _ _ _ _ | .viadd _ _ _ _ _ _
  | .vimul _ _ _ _ _ _ | .vand _ _ _ _ _ _ | .vor _ _ _ _ _ _ | .vshift _ _ _ _ _ _ | .vld _ _ _ | .vst _ _ _
  | .vred _ _ _ _ _ _ | .vbcast _ _ _ _ _ _ | .vsfu _ _ _ _ _ _ | .tileBoundaryReached _ | .tileOverrun _ | .start _ _ _
  | .resume _ _ _ | .preempt _ _ _ | .teardown _ _ _ | .golden _ _ _ | .reset _ _ _ | .ccGroupWrite _ _ _
  | .groupChangeApply _ | .groupPortDecide _ _ _ _ | .resyncCopyStart _ | .resyncCopyLanded _ | .resyncStateSend _
  | .resyncRestart _ | .occupantPreempt _ | .slackResume _ | .goldenTestEnd _ _ | .segmentStart _ | .segmentEnd _ _
  | .deadlineCheck _ | .remapStart _ | .remapComplete _ _ | .remapTimeout _ | .submit _ _ | .cmdNop _ _ | .runJob _ _
  | .open_ _ _ | .fork _ _ | .leave _ _ | .block _ _ | .unblock _ _ | .cmdTeardown _ _ | .modelLoad _ _ | .modelLoadComplete
  | .modelPin _ _ | .splitPair _ _ | .reformPair _ _ | .ctxQuery _ _ | .cqFaultClear _ | .stepBoundary _ _ _ _
  | .swapOutComplete _ | .swapInComplete _ | .stepDecisionReceive _ _ | .stepDecisionTimeout _ _ | .csi2FrameStart _ _ _
  | .csi2FrameEnd _ _ _ | .decodeStart _ | .decodeComplete _ | .decodeBudgetExpiry _ | .batchClose _ | .batchRecordWrite _
  | .jesdAlign _ | .sysrefEdge _ _ | .jesdLinkError _ _ | .jesdAlignmentLoss _ _ | .slotBoundary _ _ | .agcWindowEnd _ _
  | .agcSettleEnd _ | .agcSymbolEnd _ | .rfTxListStart _ | .decoderJobStart _ | .decoderJobComplete _ | .decoderDeadline _ _
  | .decoderShareStop _ | .harqBufferExpiry _ _ _ | .psfchOccasion _ | .validationComplete _ _ _ _ | .pageIdleClose _ _
  | .refreshDue _ _ _ | .lakeAlert _ | .retirementCopyComplete _ | .attributionTimeout | .altPulseEnd | .fcClear _ _ _
  | .fcInject _ _ | .fcAltSw _ _ | .overflowClear _ | .islandTmrDeviate _ | .islandReloadComplete | .watchdogExpiry _
  | .linkTrainComplete _ _ | .flitNak _ _ | .fabRetryTimeout _ | .linkSilenceTimeout _ | .quarantineExpiry _
  | .quarantineTestEnd _ _ | .fabWrite _ _ | .fabRead _ _ | .readResp _ _ | .fabSignal _ _ | .fabError _ _ | .e2eAck _ _ _
  | .e2eAckTimer | .hello _ _ | .linkState _ _ | .discoveryEnd | .fabJoinTimeout | .dwWordAccess _ _ | .kdpPeerTimeout _
  | .runTransitionComplete | .timerFire _ | .timerPulseEnd _ | .epochPass | .rollbackBitBlown | .quoteSigned
  | .dbgNonceExpiry | .secJobComplete | .standbyEntry | .wakeIn _ | .wakeRelease _ _ | .capEvaluate _ | .powerCorrection _ _
  | .avsBandUpdate _ | .avsTransactionFail _ | .avsRetry _ _ | .thermalCapStep | .mfioEdgeCapture _ | .errorPinRelease _ _ _
  | .vddAonLoss | .refclkLoss | .ppsOutFall | .fsyncPulseEnd _ | .flashProgramDone _ => true

end Sys2Proof
end

