-- ==== Sys2Proof/Machine/DictOps.lean ====
section
/-! DEFINITION. The dictionary server: clients and their limits (R448, R456), answers, duplicates and throttles (R461, R472,
R473), claims (R467 to R470), what an accepted write does, and transfers (R459, R460, R462, R466). -/

/-! ## Clients, R448 and R456 -/

namespace Sys2Proof

/-- The client uses a window slot. -/
def Client.window (c : Client) : Bool := c.origin == .l || c.origin == .y

/-- Its window slot; the island's is kept as slot 12. -/
def Client.slot (c : Client) : Nat := if c.origin = .y then 12 else c.who

/-- Open transactions that a client may have, R448. -/
def Client.limit (c : Client) : Nat := match c.origin with | .f => 4 | .l => 1 | .s => 8 | .y => 1 | .p => 8

/-- WHO of a change-log record, R475. -/
def Client.logWho (c : Client) : Nat :=
  match c.origin with | .f => c.who % 65536 | .l => c.who | .s => c.who % 2 ^ 64 | .y => 0 | .p => c.who

end Sys2Proof

namespace Sys2Proof.Machine

/-- The key under which a client's violations are counted. -/
def clientKey (c : Client) : Nat × Nat × Nat := ((Origin.code c.origin), c.who, c.port)

/-- The key of the entry that a request names. -/
def reqKey (q : Req) : Nat := keyOf q.index q.sub

/-- The dictionary server is reachable for a client: in RECOVERY the ROM serves the service door only, R490 and R498. -/
def State.served (s : State) (c : Client) : Bool :=
  s.up && match s.boot.stage with
    | .exercise => true
    | .firmware => true
    | .online => true
    | .recovery => c.origin == .s
    | _ => false

/-- A window slot. -/
def State.dwSlot (s : State) (k : Nat) : DwSlot := sget {} s.dict.window k

/-- A window slot changed. -/
def State.onDwSlot (s : State) (k : Nat) (f : DwSlot → DwSlot) : State := s.onDict (fun d => { d with window := supd {} d.window k f })

/-- Open transactions of a client: transfers, and requests answered later. -/
def State.openTx (s : State) (c : Client) : Nat :=
  (s.dict.transfers.filter (fun t => t.client == c)).length + (s.dict.waitingTx.filter (fun q => q.client == c)).length

/-! ## Answers -/

/-- The operation in a client's window slot completes with a code, R463. -/
def State.slotDone (s : State) (c : Client) (code : Nat) : State :=
  s.onDwSlot c.slot (fun w => { w with code := code, done := true, busy := false })

/-- The stored responses of a client's last 16 transactions, with one more, R461. -/
def keepDone (c : Client) (l : List Done) (d : Done) : List Done :=
  let mine := l.filter (fun x => x.client == c)
  l.filter (fun x => x.client != c) ++ (mine ++ [d]).drop (mine.length + 1 - 16)

/-- A transaction completes with its response: the window's registers, or a RESPONSE that is kept for repeats. -/
def State.answer (s : State) (q : Req) (code : Nat) (payload : Bytes) : State :=
  if q.client.window then (s.slotDone q.client code).onDwSlot q.client.slot (fun w => { w with data := pasteAt w.data 0 payload })
  else (s.emit (.response q.client q.tid code payload)).onDict (fun d =>
    let x : Done :=
      { client := q.client, tid := q.tid, index := q.index, sub := q.sub, crc := q.crc, code := code, payload := payload, time := s.now }
    { d with doneTx := keepDone q.client d.doneTx x })

/-- A request whose response is sent later. -/
def State.defer (s : State) (q : Req) : State :=
  let s1 := s.onDict (fun d => { d with waitingTx := d.waitingTx ++ [q] })
  if q.client.window then s1.onDwSlot q.client.slot (fun w => { w with busy := true, done := false }) else s1

/-- The late response of a client's request. -/
def State.finishTx (s : State) (c : Client) (tid : BitVec 16) (code : Nat) : State :=
  match s.dict.waitingTx.find? (fun q => q.client == c && q.tid == tid) with
  | none => s
  | some q => (s.onDict (fun d => { d with waitingTx := d.waitingTx.filter (· != q) })).answer q code []

/-- The open transfer of a client with a TID. -/
def State.transfer (s : State) (c : Client) (tid : BitVec 16) : Option Transfer :=
  s.dict.transfers.find? (fun t => t.client == c && t.tid == tid)

/-- An open transfer changed. -/
def State.onTransfer (s : State) (c : Client) (tid : BitVec 16) (f : Transfer → Transfer) : State :=
  s.onDict (fun d => { d with transfers := d.transfers.map (fun t => if t.client = c ∧ t.tid = tid then f t else t) })

/-- An open transfer ends without its commit. -/
def State.dropTransfer (s : State) (c : Client) (tid : BitVec 16) : State :=
  s.onDict (fun d => { d with transfers := d.transfers.filter (fun t => !(t.client == c && t.tid == tid)) })

/-- An ABORT from the server: it ends the transfer of that TID, R460. -/
def State.serverAbort (s : State) (c : Client) (tid : BitVec 16) (code : Nat) : State :=
  let s1 := s.dropTransfer c tid
  if c.window then s1.slotDone c code else s1.emit (.abort c tid code)

/-! ## Violations and throttles, R472, R473 and R550 -/

/-- A violation of a client, with its record while the client is not throttled; origin Y is never throttled. -/
def State.kdpViolation (s : State) (c : Client) (tid : BitVec 16) : State :=
  let limit := if c.origin = .y then 2 ^ 64 else s.cfg 0x170004
  let s1 := if violThrottled (clientKey c) s.dict.viols then s
            else s.logEvent srcDict 0 .kdpViolation [(Origin.code c.origin), c.who, c.port, tid.toNat]
  s1.onDict (fun d => { d with kdpViol := d.kdpViol + 1, viols := violAdd limit s.now (clientKey c) d.viols })

/-- A window violation counts in DW_VIOL as well, R463 and R464. -/
def State.windowViolation (s : State) (c : Client) : State :=
  (s.kdpViolation c 0).onDict (fun d => { d with dwViol := d.dwViol + 1 })

/-- A throttled client has used up its admissions of this second. -/
def State.throttledOut (s : State) (c : Client) : Bool :=
  violThrottled (clientKey c) s.dict.viols && decide (s.cfg 0x170005 ≤ (violOf (clientKey c) s.dict.viols).admitted)

/-- KDP_IDLE_MS in ns. -/
def State.idleNs (s : State) : Nat := s.cfg 0x170002 * 1000000

/-- The client's transfers whose expiry has passed end with TIMEOUT, and its responses older than 1 s are forgotten, before
a frame of the client is looked at, R461 and R462. -/
def State.expireStale (s : State) (c : Client) : State :=
  let late := s.dict.transfers.filter (fun t => t.client == c && !inTime s.now (t.lastFrame + s.idleNs))
  (late.foldl (fun u t => u.serverAbort c t.tid aTimeout) s).onDict (fun d =>
    { d with doneTx := d.doneTx.filter (fun x => x.client != c || decide (s.now ≤ x.time + 1000000000)) })

/-- A request begins: repeats are answered from the store, a reused TID is a violation, a throttled client and one at its limit
are refused. The flag says that the checks of R453 follow. -/
def State.admitReq (s : State) (q : Req) : State × Bool :=
  let c := q.client
  let s0 := s.expireStale c
  let gate : State × Bool :=
    if s0.throttledOut c then
      ((s0.onDict (fun d => { d with viols := violRequest (clientKey c) false d.viols })).answer q aThrottled [], false)
    else if c.limit ≤ s0.openTx c then (s0.answer q aBusy [], false)
    else (s0.onDict (fun d => { d with viols := violRequest (clientKey c) true d.viols }), true)
  let again := fun (t : State) => t.onDict (fun d => { d with kdpDup := d.kdpDup + 1 })
  if c.window then (if (s0.dwSlot c.slot).busy then (s0.windowViolation c, false) else gate)
  else match s0.dict.doneTx.find? (fun d => d.client == c && d.tid == q.tid) with
    | some d =>
      if d.index = q.index ∧ d.sub = q.sub ∧ d.crc = q.crc then (again (s0.emit (.response c q.tid d.code d.payload)), false)
      else ((s0.kdpViolation c q.tid).emit (.abort c q.tid aProtocol), false)
    | none => match s0.transfer c q.tid with
      | some t =>
        if t.key = reqKey q ∧ t.reqCrc = q.crc then (again (s0.emit (.response c q.tid aOk t.opening)), false)
        else ((s0.kdpViolation c q.tid).serverAbort c q.tid aProtocol, false)
      | none => match s0.dict.waitingTx.find? (fun w => w.client == c && w.tid == q.tid) with
        | some w => if w = q then (again s0, false) else ((s0.kdpViolation c q.tid).emit (.abort c q.tid aProtocol), false)
        | none => gate

/-! ## Claims, R467 to R470, R536 to R538 -/

/-- A ball stops being driven, and a timer pulse on it ends, R538. -/
def State.dropBall (s : State) (r : Nat) : State :=
  (s.onPins (fun p =>
    if r < 0x20 then { p with mfio := BitVec.ofNat 32 (withBit p.mfio.toNat r false) }
    else if r < 0x24 then { p with fsync := setAt p.fsync (r - 0x20) false }
    else if r = 0x24 then { p with ppsOut := false }
    else if 0x28 ≤ r ∧ r < 0x30 then
      { p with gain := updAt p.gain ((r - 0x28) / 4) (fun g => BitVec.ofNat 4 (withBit g.toNat ((r - 0x28) % 4) false)) }
    else p)).onDict (fun d => { d with timers := d.timers.map (fun kv => if kv.2.ball = r then (kv.1, { kv.2 with pulseEnd := none }) else kv) })

/-- A claim or release is logged, R474: `kind` 2 or 3, the origin's code, WHO and TID, and the owner that excluded it. -/
def State.logClaim (s : State) (kind origin who : Nat) (tid : BitVec 16) (r : Nat) (old new : Claim) (code other : Nat) : State :=
  s.logChange s.now
    { deviceChange with
      index := BitVec.ofNat 16 (0x100 + r), kind := kind, origin := origin, who := who, tid := tid, resource := r, result := code,
      oldDigest := digest8 (claimBytes old), newDigest := digest8 (claimBytes new), length := 24, otherOwner := other }

/-- An enable claims its pins with HOW 3, R470. -/
def State.enablePins (s : State) (origin who : Nat) (tid : BitVec 16) (owner : Nat) (pins : List Nat) : State :=
  pins.foldl (fun t r =>
    if (sfind t.dict.claims r).isSome then t
    else
      let c : Claim := { owner := owner, function := 1, how := 3, by_ := origin }
      (t.onDict (fun d => { d with claims := sput d.claims r c })).logClaim 2 origin who tid r {} c aOk 0xFFFF) s

/-- A disabled feature releases the pins that its enable claimed, R470. -/
def State.disablePins (s : State) (origin who : Nat) (tid : BitVec 16) (owner : Nat) (pins : List Nat) : State :=
  pins.foldl (fun t r =>
    match sfind t.dict.claims r with
    | some c =>
      if c.owner = owner ∧ c.how = 3 then
        ((t.onDict (fun d => { d with claims := sdel d.claims r })).dropBall r).logClaim 3 origin who tid r c {} aOk 0xFFFF
      else t
    | none => t) s

/-- The claim that a record states, R468 and R469. -/
def State.claimRecord (s : State) (origin : Nat) (v : Bytes) : Claim :=
  { owner := fieldAt v 0 2, function := fieldAt v 2 1, sregion := fieldAt v 3 1, first := fieldAt v 4 2, last := fieldAt v 6 2,
    name := slice v 8 8, how := if s.inRun then 2 else 1, by_ := origin }

/-- An accepted write of a claim record: a release, a claim, or the same owner again. -/
def State.applyClaim (s : State) (origin r : Nat) (v : Bytes) : State :=
  if fieldAt v 0 2 = 0xFFFF then
    if (sfind s.dict.claims r).isNone then s else (s.onDict (fun d => { d with claims := sdel d.claims r })).dropBall r
  else if (sfind s.dict.claims r).isSome then s
  else s.onDict (fun d => { d with claims := sput d.claims r (s.claimRecord origin v) })

/-! ## Timers, R471 -/

/-- Timer n. -/
def State.timer (s : State) (n : Nat) : Timer := sget {} s.dict.timers n

/-- Timer n changed. -/
def State.onTimer (s : State) (n : Nat) (f : Timer → Timer) : State := s.onDict (fun d => { d with timers := supd {} d.timers n f })

/-- The first instant of a timer armed now: one-shot timers that are past fire at once, periodic ones at their next instant. -/
def firstFire (now first period : Nat) : Nat :=
  if now < first then first else if period = 0 then now else first + (now - first + period - 1) / period * period

/-- An accepted TIMER record takes effect; a pulse on a ball that the timer no longer names ends. -/
def State.applyTimer (s : State) (n : Nat) (v : Bytes) : State :=
  let old := s.timer n
  let b := fieldAt v 26 2
  let s1 := if old.pulseEnd.isSome ∧ old.ball ≠ b then s.dropBall old.ball else s
  s1.onTimer n (fun t =>
    { first := fieldAt v 0 8, period := fieldAt v 8 4, width := fieldAt v 12 4, msiAddr := fieldAt v 16 8, msiData := fieldAt v 24 2,
      ball := b, en := fieldAt v 28 1 == 1,
      nextFire := if fieldAt v 28 1 = 1 then some (firstFire s.now (fieldAt v 0 8) (fieldAt v 8 4)) else none, pulseEnd := t.pulseEnd })

/-! ## The activation record's entries, R496 and R497 -/

/-- The passing of the epoch: PASSED is written, and a KIND 5 record names the old and the new ACT_STATE, R474. -/
def State.passEpoch (s : State) : State :=
  (s.writeAct (fun r => { r with passed := true })).logChange s.now
    { deviceChange with index := 0x9100, sub := 2, kind := 5, oldDigest := BitVec.ofNat 64 s.actState, newDigest := 4, length := 1 }

/-- ACT_EPOCH takes a value, R497. -/
def State.applyEpoch (s : State) (n : Nat) : State :=
  let s1 := s.writeAct (fun r => { r with epoch := n, passed := false })
  if 0 < n ∧ n ≤ s.now then s1.passEpoch else s1

/-- The slot that a transfer of STAGE or REC_IMAGE writes. -/
def State.flashSlot (s : State) (key : Nat) : Bool := if key = kStage then s.stageSlot else s.cfg 0x9F0001 == 1

/-- The entry's content goes to the flash while it arrives. -/
def flashKey (key : Nat) : Bool := key == kStage || key == kRecImage

/-- What opening a write does before any data, R496 and R499: STAGE clears STAGED, PASSED and EPOCH; the slot is erased. -/
def State.openFlash (s : State) (key : Nat) : State :=
  if flashKey key then
    (if key = kStage then s.writeAct (fun r => { r with staged := none, passed := false, epoch := 0 }) else s).onFlash
      (fun f => f.onSlot (s.flashSlot key) (fun _ => []))
  else s

/-- Bytes programmed into the slot of a transfer. -/
def State.programFlash (s : State) (key off : Nat) (bs : Bytes) : State :=
  if flashKey key then s.onFlash (fun f => f.onSlot (s.flashSlot key) (fun m => programBytes m off bs)) else s

/-- An image commits: STAGE is staged (R496); REC_IMAGE becomes the active slot (R499). -/
def State.commitImage (s : State) (key : Nat) (v : Bytes) : State :=
  let b := s.flashSlot key
  if key = kStage then
    s.writeAct (fun r =>
      { r with staged := some b, stageCrc := BitVec.ofNat 32 (crc32c v), badA := r.badA && b, badB := r.badB && !b })
  else s.writeAct (fun r => { r with active := b, staged := none, badA := false, badB := false })

/-- The image that REC_IMAGE has written is valid: R487 with every section's digest; the BAD flag belongs to the former content. -/
def State.imageValid (s : State) (b : Bool) : Bool :=
  s.flash.headerOk b && s.flash.keyOk b && s.flash.signatureOk b && decide (s.flash.rollback ≤ fieldAt (s.flash.header b) 0x10 1)
    && (s.flash.badSection b (fun _ => true)).isNone

/-! ## Debug unlock, R504 -/

/-- The message that a debug response signs. -/
def State.debugMessage (s : State) (nonce : Bytes) (scope : Nat) : Bytes :=
  nonce ++ leBytes 8 s.ident.toNat ++ leBytes 4 s.flash.act.bootCount.toNat ++ leBytes 1 scope

/-- A response answers the nonce in force with a good signature. -/
def State.debugOk (s : State) (v : Bytes) : Bool :=
  match s.sec.nonce with
  | none => false
  | some (n, t) =>
    decide (s.now ≤ t + 60000000000)
      && sm2Verify (s.flash.debugPub.getD (fieldAt v 1 1) []) (slice v 8 64) (s.debugMessage n (fieldAt v 0 1))

/-! ## What an accepted write does -/

/-- The checks that an entry makes when it acts: the clear of R414, the signature of R504, the image of R499. -/
def State.actVerdict (s : State) (origin who : Nat) (e : Entry) (v : Bytes) : Nat :=
  match e.first with
  | 0x700003 =>
    let _ := who
    let r := s.clearResult origin (bits (leNat v) 55 48) (bits (leNat v) 47 0)
    if r = 0 then aOk else if r = 2 then aRights else aRange
  | 0x940002 => if s.debugOk v then aOk else aRange
  | 0x9f0100 => if s.imageValid (s.flashSlot kRecImage) then aOk else aRange
  | _ => aOk

/-- What those checks leave behind, accepted or not: the clear's result register, the spent nonce. -/
def State.actEffect (s : State) (origin who : Nat) (e : Entry) (v : Bytes) : State :=
  match e.first with
  | 0x700003 => s.clearRecord origin who (bits (leNat v) 55 48) (bits (leNat v) 47 0)
  | 0x940002 =>
    if s.debugOk v then
      (s.onSec (fun x => { x with nonce := none, dbgState := BitVec.ofNat 8 (fieldAt v 0 1) })).onBoot
        (fun b => b.extend 0 (fitBytes 32 (slice v 0 1)))
    else s.onSec (fun x => { x with nonce := none })
  | _ => s

/-- CARRIER_ON takes a value: the pins of doors that start are claimed, those of doors that stop released, R242 and R244. -/
def State.applyCarriers (s : State) (origin who : Nat) (tid : BitVec 16) (n : Nat) : State :=
  let on := s.doorsOn n
  let s1 := on.foldl (fun t d => t.enablePins origin who tid (0x120 + d) (radioPins d)) s
  let s2 := s1.switchCarriers n
  ([0, 1].filter (fun d => !on.contains d)).foldl (fun t d => t.disablePins origin who tid (0x120 + d) (radioPins d)) s2

/-- GPTP_PORT takes a value, R33. -/
def State.applyGptp (s : State) (origin who : Nat) (tid : BitVec 16) (v : Bytes) : State :=
  let s1 := (s.setEntry kGptpPort v).onTb (fun t => { t with src := leNat v })
  if leNat v = 2 then s1.enablePins origin who tid 0x111 [0x25] else s1.disablePins origin who tid 0x111 [0x25]

/-- Entries of the engines that act on a write. -/
def State.commitA (s : State) (origin who : Nat) (tid : BitVec 16) (first i : Nat) (v : Bytes) : Option State :=
  match first with
  | 0x180001 => some (s.applyGptp origin who tid v)
  | 0x201000 => some ((s.setEntry kSchedule v).onSched (fun x => { x with table := some (parseSchedule v) }))
  | 0x448000 => some (s.assembleStore i (BitVec.ofNat 32 (leNat v)))
  | 0x500002 => some (s.applyCarriers origin who tid (leNat v))
  | 0x503001 => some ((s.setEntry (0x503001 + i) v).spiXfer i v)
  | 0x531001 => some (s.submitBank i (BitVec.ofNat 32 (leNat v)))
  | 0x533001 => some (if leNat v = 1 then s.revertBank i else s)
  | 0x710101 => some (s.kick i (BitVec.ofNat 16 (leNat v)))
  | 0x700001 => some (s.onFc (fun c => { c with threshold := leNat v }))
  | 0x700002 => some (s.onFc (fun c => { c with altClass := leNat v }))
  | 0x803001 => some (s.onPwr (fun p => { p with req := some (leNat v == 2) }))
  | _ => none

/-- Entries of the dictionary, boot and security that act on a write. -/
def State.commitB (s : State) (c : Client) (origin : Nat) (tid : BitVec 16) (first i key : Nat) (v : Bytes) : Option State :=
  match first with
  | 0x000005 => some (s.onDict (fun d => { d with transition := some (c, tid) }))
  | 0x010000 => some (s.applyClaim origin i v)
  | 0x040000 => some ((s.setEntry key v).applyTimer i v)
  | 0x910001 => some (s.applyEpoch (leNat v))
  | 0x911000 => some (s.commitImage kStage v)
  | 0x9f0100 => some (s.commitImage kRecImage v)
  | 0x912002 => some (if leNat v = s.flash.rollback then s else s.onSec (fun x => { x with commit := some (c, tid, leNat v) }))
  | 0x930001 => some (s.onSec (fun x =>
      { x with quoteQueue := x.quoteQueue ++ [{ client := c, tid := tid, nonce := slice v 0 32, mask := BitVec.ofNat 8 (fieldAt v 32 1) }] }))
  | 0x931101 => some (s.onBoot (fun b => b.extend (fieldAt v 0 1) (slice v 4 32)))
  | 0x700003 => some s
  | 0x940002 => some s
  | 0x9f0002 => some s
  | _ => none

/-- An accepted write takes effect; every other entry stores its value, R466. -/
def State.commitValue (s : State) (c : Client) (origin : Nat) (tid : BitVec 16) (key : Nat) (e : Entry) (v : Bytes) : State :=
  ((s.commitA origin c.logWho tid e.first (e.pos key) v).or (s.commitB c origin tid e.first (e.pos key) key v)).getD (s.setEntry key v)

/-- The response to an accepted write comes later, R451, R500 and R503. -/
def State.respondsLate (s : State) (e : Entry) (v : Bytes) : Bool :=
  match e.first with
  | 0x000005 => true
  | 0x912002 => leNat v != s.flash.rollback
  | 0x930001 => true
  | _ => false

/-- The change-log record of a write, R474 and R475. -/
def State.logWrite (s : State) (q : Req) (origin : Nat) (old v : Bytes) (d : Verdict) : State :=
  let e := findEntry (reqKey q)
  let claim := (e.map (fun x => x.first == 0x010000)).getD false
  let r := q.index.toNat - 0x100
  s.logChange s.now
    { deviceChange with
      index := q.index, sub := q.sub, origin := origin, result := d.code
      kind := if claim then (if fieldAt v 0 2 = 0xFFFF then 3 else 2) else if (e.map (fun x => x.ty == 10)).getD false then 1 else 0
      unchanged := d.code == 0 && old == v
      oldDigest := digest8 old, newDigest := digest8 v, who := if origin = 5 then 0 else q.client.logWho
      tid := if q.client.window then 0 else q.tid, resource := if claim then r else d.resource, length := v.length
      otherOwner := d.owner }

/-- The record of a claim that an enable did not get, R474. -/
def State.logRefusedPin (s : State) (q : Req) (origin : Nat) (e : Entry) (v : Bytes) (d : Verdict) : State :=
  if d.code = aConflict ∧ (e.first = 0x180001 ∨ e.first = kCarrierOn) then
    let owner := if e.first = 0x180001 then 0x111 else ((s.doorsOn (leNat v)).find? (fun k => (radioPins k).contains d.resource)).elim 0x120 (· + 0x120)
    s.logClaim 2 origin q.client.logWho q.tid d.resource (sget {} s.dict.claims d.resource)
      { owner := owner, function := 1, how := 3, by_ := origin } aConflict d.owner
  else s

/-- The event of a refused schedule table, R303. -/
def State.logTable (s : State) (e : Entry) (v : Bytes) (code : Nat) : State :=
  if e.first = kSchedule ∧ code ≠ 0 then
    s.logEvent srcSched 0 .tableRefused [(s.checkTable v).2, s.tableFailsAt v (s.checkTable v).2]
  else s

/-- A write or an END reaches the checks of R453: the state, the abort code, and whether its response comes later. `opened` says
that the first four checks passed at OPEN_WRITE, of which the state's gate is applied again, R449. `origin` is the code of
R475. -/
def State.performWrite (s : State) (q : Req) (origin : Nat) (v : Bytes) (opened : Bool) : State × Nat × Bool :=
  let key := reqKey q
  match findEntry key with
  | none => (s.logWrite q origin [] v { code := aNoEntry }, aNoEntry, false)
  | some e =>
    let who := q.client.logWho
    let rights := if origin = 5 then 2 else origin
    let first := if opened then (if s.stateAdmits q.client.origin e then aOk else aState) else s.openVerdict q.client.origin key
    let d : Verdict := if first ≠ 0 then { code := first } else s.contentVerdict origin key e v
    let old := s.entryValue key e
    if d.code ≠ 0 then
      let s1 := if first = 0 then s.logTable e v d.code else s
      (((s1.logWrite q origin old v d).logRefusedPin q origin e v d), d.code, false)
    else
      let a := s.actVerdict rights who e v
      let s1 := (s.actEffect rights who e v).logWrite q origin old v { code := a }
      if a ≠ 0 then (s1, a, false) else (s1.commitValue q.client origin q.tid key e v, aOk, s.respondsLate e v)

/-- A client's write after its admission: a DOMAIN written in one frame is opened and filled first, R459. -/
def State.clientWrite (s : State) (q : Req) (v : Bytes) : State × Nat × Bool :=
  let key := reqKey q
  if flashKey key ∧ s.openVerdict q.client.origin key = 0 ∧ v.length ≤ s.flash.slotLen then
    ((s.openFlash key).programFlash key 0 v).performWrite q (Origin.code q.client.origin) v true
  else s.performWrite q (Origin.code q.client.origin) v false

/-- What follows the response: a write of 1 to REC_REBOOT is a warm reset, R499. -/
def State.afterResponse (s : State) (q : Req) (code : Nat) (v : Bytes) : State :=
  if reqKey q = 0x9F0002 ∧ code = 0 ∧ leNat v = 1 then s.warmReset else s

/-- A WRITE of a client, R453 and R458. -/
def State.write (s : State) (q : Req) (v : Bytes) : State :=
  let a := s.admitReq q
  if !a.2 then a.1
  else
    let r := a.1.clientWrite q v
    (if r.2.2 then r.1.defer q else r.1.answer q r.2.1 []).afterResponse q r.2.1 v

/-! ## Reads -/

/-- The 44 bytes of DBG_CHALLENGE with its fresh nonce, R504. -/
def State.challenge (s : State) : State × Bytes :=
  let n := fitBytes 32 (Config.freeBytes s.fresh 32)
  ((s.fresh1.onSec (fun x => { x with nonce := some (n, s.now) })),
    n ++ leBytes 8 s.ident.toNat ++ leBytes 4 s.flash.act.bootCount.toNat)

/-- The value that a read returns; a challenge is made by its read, and a rail's measured voltage is fresh. -/
def State.readValue (s : State) (key : Nat) (e : Entry) : State × Bytes :=
  if e.first = 0x940001 then s.challenge
  else (if e.first = 0x802001 then s.fresh1 else s, s.entryValue key e)

/-- A READ of a client, R458. -/
def State.read (s : State) (q : Req) : State :=
  let a := s.admitReq q
  if !a.2 then a.1
  else
    let code := a.1.readVerdict q.client.origin (reqKey q)
    match findEntry (reqKey q) with
    | none => a.1.answer q code []
    | some e =>
      if code ≠ 0 then a.1.answer q code []
      else if q.client.payload < (a.1.entryValue (reqKey q) e).length then a.1.answer q aType []
      else ((a.1.readValue (reqKey q) e).1).answer q aOk (a.1.readValue (reqKey q) e).2

/-- The 24 bytes of a DESCRIBE, R458. -/
def State.describeBytes (s : State) (e : Entry) : Bytes :=
  leBytes 1 e.ty ++ leBytes 1 e.gate ++ leBytes 2 e.access ++ leBytes 4 (s.entrySize e) ++ leBytes 8 e.lo ++ leBytes 8 e.hi

/-- A DESCRIBE of a client, R458: a read of the entry, by rights and state. -/
def State.describe (s : State) (q : Req) : State :=
  let a := s.admitReq q
  if !a.2 then a.1
  else
    let code := a.1.readVerdict q.client.origin (reqKey q)
    match findEntry (reqKey q) with
    | none => a.1.answer q code []
    | some e => if code ≠ 0 then a.1.answer q code [] else a.1.answer q aOk (a.1.describeBytes e)

/-! ## Transfers -/

/-- A transfer opens; its opening response does not complete the transaction. -/
def State.openTransfer (s : State) (q : Req) (t : Transfer) : State :=
  let s1 := s.onDict (fun d => { d with transfers := d.transfers ++ [t] })
  if q.client.window then s1.slotDone q.client aOk else s1.emit (.response q.client q.tid aOk t.opening)

/-- OPEN_WRITE of a client, R459. -/
def State.openWrite (s : State) (q : Req) (length : Nat) : State :=
  let a := s.admitReq q
  if !a.2 then a.1
  else
    let code := a.1.openVerdict q.client.origin (reqKey q)
    match findEntry (reqKey q) with
    | none => a.1.answer q code []
    | some e =>
      if code ≠ 0 then a.1.answer q code []
      else if e.ty ≠ 10 then a.1.answer q aType []
      else if a.1.entrySize e < length then a.1.answer q aRange []
      else ((a.1.openFlash (reqKey q)).openTransfer q
        { client := q.client, tid := q.tid, key := reqKey q, isWrite := true, length := length, content := [], lastFrame := s.now,
          reqCrc := q.crc }).onDwSlot q.client.slot (fun w => if q.client.window then { w with pos := 0 } else w)

/-- The bytes of a read from START: of CHANGE_LOG the records at or after a CHSEQ (R476), else from a byte offset that is a
multiple of 8 within the content. -/
def State.readFrom (s : State) (key : Nat) (e : Entry) (start : Nat) : Option Bytes :=
  if e.first = 0xa02000 then
    some (((s.dict.changes.filter (fun c => c.chseq == start || serialBefore48 start c.chseq)).map s.changeBytes).flatten)
  else
    let v := s.entryValue key e
    if start % 8 ≠ 0 ∨ v.length < start then none else some (v.drop start)

/-- SEG frames of a read go out, at most KDP_WINDOW ahead of the acknowledgements, R460. -/
def State.sendSegs : Nat → State → Client → BitVec 16 → State
  | 0, s, _, _ => s
  | f + 1, s, c, tid =>
    match s.transfer c tid with
    | none => s
    | some t =>
      if t.sent < t.nextSeg + s.cfg 0x170001 ∧ t.sent * c.payload < t.length then
        State.sendSegs f ((s.emit (.segData c tid t.sent (slice t.content (t.sent * c.payload) c.payload))).onTransfer c tid
          (fun x => { x with sent := x.sent + 1 })) c tid
      else s

/-- OPEN_READ of a client, R460 and R466. -/
def State.openRead (s : State) (q : Req) (start : Nat) : State :=
  let a := s.admitReq q
  if !a.2 then a.1
  else
    let code := a.1.readVerdict q.client.origin (reqKey q)
    match findEntry (reqKey q) with
    | none => a.1.answer q code []
    | some e =>
      if code ≠ 0 then a.1.answer q code []
      else if e.ty ≠ 10 then a.1.answer q aType []
      else match a.1.readFrom (reqKey q) e start with
        | none => a.1.answer q aRange []
        | some v =>
          let crc := crc32c v
          let s1 := a.1.openTransfer q
            { client := q.client, tid := q.tid, key := reqKey q, isWrite := false, length := v.length, content := v,
              crc := BitVec.ofNat 32 crc, lastFrame := s.now, reqCrc := q.crc, opening := leBytes 4 v.length ++ leBytes 4 crc }
          if q.client.window then
            s1.onDwSlot q.client.slot (fun w =>
              { w with pos := 0, crc := BitVec.ofNat 32 crc, data := pasteAt w.data 8 (leBytes 4 v.length ++ leBytes 4 0) })
          else s1.sendSegs 16 q.client q.tid

/-- A frame of an open transfer: its expiry moves, and a frame within 64 ns of the expiry is marginal, R462. -/
def State.heardTransfer (s : State) (t : Transfer) : State :=
  (if marginal s.now (t.lastFrame + s.idleNs) then s.onDict (fun d => { d with kdpMarginal := d.kdpMarginal + 1 }) else s).onTransfer
    t.client t.tid (fun x => { x with lastFrame := s.now })

/-- A violation that ends a transfer with a code. -/
def State.breakTransfer (s : State) (c : Client) (tid : BitVec 16) (code : Nat) : State := (s.kdpViolation c tid).serverAbort c tid code

/-- The next segment of a write, R459 and R496: taken, and acknowledged once the flash holds it. -/
def State.takeSeg (s : State) (q : Req) (t : Transfer) (num : Nat) (v : Bytes) : State :=
  if t.length < t.content.length + v.length then s.breakTransfer q.client q.tid aType
  else if v.length % 8 ≠ 0 ∧ t.content.length + v.length < t.length then s.breakTransfer q.client q.tid aType
  else
    let s1 := s.onTransfer q.client q.tid (fun x =>
      { x with content := x.content ++ v, nextSeg := num + 1, pos := x.pos + v.length,
               flashWait := if flashKey x.key then x.flashWait ++ [(num, v)] else x.flashWait })
    if flashKey t.key then s1 else s1.emit (.segAck q.client q.tid num)

/-- A SEG frame, R459 and R460; `v` is empty in an acknowledgement of a read. -/
def State.seg (s : State) (q : Req) (num : Nat) (v : Bytes) : State :=
  let s0 := s.expireStale q.client
  match s0.transfer q.client q.tid with
  | none => (s0.kdpViolation q.client q.tid).emit (.abort q.client q.tid aProtocol)
  | some t =>
    let s1 := s0.heardTransfer t
    if t.nextSeg + s0.cfg 0x170001 ≤ num then s1.breakTransfer q.client q.tid aProtocol
    else if t.isWrite then
      if t.nextSeg < num then s1.emit (.segAck q.client q.tid t.nextSeg)
      else if num < t.nextSeg then s1.emit (.segAck q.client q.tid num)
      else s1.takeSeg q t num v
    else if !v.isEmpty then s1.breakTransfer q.client q.tid aProtocol
    else if t.nextSeg ≤ num ∧ num < t.sent then
      (s1.onTransfer q.client q.tid (fun x => { x with nextSeg := num + 1 })).sendSegs 16 q.client q.tid
    else s1

/-- The END of a write: length, CRC, then the content checks, R459. -/
def State.endWrite (s : State) (q : Req) (t : Transfer) (crc : Word) : State :=
  let s1 := s.dropTransfer q.client q.tid
  let refuse : Nat → State := fun code =>
    (s1.logWrite q (Origin.code q.client.origin) ((findEntry t.key).elim [] (s.entryValue t.key)) t.content { code := code }).answer q code []
  let gate := ((findEntry t.key).map (fun e => s.stateAdmits q.client.origin e)).getD false
  if !gate then refuse aState
  else if t.content.length ≠ t.length then refuse aType
  else if crc.toNat ≠ crc32c t.content then refuse aCrc
  else
    let r := s1.performWrite q (Origin.code q.client.origin) t.content true
    r.1.answer q r.2.1 []

/-- An END frame, R459 and R460. The header names the entry of its transfer. -/
def State.endTransfer (s : State) (q : Req) (crc : Word) : State :=
  let s0 := s.expireStale q.client
  match s0.transfer q.client q.tid with
  | none =>
    match s0.dict.doneTx.find? (fun d => d.client == q.client && d.tid == q.tid && d.index == q.index && d.sub == q.sub && d.crc == q.crc) with
    | some d =>
      (s0.emit (.response q.client q.tid d.code d.payload)).onDict (fun x => { x with kdpDup := x.kdpDup + 1 })
    | none =>
      if q.client.window then (s0.windowViolation q.client).slotDone q.client aProtocol
      else (s0.kdpViolation q.client q.tid).emit (.abort q.client q.tid aProtocol)
  | some t =>
    let s1 := s0.heardTransfer t
    let q1 : Req := { q with index := BitVec.ofNat 16 (t.key / 256), sub := BitVec.ofNat 8 t.key }
    if !t.isWrite then (s1.dropTransfer q.client q.tid).answer q1 aOk []
    else if t.flashWait.isEmpty then s1.endWrite q1 t crc
    else s1.onTransfer q.client q.tid (fun x => { x with ending := some (q1, crc) })

/-- An ABORT frame, R460 and R472: it ends its transfer with ABORTED; without one it is ignored. -/
def State.abortTransfer (s : State) (q : Req) : State :=
  let s0 := s.expireStale q.client
  match s0.transfer q.client q.tid with
  | none => if q.client.window then s0.slotDone q.client aOk else s0
  | some _ => s0.serverAbort q.client q.tid aAborted

/-- The flash has programmed and read back the oldest waiting segment, or its erase is over; a segment that failed is dropped with
those behind it and must be sent again, R496. -/
def State.flashDone (s : State) (ok : Bool) : State :=
  match s.dict.transfers.find? (fun t => flashKey t.key && !t.flashWait.isEmpty) with
  | none => s
  | some t =>
    match t.flashWait with
    | [] => s
    | (num, bs) :: rest =>
      let off := t.content.length - ((t.flashWait.map (fun x => x.2.length)).sum)
      if ok then
        let s1 := ((s.programFlash t.key off bs).onTransfer t.client t.tid (fun x => { x with flashWait := rest })).emit
          (.segAck t.client t.tid num)
        match rest, t.ending with
        | [], some (q, crc) => s1.endWrite q { t with flashWait := [] } crc
        | _, _ => s1
      else
        s.onTransfer t.client t.tid (fun x =>
          { x with flashWait := [], content := x.content.take off, nextSeg := num, pos := off, ending := none })

/-! ## The window's DW_WORD, R464 -/

/-- The address of DW_WORD of a slot. -/
def dwWordAddr (k : Nat) : Nat := 0x2000000000 + 0x100 + k * 0x100 + 0x20

/-- The client of a window slot. -/
def slotClient (k : Nat) : Client := if k = 12 then { origin := .y, who := 0, port := 0 } else { origin := .l, who := k, port := 0 }

/-- DW_WORD is misused: a violation, and the open transfer ends with TYPE; a read returns zero. -/
def State.wordMisuse (s : State) (k : Nat) (write : Bool) : State :=
  let c := slotClient k
  let s1 := s.windowViolation c
  let s2 := if (s.transfer c 0).isSome then (s1.dropTransfer c 0).slotDone c aType else s1
  if write then s2 else s2.emit (.regData (dwWordAddr k) 0)

/-- An access to DW_WORD moves the next 8 bytes of the slot's transfer. -/
def State.dwWord (s : State) (k : Nat) (write : Option Word64) : State :=
  let c := slotClient k
  let s0 := s.expireStale c
  match s0.transfer c 0 with
  | none => s0.wordMisuse k write.isSome
  | some t =>
    let s1 := s0.heardTransfer t
    if t.length ≤ t.pos ∨ t.isWrite ≠ write.isSome then s1.wordMisuse k write.isSome
    else
      let n := min 8 (t.length - t.pos)
      let moved := fun (u : State) => (u.onTransfer c 0 (fun x => { x with pos := x.pos + n })).onDwSlot k (fun w => { w with pos := t.pos + n })
      match write with
      | some w =>
        let bs := leBytes n w.toNat
        ((moved s1).onTransfer c 0 (fun x => { x with content := x.content ++ bs })).programFlash t.key t.pos bs
      | none =>
        let w : Word64 := BitVec.ofNat 64 (leNat (slice t.content t.pos n))
        ((moved s1).onDwSlot k (fun x => { x with word := w })).emit (.regData (dwWordAddr k) w)

/-! ## Window commands, R463 -/

/-- The request that a slot's DW_CMD makes. -/
def slotReq (k : Nat) (cmd : Word64) : Req :=
  { client := slotClient k, tid := 0, index := BitVec.ofNat 16 (bits cmd.toNat 31 16), sub := BitVec.ofNat 8 (bits cmd.toNat 15 8), crc := 0 }

/-- A WRITE through the window of a DOMAIN entry with a LENGTH above 128, R459 and R463: refused with TYPE after the first checks of R453. -/
def State.overlong (s : State) (q : Req) : State :=
  let a := s.admitReq q
  if !a.2 then a.1
  else
    let first := a.1.openVerdict q.client.origin (reqKey q)
    let code := if first = 0 then aType else first
    (a.1.logWrite q (Origin.code q.client.origin) ((findEntry (reqKey q)).elim [] (a.1.entryValue (reqKey q))) [] { code := code }).answer q code []

/-- A write of DW_CMD starts the operation; while one runs it is ignored and counted. -/
def State.windowCommand (s : State) (k : Nat) (cmd : Word64) : State :=
  let c := slotClient k
  let w := s.dwSlot k
  if w.busy then s.windowViolation c
  else
    let q := slotReq k cmd
    let len := bits cmd.toNat 63 32
    let s1 := s.onDwSlot k (fun x => { x with cmd := cmd, done := false })
    let size := match findEntry (reqKey q) with | some e => if e.ty = 10 then len else e.size | none => 0
    match bits cmd.toNat 7 0 with
    | 1 => s1.read q
    | 2 => if 128 < size then s1.overlong q else s1.write q (fitBytes size w.data)
    | 3 => s1.openRead q (fieldAt (fitBytes 128 w.data) 0 8)
    | 4 => s1.openWrite q len
    | 6 => s1.endTransfer q w.crc
    | 7 => s1.describe q
    | 8 => s1.abortTransfer q
    | _ => (s1.windowViolation c).slotDone c aProtocol

end Sys2Proof.Machine
end

