-- ==== Sys2Proof/Machine/Dictionary.lean ====
section
/-! DEFINITION. The commands of the dictionary server: the KDP requests and the window (R458 to R464), the writes that have a
row of their own, violations and expiries (R461, R462, R472), and the compare timers (R471, R537, R538). A request is ignored
while the server is not reachable (R490, R511), a CAN frame for another passes on (R457), and a row that names an entry acts only on a
request for that entry. -/

namespace Sys2Proof.Machine

/-- A request's frame is one for the server: on a field door a CAN XL frame whose SDT is KDP_SDT and whose destination is KDP_ADDR, R457; on the
service door a datagram to the port KDP_UDP_PORT, R456. -/
def State.ourFrame (s : State) (q : Req) : Bool :=
  match q.client.origin with
  | .f => q.can.any (fun f => f.xl && f.sdt.toNat == s.cfg 0x140001 && f.dest.toNat == s.cfg 0x140004)
  | .s => q.udpPort.toNat == s.cfg 0x150001
  | _ => true

/-- A request reaches the server. -/
def State.heard (s : State) (q : Req) : Bool := s.served q.client && s.ourFrame q

/-- A CAN frame that is not for the server goes to the network path of its field door, R457. -/
def State.passOn (s : State) (q : Req) : State :=
  if s.served q.client && !s.ourFrame q then
    match q.can with
    | some f => s.emit (.toNetwork (2 + q.client.who / 256) f.bytes)
    | none => s
  else s

/-- A request for the entry of a row reaches the server. -/
def State.heardFor (s : State) (q : Req) (key : Nat) : Bool := s.heard q && reqKey q == key

/-! ## KDP requests, R455 to R460 -/

/-- READ, R458. -/
def execRead (q : Req) (s : State) : Host.Outcome State Fault Refusal := .next (if s.heard q then s.read q else s.passOn q)

/-- WRITE, R453 and R458. -/
def execWrite (q : Req) (v : Bytes) (s : State) : Host.Outcome State Fault Refusal := .next (if s.heard q then s.write q v else s.passOn q)

/-- OPEN_READ, R460. -/
def execOpenRead (q : Req) (start : Word64) (s : State) : Host.Outcome State Fault Refusal :=
  .next (if s.heard q then s.openRead q start.toNat else s.passOn q)

/-- OPEN_WRITE, R459. -/
def execOpenWrite (q : Req) (length : Word) (s : State) : Host.Outcome State Fault Refusal :=
  .next (if s.heard q then s.openWrite q length.toNat else s.passOn q)

/-- SEG, R459 and R460. -/
def execSeg (q : Req) (num : Word) (v : Bytes) (s : State) : Host.Outcome State Fault Refusal :=
  .next (if s.heard q then s.seg q num.toNat v else s.passOn q)

/-- END, R459 and R460. -/
def execEnd (q : Req) (crc : Word) (s : State) : Host.Outcome State Fault Refusal :=
  .next (if s.heard q then s.endTransfer q crc else s.passOn q)

/-- DESCRIBE, R458. -/
def execDescribe (q : Req) (s : State) : Host.Outcome State Fault Refusal := .next (if s.heard q then s.describe q else s.passOn q)

/-- ABORT, R460. -/
def execAbort (q : Req) (s : State) : Host.Outcome State Fault Refusal := .next (if s.heard q then s.abortTransfer q else s.passOn q)

/-- When the oldest transaction that the device has open at a node expires: KDP_TIMEOUT_P ns after it was sent, R462 and R478. -/
def State.peerExpiry (s : State) (node : Nat) : Option Nat :=
  (s.dict.peerTx.find? (fun t => t.1 == node)).map (fun t => t.2 + s.cfg 0x170003)

/-- The device has a transaction open at the node of a client, and it has not expired, R462. -/
def State.awaits (s : State) (c : Client) : Bool := c.origin == .p && (s.peerExpiry c.who).any (inTime s.now)

/-- An arrival within 64 ns of the expiry of the transaction open at a node counts in KDP_MARGINAL, R35 and R462. -/
def State.peerMarginal (s : State) (node : Nat) : State :=
  s.onDict (fun d => { d with kdpMarginal := d.kdpMarginal + (if (s.peerExpiry node).any (marginal s.now) then 1 else 0) })

/-- The oldest transaction open at a node ends. -/
def State.peerDone (s : State) (node : Nat) : State :=
  s.onDict (fun d => { d with peerTx := match d.peerTx.find? (fun t => t.1 == node) with | some t => d.peerTx.erase t | none => d.peerTx })

/-- RESPONSE, R472: a RESPONSE sent to the server is discarded and counted; one that the device awaits ends its own
transaction, R462. -/
def execResponse (q : Req) (s : State) : Host.Outcome State Fault Refusal :=
  .next (if s.heard q then
    (if s.awaits q.client then (s.peerMarginal q.client.who).peerDone q.client.who else s.kdpViolation q.client q.tid)
  else s.passOn q)

/-- DW_WORD_ACCESS, R464. -/
def execDwWordAccess (slot : Fin 13) (write : Option Word64) (s : State) : Host.Outcome State Fault Refusal :=
  .next (if s.served (slotClient slot.val) then s.dwWord slot.val write else s)

/-- KDP_FRAME_DISCARD, R472: a bad CRC or length is not answered; the other flaws are, with PROTOCOL. -/
def execKdpFrameDiscard (c : Client) (tid : BitVec 16) (flaw : FrameFlaw) (s : State) : Host.Outcome State Fault Refusal :=
  .next (if s.served c then
    match flaw with
    | .crcOrLength => s.kdpViolation c tid
    | .reserved => s.breakTransfer c tid aProtocol
    | .tooLong => s.breakTransfer c tid aProtocol
  else s)

/-! ## Expiries, R461 and R462 -/

/-- An open transfer has idled past its expiry. -/
def State.transferIdle (s : State) (c : Client) (tid : BitVec 16) : Bool :=
  match s.transfer c tid with
  | some t => expired s.now (t.lastFrame + s.idleNs)
  | none => false

/-- KDP_TRANSFER_EXPIRY, R462: an ABORT with TIMEOUT, and nothing is committed. -/
def execKdpTransferExpiry (c : Client) (tid : BitVec 16) (s : State) : Host.Outcome State Fault Refusal :=
  .next (if s.up && s.transferIdle c tid then s.serverAbort c tid aTimeout else s)

/-- The device's own transaction at a node has expired, R34 and R462. -/
def State.peerLate (s : State) (node : Nat) : Bool := (s.peerExpiry node).any (expired s.now)

/-- KDP_PEER_TIMEOUT, R462: the transaction ends, and the peer is told with an ABORT carrying TIMEOUT. -/
def execKdpPeerTimeout (node : BitVec 3) (s : State) : Host.Outcome State Fault Refusal :=
  .next (if s.up && s.peerLate node.toNat then
    (s.peerDone node.toNat).emit (.abort { origin := .p, who := node.toNat, port := 0 } 0 aTimeout)
  else s)

/-- KDP_DUP_EXPIRY, R461: a stored response older than 1 s is dropped. -/
def execKdpDupExpiry (c : Client) (tid : BitVec 16) (s : State) : Host.Outcome State Fault Refusal :=
  .next (if s.up then
    s.onDict (fun d => { d with doneTx := d.doneTx.filter (fun x => !(x.client == c && x.tid == tid && decide (x.time + 1000000000 < s.now))) })
  else s)

/-! ## Writes with a row of their own -/

/-- GPTP_PORT, R33. -/
def execGptpPort (q : Req) (v : Byte) (s : State) : Host.Outcome State Fault Refusal :=
  .next (if s.heardFor q kGptpPort then s.write q [v] else s.passOn q)

/-- WD_KICK, R393. -/
def execWdKick (q : Req) (pair : Fin 6) (v : BitVec 16) (s : State) : Host.Outcome State Fault Refusal :=
  .next (if s.heardFor q (0x710101 + pair.val) then s.write q (leBytes 2 v.toNat) else s.passOn q)

/-- BATCH_NEXT, R224. -/
def execBatchNext (q : Req) (b : BitVec 6) (k : Word) (s : State) : Host.Outcome State Fault Refusal :=
  .next (if s.heardFor q (0x448000 + 256 * b.toNat) then s.write q (leBytes 4 k.toNat) else s.passOn q)

/-- CARRIER_ON, R242. -/
def execCarrierOn (q : Req) (v : Byte) (s : State) : Host.Outcome State Fault Refusal :=
  .next (if s.heardFor q kCarrierOn then s.write q [v] else s.passOn q)

/-- RF_SPI_XFER, R244. -/
def execRfSpiXfer (q : Req) (door : BitVec 1) (v : Bytes) (s : State) : Host.Outcome State Fault Refusal :=
  .next (if s.heardFor q (0x503001 + door.toNat) then s.write q v else s.passOn q)

/-- RX_SUBMIT, R282. -/
def execRxSubmit (q : Req) (c : BitVec 2) (crc : Word) (s : State) : Host.Outcome State Fault Refusal :=
  .next (if s.heardFor q (0x531001 + c.toNat) then s.write q (leBytes 4 crc.toNat) else s.passOn q)

/-- RX_REVERT, R285. -/
def execRxRevert (q : Req) (c : BitVec 2) (v : Byte) (s : State) : Host.Outcome State Fault Refusal :=
  .next (if s.heardFor q (0x533001 + c.toNat) then s.write q [v] else s.passOn q)

/-- STATE_REQ, R451: the response comes with the transition's end. -/
def execStateReq (q : Req) (v : Byte) (s : State) : Host.Outcome State Fault Refusal :=
  .next (if s.heardFor q kStateReq then s.write q [v] else s.passOn q)

/-- The row of a request's entry. -/
def reqRow (q : Req) : Nat := ((findEntry (reqKey q)).map (·.first)).getD 0

/-- CLAIM, R468 and R469. -/
def execClaim (q : Req) (v : Bytes) (s : State) : Host.Outcome State Fault Refusal :=
  .next (if s.heard q && reqRow q == 0x010000 then s.write q v else s.passOn q)

/-- TIMER_WRITE, R471. -/
def execTimerWrite (q : Req) (n : BitVec 3) (v : Bytes) (s : State) : Host.Outcome State Fault Refusal :=
  .next (if s.heardFor q (0x040000 + 256 * n.toNat) then s.write q v else s.passOn q)

/-- ACT_EPOCH, R497. -/
def execActEpoch (q : Req) (v : Word64) (s : State) : Host.Outcome State Fault Refusal :=
  .next (if s.heardFor q 0x910001 then s.write q (leBytes 8 v.toNat) else s.passOn q)

/-- ROLLBACK_COMMIT, R500. -/
def execRollbackCommit (q : Req) (v : Byte) (s : State) : Host.Outcome State Fault Refusal :=
  .next (if s.heardFor q 0x912002 then s.write q [v] else s.passOn q)

/-- QUOTE_REQ of the requester's own origin, R503 and R507. -/
def execQuoteReq (q : Req) (v : Bytes) (s : State) : Host.Outcome State Fault Refusal :=
  .next (if s.heard q && reqRow q == 0x930001 then s.write q v else s.passOn q)

/-- MR_EXTEND, R502. -/
def execMrExtend (q : Req) (v : Bytes) (s : State) : Host.Outcome State Fault Refusal :=
  .next (if s.heard q && reqRow q == 0x931101 then s.write q v else s.passOn q)

/-- DBG_CHALLENGE, R504: a read. -/
def execDbgChallenge (q : Req) (s : State) : Host.Outcome State Fault Refusal :=
  .next (if s.heardFor q 0x940001 then s.read q else s.passOn q)

/-- DBG_RESPONSE, R504. -/
def execDbgResponse (q : Req) (v : Bytes) (s : State) : Host.Outcome State Fault Refusal :=
  .next (if s.heardFor q 0x940002 then s.write q v else s.passOn q)

/-- REC_SLOT, R499. -/
def execRecSlot (q : Req) (v : Byte) (s : State) : Host.Outcome State Fault Refusal :=
  .next (if s.heardFor q 0x9F0001 then s.write q [v] else s.passOn q)

/-- REC_REBOOT, R499: a warm reset follows the response. -/
def execRecReboot (q : Req) (v : Byte) (s : State) : Host.Outcome State Fault Refusal :=
  .next (if s.heardFor q 0x9F0002 then s.write q [v] else s.passOn q)

/-- PWR_STATE_REQ, R515. -/
def execPwrStateReq (q : Req) (v : Byte) (s : State) : Host.Outcome State Fault Refusal :=
  .next (if s.heardFor q 0x803001 then s.write q [v] else s.passOn q)

/-- PWR_CAP, R520. -/
def execPwrCap (q : Req) (v : BitVec 16) (s : State) : Host.Outcome State Fault Refusal :=
  .next (if s.heardFor q kPwrCap then s.write q (leBytes 2 v.toNat) else s.passOn q)

/-! ## Compare timers, R471 -/

/-- The level of an MFIO ball that the block drives, R536 and R537: function 3 or 4 is high while its field door is disabled (its
CAN balls not claimed with function 1) or the device is in standby entry. -/
def State.mfioHigh (s : State) (k : Nat) : Bool :=
  let standby := fun (d : Nat) => !(s.claimedWith (0x38 + 2 * d) 1 && s.claimedWith (0x39 + 2 * d) 1) || s.pwr.req.isSome
  if s.claimedWith k 3 then standby 0 else if s.claimedWith k 4 then standby 1 else s.pins.mfio.getLsbD k

/-- An MFIO ball is driven to a level. -/
def State.driveMfio (s : State) (k : Nat) (b : Bool) : State :=
  s.onPins (fun p => { p with mfio := BitVec.ofNat 32 (withBit p.mfio.toNat k b) })

/-- Timer n drives its ball, R468 and R471: its claim has FUNCTION 1, and the ball is an MFIO that its owner holds as a timer output, R536. -/
def State.timerDrives (s : State) (n : Nat) : Bool :=
  let b := (s.timer n).ball
  decide (b < 0x20) && s.claimedWith (0x100 + n) 1 && s.claimedWith b 1
    && ((s.claimOf b).map (·.owner)) == ((s.claimOf (0x100 + n)).map (·.owner))

/-- An armed timer that is claimed, R469, has reached its instant. -/
def State.timerDue (s : State) (n : Nat) : Bool :=
  (s.timer n).en && (s.claimOf (0x100 + n)).isSome && (match (s.timer n).nextFire with | some t => decide (t ≤ s.now) | none => false)

/-- The instant after a firing: FIRST + k x PERIOD goes on, a one-shot timer ends. -/
def Timer.after (t : Timer) : Option Nat := if t.period = 0 then none else t.nextFire.map (· + t.period)

/-- TIMER_FIRE, R471: the MSI, and the ball high for WIDTH. -/
def execTimerFire (n : BitVec 3) (s : State) : Host.Outcome State Fault Refusal :=
  .next (if s.up && s.timerDue n.toNat then
    let t := s.timer n.toNat
    let s1 := (s.emit (.msi t.msiAddr t.msiData)).onTimer n.toNat (fun x => { x with nextFire := x.after })
    if s.timerDrives n.toNat then (s1.driveMfio t.ball true).onTimer n.toNat (fun x => { x with pulseEnd := some (s.now + t.width) }) else s1
  else s)

/-- A pulse of a timer has lasted WIDTH. -/
def State.pulseDue (s : State) (n : Nat) : Bool :=
  match (s.timer n).pulseEnd with
  | some t => decide (t ≤ s.now)
  | none => false

/-- TIMER_PULSE_END, R471: the ball falls. -/
def execTimerPulseEnd (n : BitVec 3) (s : State) : Host.Outcome State Fault Refusal :=
  .next (if s.up && s.pulseDue n.toNat then
    (s.driveMfio (s.timer n.toNat).ball false).onTimer n.toNat (fun x => { x with pulseEnd := none })
  else s)

end Sys2Proof.Machine
end

