-- ==== Sys2Proof/Machine/RegOps.lean ====
section
/-! DEFINITION. The bus registers: the timebase unit (R42), core control (R85), the command windows (R317), the fault collector
(R416), Shutters and Louvres (R363, R367) and the dictionary window (R463): what a read returns and what a write does, by the
field types of R12. -/

namespace Sys2Proof.Machine

/-- The state that an outcome answers. -/
def State.after (s : State) (o : Host.Outcome State Fault Refusal) : State :=
  match o with
  | .next t => t
  | _ => s

/-! ## Reads -/

/-- TB_NOW, TB_STATUS and TB_FRAME, R42. DESIGN CHOICE, log 81: TB_FRAME follows R37 in RUN and DEGRADED and reads 0 in every other state, SAFE
after a RUN too. -/
def State.tbReg (s : State) (off : Nat) : Option Nat :=
  let t := s.tb
  let lockBit := match t.lock with | .free => 0 | .locked => 4 | .slewing => 8 | .holdover => 16
  match off with
  | 0x00 => some (t.now / 2 * 2)
  | 0x08 => some (flagAt t.monErr 0 + flagAt t.ppsSeen 1 + lockBit + flagAt t.stepped 5 + place (t.src % 4) 6 + flagAt t.synced 8)
  | 0x10 => some (if s.inRun then place (s.frameAt s.now) 16 + s.tickAt s.now else 0)
  | _ => none

/-- CC_STATE, R85. -/
def Core.stateWord (c : Core) : Nat :=
  place c.ctx.toNat 32 + place (c.pc % 65536) 16 + flagAt c.groupHeld.isSome 10 + flagAt (c.accBusy.getD 1 false) 9
    + flagAt (c.accBusy.getD 0 false) 8 + flagAt c.testDue 7 + flagAt c.atTb 6 + c.st.code

/-- The five registers of a core, R85; CC_GROUP reads back a held value at once, R84. -/
def Core.reg (c : Core) (off : Nat) : Option Nat :=
  match off with
  | 0x00 => some (place c.ctlCtx.toNat 32 + place c.ctlHdr.toNat 16 + place c.ctlPart.toNat 12)
  | 0x08 => some c.stateWord
  | 0x10 => some (match c.groupHeld with | some v => groupBits c.group v | none => c.group).toNat
  | 0x18 => some c.sig.toNat
  | 0x20 => some (place c.firstPc.toNat 32 + c.err.toNat)
  | _ => none

/-- FC_SUMMARY, R416. -/
def State.fcSummary (s : State) : Nat :=
  let c := s.fc
  place c.slots.length 16 + place c.threshold 8 + place c.altClass 4 + flagAt (s.dict.state == .safe) 3 + flagAt c.overflow 2
    + flagAt c.exercised 1 + flagAt s.faultNLow 0

/-- The log record at position k of the ring of 1,024, R409. -/
def Collector.logAt (c : Collector) (k : Nat) : Bytes := ((c.log.find? (fun r => r.seq % 1024 == k)).map faultBytes).getD []

/-- The collector's registers, R416; `key` is the reading origin's key of FC_CLEAR_RES. -/
def State.fcReg (s : State) (key off : Nat) : Option Nat :=
  let c := s.fc
  match off with
  | 0x00 => some c.status.toNat
  | 0x08 => some s.fcSummary
  | 0x10 => some c.firstTime
  | 0x18 => some c.firstId.toNat
  | 0x20 => some c.secondary
  | 0x28 => some c.dropped
  | 0x30 => some s.fcSeq
  | 0x38 => some 0
  | 0x40 => some (sget 0 c.clearRes key)
  | 0x48 => some (flagAt c.altSw 0)
  | 0x50 => some 0
  | _ =>
    if 0x100 ≤ off ∧ off < 0x2100 then
      some (fieldAt (((sfind c.slots ((off - 0x100) / 0x20)).map faultBytes).getD []) ((off - 0x100) % 0x20) 8)
    else if 0x8000 ≤ off then some (fieldAt (c.logAt ((off - 0x8000) / 0x20)) ((off - 0x8000) % 0x20) 8)
    else none

/-- Shutter and Louvre registers, R363 and R367. DESIGN CHOICE, log 82: a reserved offset of the block is a decode error. -/
def State.shReg (s : State) (off : Nat) : Option Nat :=
  let m := s.mem
  match off with
  | 0x00 => some (flagAt m.locked 1 + flagAt m.enforce 0)
  | 0x08 => some m.violAddr.toNat
  | 0x10 => some m.violSrc.toNat
  | 0x18 => some m.violCnt
  | _ =>
    if 0x100 ≤ off ∧ off < 0x1100 then
      let g := s.region ((off - 0x100) / 0x20)
      some (match (off - 0x100) % 0x20 / 8 with | 0 => g.base.toNat | 1 => g.limit.toNat | 2 => g.rights.toNat | _ => g.refused)
    else if 0x2000 ≤ off ∧ off < 0x2800 then
      let v := sget {} m.louvres ((off - 0x2000) / 0x20)
      match (off - 0x2000) % 0x20 / 8 with
      | 0 => some (place v.burst 32 + place v.limit 16 + v.reserve)
      | 1 => some v.bytes
      | 2 => some v.held
      | _ => none
    else none

/-- A register of slot h of a command window, R317; SUBMIT is not read here. -/
def Window.slotReg (w : Window) (h off : Nat) : Option Nat :=
  if off < 0x20 then some (w.recWord h (off / 8)).toNat
  else if off = 0x20 then some (sget 0 w.subStat h).toNat
  else if off = 0x30 ∨ off = 0x38 then some 0
  else none

/-- Registers of partition p's command window, R317. -/
def State.winReg (s : State) (p off : Nat) : Option Nat :=
  let w := s.window p
  match off with
  | 0x00 => some (place w.pending 8 + place (s.partClass p % 16) 4 + p)
  | 0x08 => some (flagAt w.irqEn 8 + w.cqLog2.toNat)
  | 0x10 => some (place w.cqBase.toNat 6)
  | 0x18 => some w.subNext.toNat
  | 0x20 => some w.cmplDone.toNat
  | 0x28 => some w.cmplLast.toNat
  | 0x30 => some w.msiAddr.toNat
  | 0x38 => some w.msiData.toNat
  | 0x40 => some (flagAt w.cqFault 1 + flagAt w.refused 0)
  | _ => if 0x100 ≤ off ∧ off < 0x400 then w.slotReg ((off - 0x100) / 0x40) ((off - 0x100) % 0x40) else none

/-- Registers of a slot of the dictionary window, R463; DW_WORD is not read here. DESIGN CHOICE, log 82: a reserved offset of the slot is a
decode error. -/
def DwSlot.reg (w : DwSlot) (off : Nat) : Option Nat :=
  match off with
  | 0x00 => some w.cmd.toNat
  | 0x08 => some (place w.code 32 + flagAt w.done 1 + flagAt w.busy 0)
  | 0x10 => some w.pos
  | 0x18 => some w.crc.toNat
  | _ => if 0x40 ≤ off ∧ off < 0xC0 then some (fieldAt (fitBytes 128 w.data) (off - 0x40) 8) else none

/-- Registers of the dictionary window. -/
def State.dwReg (s : State) (off : Nat) : Option Nat :=
  if off = 0 then some (place 1 8 + s.dict.state.code)
  else if off = 8 then some s.dict.dwViol
  else if 0x100 ≤ off ∧ off < 0xE00 then (s.dwSlot ((off - 0x100) / 0x100)).reg ((off - 0x100) % 0x100)
  else none

/-! ## Who reaches a register -/

/-- The slot of a window at an offset, from its base and size. -/
def slotAt (base size n off : Nat) : Option Nat := if base ≤ off ∧ off < base + n * size then some ((off - base) / size) else none

/-- The window slot of application core h: in lock mode a pair uses that of its lower core, R316 and R463. -/
def State.appSlot (s : State) (h : Nat) : Nat := if s.isl.lock.getLsbD (h / 2) then h / 2 * 2 else h

/-- A slot of the command window may be used: by its own application core, or the island, R316 and R361. -/
def State.winMay (s : State) (by_ : Initiator) (off : Nat) : Bool :=
  match by_ with
  | .app h => (slotAt 0x100 0x40 12 off).elim true (· == s.appSlot h.val)
  | .island => true
  | _ => false

/-- A slot of the dictionary window may be used: by its own application core, or the island's own slot, R463. -/
def State.dwMay (s : State) (by_ : Initiator) (off : Nat) : Bool :=
  match by_ with
  | .app h => (slotAt 0x100 0x100 13 off).elim true (· == s.appSlot h.val)
  | .island => (slotAt 0x100 0x100 13 off).elim true (· == 12)
  | _ => false

/-- The key under which the reader's FC_CLEAR_RES stands; none for an initiator that may not read the collector, R416. -/
def fcReader : Initiator → Option Nat
  | .app h => some (clearKey 1 h.val)
  | .island => some (clearKey 3 0)
  | _ => none

/-- Core control may be read by the application cores, the island and the schedule engine, R85. -/
def ccMayRead (by_ : Initiator) : Bool := mayControl by_ || (match by_ with | .app _ => true | _ => false)

/-- What meets an access to a register. -/
inductive RegHit where
  | value (n : Nat)
  | refused
  | fault
  deriving DecidableEq, Repr

/-- A register's value, or a decode error where there is none. -/
def RegHit.of (o : Option Nat) : RegHit := match o with | some n => .value n | none => .fault

/-- A read of a register without a side effect. -/
def State.regRead (s : State) (by_ : Initiator) (a : Nat) : RegHit :=
  match s.placeOf a with
  | .tbRegs off => .of (s.tbReg off)
  | .shutterRegs off => .of (s.shReg off)
  | .fcRegs off => match fcReader by_ with | some k => .of (s.fcReg k off) | none => .fault
  | .coreRegs l off => if ccMayRead by_ then .of ((s.core (s.phys l)).reg off) else .fault
  | .cmdWindow p off => if s.winMay by_ off then .of (s.winReg p off) else .refused
  | .dictWindow off => if s.dwMay by_ off then .of (s.dwReg off) else .refused
  | _ => .fault

/-! ## Writes -/

/-- A write of TB_STATUS, R42: PPS_SEEN and MON_ERR are W1C. -/
def State.tbWrite (s : State) (off : Nat) (v : Word64) : Option State :=
  match off with
  | 0x00 => some s
  | 0x08 => some (s.onTb (fun t => { t with ppsSeen := t.ppsSeen && !v.getLsbD 1, monErr := t.monErr && !v.getLsbD 0 }))
  | 0x10 => some s
  | _ => none

/-- A write of CC_CTL, R85: the row of its lowest command bit, or the fields alone. -/
def State.ccCtlWrite (s : State) (by_ : Initiator) (l : Nat) (v : Word64) : State :=
  let n := BitVec.ofNat 6 l
  if v.getLsbD 0 then s.after (execReset by_ n v s)
  else if v.getLsbD 1 then s.after (execStart by_ n v s)
  else if v.getLsbD 2 then s.after (execPreempt by_ n v s)
  else if v.getLsbD 3 then s.after (execResume by_ n v s)
  else if v.getLsbD 4 then s.after (execTeardown by_ n v s)
  else if v.getLsbD 5 then s.after (execGolden by_ n v s)
  else s.onCore (s.phys l) (fun c => c.ctlFields v)

/-- A write of CC_ERR, R85: W1C; FIRST_PC stands until the register is next set from clear. -/
def Core.clearErr (c : Core) (v : Word64) : Core := { c with err := c.err &&& ~~~(v.truncate 15) }

/-- A write in core control by an initiator that has the right; RO registers keep their values, R12. -/
def State.ccWrite (s : State) (by_ : Initiator) (l off : Nat) (v : Word64) : Option State :=
  if !mayControl by_ then none
  else match off with
    | 0x00 => some (s.ccCtlWrite by_ l v)
    | 0x08 => some s
    | 0x10 => some (s.after (execCcGroupWrite by_ (BitVec.ofNat 6 l) v s))
    | 0x18 => some s
    | 0x20 => some (s.onCore (s.phys l) (fun c => c.clearErr v))
    | _ => none

/-- A write of WIN_ERR, R317: clearing CQ_FAULT tries the held completions again. -/
def State.winErrWrite (s : State) (p : Nat) (v : Word64) : State :=
  let s1 := s.onWindow p (fun w => { w with refused := w.refused && !v.getLsbD 0 })
  if v.getLsbD 1 && (s.window p).cqFault then s1.retryHeld p else s1

/-- A write in a command window, R317. -/
def State.winWrite (s : State) (p off : Nat) (v : Word64) : Option State :=
  match off with
  | 0x08 => some (s.onWindow p (fun w => { w with irqEn := v.getLsbD 8, cqLog2 := v.truncate 5 }))
  | 0x10 => some (s.onWindow p (fun w => { w with cqBase := (v >>> 6).truncate 42 }))
  | 0x30 => some (s.onWindow p (fun w => { w with msiAddr := v &&& ~~~3#64 }))
  | 0x38 => some (s.onWindow p (fun w => { w with msiData := v.truncate 32 }))
  | 0x40 => some (s.winErrWrite p v)
  | _ =>
    match slotAt 0x100 0x40 12 off with
    | some h =>
      let k := (off - 0x100) % 0x40
      if k < 0x20 then some (s.onWindow p (fun w => { w with recW := sset 0 w.recW (h * 4 + k / 8) v })) else some s
    | none => (s.winReg p off).map (fun _ => s)

/-- A write in the dictionary window, R463 and R464; `off` lies in slot k. -/
def State.dwWrite (s : State) (k off : Nat) (v : Word64) : Option State :=
  match off with
  | 0x00 => some (s.windowCommand k v)
  | 0x18 => some (s.onDwSlot k (fun w => { w with crc := v.truncate 32 }))
  | 0x20 => some (s.dwWord k (some v))
  | _ =>
    if 0x40 ≤ off ∧ off < 0xC0 then
      some (s.onDwSlot k (fun w => { w with data := pasteAt (fitBytes 128 w.data) (off - 0x40) (leBytes 8 v.toNat) }))
    else ((s.dwSlot k).reg off).map (fun _ => s)

/-- A write in the fault collector, R416: any other write is a decode error. -/
def State.fcWrite (s : State) (by_ : Initiator) (off : Nat) (v : Word64) : Option State :=
  match off with
  | 0x08 => if v.getLsbD 2 then some (s.after (execOverflowClear by_ s)) else if by_ = .island then some s else none
  | 0x38 => some (s.after (execFcClear by_ (BitVec.ofNat 8 (bits v.toNat 55 48)) (v.truncate 48) s))
  | 0x48 => some (s.after (execFcAltSw by_ (v.getLsbD 0) s))
  | 0x50 => some (s.after (execFcInject by_ v s))
  | _ => none

/-- A write of the Shutter block, R363: VALID of SH_VIOL_SRC is W1C for the application cores and the island; every other
field is RO. -/
def State.shWrite (s : State) (by_ : Initiator) (off : Nat) (v : Word64) : Option State :=
  match by_, off with
  | .app _, 0x10 => some (s.onMem (fun m => if v.getLsbD 32 then { m with violSrc := m.violSrc &&& ~~~(1#64 <<< 32) } else m))
  | .island, 0x10 => some (s.onMem (fun m => if v.getLsbD 32 then { m with violSrc := m.violSrc &&& ~~~(1#64 <<< 32) } else m))
  | _, _ => (s.shReg off).map (fun _ => s)

/-- Only an application core or the island writes the timebase's register. -/
def tbMay : Initiator → Bool
  | .app _ => true
  | .island => true
  | _ => false

/-- A write of a register, R12: its fields by their types, or a refusal or a decode error. -/
def State.regWrite (s : State) (by_ : Initiator) (a : Nat) (v : Word64) : State :=
  let fault := s.busFault by_ a
  match s.placeOf a with
  | .tbRegs off => if tbMay by_ then (s.tbWrite off v).getD fault else fault
  | .shutterRegs off => (s.shWrite by_ off v).getD fault
  | .fcRegs off => (s.fcWrite by_ off v).getD fault
  | .coreRegs l off => (s.ccWrite by_ l off v).getD fault
  | .cmdWindow p off => if s.winMay by_ off then (s.winWrite p off v).getD fault else s.refusedBus by_ (s.partOf by_) a true none
  | .dictWindow off =>
    if !s.dwMay by_ off then s.refusedBus by_ (s.partOf by_) a true none
    else match slotAt 0x100 0x100 13 off with
      | some k => if s.served (slotClient k) then (s.dwWrite k ((off - 0x100) % 0x100) v).getD fault else s
      | none => (s.dwReg off).elim fault (fun _ => s)
  | _ => s

/-- An address names a register. -/
def State.isRegister (s : State) (a : Nat) : Bool :=
  match s.placeOf a with
  | .tbRegs _ => true
  | .shutterRegs _ => true
  | .fcRegs _ => true
  | .coreRegs _ _ => true
  | .cmdWindow _ _ => true
  | .dictWindow _ => true
  | _ => false

/-- The slot whose SUBMIT an address names, with its partition, R316. -/
def State.submitAt (s : State) (a : Nat) : Option (Nat × Nat) :=
  match s.placeOf a with
  | .cmdWindow p off => (slotAt 0x100 0x40 12 off).bind (fun h => if (off - 0x100) % 0x40 = 0x28 then some (p, h) else none)
  | _ => none

/-- The slot whose DW_WORD an address names, R463. -/
def State.wordAt (s : State) (a : Nat) : Option Nat :=
  match s.placeOf a with
  | .dictWindow off => (slotAt 0x100 0x100 13 off).bind (fun k => if (off - 0x100) % 0x100 = 0x20 then some k else none)
  | _ => none

/-- A read of a register: SUBMIT submits (R318), DW_WORD moves data (R464), every other register is only read. -/
def State.regAccess (s : State) (by_ : Initiator) (a : Nat) : State :=
  match s.submitAt a, s.wordAt a with
  | some (p, h), _ =>
    if s.winMay by_ (a % 0x1000) then (s.submitRead p h).emit (.regData a (s.submitValue p h)) else s.refusedBus by_ (s.partOf by_) a false none
  | none, some k =>
    if !s.dwMay by_ (a % 0x10000) then s.refusedBus by_ (s.partOf by_) a false none
    else if s.served (slotClient k) then s.dwWord k none
    else s
  | none, none => match s.regRead by_ a with
    | .value n => s.emit (.regData a (BitVec.ofNat 64 n))
    | .refused => s.refusedBus by_ (s.partOf by_) a false none
    | .fault => s.busFault by_ a

end Sys2Proof.Machine
end

