-- ==== Sys2Proof/Machine/Access.lean ====
section
/-! DEFINITION. Accesses to the address map (R43, R44, R361, R362) and writes of registers without a row of their own (R12). -/

namespace Sys2Proof.Machine

/-! ## Accesses -/

/-- An address of memory: a tier serves it. -/
def State.isMemory (s : State) (a : Nat) : Bool :=
  match s.placeOf a with
  | .lake _ _ => true
  | .lpddr _ => true
  | .reservoir _ => true
  | .pond _ _ => true
  | _ => false

/-- A decode error of an access, R44: an engine that works for a context loses it with a class 2 fault; the others take the outcome of their
kind. -/
def State.accessFault (s : State) (x : Access) : State :=
  match x.by_, x.ctx with
  | .engine _ src, some c => (s.raiseCtx src.toNat 29 0 2 c.toNat (s.ctxOf c.toNat).part.toNat (granule x.addr)).tearCtx c.toNat
  | _, _ => s.busFault x.by_ x.addr

/-- An access to memory, R361 and R362: refused, waiting (R336, R354, R359), or served. -/
def State.memAccess (s : State) (x : Access) : State :=
  let part := s.partOf x.by_
  let d := s.shutter x.by_ part x.addr x.len x.write.isSome
  if !s.isMemory (x.addr + x.len - 1) then s.accessFault x
  else if !d.1 then s.refusedBus x.by_ part x.addr x.write.isSome d.2
  else if s.mustWait x.addr x.len then s.onMem (fun m => { m with waiting := m.waiting ++ [x] })
  else s.serveMemory x

/-- An access to registers: one aligned register of 8 bytes. -/
def State.registerAccess (s : State) (x : Access) : State :=
  if x.len = 8 ∧ x.addr % 8 = 0 then
    match x.write with
    | some bs => s.regWrite x.by_ x.addr (BitVec.ofNat 64 (leNat bs))
    | none => s.regAccess x.by_ x.addr
  else s.accessFault x

/-- An access at the address where it is served, R43 and R361. -/
def State.accessAt (s : State) (x : Access) : State :=
  match s.placeOf x.addr with
  | .remote node a => match x.write with
    | some bs => s.remoteWrite x.by_ (s.partOf x.by_) node a bs x.poisonIn
    | none => s.remoteRead x.by_ (s.partOf x.by_) node a x.len
  | .reserved => s.accessFault x
  | _ => if s.isMemory x.addr then s.memAccess x else s.registerAccess x

/-- An access, R43 and R361; one that names this node's own id is local, R429. -/
def State.access (s : State) (x : Access) : State := s.accessAt { x with addr := s.homeAddr x.addr }

/-- MEMORY_ACCESS, R43, R44, R361 and R362. -/
def execMemoryAccess (a : Access) (s : State) : Host.Outcome State Fault Refusal := .next (if s.up then s.access a else s)

/-- REGISTER_WRITE, R12. -/
def execRegisterWrite (by_ : Initiator) (addr : Nat) (v : Word64) (s : State) : Host.Outcome State Fault Refusal :=
  .next (if s.up && s.isRegister addr then s.regWrite by_ addr v else s)

end Sys2Proof.Machine
end

