-- ==== Sys2Proof/Machine/Power.lean ====
section
/-! DEFINITION. Power capping, AVSBus and the thermal reactions (R512 to R523), and the waking edge (R516). -/

namespace Sys2Proof.Machine

/-! ## The cap, R517 to R520 -/

/-- The effective cap in W, R518. -/
def State.effectiveCap (s : State) : Nat :=
  match s.pwr.thermalCap with
  | some t => min (s.cfg kPwrCap) t
  | none => s.cfg kPwrCap

/-- A throttle level takes effect; levels 7 and 8 slow the application cores, R518. -/
def Power.setLevel (p : Power) (l : Nat) : Power := { p with level := l, appClock := l - 6 }

/-- One evaluation of R518 for an estimate in mW. -/
def Power.evaluate (p : Power) (now est cap : Nat) : Power :=
  let low := decide (est + 2000 ≤ cap * 1000)
  let since := if low then some (p.lowSince.getD now) else none
  let p0 := { p with estimate := est, lowSince := since }
  let held := match since with | some t => decide (t + 1000000 ≤ now) | none => false
  let p1 :=
    if cap * 1000 < est ∧ p0.level < 8 then { p0.setLevel (p0.level + 1) with capEvents := p0.capEvents + 1 }
    else if held && decide (0 < p0.level) then { p0.setLevel (p0.level - 1) with lowSince := some now }
    else p0
  { p1 with unmet := p1.level == 8 && decide (cap * 1000 < est) }

/-- The estimate with the correction of R517, in mW. -/
def Power.corrected (p : Power) (estimate : Nat) : Nat := ((estimate : Int) + p.correction).toNat

/-- The parts of an energy that the cores' jobs take, R333: each busy core's share goes to the partition of its job. -/
def State.energyParts (s : State) (nj : Nat) : List (Nat × Nat) :=
  ((List.range 64).filter (fun n => (s.core n).busy)).foldl (fun ps n =>
    ps ++ [((s.core n).ctlPart.toNat, min (Config.energyShare nj n) (nj - (ps.map (·.2)).sum))]) []

/-- Energy of one 10 us interval at P mW is 10 P nJ, R525; the cores' shares go to the partitions of their jobs, all else (tests, idle
time, the shared islands) to P0, R333 and R293. -/
def State.chargeEnergy (s : State) (est : Nat) : State :=
  let ps := s.energyParts (10 * est)
  (s.onPwr (fun p => { p with energy := p.energy + 10 * est })).onSched (fun x =>
    { x with acct := ((0, 10 * est - (ps.map (·.2)).sum) :: ps).foldl (fun a p => supd {} a p.1 (fun r => { r with energy := r.energy + p.2 })) x.acct })

/-- CAP_EVALUATE, R518: every 10 us; an unmet cap is recorded once. -/
def execCapEvaluate (estimate : Nat) (s : State) : Host.Outcome State Fault Refusal :=
  .next (if s.up && s.now % 10000 == 0 then
    let est := s.pwr.corrected estimate
    let s1 := (s.chargeEnergy est).onPwr (fun p => p.evaluate s.now est s.effectiveCap)
    if s1.pwr.unmet && !s.pwr.unmet then s1.logEvent srcIsland 0 .capUnmet [est, s.effectiveCap] else s1
  else s)

/-- AVSBus answers, R514: while the device does not hold, a run of failures on either rail ends. -/
def Power.answered (p : Power) : Power := if p.avs = 2 then p else { p with avsFails := [0, 0] }

/-- POWER_CORRECTION, R517: every 1 ms, against the current readings; the rule of the correction is not given, so its
value is free (log 12). -/
def execPowerCorrection (current0 current1 : Nat) (s : State) : Host.Outcome State Fault Refusal :=
  .next (if s.up && s.now % 1000000 == 0 then
    (s.onPwr (fun p => { p.answered with current := [current0, current1], correction := (Config.freeWord s.fresh).toInt })).fresh1
  else s)

/-! ## AVSBus, R512 to R514 -/

/-- The temperature band of a reading in 1/16 degC, R513. -/
def bandOf (t : Int) : Nat := min 7 ((t + 40 * 16) / (20 * 16)).toNat

/-- The band with its hysteresis of 3 degC. -/
def nextBand (band : Nat) (t : Int) : Nat := if band < bandOf t then bandOf t else min band (bandOf (t + 48))

/-- The targets of a band. -/
def bandTarget (b : Nat) : List Nat := [Config.avsVoltage 0 b, Config.avsVoltage 1 b]

/-- A band is to be written: the device controls the rails, and the targets differ. -/
def State.bandDue (s : State) : Bool :=
  s.pwr.avs == 1 && s.now % 1000000 == 0 && s.pwr.target != bandTarget (nextBand s.pwr.band s.pwr.tjMax)

/-- No rail rises. -/
def falling (old new : List Nat) : Bool := (List.zip old new).all (fun p => decide (p.2 ≤ p.1))

/-- AVS_BAND_UPDATE, R513: the new band's targets are written; a rising voltage holds only once the Voltage read has
confirmed it. -/
def execAvsBandUpdate (confirmed : Bool) (s : State) : Host.Outcome State Fault Refusal :=
  .next (if s.up && s.bandDue then
    let b := nextBand s.pwr.band s.pwr.tjMax
    let s1 := ((s.emit (.avs 0 (Config.avsVoltage 0 b))).emit (.avs 1 (Config.avsVoltage 1 b))).onPwr
      (fun p => if confirmed then p.answered else p)
    if confirmed || falling s.pwr.target (bandTarget b) then s1.onPwr (fun p => { p with band := b, target := bandTarget b }) else s1
  else s)

/-- AVS_TRANSACTION_FAIL, R514: repeated at once; the third failure in a row holds the last confirmed target. -/
def execAvsTransactionFail (rail : BitVec 1) (s : State) : Host.Outcome State Fault Refusal :=
  .next (if s.up then
    let n := s.pwr.avsFails.getD rail.toNat 0 + 1
    let s1 := s.onPwr (fun p => { p with avsFails := setAt p.avsFails rail.toNat n })
    if n = 3 then
      (s1.onPwr (fun p => { p with avs := 2, warn := sinc p.warn rail.toNat })).raise srcFc 30 0 0 rail.toNat
    else s1
  else s)

/-- AVS_RETRY, R514: every 10 ms while the device holds; it controls again once both rails answer. -/
def execAvsRetry (rail : BitVec 1) (ok : Bool) (s : State) : Host.Outcome State Fault Refusal :=
  .next (if s.up && s.pwr.avs == 2 && ok then
    s.onPwr (fun p =>
      let f := setAt p.avsFails rail.toNat 0
      { p with avsFails := f, avs := if f.all (· < 3) then 1 else 2 })
  else s)

/-! ## Temperature, R522 and R523 -/

/-- The location groups of the die sensors, R522; sensors of one group are neighbours (log 13). -/
def sensorGroup (i : Nat) : Nat :=
  if i < 16 then i / 4 else if i < 24 then 4 else if i < 28 then 5 else if i < 30 then 6 else if i < 36 then 7
  else if i < 40 then 8 else 9

/-- Sensor i differs from each of its neighbours by more than 15 degC. -/
def deviates (v : List Int) (i : Nat) : Bool :=
  let others := (List.range 48).filter (fun j => j != i && sensorGroup j == sensorGroup i)
  others.all (fun j => decide (240 < (v.getD i 0 - v.getD j 0).natAbs))

/-- The runs of deviating samples after one sample. -/
def deviateRuns (p : Power) (v : List Int) : Sparse Nat :=
  (List.range 48).foldl (fun m i => sset 0 m i (if deviates v i then sget 0 p.deviating i + 1 else 0)) []

/-- The highest reading of the working die sensors; none when all have failed. -/
def hottest (failed : List Nat) (die : List Int) : Option Int :=
  ((List.range 40).filter (fun i => !failed.contains i)).foldl (fun b i => match b with
    | none => some (die.getD i 0)
    | some m => some (max m (die.getD i 0))) none

/-- The first working die sensor that reads a temperature or more. -/
def sensorAt (failed : List Nat) (die : List Int) (t : Int) : Option Nat :=
  (List.range 40).find? (fun i => !failed.contains i && decide (t ≤ die.getD i 0))

/-- A report of the temperature sensors, R398 and R399. -/
def State.thermal (s : State) (code cls detail : Nat) : State := s.raise srcFc 31 code cls detail

/-- A threshold is acted on when a sensor first reaches it; bit k of `reported` remembers it until every sensor is
below. -/
def State.threshold (s : State) (k : Nat) (deg : Int) (code cls : Nat) (act : State → State) : State :=
  match sensorAt s.pwr.failed s.pwr.die (deg * 16) with
  | some i =>
    if bit s.pwr.reported k then s
    else act ((s.onPwr (fun p => { p with reported := withBit p.reported k true })).thermal code cls i)
  | none => s.onPwr (fun p => { p with reported := withBit p.reported k false })

/-- The thermal cap begins: the estimate less 5 W, not below RATED_FLOOR_W; a thermal step counts, R522. -/
def Power.beginThermal (p : Power) (now : Nat) : Power :=
  if p.thermalCap.isSome then p
  else { p with thermalCap := some (max p.floor (p.estimate / 1000 - 5)), lastStep := now, capEvents := p.capEvents + 1 }

/-- Throttle level 8 at once, R522; a rise to it counts once in CAP_EVENTS (DEDUCED from R525, log 117). -/
def State.fullThrottle (s : State) : State :=
  s.onPwr (fun p => { p.setLevel 8 with capEvents := p.capEvents + (if p.level < 8 then 1 else 0) })

/-- The Lake channels under a Lake sensor turn hot above 85 degC and cool at 82 degC, R343. -/
def State.lakeHeat (s : State) (r : Nat) (t : Int) : State :=
  (List.range 8).foldl (fun x i =>
    let ch := 8 * r + i
    let st := (x.lake ch).state
    if st = 0 ∧ 85 * 16 < t then (x.onLake ch (fun l => { l with state := 1 })).logEvent (0x40 + ch) 0 .hotChange [ch, 1]
    else if st = 1 ∧ t ≤ 82 * 16 then (x.onLake ch (fun l => { l with state := 0 })).logEvent (0x40 + ch) 0 .hotChange [ch, 0]
    else x) s

/-- A sensor that has deviated for 10 samples is marked failed, R523; a quadrant left with fewer than two raises T118. -/
def State.failSensors (s : State) : State :=
  (List.range 48).foldl (fun x i =>
    if 10 ≤ sget 0 x.pwr.deviating i ∧ !x.pwr.failed.contains i then
      let y := (x.onPwr (fun p => { p with failed := p.failed ++ [i] })).thermal 3 0 i
      if i < 16 ∧ ((List.range 4).filter (fun j => !y.pwr.failed.contains (i / 4 * 4 + j))).length < 2 then
        (y.thermal 1 1 (i / 4 * 4)).fullThrottle
      else y
    else x) s

/-- THERMAL_SAMPLE, R522, R523 and R343: 40 die and 8 Lake readings in 1/16 degC, every 100 us. -/
def execThermalSample (die lake : List Int) (s : State) : Host.Outcome State Fault Refusal :=
  .next (if s.up && s.now % 100000 == 0 && die.length == 40 && lake.length == 8 then
    let s1 := (s.onPwr (fun p => { p with die := die, lake := lake, deviating := deviateRuns p (die ++ lake) })).failSensors
    let s2 := s1.onPwr (fun p =>
      let t := (hottest p.failed die).getD p.tjMax
      { p with tjMax := t, tjPeak := max p.tjPeak t })
    let s3 := s2.threshold 0 110 0 0 (fun x => x.onPwr (fun p => p.beginThermal x.now))
    let s4 := s3.threshold 1 118 1 1 State.fullThrottle
    let s5 := s4.threshold 2 125 2 4 id
    (List.range 8).foldl (fun x r => if s5.pwr.failed.contains (40 + r) then x else x.lakeHeat r (lake.getD r 0)) s5
  else s)

/-- The thermal cap is due to fall: a sensor still at 110 degC or more, 1 ms after the last step. -/
def State.thermalDown (s : State) : Bool :=
  s.pwr.thermalCap.isSome && decide (s.pwr.lastStep + 1000000 ≤ s.now) && (sensorAt s.pwr.failed s.pwr.die (110 * 16)).isSome

/-- The thermal cap is due to rise: every sensor at 105 degC or less, 10 ms after the last step. -/
def State.thermalUp (s : State) : Bool :=
  s.pwr.thermalCap.isSome && decide (s.pwr.lastStep + 10000000 ≤ s.now) && (sensorAt s.pwr.failed s.pwr.die (105 * 16 + 1)).isNone

/-- THERMAL_CAP_STEP, R522: down 5 W, never below RATED_FLOOR_W, or up 5 W; at or above PWR_CAP it is no longer active. -/
def execThermalCapStep (s : State) : Host.Outcome State Fault Refusal :=
  .next (if s.up && s.thermalDown then
    s.onPwr (fun p => { p with thermalCap := p.thermalCap.map (fun t => max p.floor (t - 5)), lastStep := s.now, capEvents := p.capEvents + 1 })
  else if s.up && s.thermalUp then
    s.onPwr (fun p =>
      { p with thermalCap := p.thermalCap.bind (fun t => if s.cfg kPwrCap ≤ t + 5 then none else some (t + 5)), lastStep := s.now,
               capEvents := p.capEvents + 1 })
  else s)

/-! ## Waking -/

/-- WAKE_IN, R516: in standby STBY_REQ falls; an edge before STBY_REQ has risen is held, and logged. -/
def execWakeIn (byIsland : Bool) (s : State) : Host.Outcome State Fault Refusal :=
  .next (if s.aonUp then
    if s.pwr.state = .standby ∧ s.pins.stbyReq then
      (s.onPins (fun p => { p with stbyReq := false })).logEvent srcIsland 0 .wake [if byIsland then 1 else 0]
    else if s.pwr.req.isSome then (s.onPwr (fun p => { p with wakeHeld := true })).logEvent srcIsland 0 .wakeHeld []
    else s
  else s)

/-- The domains may be released, R516: STBY_REQ low, or a held edge and STBY_REQ high for 10 ms. -/
def State.wakeReady (s : State) : Bool :=
  s.pwr.state == .standby && (!s.pins.stbyReq || (s.pwr.wakeHeld && decide (s.pwr.stbyAt + 10000000 ≤ s.now)))

end Sys2Proof.Machine
end

