-- ==== Sys2Proof/Machine/Fabric.lean ====
section
/-! DEFINITION. The fabric's commands: links and flits (R422 to R427), transactions (R428 to R431), discovery and joining (R432
to R435). -/

namespace Sys2Proof.Machine

/-! ## Links and flits -/

/-- LINK_TRAIN_COMPLETE, R422 and R427: a link comes up, starts its test flits, or fails; two failed retrains in a row
quarantine it. -/
def execLinkTrainComplete (door : Fin 3) (ok : Bool) (s : State) : Host.Outcome State Fault Refusal :=
  .next (let d := door.val
    let l := s.link d
    if s.up && (l.state == 0 || l.state == 1) then
      (if ok && l.testing then s.onLink d (fun x => { x with state := 3, quarAt := s.now })
       else if ok then
        ((s.onLink d (fun x => { x.fresh with state := 2, trainFails := 0, heard := s.now })).onFab (fun x =>
          { x with firstUp := some (x.firstUp.getD s.now), state := if x.state = 0 then 1 else x.state })).logEvent (0xAD + d) 0 .linkChange [d, 2]
          |>.emit (.hello d (s.ownHello d)) |>.linksChanged none
       else if l.testing || (l.state == 1 && decide (1 ≤ l.trainFails)) then s.quarantine d
       else s.onLink d (fun x => { x with trainFails := if l.state = 1 then x.trainFails + 1 else 0 }))
    else s)

/-- FLIT_DATA, R424 to R427: checked; in order its ACK and credits are taken, else it is discarded with a NAK. -/
def execFlitData (door : Fin 3) (f : Flit) (s : State) : Host.Outcome State Fault Refusal :=
  .next (let d := door.val
    if s.linkLive d then
      (if !f.crcOk || f.lseq != (s.link d).rxSeq then (s.onLink d (fun l => l.count 2 1)).discardFlit d
       else if !f.credited then (s.discardFlit d).replayEvent d
       else (s.onLink d (fun l => { l.count 1 1 with rxSeq := l.rxSeq + 1, nakSent := false })).takeAck d f.ack f.crVc.toNat f.crHop.toNat f.crCnt.toNat)
    else s)

/-- FLIT_NAK, R426: the sender resends from the flit after the ACK. -/
def execFlitNak (door : Fin 3) (ack : BitVec 16) (s : State) : Host.Outcome State Fault Refusal :=
  .next (if s.linkLive door.val then ((s.onLink door.val (fun l => l.count 1 1)).takeAck door.val ack 0 0 0).resendFrom door.val else s)

/-- FLIT_IDLE, R424: ACK and credits of a valid flit. -/
def execFlitIdle (door : Fin 3) (f : Flit) (s : State) : Host.Outcome State Fault Refusal :=
  .next (if s.linkLive door.val then
    (if f.crcOk then (s.onLink door.val (fun l => l.count 1 1)).takeAck door.val f.ack f.crVc.toNat f.crHop.toNat f.crCnt.toNat
     else s.onLink door.val (fun l => l.count 2 1))
  else s)

/-- FAB_RETRY_TIMEOUT, R426. -/
def execFabRetryTimeout (door : Fin 3) (s : State) : Host.Outcome State Fault Refusal :=
  .next (match (s.link door.val).retry.head? with
    | some e => if s.linkLive door.val && expired s.now (e.2 + s.cfg 0x160007) then s.resendFrom door.val else s
    | none => s)

/-- LINK_SILENCE_TIMEOUT, R427: no valid flit for 4 us. -/
def execLinkSilenceTimeout (door : Fin 3) (s : State) : Host.Outcome State Fault Refusal :=
  .next (if s.linkLive door.val && decide ((s.link door.val).heard + 4000 ≤ s.now) then s.linkDown door.val else s)

/-- QUARANTINE_EXPIRY, R427: after 10 s, at most while three returns are not used up. -/
def execQuarantineExpiry (door : Fin 3) (s : State) : Host.Outcome State Fault Refusal :=
  .next (let l := s.link door.val
    if s.up && l.state == 3 && !l.testing && decide (l.quarAt + 10000000000 ≤ s.now) && decide (l.returns < 3)
    then s.onLink door.val (fun x => { (x.fresh).count 4 1 with state := 1, testing := true }) else s)

/-- QUARANTINE_TEST_END, R427: after 1 ms of test flits the link returns to routing, or stays quarantined. -/
def execQuarantineTestEnd (door : Fin 3) (failed : Bool) (s : State) : Host.Outcome State Fault Refusal :=
  .next (let l := s.link door.val
    if s.up && l.state == 3 && l.testing && decide (l.quarAt + 1000000 ≤ s.now) then
      (if failed then s.onLink door.val (fun x => { x with testing := false, quarAt := s.now })
       else ((s.onLink door.val (fun x => { x with state := 2, testing := false, returns := x.returns + 1, heard := s.now })).logEvent
        (0xAD + door.val) 0 .linkChange [door.val, 2]).linksChanged none)
    else s)

/-! ## Transactions -/

/-- The door takes VC 0 and VC 1 traffic: its link is up and joined. -/
def State.doorTakes (s : State) (d : Nat) : Bool := s.up && (s.link d).state == 2

/-- FAB_WRITE, R429 and R430. -/
def execFabWrite (door : Fin 3) (t : Txn) (s : State) : Host.Outcome State Fault Refusal :=
  .next (if s.doorTakes door.val then s.fabArrive door 1 t else s)

/-- FAB_READ, R429 and R430. -/
def execFabRead (door : Fin 3) (t : Txn) (s : State) : Host.Outcome State Fault Refusal :=
  .next (if s.doorTakes door.val then s.fabArrive door 2 t else s)

/-- READ_RESP, R429 and R430. -/
def execReadResp (door : Fin 3) (t : Txn) (s : State) : Host.Outcome State Fault Refusal :=
  .next (if s.doorTakes door.val then s.fabArrive door 3 t else s)

/-- FAB_SIGNAL, R429, R430 and R72. -/
def execFabSignal (door : Fin 3) (t : Txn) (s : State) : Host.Outcome State Fault Refusal :=
  .next (if s.doorTakes door.val then s.fabArrive door 4 t else s)

/-- FAB_ERROR, R431. -/
def execFabError (door : Fin 3) (t : Txn) (s : State) : Host.Outcome State Fault Refusal :=
  .next (if s.doorTakes door.val then s.fabArrive door 5 t else s)

/-- E2E_ACK, R430: the copies it covers are dropped, and held transactions issue. -/
def execE2eAck (node : BitVec 3) (vc : BitVec 1) (num : Word) (s : State) : Host.Outcome State Fault Refusal :=
  .next (if s.up then
    let s1 := s.onE2e node.toNat vc.toNat (fun e => { e with copies := e.copies.filter (fun t => serialAfter t.e2e num) })
    let s2 := State.issueHeld (s.e2eOf node.toNat vc.toNat).held.length s1 node.toNat vc.toNat
    State.issueHeld (s2.e2eOf node.toNat (1 - vc.toNat)).held.length s2 node.toNat (1 - vc.toNat)
  else s)

/-- E2E_ACK_TIMER, R430: every node from which something was delivered is acknowledged. -/
def execE2eAckTimer (s : State) : Host.Outcome State Fault Refusal :=
  .next (if s.up then
    ((s.fab.e2e.filter (fun e => e.2.expect != 0)).foldl (fun t e => t.emit (.e2eAck (e.1 / 2) (e.1 % 2) (e.2.expect - 1).toNat)) s).onFab
      (fun x => { x with e2e := x.e2e.map (fun e => (e.1, { e.2 with since := 0 })) })
  else s)

/-! ## Discovery -/

/-- Two nodes present one strapped id or one IDENT, and this node is one of them, R434. -/
def State.isTwin (s : State) (h : Hello) : Bool := h.ident == s.ident || (h.strap != 0 && h.strap == s.boot.nodeStrap)

/-- This node is a duplicate, R434: FAB_STATE 3, no fabric, a class 0 record. -/
def State.duplicate (s : State) (d : Nat) (strap : BitVec 3) : State :=
  (s.onFab (fun x => { x with state := 3, routes := List.replicate 8 0xFF, nodes := 1#8 <<< x.nodeId.toNat })).logEvent (0xAD + d) 0
    .fabDuplicate [d, strap.toNat]

/-- HELLO, R432, R434 and R440. -/
def execHello (door : Fin 3) (h : Hello) (s : State) : Host.Outcome State Fault Refusal :=
  .next (let d := door.val
    if !s.linkLive d then s
    else match (s.link d).hello with
      | some old => if old = h then s else s.linkDown d
      | none =>
        let s1 := s.onLink d (fun l => { l with hello := some h, peerIdent := h.ident, peer := (h.node.map (·.toNat)).getD 0xFF })
        if s.isTwin h then s1.duplicate d h.strap
        else if h.frameTicks ≠ s.cfg kFrameTicks ∨ h.frameOrigin ≠ s.frameOrigin then
          (s1.onLink d (fun l => { l with state := 4 })).logEvent (0xAD + d) 0 .fabMismatch [d, h.frameTicks, h.frameOrigin]
        else if s.fab.state = 3 then s1
        else s1.linksChanged none)

/-- LINK_STATE, R432, R434 and R437: the record is kept, flooded on, and the routes are computed anew; one of another node with this node's strapped
id makes both duplicates. -/
def execLinkState (door : Fin 3) (r : LinkStateRec) (s : State) : Host.Outcome State Fault Refusal :=
  .next (if s.linkLive door.val && r.ident != s.ident && s.fab.state != 3 && !s.fab.db.contains r then
    let s1 := (s.onFab (fun x => { x with db := x.db.filter (fun q => q.ident != r.ident) ++ [r], lastChange := some s.now })).flood r
      (some door.val)
    if r.strap != 0 && r.strap == s.boot.nodeStrap then s1.duplicate door.val r.strap else s1.recomputeRoutes none
  else s)

/-- The nodes that this node can reach, itself first: IDENT and strap. -/
def State.present (s : State) : List (Word64 × BitVec 3) :=
  let g := s.graph none
  (distances g g.length [s.ident] [(s.ident, 0)] 0).filterMap (fun e => (g.find? (fun r => r.ident == e.1)).map (fun r => (r.ident, r.strap)))

/-- Unstrapped nodes, in ascending IDENT, take the lowest ids of a list that nobody holds. -/
def takeIds (pool : List Nat) : List Word64 → List (Word64 × BitVec 3) → List (Word64 × BitVec 3)
  | [], ids => ids
  | x :: t, ids =>
    match pool.find? (fun i => !ids.any (fun e => e.2.toNat == i)) with
    | none => takeIds pool t ids
    | some i => takeIds pool t (ids ++ [(x, BitVec.ofNat 3 i)])

/-- The assignment of R433, or for nodes that join in RUN that of R435's last paragraph. -/
def State.assignIds (s : State) : List (Word64 × BitVec 3) :=
  let here := s.present
  let sorted := (here.map (·.1)).mergeSort (fun a b => decide (a.toNat ≤ b.toNat))
  if s.inRun then
    let known := s.fab.ids ++ (if s.fab.ids.any (fun e => e.1 == s.ident) then [] else [(s.ident, s.fab.nodeId)])
    let strapped := here.filter (fun e => e.2 != 0 && !known.any (fun k => k.1 == e.1 || k.2 == e.2) && bit (s.cfg 0x160004) e.2.toNat)
    takeIds (maskList 8 (s.cfg 0x160004)) (sorted.filter (fun x => !(known ++ strapped).any (fun e => e.1 == x)
      && here.any (fun e => e.1 == x && e.2 == 0))) (known ++ strapped)
  else
    let strapped := here.filter (fun e => e.2 != 0)
    takeIds (List.range 8) (sorted.filter (fun x => !strapped.any (fun e => e.1 == x))) strapped

/-- The node holds the link states of every node that it can reach, R432. -/
def State.statesComplete (s : State) : Bool :=
  let g := s.graph none
  g.all (fun r => r.links.all (fun l => g.any (fun q => q.ident == l.2)))

/-- DISCOVERY_END, R432 and R433: every link state is there and none has changed for 1 ms; ids are assigned and every join is logged. -/
def execDiscoveryEnd (s : State) : Host.Outcome State Fault Refusal :=
  .next (match s.fab.lastChange with
    | some t =>
      if s.up && s.fab.state != 3 && s.statesComplete && decide (t + 1000000 ≤ s.now) then
        let ids := s.assignIds
        let own := ((ids.find? (fun e => e.1 == s.ident)).map (·.2)).getD s.fab.nodeId
        let s1 := s.onFab (fun x =>
          { x with ids := ids, nodeId := own, state := if s.present.length ≤ 1 then 0 else 2, lastChange := none,
                   nodes := if own = x.nodeId then x.nodes else 1#8 <<< own.toNat })
        ((ids.filter (fun e => e.1 != s.ident && !s.fab.ids.contains e)).foldl (fun u e => u.logEvent 0xAD 0 .fabJoin [e.1.toNat, e.2.toNat]) s1).recomputeRoutes
          none
      else s
    | none => s)

/-- FAB_JOIN_MS has passed since the first link came up, or none came up at all, R435. -/
def State.joinOver (s : State) : Bool :=
  match s.fab.firstUp with
  | none => true
  | some t => expired s.now (t + s.cfg 0x160006 * 1000000)

/-- The expected nodes that are not present. -/
def State.missingNodes (s : State) : List Nat := (maskList 8 (s.cfg 0x160004)).filter (fun i => i != s.fab.nodeId.toNat && !s.reachable i)

/-- The expected nodes that have not appeared are treated as lost, R435 and R438. -/
def State.loseMissing (s : State) : State := s.missingNodes.foldl (fun t i => t.routeLost i 0) s

/-- FAB_JOIN_TIMEOUT, R435. -/
def execFabJoinTimeout (s : State) : Host.Outcome State Fault Refusal := .next (if s.up && s.joinOver then s.loseMissing else s)

end Sys2Proof.Machine
end

