-- ==== Sys2Proof/Machine/TransitionOps.lean ====
section
/-! DEFINITION. Sections and the stored configuration (R450, R484, R485, R492), the entry into CONFIG, and the transition to RUN
(R451, R493, R494). -/

namespace Sys2Proof.Machine

/-! ## The stored configuration, R450 and R485 -/

/-- The client in whose name the stored configuration is applied: the rights of origin S. -/
def storedClient : Client := { origin := .s, who := 0, port := 0 }

/-- The request of a stored item. -/
def storedReq (item : Bytes) : Req :=
  { client := storedClient, tid := 0, index := BitVec.ofNat 16 (fieldAt item 0 2), sub := BitVec.ofNat 8 (fieldAt item 2 1), crc := 0 }

/-- One write of the stored configuration, logged with ORIGIN 5. -/
def State.storedWrite (s : State) (q : Req) (v : Bytes) : State := (s.performWrite q 5 v false).1

/-- A section's bytes may be used: of phase 0, or read and matched. -/
def State.sectionReady (s : State) (b : Bool) (i : Nat) : Bool :=
  decide (i < s.flash.sections b) && (s.flash.sectionPhase b i == 0 || s.boot.sectionsDone.contains i)

/-- A stored item waits: its section is a phase 1 section not yet read, or it writes STATE_REQ before phase 1 is read. -/
def State.itemWaits (s : State) (b : Bool) (item : Bytes) : Bool :=
  let i := fieldAt item 8 1
  (fieldAt item 3 1 == 1 && decide (i < s.flash.sections b) && s.flash.sectionPhase b i == 1 && !s.boot.sectionsDone.contains i)
    || (reqKey (storedReq item) == kStateReq && !s.phase1Done)

/-- One stored item takes effect. -/
def State.applyItem (s : State) (b : Bool) (item claim : Bytes) : State :=
  match fieldAt item 3 1 with
  | 0 => s.storedWrite (storedReq item) ((slice item 8 8).take (fieldAt item 4 4))
  | 1 => if s.sectionReady b (fieldAt item 8 1) then s.storedWrite (storedReq item) (s.flash.sectionBytes b (fieldAt item 8 1)) else s
  | 2 => s.storedWrite (storedReq item) claim
  | _ => s

/-- The stored configuration goes on from its next item, in list order, until an item waits or the list ends. -/
def State.applyStored : Nat → State → State
  | 0, s => s
  | f + 1, s =>
    match s.boot.slot, s.boot.cfgPos with
    | some b, some off =>
      let all := s.flash.storedConfig b
      let item := slice all off 16
      if item.length < 16 then s.onBoot (fun x => { x with cfgPos := none })
      else if s.itemWaits b item then s
      else
        let next := off + (if fieldAt item 3 1 = 2 then 40 else 16)
        State.applyStored f ((s.applyItem b item (slice all (off + 16) 24)).onBoot (fun x => { x with cfgPos := some next }))
    | _, _ => s

/-- The stored configuration goes on as far as it can. -/
def State.goOnStored (s : State) : State :=
  State.applyStored ((s.boot.slot.map (fun b => (s.flash.storedConfig b).length / 16 + 1)).getD 0) s

/-- CONFIG is entered, R449, R450 and R478: the dictionary is online, KDP_ADDR takes the strap, the stored configuration is
applied. -/
def State.enterConfig (s : State) : State :=
  let s1 := (s.setDevState .config).onBoot (fun b => { b with stage := .online, tConfig := s.sinceRelease, cfgPos := some 0 })
  (s1.setEntry 0x140004 (leBytes 1 (0x10 + s.boot.nodeStrap.toNat))).goOnStored

/-! ## Sections, R484 and R492 -/

/-- The first section of a phase that has been neither used nor refused. -/
def State.nextSection (s : State) (p : Nat) : Option Nat :=
  (s.phaseSections p).find? (fun i => !s.boot.sectionsDone.contains i && !s.boot.sectionsBad.contains i)

/-- A section's content is put in its place by KIND, R484: LPDDR, a package, or a DOMAIN entry that its content checks accept. -/
def State.placeSection (s : State) (b : Bool) (i : Nat) : State :=
  let v := s.flash.sectionBytes b i
  let target := s.flash.sectionTarget b i
  match s.flash.sectionKind b i with
  | 5 => (s.engineWrite 7 srcFlash (lpBase + target * 4096) v).1
  | 6 => s.setEntry (0x302000 + 256 * target) v
  | 7 =>
    let key := target % 2 ^ 24
    match findEntry key with
    | none => s
    | some e => if (s.contentVerdict 2 key e v).code = 0 then s.commitValue storedClient 5 0 key e v else s
  | _ => s

/-- A section is used: measured (R502), placed, and counted as read. -/
def State.useSection (s : State) (mr : Nat) (b : Bool) (i : Nat) : State :=
  ((s.onBoot (fun x => { x.extend mr (slice (s.flash.sectionRow b i) 0x20 32) with sectionsDone := x.sectionsDone ++ [i] })).placeSection
    b i)

/-- The booted slot's BAD flag is set. -/
def State.markBad (s : State) (b : Bool) : State :=
  s.writeAct (fun r => if b then { r with badB := true } else { r with badA := true })

/-! ## The checks of R493 -/

/-- The lowest core that an entry or a group of a table uses although its partition's record disagrees: the group's and the entry's
partitions are enabled, their cores lie in its set, and its banks are its own. -/
def State.tableAgrees (s : State) (t : Schedule) : Bool :=
  t.groups.all (fun g => s.partEnabled g.part && g.cores.all (fun l => bit (s.partCores g.part) l.toNat))
    && t.entries.all (fun e => e.kind == 3 || s.partEnabled e.part)
    && s.coresInSet t && s.groupsOk t
    && (List.range 64).all (fun l => (List.range 4).all (fun b =>
        let p := t.bankOwner l b
        p == 15 || p == 0 || (s.partEnabled p && bit (s.partCores p) l)))

/-- The first SHUTTER region that breaks R364 against the partition records. -/
def State.unfairRegion (s : State) : Option Nat := (List.range 128).find? (fun r => !s.shutterFair (s.entry (0x630000 + 256 * r)))

/-- An address of an LPDDR structure lies below LP_TOP; addresses outside LPDDR are not concerned. -/
def State.belowTop (s : State) (a len : Nat) : Bool :=
  decide (a < lpBase) || decide (resBase ≤ a) || decide (a + len ≤ s.mem.lpTop)

/-- The address ranges that carrier c's rings record names, R291: reports, transmit descriptors with their reports, soft buffers, the replay ring
and its two store tables. -/
def State.ringSpans (s : State) (c : Nat) : List (Nat × Nat) :=
  let f := fun off len => s.cfgField (0x512000 + 256 * c) off len
  let g := fun off len => s.cfgField (0x510000 + 256 * c) off len
  [(f 0 8, f 8 4 * 32), (f 0x10 8, f 0x0C 4 * 72), (f 0x18 8, g 0x14 2 * (if g 0 1 = 1 then 0x20000 else 0x10000)),
   (f 0x20 8, f 0x28 4 * (2016 * g 0x27 1)), (f 0x30 8, f 0x28 4 * 16), (f 0x38 8, f 0x28 4 * 16)]

/-- The address ranges that SEC_RING names, R506. -/
def State.secSpans (s : State) : List (Nat × Nat) :=
  [(s.cfgField 0x950001 0 8, s.cfgField 0x950001 24 2 * 192), (s.cfgField 0x950001 8 8, s.cfgField 0x950001 24 2 * 16)]

/-- Every range lies below LP_TOP where it lies in LPDDR. -/
def State.spansBelow (s : State) (l : List (Nat × Nat)) : Bool := l.all (fun r => s.belowTop r.1 (max 1 r.2))

/-- The entry of the first address of a SWAP, ring or REPLAY entry at or above LP_TOP, R493 check 6; a model package names no address. -/
def State.addressFails (s : State) : Option Nat :=
  if s.cfg 0x310005 ≠ 0 ∧ !s.belowTop (s.cfg 0x310004) (s.cfg 0x310005 * 0x4000) then some 0x310004
  else match (List.range 4).find? (fun c => !allZero (s.entry (0x512000 + 256 * c)) && !s.spansBelow (s.ringSpans c)) with
    | some c => some (0x512000 + 256 * c)
    | none => if !allZero (s.entry 0x950001) ∧ !s.spansBelow s.secSpans then some 0x950001 else none

/-- The cores whose Lake channel is FAILED. -/
def State.failedCores (s : State) : List Nat := (List.range 64).filter (fun ch => (s.lake ch).state == 2)

/-- The logical core of a core above a FAILED channel is mapped to a substitute, R297 and R494; the flag says that a logical core of
an enabled partition has found one. -/
def State.remapFailed (s : State) (n : Nat) : State × Bool :=
  let moves := s.substitutes n
  if (s.ownerOf (s.logical n)).isNone then (s, true)
  else if moves.isEmpty then (s, false)
  else (moves.foldl (fun t p =>
      (t.onSched (fun x => { x with coreMap := moveMap x.coreMap p.1 (BitVec.ofNat 6 p.2) })).logEvent srcSched 0 .remap
        [p.1, s.phys p.1, p.2]) s, true)

/-- The cores above FAILED channels are withdrawn, R494, and their logical cores mapped in ascending order. -/
def State.remapAllFailed (s : State) : State × Bool :=
  s.failedCores.foldl (fun a n => ((a.1.remapFailed n).1, a.2 && (a.1.remapFailed n).2)) (s.failedCores.foldl State.withdrawCore s, true)

/-- The shares of R174 fit the part of the pool in each channel. -/
def State.sharesFit (s : State) : Bool :=
  (List.range 64).all (fun ch =>
    decide (((List.range 16).map (fun p =>
      match (s.kvChannels p).findIdx? (· == ch) with
      | some k => s.kvShare p k
      | none => 0)).sum ≤ s.cfg 0x310003 / 64))

/-- The first failing check of R493 in order, and of R174: its abort code and entry. -/
def State.transitionFails (s : State) : Option (Nat × Nat) :=
  if s.fc.fnExercise ≠ 1 then some (aState, 0x700004)
  else match s.sched.table with
    | none => some (aRange, kSchedule)
    | some t =>
      if t.build ≠ s.boot.build ∨ (s.checkTable (s.entry kSchedule)).1 ≠ aOk then some (aRange, kSchedule)
      else if !s.tableAgrees t then some (aConflict, kSchedule)
      else match s.unfairRegion with
        | some r => some (aConflict, 0x630000 + 256 * r)
        | none =>
          if !s.phase1Done then some (aState, 0x900001)
          else if !s.pinnedFit t then some (aRange, 0x320002)
          else match s.addressFails with
            | some k => some (aRange, k)
            | none =>
              if !s.remapAllFailed.2 then some (aConflict, kSchedule)
              else if fieldAt (s.entry kGoldenImage) 0x40080 4 < s.cfg 0x230001 then some (aRange, 0x230001)
              else if !s.sharesFit then some (aRange, 0x311001)
              else none

/-- STATE_FAIL of a code and an entry, R478. -/
def failWord (code key : Nat) : Word64 := BitVec.ofNat 64 (place code 32 + place (key / 256) 16 + place (key % 256) 8)

/-! ## What the transition prepares -/

/-- Shutter regions and Louvres take their entries, enforced and locked, R363. -/
def State.loadShutters (s : State) : State :=
  s.onMem (fun m =>
    { m with
      regions := (List.range 128).foldl (fun a r =>
        let v := s.entry (0x630000 + 256 * r)
        let g : Region := { base := BitVec.ofNat 64 (fieldAt v 0 8), limit := BitVec.ofNat 64 (fieldAt v 8 8),
                            rights := BitVec.ofNat 64 (fieldAt v 16 8) }
        sset {} a r g) []
      louvres := (List.range 64).foldl (fun a k =>
        let v := s.entry (0x640000 + 256 * k)
        let g : Louvre := { reserve := fieldAt v 0 2, limit := fieldAt v 2 2, burst := fieldAt v 4 2 }
        sset {} a k g) []
      enforce := true
      locked := true })

/-- The safety island loads every golden area and keeps the expected signatures, R387. -/
def State.loadGolden (s : State) : State :=
  let v := s.entry kGoldenImage
  ((List.range 64).foldl (fun t n => t.pondWrite n 0x3C0000 (slice v 0 0x40000) false) s).onIsl
    (fun i => { i with expected := (List.range 16).map (fun k => BitVec.ofNat 64 (fieldAt v (0x40000 + 8 * k) 8)) })

/-- The pinned models are loaded and pinned, R331. -/
def State.loadPinned (s : State) : State :=
  match s.sched.table with
  | none => s
  | some t =>
    let ms := (s.pinnedModels t).filter (fun m => (s.packageOf m).isSome)
    (ms.foldl (fun u m => u.modelLoaded m (((t.entries.find? (fun e => e.modelId == m)).map (·.part)).getD 0)) s).onSched
      (fun x => { x with models := x.models.map (fun d => if ms.contains d.id then { d with pinned := true } else d) })

/-- Every group of the table is formed with all its members, R86. -/
def State.formGroups (s : State) : State :=
  (List.range (((s.sched.table).map (·.groups.length)).getD 0)).foldl (fun t g =>
    (t.formGroup g).onGroup g (fun x => { x with active := List.range (s.groupCores g).length })) s

/-- The first frame whose start lies at or after now and FRAME_ORIGIN, R40. -/
def State.firstFrame (s : State) : Nat :=
  if s.now ≤ s.frameOrigin then 0 else (s.now - s.frameOrigin + s.frameLen - 1) / s.frameLen

/-- At the transition to RUN every core's counters, their counts and its outbound streams are 0, R70. -/
def State.clearStreams (s : State) : State := { s with cores := s.cores.map (fun c => { c with ctrs := [], outs := [] }) }

/-- RUN is entered, R40, R70, R493 and R494. -/
def State.enterRun (s : State) : State :=
  let s1 := ((((s.remapAllFailed.1.loadShutters).loadGolden).loadPinned).formGroups).clearStreams
  let s2 := s1.onTb (fun t =>
    { t with hasRun := true, runFrame0 := s.firstFrame, framesOn := false, runFrame := 0
             fsyncOffset := (List.range 4).map Config.fsyncOffset, fsyncWidth := (List.range 4).map Config.fsyncWidth })
  let s3 := (s2.onPwr (fun p => { p with floor := Config.ratedFloor (s.entry kSchedule) })).onBoot
    (fun b => { b with tRun := s.sinceRelease })
  let s4 := s3.setDevState .run
  s.failedCores.foldl (fun t ch => t.lakeReport ch 7 3 0) s4

/-- The transition's checks and preparations are done: RUN, or CONFIG with STATE_FAIL, R451 and R493. -/
def State.finishTransition (s : State) (c : Client) (tid : BitVec 16) : State :=
  let s1 := s.onDict (fun d => { d with transition := none })
  if s.dict.state ≠ .config then s1.finishTx c tid aState
  else match s.transitionFails with
    | some (code, key) => (s1.onDict (fun d => { d with stateFail := failWord code key })).finishTx c tid code
    | none => s1.enterRun.finishTx c tid aOk

/-- The transition waits for expected nodes that have not joined, R435. -/
def State.awaitsNodes (s : State) : Bool := !s.missingNodes.isEmpty && !s.joinOver

end Sys2Proof.Machine
end

