-- ==== Sys2Proof/Machine/Boot.lean ====
section
/-! DEFINITION. Reset and boot (R511, R487 to R493), the boot exercise (R417), the transition to RUN (R451, R493), frame
boundaries (R40, R312), violation seconds (R550), and standby (R515, R516). -/

namespace Sys2Proof.Machine

/-! ## Resets, R511 -/

/-- The state that PORST_N low or a loss of VDD_AON leaves: everything at reset but the flash and the OTP; what the block has
logged and sent, and the queue, are the model's record of the run. -/
def State.heldReset (s : State) : State :=
  { State.reset with flash := s.flash, events := s.events, sent := s.sent, fresh := s.fresh, pending := s.pending }

/-- PORST_N_RISE, R30, R479 and R511: device time starts at 0, the straps are latched, and the boot begins. -/
def execPorstNRise (bootsel nodeId : BitVec 3) (s : State) : Host.Outcome State Fault Refusal :=
  .next (if s.pins.porstN then s else (s.onPins (fun p => { p with porstN := true })).beginBoot bootsel nodeId)

/-- PORST_N_FALL, R511: a low level of at least 2 us resets every domain. -/
def execPorstNFall (lowNs : Nat) (s : State) : Host.Outcome State Fault Refusal :=
  .next (if s.pins.porstN && decide (2000 ≤ lowNs) then s.heldReset else s)

/-- VDD_AON_LOSS, R30 and R511: as PORST_N low. -/
def execVddAonLoss (s : State) : Host.Outcome State Fault Refusal := .next s.heldReset

/-- WARM_RESET, R511: every domain except the always-on domain, and the boot again from stage 1. -/
def execWarmReset (s : State) : Host.Outcome State Fault Refusal := .next (if s.up then s.warmReset else s)

/-! ## The boot ROM and the exercise -/

/-- SLOT_CHECK_COMPLETE, R487 and R489. -/
def execSlotCheckComplete (readOk : Bool) (s : State) : Host.Outcome State Fault Refusal :=
  .next (match s.boot.stage with
    | .romCheck slot second => if s.up then s.slotJudged slot second readOk else s
    | _ => s)

/-- The exercise is in a phase. -/
def State.exercising (s : State) (p : ExPhase) : Bool := s.up && s.boot.stage == .exercise && s.fc.exercise == p

/-- EXERCISE_READBACK, R417: 10 us after the release the ball must read high; a real record keeps it low. -/
def execExerciseReadback (high : Bool) (s : State) : Host.Outcome State Fault Refusal :=
  .next (if s.exercising .release then s.onFc (fun c => { c with exerciseOk := c.exerciseOk && high && !s.faultNLow }) else s)

/-- EXERCISE_LATCH, R417: the exercise input latches; the ball must read low within 200 ns. -/
def execExerciseLatch (low : Bool) (ns : Nat) (s : State) : Host.Outcome State Fault Refusal :=
  .next (if s.exercising .release then
    s.onFc (fun c => { c with exercise := .latch, exerciseOk := c.exerciseOk && low && decide (ns ≤ 200) })
  else s)

/-- The record of a passed exercise, of KIND 3 and class 0, R408 and R417. -/
def State.exerciseRecord (s : State) : FaultRec :=
  { time := s.now, seq := s.fcSeq, origin := BitVec.ofNat 12 (s.sourceId srcFc), code := 0, cls := 0, group := 35, kind := 3, made := s.now }

/-- A passed exercise, R417: EXERCISED, FN_EXERCISE 1, the record, and CONFIG unless the device is in SAFE (R491). -/
def State.exercisePassed (s : State) : State :=
  let s1 := (s.onFc (fun c => { c.ring s.exerciseRecord with exercised := true, fnExercise := 1 })).takeSeq srcFc
  if s.dict.state = .safe then s1.onBoot (fun b => { b with stage := .online }) else s1.enterConfig

/-- A failed exercise, R417: FN_EXERCISE 2, the boot record, and SAFE. -/
def State.exerciseFailed (s : State) : State :=
  ((s.onFc (fun c => { c with fnExercise := 2 })).onBoot (fun b => { b with stage := .online, exerciseFailed := true })).enterSafe

/-- EXERCISE_CLEAR, R417: the latch clears, FAULT_ALT pulses, and the exercise is judged; a real record that holds the ball low is
no failure. -/
def execExerciseClear (high : Bool) (s : State) : Host.Outcome State Fault Refusal :=
  .next (if s.exercising .latch then
    let s1 := s.onFc (fun c => { c with exercise := .done, altPulse := some s.now })
    if s1.fc.exerciseOk && (high || s1.faultNLow) then s1.exercisePassed else s1.exerciseFailed
  else s)

/-! ## Sections, R492 -/

/-- PHASE1_SECTION_READ, R492: used, or the slot is marked BAD and the device makes a warm reset. -/
def execPhase1SectionRead (sec : BitVec 6) (s : State) : Host.Outcome State Fault Refusal :=
  .next (match s.boot.slot with
    | none => s
    | some b =>
      if s.up && s.dict.state == .config && s.nextSection 1 == some sec.toNat then
        if s.flash.sectionOk b sec.toNat then (s.useSection 4 b sec.toNat).goOnStored
        else (s.markBad b).warmReset.onBoot (fun x => { x with failSection := some sec.toNat })
      else s)

/-- PHASE2_SECTION_READ, R492: used, or refused with the slot marked BAD and a class 2 record. -/
def execPhase2SectionRead (sec : BitVec 6) (s : State) : Host.Outcome State Fault Refusal :=
  .next (match s.boot.slot with
    | none => s
    | some b =>
      if s.up && s.inRun && s.nextSection 2 == some sec.toNat then
        if s.flash.sectionOk b sec.toNat then s.useSection 5 b sec.toNat
        else ((s.onBoot (fun x => { x with sectionsBad := x.sectionsBad ++ [sec.toNat] })).markBad b).raise srcFlash 21 0 2 sec.toNat
      else s)

/-! ## The transition to RUN -/

/-- RUN_TRANSITION_COMPLETE, R435, R451 and R493. -/
def execRunTransitionComplete (s : State) : Host.Outcome State Fault Refusal :=
  .next (match s.dict.transition with
    | none => s
    | some (c, tid) =>
      if s.up && !s.awaitsNodes then (if s.missingNodes.isEmpty then s else s.loseMissing).finishTransition c tid else s)

/-! ## Frames, R40 and R312 -/

/-- Core n has not completed its test set in the frame that ends, R312. -/
def State.setMissing (s : State) (n : Nat) : Bool := !s.isWithdrawn n && decide ((s.core n).segsDone < s.cfg 0x230001)

/-- Core n is marked TEST_DUE, R312: an event record, and its triad goes on as a detecting pair. -/
def State.markDue (s : State) (n : Nat) : State :=
  let s1 := (s.onCore n (fun c => { c with testDue := true })).logEvent n 0 .testDue [n]
  match s.groupOf (s.logical n) with
  | none => s1
  | some g =>
    let m := s.memberIndex g (s.logical n)
    if s.isTriad g && (s.groupRt g).active.contains m then
      let rest := (s.groupRt g).active.filter (· != m)
      let s2 := if rest.length < 2 then s1.teardownGroup g else s1
      let s3 := (s2.onGroup g (fun x => { x with active := rest })).onCore n Core.wiped
      if 2 ≤ rest.length then s3.setDetect (s3.activePhys g) true else s3
    else s1

/-- A new set begins on every core; a segment that runs across the boundary goes on with its set. -/
def State.newSets (s : State) : State :=
  { s with cores := s.cores.map (fun c => if c.st == CcState.selftest then c else { c with segsDone := 0 }) }

/-- A frame begins after the first: X0's count, T_FIRST, and the test sets of the frame that ended. -/
def State.nextFrame (s : State) : State :=
  let s1 := ((List.range 64).filter s.setMissing).foldl State.markDue (s.onTb (fun t => { t with runFrame := t.runFrame + 1 }))
  s1.newSets.onBoot (fun b => if s.tb.runFrame = 0 then { b with tFirst := s.sinceRelease } else b)

/-- FRAME_START, R40, R216 and R312. -/
def execFrameStart (s : State) : Host.Outcome State Fault Refusal :=
  .next (if s.up && s.inRun && s.atFrameStart then
    if s.tb.framesOn then s.nextFrame.adoptRois (s.frameAt s.now)
    else if s.tb.runFrame0 ≤ s.frameAt s.now then
      (s.onTb (fun t => { t with framesOn := true, runFrame := 0 })).adoptRois (s.frameAt s.now)
    else s
  else s)

/-! ## Violation seconds, R550 -/

/-- VIOLATION_SECOND_END, R550, R232, R287, R441 and R473. -/
def execViolationSecondEnd (s : State) : Host.Outcome State Fault Refusal :=
  .next (if s.up && s.now % 1000000000 == 0 && decide (0 < s.now) then
    s.endViolSeconds (s.now / 1000000000 - 1)
  else s)

/-! ## Standby, R515 and R516 -/

/-- Every transfer ends with ABORTED. -/
def State.abortAll (s : State) : State := s.dict.transfers.foldl (fun t x => t.serverAbort x.client x.tid aAborted) s

/-- Every core is torn down, and every context with KV is ended, R515 step 1. -/
def State.stopWork (s : State) : State :=
  let s1 := (List.range 64).foldl State.teardownCore (s.onSched (fun x => { x with stopped := true }))
  (s1.ctx.table.filter (fun e => e.2.kv)).foldl (fun t e => t.endCtx e.1 2) s1

/-- The entry sequence of R515, steps 1 to 6. -/
def State.standbySequence (s : State) (off : Bool) : State :=
  let s1 := s.stopWork
  let s2 := (s1.onRadio (fun r => { r with doors := r.doors.map (fun d => { d with txStopped := true }) })).onSpring
    (fun x => { x with stopped := true })
  let s3 := s2.abortAll.logChange s.now
    { deviceChange with index := 0x8030, sub := 1, kind := 4, newDigest := if off then 2 else 1, length := 1 }
  let s4 := (s3.onMem (fun m => { m with lpCache := [], lpSelfRefresh := true })).onFc (fun c => { c with exerciseHold := true })
  let s5 := (s4.onPins (fun p => { p with stbyReq := true })).onPwr
    (fun p => { p with state := if off then .off else .standby, req := none, stbyAt := s.now })
  s5.logEvent srcIsland 0 .powerEntry [if off then 2 else 1]

/-- The entry is due: at the next frame boundary in RUN and DEGRADED, at once in the other states. -/
def State.entryDue (s : State) : Option Bool := if s.up && (!s.inRun || s.atFrameStart) then s.pwr.req else none

/-- STANDBY_ENTRY, R515. -/
def execStandbyEntry (s : State) : Host.Outcome State Fault Refusal :=
  .next (match s.entryDue with
    | some off => s.standbySequence off
    | none => s)

/-- WAKE_RELEASE, R479 and R516: the rails have been valid for 1 ms; the straps are latched again and the boot begins with WAKE 1. -/
def execWakeRelease (bootsel nodeId : BitVec 3) (s : State) : Host.Outcome State Fault Refusal :=
  .next (if s.aonUp && s.wakeReady then
    ((s.resetDomains 1).onPins (fun p => { p with stbyReq := false })).beginBoot bootsel nodeId
  else s)

end Sys2Proof.Machine
end

