-- ==== Sys2Proof/Machine/Commands.lean ====
section
/-! DEFINITION. The commands of the command window (R316 to R325, R328 to R331). A command's condition is that its accepted
record waits to be carried out. -/

namespace Sys2Proof.Machine

/-- SUBMIT, R318: a read of SUBMIT by the slot's own application core. -/
def execSubmit (part : BitVec 4) (slot : Fin 12) (s : State) : Host.Outcome State Fault Refusal :=
  .next (if s.up then (s.submitRead part.toNat slot.val).emit
    (.regData (0x2000010000 + part.toNat * 0x1000 + 0x128 + slot.val * 0x40) (s.submitValue part.toNat slot.val)) else s)

/-- NOP of R319 completes at once. -/
def execCmdNop (part : BitVec 4) (seq : Word) (s : State) : Host.Outcome State Fault Refusal :=
  .next (match s.cmdOf part seq 0x00 with
    | none => s
    | some c => s.carry part seq (if c.form 0 0 0 then 0 else 1) (fun t => t.complete part.toNat seq 0 0))

/-- The status of RUN_JOB, R319 to R321. -/
def State.runJobStatus (s : State) (p : Nat) (c : Cmd) : Nat :=
  if !c.form (2 ^ 56 - 1) (2 ^ 48 - 1) (2 ^ 64 - 1) then 1
  else if s.modelStatus p (BitVec.ofNat 32 c.w1.toNat) ≠ 0 then s.modelStatus p (BitVec.ofNat 32 c.w1.toNat)
  else if c.ctx ≠ 0 ∧ s.ctxStatus p c.ctx ≠ 0 then s.ctxStatus p c.ctx
  else if s.partMaxJobs p ≤ (s.sched.jobs.filter (fun j => j.part.toNat == p && j.st == .queued)).length then 5
  else 0

/-- RUN_JOB, R321 and R329: the job is queued in its partition, its model requested, and a POOL entry that is idle serves
it. -/
def execRunJob (part : BitVec 4) (seq : Word) (s : State) : Host.Outcome State Fault Refusal :=
  .next (match s.cmdOf part seq 0x01 with
    | none => s
    | some c => s.carry part seq (s.runJobStatus part.toNat c) (fun t =>
      let m := BitVec.ofNat 32 c.w1.toNat
      ((t.onSched (fun x =>
        { x with jobs := x.jobs ++ [({ part := part, seq := seq, model := m, prog := bits c.w1.toNat 47 32, prio := bits c.w1.toNat 55 48,
                                       arg := bits c.w2.toNat 47 0, deadline := c.w3.toNat, ctx := BitVec.ofNat 18 c.ctx,
                                       irq := c.w0.getLsbD 8, st := .queued } : Job)] })).requestLoad m none part.toNat).servePools))

/-- OPEN, R168. -/
def execOpen (part : BitVec 4) (seq : Word) (s : State) : Host.Outcome State Fault Refusal :=
  .next (match s.cmdOf part seq 0x02 with
    | none => s
    | some c => s.carry part seq (s.openStatus part.toNat c) (fun t => t.allocCtx part seq (openCtx part c)))

/-- FORK, R177. -/
def execFork (part : BitVec 4) (seq : Word) (s : State) : Host.Outcome State Fault Refusal :=
  .next (match s.cmdOf part seq 0x03 with
    | none => s
    | some c => s.carry part seq (s.forkStatus part.toNat c) (fun t => t.forkCtx part seq c))

/-- LEAVE, R167 and R191: the flag is set; the command completes when the context is ENDED. -/
def execLeave (part : BitVec 4) (seq : Word) (s : State) : Host.Outcome State Fault Refusal :=
  .next (match s.cmdOf part seq 0x04 with
    | none => s
    | some c => s.carry part seq (if c.form 0 0 0 then s.ctxStatus part.toNat c.ctx else 1) (fun t =>
      (t.onCtxEntry c.ctx (fun x => { x with leave := true })).onCtx (fun x =>
        { x with waiters := x.waiters ++ [(BitVec.ofNat 18 c.ctx, part, seq, 4)] })))

/-- The status of BLOCK: the context is RESIDENT or being or having been swapped. -/
def State.blockStatus (s : State) (p : Nat) (c : Cmd) : Nat :=
  if !c.form (2 ^ 64 - 1) 0 0 then 1
  else if s.ctxStatus p c.ctx ≠ 0 then s.ctxStatus p c.ctx
  else if (s.ctxOf c.ctx).st = CtxState.joining ∨ (s.ctxOf c.ctx).st = CtxState.blocked then 2
  else 0

/-- BLOCK, R325: at the next step boundary. -/
def execBlock (part : BitVec 4) (seq : Word) (s : State) : Host.Outcome State Fault Refusal :=
  .next (match s.cmdOf part seq 0x05 with
    | none => s
    | some c => s.carry part seq (s.blockStatus part.toNat c) (fun t =>
      (t.onCtxEntry c.ctx (fun x => { x with wantBlock := some c.w1.toNat })).onCtx (fun x =>
        { x with waiters := x.waiters ++ [(BitVec.ofNat 18 c.ctx, part, seq, 5)] })))

/-- The status of UNBLOCK: the context is BLOCKED, carries the blocked mark, or is about to be blocked. -/
def State.unblockStatus (s : State) (p : Nat) (c : Cmd) : Nat :=
  if !c.form 0 0 0 then 1
  else if s.ctxStatus p c.ctx ≠ 0 then s.ctxStatus p c.ctx
  else if (s.ctxOf c.ctx).st = CtxState.blocked ∨ (s.ctxOf c.ctx).marked ∨ (s.ctxOf c.ctx).wantBlock.isSome then 0
  else 2

/-- UNBLOCK, R325: at the next step boundary. -/
def execUnblock (part : BitVec 4) (seq : Word) (s : State) : Host.Outcome State Fault Refusal :=
  .next (match s.cmdOf part seq 0x06 with
    | none => s
    | some c => s.carry part seq (s.unblockStatus part.toNat c) (fun t =>
      (t.onCtxEntry c.ctx (fun x => { x with wantUnblock := true })).onCtx (fun x =>
        { x with waiters := x.waiters ++ [(BitVec.ofNat 18 c.ctx, part, seq, 6)] })))

/-- The job that TEARDOWN names. -/
def State.jobOf (s : State) (part : BitVec 4) (seq : Word) : Option Job :=
  s.sched.jobs.find? (fun j => j.part == part && j.seq == seq)

/-- The status of TEARDOWN. -/
def State.teardownStatus (s : State) (part : BitVec 4) (c : Cmd) : Nat :=
  if !c.form (2 ^ 32 - 1) 0 0 then 1
  else if bits c.w1.toNat 31 0 = 0 then s.ctxStatus part.toNat c.ctx
  else if (s.jobOf part (BitVec.ofNat 32 c.w1.toNat)).isNone then 2
  else 0

/-- TEARDOWN, R323. -/
def execCmdTeardown (part : BitVec 4) (seq : Word) (s : State) : Host.Outcome State Fault Refusal :=
  .next (match s.cmdOf part seq 0x07 with
    | none => s
    | some c => s.carry part seq (s.teardownStatus part c) (fun t =>
      (match t.jobOf part (BitVec.ofNat 32 c.w1.toNat) with
        | some j => if bits c.w1.toNat 31 0 = 0 then t.tearCtx c.ctx else t.tearJob j
        | none => t.tearCtx c.ctx).complete part.toNat seq 0 0))

/-- The status of MODEL_LOAD: STATE for a package that the boot refused, R492. -/
def State.modelLoadStatus (s : State) (p : Nat) (c : Cmd) : Nat :=
  let m := BitVec.ofNat 32 c.w1.toNat
  if !c.form (2 ^ 32 - 1) 0 0 then 1
  else if s.modelRefused m then 2
  else s.modelStatus p m

/-- MODEL_LOAD, R329: a resident model completes at once with no bytes loaded; else the load is queued. -/
def execModelLoad (part : BitVec 4) (seq : Word) (s : State) : Host.Outcome State Fault Refusal :=
  .next (match s.cmdOf part seq 0x08 with
    | none => s
    | some c => s.carry part seq (s.modelLoadStatus part.toNat c) (fun t =>
      let m := BitVec.ofNat 32 c.w1.toNat
      if t.resident m then (t.useModel m).complete part.toNat seq 0 0 else t.requestLoad m (some (part, seq)) part.toNat))

/-- MODEL_LOAD_COMPLETE, R329 and R330: the first queued load lands, if room can be made, and the next starts. -/
def execModelLoadComplete (s : State) : Host.Outcome State Fault Refusal :=
  .next (match s.sched.loads with
    | [] => s
    | l :: _ =>
      if s.up then
        match s.makeRoom 65 (s.hotSet l.model) with
        | none => s
        | some t => (t.modelLoaded l.model l.part).servePools
      else s)

/-- The status of MODEL_PIN: STATE when the model is not resident. -/
def State.modelPinStatus (s : State) (p : Nat) (c : Cmd) : Nat :=
  let m := BitVec.ofNat 32 c.w1.toNat
  if !c.form (2 ^ 33 - 1) 0 0 then 1
  else if s.modelStatus p m ≠ 0 then s.modelStatus p m
  else if !s.resident m then 2
  else 0

/-- MODEL_PIN, R331. -/
def execModelPin (part : BitVec 4) (seq : Word) (s : State) : Host.Outcome State Fault Refusal :=
  .next (match s.cmdOf part seq 0x09 with
    | none => s
    | some c => s.carry part seq (s.modelPinStatus part.toNat c) (fun t =>
      (t.onSched (fun x => { x with models := x.models.map (fun k =>
        if k.id = BitVec.ofNat 32 c.w1.toNat then { k with pinned := c.w1.getLsbD 32 } else k) })).complete part.toNat seq 0 0))

/-- The status of SPLIT_PAIR: CONFLICT but for a QM pair, STATE while it is split or not whole. -/
def State.splitStatus (s : State) (p : Nat) (c : Cmd) : Nat :=
  let g := bits c.w1.toNat 4 0
  if !c.form 31 0 0 then 1
  else if s.groupStatus p g ≠ 0 then s.groupStatus p g
  else if (s.groupRt g).split ∨ !s.groupWhole g ∨ (s.groupRt g).cmd.isSome then 2
  else 0

/-- SPLIT_PAIR, R324 and R385: at once when both members stand at a tile boundary, else at their next common one. -/
def execSplitPair (part : BitVec 4) (seq : Word) (s : State) : Host.Outcome State Fault Refusal :=
  .next (match s.cmdOf part seq 0x0A with
    | none => s
    | some c => s.carry part seq (s.splitStatus part.toNat c) (fun t =>
      let g := bits c.w1.toNat 4 0
      let t1 := t.onGroup g (fun x => { x with cmd := some (part, seq) })
      if t1.pairAtBoundary g then t1.finishSplit g else t1))

/-- The trail core of a pair is held by other work, R324. -/
def State.trailHeld (s : State) (g : Nat) : Bool :=
  let n := (s.groupPhys g).getD 1 0
  (s.core n).st != CcState.idle || s.isWithdrawn n || s.sched.remaps.any (fun r => r.new.toNat == n || r.old.toNat == n)

/-- The status of REFORM_PAIR. -/
def State.reformStatus (s : State) (p : Nat) (c : Cmd) : Nat :=
  let g := bits c.w1.toNat 4 0
  if !c.form 31 0 0 then 1
  else if s.groupStatus p g ≠ 0 then s.groupStatus p g
  else if !(s.groupRt g).split ∨ (s.groupRt g).cmd.isSome then 2
  else if s.trailHeld g then 6
  else 0

/-- REFORM_PAIR, R324 and R386: the trail takes the group clock, and the copy waits for the lead's next tile boundary. -/
def execReformPair (part : BitVec 4) (seq : Word) (s : State) : Host.Outcome State Fault Refusal :=
  .next (match s.cmdOf part seq 0x0B with
    | none => s
    | some c => s.carry part seq (s.reformStatus part.toNat c) (fun t =>
      let g := bits c.w1.toNat 4 0
      let ns := t.groupPhys g
      let gclk := ((t.groupEntry g).map (·.gclk)).getD 0
      (t.onGroup g (fun x => { x with cmd := some (part, seq), resync := some (1, 0, .waitTb) })).onCore (ns.getD 1 0)
        (fun k => { k with group := groupWord 1 gclk 1 ns, st := .resync })))

/-- CTX_QUERY, R319 and R325: STATE and the blocked mark; a FREE entry reads 0. -/
def execCtxQuery (part : BitVec 4) (seq : Word) (s : State) : Host.Outcome State Fault Refusal :=
  .next (match s.cmdOf part seq 0x0C with
    | none => s
    | some c =>
      let x := s.ctxOf c.ctx
      s.carry part seq (if !c.form 0 0 0 then 1 else if x.st != CtxState.free && x.part != part then 3 else 0) (fun t =>
        t.complete part.toNat seq 0 (x.st.code + flagAt (x.marked || x.st == CtxState.blocked) 8)))

/-- CQ_FAULT_CLEAR, R317: the bit is written 1, and the held completions are written. -/
def execCqFaultClear (part : BitVec 4) (s : State) : Host.Outcome State Fault Refusal :=
  .next (if s.up && (s.window part.toNat).cqFault then s.retryHeld part.toNat else s)

end Sys2Proof.Machine
end

