-- ==== Sys2Proof/Machine/ScaleOps.lean ====
section
/-! DEFINITION. The scale update of a step boundary (R104, R107 to R113, R123) and the boundary as a whole. -/

namespace Sys2Proof.Machine

/-! ## An entry of the scale table, R113 -/

/-- The 32-bit value at an offset of an entry. -/
def f32At (b : Bytes) (off : Nat) : Word := BitVec.ofNat 32 (fieldAt b off 4)

/-- A U32 count that stops at 2^32 - 1. -/
def addCapped (b : Bytes) (off k : Nat) : Bytes := pasteAt b off (leBytes 4 (min (2 ^ 32 - 1) (fieldAt b off 4 + k)))

/-- The partials of one core taken into an entry, R109 and R123. -/
def takePartial (e g : Bytes) : Bytes :=
  let e1 := pasteAt e 0x48 (leBytes 4 (fmax (f32At e 0x48) (f32At g 8)).toNat)
  addCapped (addCapped (addCapped e1 0x50 (fieldAt g 12 4)) 0x54 (fieldAt g 16 4)) 0x58 (fieldAt g 20 4)

/-- The largest of the sixteen HIST slots. -/
def histMax (e : Bytes) : Word := ((List.range 16).map (fun i => f32At e (4 * i))).foldl fmax 0

/-- STEP_MAX goes into HIST[HEAD], HEAD advances, STEP_MAX becomes +0, R108. -/
def pushHist (e : Bytes) : Bytes :=
  let h := fieldAt e 0x4C 1 % 16
  pasteAt (pasteAt (pasteAt e (4 * h) (slice e 0x48 4)) 0x4C (leBytes 1 ((h + 1) % 16))) 0x48 (leBytes 4 0)

/-- The entry's SCALE and INV_SCALE after an update, R107, R111 and R112; whether they were computed anew. A MARGIN above 7 counts modulo 8:
DESIGN CHOICE, log 95. -/
def rescale (e : Bytes) : Bytes × Bool :=
  let m := histMax e
  if m == 0 then (pasteAt e 0x5C (leBytes 4 (fieldAt e 0x5C 4 + 1)), false)
  else if bit (fieldAt e 0x4F 1) 0 then (e, false)
  else
    let s := scalesOf m (fieldAt e 0x4E 1 % 8) (fieldAt e 0x4D 1)
    (pasteAt e 0x40 (leBytes 4 s.1.toNat ++ leBytes 4 s.2.toNat), true)

/-- One more update of the entry, R113. -/
def countUpdate (e : Bytes) : Bytes := pasteAt e 0x60 (leBytes 8 (fieldAt e 0x60 8 + 1))

/-! ## The update of one tensor -/

/-- A Pond address by logical core and offset. -/
def pondMap (l off : Nat) : Nat := pondBase + l * 0x400000 + off

/-- The quantisation granules of tensor t: those of the model's whose TENSOR names it, R123. -/
def State.granulesOf (s : State) (m : Word) (t : Nat) : List (Nat × Nat) :=
  (Config.granules m).filter (fun g => fieldAt (s.peek (pondMap g.1 (64 * g.2 + 0x18)) 2) 0 2 == t)

/-- The step-boundary program writes into a Pond window. -/
def State.boundaryWrite (s : State) (a : Nat) (bs : Bytes) : State := s.busWrite (.engine 3 (BitVec.ofNat 9 srcSched)) a bs false

/-- The partials of a granule are taken and set to zero. -/
def State.collect (s : State) (e : Bytes) (g : Nat × Nat) : State × Bytes :=
  let a := pondMap g.1 (64 * g.2)
  (s.boundaryWrite (a + 8) (leBytes 16 0), takePartial e (s.peek a 64))

/-- The output factors of a tensor's consumers are computed anew, R104. -/
def State.spreadFactors (s : State) (m : Word) (t : Nat) (e : Bytes) : State :=
  (Config.tensorFactors m t).foldl (fun x f =>
    x.boundaryWrite (pondMap f.1 f.2.1) ((f.2.2.map (fun w => leBytes 4 (fmul (f32At e 0x40) w).toNat)).flatten)) s

/-- The update of tensor t of a model, when it is tracked, R108 and R123. -/
def State.updateTensor (s : State) (m : Word) (t : Nat) : State :=
  let a := Config.scaleTableAddr m + 128 * t
  if !bit (fieldAt (s.peek a 128) 0x4F 1) 1 then s
  else
    let gs := s.granulesOf m t
    let r := gs.foldl (fun (x : State × Bytes) g => x.1.collect x.2 g) (s, s.peek a 128)
    let n := rescale (pushHist r.2)
    let s1 := r.1.poke a (countUpdate n.1) false
    let s2 := gs.foldl (fun x g => x.boundaryWrite (pondMap g.1 (64 * g.2)) (slice n.1 0x40 8)) s1
    if n.2 then s2.spreadFactors m t n.1 else s2

/-- The scale updates of the tensors written in the ended step, R108 and R110. -/
def State.updateScales (s : State) (m : Word) (written : List Nat) : State :=
  ((written.dedup).filter (fun t => decide (t < Config.tensorCount m))).foldl (fun x t => x.updateTensor m t) s

/-! ## The boundary -/

/-- A boundary of the model in the partition waits for a swap-out. -/
def State.boundaryWaits (s : State) (p : Nat) (m : Word) : Bool := s.ctx.boundaries.any (fun b => b.part == p && b.model == m)

/-- A step boundary can be reached: in RUN or DEGRADED, with the model resident, none of it waiting, and its step not held, R190. -/
def State.boundaryDue (s : State) (p : Nat) (m : Word) : Bool :=
  s.up && s.inRun && s.resident m && !s.boundaryWaits p m && !s.ctx.heldSteps.any (fun h => h.1.toNat == p && h.2 == m)

end Sys2Proof.Machine
end

