-- ==== Sys2Proof/Machine/Contexts.lean ====
section
/-! DEFINITION. Step boundaries, swaps and the leader's decisions (R108, R190, R191, R196 to R198). -/

namespace Sys2Proof.Machine

/-- STEP_BOUNDARY, R108, R190 and R191: on the leader, the lowest node that holds the model, the scales of the tensors written in the step and
the order of R191; on another node the step waits for the leader's decision. DESIGN CHOICE, log 50: the command names the tensors written, and
the free pages that the other nodes report. -/
def execStepBoundary (part : BitVec 4) (model : Word) (appends : List (BitVec 18 × Nat)) (report : StepReport) (s : State) :
    Host.Outcome State Fault Refusal :=
  .next (if s.boundaryDue part.toNat model then
    if report.free.all (fun r => decide (s.fab.nodeId.toNat < r.1.toNat)) then
      (s.updateScales model report.written).stepBoundary part.toNat model appends report.written report.free
    else if s.ctx.awaiting.any (fun h => h.1 == part && h.2.1 == model) then s
    else s.onCtx (fun x => { x with awaiting := x.awaiting ++ [(part, model, s.now)] })
  else s)

/-- SWAP_OUT_COMPLETE, R196: the last byte of a swap-out lands, also of a context torn down meanwhile, and the boundary that waited goes on. -/
def execSwapOutComplete (ctx : BitVec 18) (s : State) : Host.Outcome State Fault Refusal :=
  .next (if s.up then
    (if (s.ctxOf ctx.toNat).st == CtxState.swappingOut then s.finishSwapOut ctx.toNat else s).resumeBoundary ctx.toNat
  else s)

/-- SWAP_IN_COMPLETE, R198: the last page of a swap-in lands. -/
def execSwapInComplete (ctx : BitVec 18) (s : State) : Host.Outcome State Fault Refusal :=
  .next (if s.up && (s.ctxOf ctx.toNat).st == CtxState.swappingIn then s.finishSwapIn ctx.toNat else s)

/-- When the decision that a step waits for is overdue: KDP_TIMEOUT_P after the boundary was reached, R190 and R478. -/
def State.decisionExpiry (s : State) (part : BitVec 4) (model : Word) : Option Nat :=
  (s.ctx.awaiting.find? (fun h => h.1 == part && h.2.1 == model)).map (fun h => h.2.2 + s.cfg 0x170003)

/-- STEP_DECISION_RECEIVE, R190: the leader's decisions are applied unchanged; a marginal one is counted, R35. -/
def execStepDecisionReceive (model : Word) (d : StepDecision) (s : State) : Host.Outcome State Fault Refusal :=
  .next (if s.up && s.inRun && !s.boundaryWaits d.part.toNat model then
    ((s.onDict (fun x => { x with kdpMarginal := x.kdpMarginal + (if (s.decisionExpiry d.part model).any (marginal s.now) then 1 else 0) })).updateScales
      model d.written).applyDecision model d
  else s)

/-- STEP_DECISION_TIMEOUT, R190: without a decision the node holds its step; the deadline monitor reports the miss. -/
def execStepDecisionTimeout (part : BitVec 4) (model : Word) (s : State) : Host.Outcome State Fault Refusal :=
  .next (if s.up && s.inRun && (s.decisionExpiry part model).any (expired s.now) then
    ((s.onCtx (fun x =>
      { x with heldSteps := x.heldSteps ++ [(part, model)], awaiting := x.awaiting.filter (fun h => !(h.1 == part && h.2.1 == model)) })).logEvent
        srcSched 2 .stepHeld [part.toNat, model.toNat]).raiseCtx srcSched 23 0 2 0 part.toNat model.toNat
  else s)

end Sys2Proof.Machine
end

