-- ==== Sys2Proof/Machine/Chains.lean ====
section
/-! DEFINITION. The chain table and its two pipes: layout (R120 to R123), the checks at issue (R118, R125, R128, R129), the
epilogue's stages (R119, R126, R127, R130, R131), row statistics (R135 to R138), and the prologue (R117, R124, R125). Every
function here reads Pond bytes through an argument `rd` (offset, length) and returns what is to be written. -/

namespace Sys2Proof.Machine

/-- How a pipe reads the Pond. -/
abbrev Reader := Nat → Nat → Bytes

/-! ## Layout -/

/-- A stage slot, R121. -/
structure Stage where
  code : Nat
  dfmt : Nat
  qg : Nat
  a : Nat
  b : Nat
  g0 : Nat
  g1 : Nat
  deriving DecidableEq, Repr

/-- A chain entry, R120. -/
structure ChainEntry where
  kind : Nat
  count : Nat
  flags : Nat
  srcFmt : Nat
  srcFirst : Nat
  srcLast : Nat
  srcRow : Nat
  entryQg : Nat
  reservedZero : Bool
  stages : List Stage
  deriving DecidableEq, Repr

/-- A stage slot of 16 bytes. -/
def parseStage (b : Bytes) : Stage :=
  { code := fieldAt b 0 1, dfmt := fieldAt b 1 1, qg := fieldAt b 2 2, a := fieldAt b 4 4, b := fieldAt b 8 4, g0 := fieldAt b 12 2,
    g1 := fieldAt b 14 2 }

/-- A chain entry of 192 bytes; the slots beyond COUNT and the rest are reserved. -/
def parseEntry (b : Bytes) : ChainEntry :=
  let n := min 8 (fieldAt b 1 1)
  { kind := fieldAt b 0 1, count := fieldAt b 1 1, flags := fieldAt b 2 1, srcFmt := fieldAt b 3 1, srcFirst := fieldAt b 4 2,
    srcLast := fieldAt b 6 2, srcRow := fieldAt b 8 2, entryQg := fieldAt b 10 2,
    reservedZero := allZero (slice b 12 52) && allZero (slice b (0x40 + 16 * n) (128 - 16 * n)),
    stages := (List.range n).map (fun i => parseStage (slice b (0x40 + 16 * i) 16)) }

/-- FS, R120. -/
def ChainEntry.fs (e : ChainEntry) : Bool := bit e.flags 0

/-- The entry of a stage code. -/
def ChainEntry.stage (e : ChainEntry) (code : Nat) : Option Stage := e.stages.find? (fun x => x.code == code)

/-! ## Checks of an epilogue, R126, R128, R129 -/

/-- A format code of R122. -/
def fmtCodeOk (c : Nat) : Bool := decide (c ≤ 6)

/-- Quantised format code. -/
def fmtCodeQuantised (c : Nat) : Bool := decide (3 ≤ c) && decide (c ≤ 6)

/-- The parameters of one epilogue stage: codes and reserved bits, R126 and R127. `zcomp` says that ZCOMP is present. -/
def epilogueStageOk (zcomp : Bool) (x : Stage) : Bool :=
  fmtCodeOk x.dfmt && (if fmtCodeQuantised x.dfmt && x.code != 9 then x.qg != 0 else true) &&
  match x.code with
  | 1 => decide (x.a < 2)
  | 2 => x.a == 0
  | 3 => fmtCodeOk (x.a % 16) && x.a / 16 % 2 ^ 12 == 0 && (!fmtCodeQuantised (x.a % 16) || x.g1 != 0)
  | 4 => decide (x.a < 6)
  | 5 => true
  | 6 => fmtCodeQuantised x.dfmt
  | 7 => x.a == 0
  | 8 => x.a / 8 % 32 == 0 && decide (x.a < 2 ^ 15) && decide (1 ≤ x.b) && decide (x.b ≤ 512)
  | 9 => if zcomp then decide (x.a < 4) else x.a == 0
  | _ => false

/-- The order rules of R126 and R129. -/
def epilogueOrderOk (cs : List Nat) : Bool :=
  cs.getLast? == some 9 && cs.count 9 == 1 && decide (cs.count 6 ≤ 1) && decide (cs.count 7 ≤ 1) && decide (cs.count 8 ≤ 1)
    && ((cs.dropWhile (· != 6)).drop 1).all (fun c => c == 7 || c == 9)
    && ((cs.dropWhile (· != 8)).drop 1).all (fun c => c == 6 || c == 7 || c == 9)
    && (!cs.contains 7 || (cs.dropLast).getLast? == some 7)

/-- The formats of QUANT and STORE agree, R129. -/
def storeFmtOk (e : ChainEntry) : Bool :=
  match e.stage 9, e.stage 6 with
  | some st, some q => st.dfmt == q.dfmt && (e.stage 7).isNone || (st.dfmt == q.dfmt && (st.dfmt == 5 || st.dfmt == 4 || st.dfmt == 3))
  | some st, none => !fmtCodeQuantised st.dfmt && (e.stage 7).isNone
  | none, _ => false

/-- The restrictions of R128 by SHAPE (1 MQ64, 3 CX32), and ROWSTAT's width. -/
def epilogueShapeOk (shape : Nat) (e : ChainEntry) : Bool :=
  (shape != 3 || e.stages.all (fun x => x.code == 1 || x.code == 2 || x.code == 3 || x.code == 5 || (x.code == 6 && x.dfmt == 6) || x.code == 9))
    && (shape != 1 || (e.stage 8).isNone)
    && (match e.stage 8 with
        | some x => decide (bits x.a 14 8 + 1 ≤ (if shape = 4 then 64 else 128))
        | none => true)

/-- Columns of one output row by SHAPE, R57. -/
def rowWidth (shape : Nat) : Nat := if shape = 1 ∨ shape = 3 ∨ shape = 4 then 64 else 128

/-- m rows of len bytes, as (offset, length, written). -/
def rowUses (off stride len m : Nat) (w : Bool) : List (Nat × Nat × Bool) := (List.range m).map (fun i => (off + i * stride, len, w))

/-- The bytes (offset, length, written) of the Pond that an epilogue uses for m rows from accumulator row `arow`, R126 and R136. -/
def epilogueRanges (shape arow m : Nat) (e : ChainEntry) : List (Nat × Nat × Bool) :=
  let w := rowWidth shape
  (e.stages.map (fun x =>
    (match x.code with
      | 1 => [(x.g0 * 64, (if bit x.a 0 then 512 else 4), false)]
      | 2 => [(x.g0 * 64, 512, false)]
      | 3 => rowUses (x.g0 * 64) (x.a / 2 ^ 16 * 64) (w * (((fmtOf (x.a % 16)).map Fmt.size).getD 4)) m false
              ++ (if fmtCodeQuantised (x.a % 16) then [(x.g1 * 64, 64, false)] else [])
      | 8 => [(x.g0 * 64, 64, true), (x.g0 * 64 + 0x40 + 8 * arow, 8 * m, true)]
              ++ (if bit x.a 1 then [(x.g0 * 64 + 0x40, 8 * bits x.b 9 0, true)] else [])
      | 9 => if (e.stage 7).isSome then [(x.g0 * 64, 64 + x.g1 * 64, true)]
             else rowUses (x.g0 * 64) (x.g1 * 64) (w * (((fmtOf x.dfmt).map Fmt.size).getD 4)) m true
      | _ => [])
    ++ (if fmtCodeQuantised x.dfmt && x.code != 9 && (e.fs || x.code == 6) then [(x.qg * 64, 64, true)] else []))).flatten

/-- The granule parameters of an epilogue, R121. -/
def epilogueGranules (e : ChainEntry) : List Nat :=
  (e.stages.map (fun x =>
    (if x.code = 1 ∨ x.code = 2 ∨ x.code = 3 ∨ x.code = 8 ∨ x.code = 9 then [x.g0] else [])
      ++ (if x.code = 3 ∧ fmtCodeQuantised (x.a % 16) then [x.g1] else [])
      ++ (if fmtCodeQuantised x.dfmt && x.code != 9 && (e.fs || x.code == 6) then [x.qg] else []))).flatten

/-- A region, by its first byte and size, holds the granules. -/
def holdsGranules (base size : Nat) (gs : List Nat) : Bool := gs.all (fun g => decide (base ≤ g * 64) && decide (g * 64 + 64 ≤ base + size))

/-- The epilogue entry passes the checks of R129, for a region given by its first byte and size. -/
def epilogueOk (shape base size : Nat) (e : ChainEntry) : Bool :=
  e.kind == 0 && decide (1 ≤ e.count) && decide (e.count ≤ 8) && decide (e.flags < 2) && e.srcFmt == 0 && e.srcFirst == 0 && e.srcLast == 0
    && e.srcRow == 0 && e.entryQg == 0 && e.reservedZero && e.stages.all (epilogueStageOk (e.stage 7).isSome)
    && epilogueOrderOk (e.stages.map (·.code)) && storeFmtOk e && epilogueShapeOk shape e
    && holdsGranules base size (epilogueGranules e)

/-! ## Checks of a prologue, R118, R124, R125, R129 -/

/-- The activation format of a pass, by FMT of R68; none for complex and for INT4 x INT8. -/
def activationFmt : Nat → Option Fmt
  | 0 => some .int8 | 2 => some .e4m3 | 3 => some .e5m2 | 4 => some .e5m2 | 5 => some .bf16 | 6 => some .fp16 | 7 => some .int16
  | _ => none

/-- K values per activation row by SHAPE and FMT, R97; complex rows count twice. -/
def rowElems (shape fmt : Nat) : Nat :=
  match shape with
  | 1 => if fmt = 1 then 128 else 64
  | 3 => 64
  | 4 => 64
  | _ => if fmt = 1 then 256 else 128

/-- Bytes per activation row, R49. -/
def rowBytesOf (shape fmt : Nat) : Nat :=
  match shape with
  | 1 => if fmt = 1 then 128 else 64
  | 3 => 128
  | 4 => 128
  | _ => if fmt = 1 then 256 else 128

/-- The granules that row i of a pass with first-row granule f reads through an entry: first and last. -/
def sourceGranules (e : ChainEntry) (shape fmt f i : Nat) : Nat × Nat :=
  let g := f + i * e.srcRow
  (g, g + (rowElems shape fmt * (((fmtOf e.srcFmt).map Fmt.size).getD 1) + 63) / 64 - 1)

/-- The pass lies inside the entry's source range; or only partly. -/
def insideSource (e : ChainEntry) (shape fmt f m : Nat) : Bool × Bool :=
  let rs := (List.range m).map (sourceGranules e shape fmt f)
  let inside := rs.all (fun r => decide (e.srcFirst ≤ r.1) && decide (r.2 ≤ e.srcLast))
  (inside, !inside && rs.any (fun r => decide (e.srcFirst ≤ r.2) && decide (r.1 ≤ e.srcLast)))

/-- The stages of a prologue stand in the order DEQ, NORM, ADD, each at most once, R124. -/
def prologueOrderOk (cs : List Nat) : Bool :=
  cs.all (fun c => c == 0x11 || c == 0x12 || c == 0x13) && (cs.zip (cs.drop 1)).all (fun p => decide (p.1 < p.2))

/-- The parameters of one prologue stage, R124. -/
def prologueStageOk (srcQ : Bool) (x : Stage) : Bool :=
  fmtCodeOk x.dfmt && (if fmtCodeQuantised x.dfmt then x.qg != 0 else true) &&
  match x.code with
  | 0x11 => x.a == 0 && x.b == 0 && (!srcQ || x.qg != 0)
  | 0x12 => decide (x.b < 2)
  | 0x13 => fmtCodeOk (x.a % 16) && x.a / 16 % 2 ^ 12 == 0 && (!fmtCodeQuantised (x.a % 16) || x.g1 != 0)
  | _ => false

/-- Bytes of an element of the stored source rows. -/
def ChainEntry.srcSize (e : ChainEntry) : Nat := ((fmtOf e.srcFmt).map Fmt.size).getD 1

/-- The values of a source row's full length, which place β behind γ. DESIGN CHOICE, log 91: SRC_ROW granules of them, since R120 gives a
source row no other length. -/
def ChainEntry.rowLength (e : ChainEntry) : Nat := e.srcRow * 64 / e.srcSize

/-- The K index of a source row's first element for a pass that begins at granule f, R138. -/
def ChainEntry.firstK (e : ChainEntry) (f : Nat) : Nat := (f - e.srcFirst) % e.srcRow * 64 / e.srcSize

/-- The bytes (offset, length, written) of the Pond that a prologue uses for m rows. -/
def prologueRanges (shape fmt f m : Nat) (e : ChainEntry) : List (Nat × Nat × Bool) :=
  let k := rowElems shape fmt
  rowUses (f * 64) (e.srcRow * 64) (k * e.srcSize) m false
    ++ (if ((activationFmt fmt).map Fmt.quantised).getD false then [(e.entryQg * 64, 64, true)] else [])
    ++ (e.stages.map (fun x =>
      (match x.code with
        | 0x11 => if fmtCodeQuantised e.srcFmt then [(x.qg * 64, 64, false)] else []
        | 0x12 => [(x.g0 * 64, 64, false), (x.g0 * 64 + 0x40 + 8 * ((f - e.srcFirst) / e.srcRow), 8 * m, false)]
                  ++ (if x.b % 2 = 1 then [(x.g1 * 64 + 4 * e.firstK f, 4 * k, false), (x.g1 * 64 + 4 * (e.rowLength + e.firstK f), 4 * k, false)]
                      else [])
        | 0x13 => rowUses (x.g0 * 64) (x.a / 2 ^ 16 * 64) (k * (((fmtOf (x.a % 16)).map Fmt.size).getD 1)) m false
                  ++ (if fmtCodeQuantised (x.a % 16) then [(x.g1 * 64, 64, false)] else [])
        | _ => [])
      ++ (if fmtCodeQuantised x.dfmt && e.fs then [(x.qg * 64, 64, true)] else []))).flatten

/-- The granule parameters of a prologue, R120 and R124. -/
def prologueGranules (fmt : Nat) (e : ChainEntry) : List Nat :=
  (if ((activationFmt fmt).map Fmt.quantised).getD false then [e.entryQg] else [])
    ++ (e.stages.map (fun x =>
      (if x.code = 0x11 then (if fmtCodeQuantised e.srcFmt then [x.qg] else []) else [x.g0])
        ++ (if x.code = 0x12 ∧ x.b % 2 = 1 ∨ x.code = 0x13 ∧ fmtCodeQuantised (x.a % 16) then [x.g1] else [])
        ++ (if fmtCodeQuantised x.dfmt && e.fs then [x.qg] else []))).flatten

/-- The prologue entry passes the checks of R125 and R129. -/
def prologueOk (shape fmt base size : Nat) (e : ChainEntry) : Bool :=
  e.kind == 1 && decide (1 ≤ e.count) && decide (e.count ≤ 3) && decide (e.flags < 2) && fmtCodeOk e.srcFmt && decide (1 ≤ e.srcRow)
    && decide (e.srcRow ≤ 4096) && e.reservedZero && prologueOrderOk (e.stages.map (·.code))
    && e.stages.all (prologueStageOk (fmtCodeQuantised e.srcFmt)) && (!fmtCodeQuantised e.srcFmt || (e.stages.head?.map (·.code)) == some 0x11)
    && shape != 3 && fmt != 1 && (activationFmt fmt).isSome
    && (!((activationFmt fmt).map Fmt.quantised).getD false || e.entryQg != 0)
    && holdsGranules base size (prologueGranules fmt e)

/-- The prologue of a pass, R118: an entry number, none, or refused (a range met in part, or two ranges). -/
inductive Selected where
  | none
  | entry (i : Nat)
  | refused
  deriving DecidableEq, Repr

/-- The selection of R118 among the entries of a chain table. -/
def selectPrologue (es : List ChainEntry) (shape fmt f m : Nat) : Selected :=
  let ps := es.zipIdx.filter (fun e => e.1.kind == 1)
  let ins := ps.filter (fun e => (insideSource e.1 shape fmt f m).1)
  if ps.any (fun e => (insideSource e.1 shape fmt f m).2) then .refused
  else match ins with
    | [] => .none
    | [e] => .entry e.2
    | _ => .refused

/-! ## Values in a row -/

/-- SCALE and INV_SCALE of a quantisation granule, R123. -/
def qScale (rd : Reader) (g : Nat) : Word := BitVec.ofNat 32 (leNat (rd (g * 64) 4))
/-- INV_SCALE -/
def qInv (rd : Reader) (g : Nat) : Word := BitVec.ofNat 32 (leNat (rd (g * 64 + 4) 4))

/-- The FP32 word at an offset. -/
def readF (rd : Reader) (off : Nat) : Word := BitVec.ofNat 32 (leNat (rd off 4))

/-- An element of a stored row as FP32: quantised through a granule's SCALE (R103), else exact (R101). -/
def elemAsF (rd : Reader) (f : Fmt) (qg off j : Nat) : Word :=
  let v := leNat (rd (off + j * f.size) f.size)
  if f.quantised then dequantise f v (qScale rd qg) else rnd (f.value v)

/-- What the conversions of a drain or a pass have collected, by granule. -/
abbrev QCounts := Sparse QCount

/-- One value presented to a conversion into a granule. -/
def QCounts.take (q : QCounts) (g : Nat) (x : Word) (sat : Bool) : QCounts := supd {} q g (fun c => c.take x sat)

/-- A whole row converted into a granule's format: the codes and the counts. -/
def quantRow (rd : Reader) (f : Fmt) (g : Nat) (xs : List Word) (q : QCounts) : List Nat × QCounts :=
  xs.foldl (fun (a : List Nat × QCounts) x =>
    let r := quantise f x (qInv rd g)
    (a.1 ++ [r.1], a.2.take g x r.2)) ([], q)

/-- FS = 1: a stage's row rounded to its declared format and back, R131. -/
def roundRow (rd : Reader) (x : Stage) (xs : List Word) (q : QCounts) : List Word × QCounts :=
  match fmtOf x.dfmt with
  | none => (xs, q)
  | some .fp32 => (xs, q)
  | some f =>
    if f.quantised then
      let r := quantRow rd f x.qg xs q
      (r.1.map (fun v => dequantise f v (qScale rd x.qg)), r.2)
    else (xs.map (fun v => rnd (f.value (f.store (num v)).1)), q)

/-! ## Row statistics, R135 and R136 -/

/-- One row of a side buffer: S0 and S1. -/
abbrev RowStat := Word × Word

/-- Column j takes part. -/
def zipValid (v : Nat) (f : Word → Word) (xs : List Word) : List Word := (xs.take v).map f ++ List.replicate (xs.length - v) 0

/-- A row folded into its statistic, R136; `v` columns are valid. -/
def foldStat (softmax : Bool) (v : Nat) (xs : List Word) (s : RowStat) : RowStat :=
  if softmax then
    let t := (xs.take v).foldl fmax 0xFF800000
    let m2 := fmax s.1 t
    let masked := m2 == 0xFF800000
    let e := if masked then zipValid v (fun _ => 0) xs else zipValid v (fun x => sfu 0 (fmul (fsub x m2) log2e)) xs
    let c := if masked then one32 else sfu 0 (fmul (fsub s.1 m2) log2e)
    (m2, fadd (fmul s.2 c) (tree128 e))
  else (fadd s.1 (tree128 (zipValid v id xs)), fadd s.2 (tree128 (zipValid v (fun x => fmul x x) xs)))

/-- The header fields of a side buffer, R135: STATE, MODE, ROWS, COLS, STEP, TILES. -/
structure SideHeader where
  state : Nat
  mode : Nat
  rows : Nat
  cols : Nat
  step : Nat
  tiles : Nat
  deriving DecidableEq, Repr

/-- The header at an offset. -/
def readSide (rd : Reader) (off : Nat) : SideHeader :=
  let b := rd off 16
  { state := fieldAt b 0 1, mode := fieldAt b 1 1, rows := fieldAt b 2 2, cols := fieldAt b 4 4, step := fieldAt b 8 4, tiles := fieldAt b 12 4 }

/-- The header's first 16 bytes. -/
def SideHeader.bytes (h : SideHeader) : Bytes :=
  leBytes 1 h.state ++ leBytes 1 h.mode ++ leBytes 2 h.rows ++ leBytes 4 h.cols ++ leBytes 4 h.step ++ leBytes 4 h.tiles

/-- FIRST at drain start, R136: the buffer opened, every row at its start values. -/
def openSide (x : Stage) (x1 : Word) : List (Nat × Bytes) :=
  let start : Bytes := if bit x.a 0 then List.replicate 8 0 else leBytes 4 0xFF800000 ++ leBytes 4 0
  let hdr : SideHeader := { state := 1, mode := x.a % 2, rows := bits x.b 9 0, cols := 0, step := x1.toNat, tiles := 0 }
  [(x.g0 * 64, hdr.bytes), (x.g0 * 64 + 0x40, (List.replicate (bits x.b 9 0) start).flatten)]

/-- The buffer of a ROWSTAT that is not FIRST is open in its mode, R136. -/
def sideOpen (rd : Reader) (x : Stage) : Bool :=
  let h := readSide rd (x.g0 * 64)
  h.state == 1 && h.mode == x.a % 2

/-! ## The epilogue, R126 and R127 -/

/-- What a row has become: FP32 values, or codes after QUANT. -/
inductive Row where
  | vals (v : List Word)
  | codes (c : List Nat)
  deriving DecidableEq, Repr

/-- The state of a drain: counts by granule, and the statistics written so far (offset and bytes). -/
structure DrainAcc where
  q : QCounts := []
  stats : List (Nat × Bytes) := []
  deriving DecidableEq, Repr

/-- Element-wise with the column. -/
def mapCols (f : Nat → Word → Word) (xs : List Word) : List Word := xs.zipIdx.map (fun p => f p.2 p.1)

/-- One stage on row i of a drain whose pass starts at accumulator row `arow`; after it, with FS = 1, the rounding of R131. -/
def epilogueStage (rd : Reader) (fs : Bool) (arow i : Nat) (x : Stage) (r : Row × DrainAcc) : Row × DrainAcc :=
  match r.1 with
  | .codes _ => r
  | .vals v =>
    let done := fun (y : List Word) =>
      if fs then let z := roundRow rd x y r.2.q; (Row.vals z.1, { r.2 with q := z.2 }) else (Row.vals y, r.2)
    match x.code with
    | 1 => done (mapCols (fun j w => fmul w (readF rd (x.g0 * 64 + (if bit x.a 0 then 4 * j else 0)))) v)
    | 2 => done (mapCols (fun j w => fadd w (readF rd (x.g0 * 64 + 4 * j))) v)
    | 3 => match fmtOf (x.a % 16) with
      | some f => done (mapCols (fun j w => fadd w (elemAsF rd f x.g1 ((x.g0 + i * (x.a / 2 ^ 16)) * 64) j)) v)
      | none => r
    | 4 => done (v.map (act (x.a % 16) (BitVec.ofNat 32 x.b)))
    | 5 => done (v.map (fun w => fmin (fmax w (BitVec.ofNat 32 x.a)) (BitVec.ofNat 32 x.b)))
    | 6 => match fmtOf x.dfmt with
      | some f => let z := quantRow rd f x.qg v r.2.q; (.codes z.1, { r.2 with q := z.2 })
      | none => r
    | 8 =>
      let off := x.g0 * 64 + 0x40 + 8 * (arow + i)
      let old : RowStat := (readF rd off, readF rd (off + 4))
      let new := foldStat (!bit x.a 0) (bits x.a 14 8 + 1) v old
      let y := done v
      (y.1, { y.2 with stats := y.2.stats ++ [(off, leBytes 4 new.1.toNat ++ leBytes 4 new.2.toNat)] })
    | _ => r

/-- The bytes of a finished row in STORE's format. -/
def Row.bytes (r : Row) (dfmt : Nat) : Bytes :=
  match fmtOf dfmt, r with
  | some f, .vals v => (v.map (fun w => leBytes f.size (f.store (num w)).1)).flatten
  | some f, .codes c => (c.map (leBytes f.size)).flatten
  | none, _ => []

/-- All rows of a drain through the stages before STORE: the rows' bytes, and what they collected. -/
def drainRows (rd : Reader) (e : ChainEntry) (arow : Nat) (rows : List (List Word)) : List Bytes × DrainAcc :=
  (rows.zipIdx).foldl (fun (a : List Bytes × DrainAcc) p =>
    let r := (e.stages.filter (fun x => x.code != 9 && x.code != 7)).foldl (fun y x => epilogueStage rd e.fs arow p.2 x y) (Row.vals p.1, a.2)
    (a.1 ++ [r.1.bytes (((e.stage 9).map (·.dfmt)).getD 0)], r.2)) ([], {})

/-- The counts of a granule added to its 64 bytes, R109 and R123. -/
def addCounts (rd : Reader) (g : Nat) (c : QCount) : Nat × Bytes :=
  let b := rd (g * 64) 24
  let cap := fun (o k : Nat) => leBytes 4 (min (2 ^ 32 - 1) (fieldAt b o 4 + k))
  (g * 64 + 8, leBytes 4 (fmax (BitVec.ofNat 32 (fieldAt b 8 4)) c.max).toNat ++ cap 12 c.sat ++ cap 16 c.nan ++ cap 20 c.inf)

/-- The header of the side buffer after the last row of a drain, R136. -/
def closeSide (rd : Reader) (x : Stage) : Nat × Bytes :=
  let h := readSide rd (x.g0 * 64)
  (x.g0 * 64, { h with cols := (h.cols + bits x.a 14 8 + 1) % 2 ^ 32, tiles := (h.tiles + 1) % 2 ^ 32,
                        state := if bit x.a 2 then 2 else h.state }.bytes)

/-! ## The zero-run format, R155 to R158 -/

/-- A coded block of 64 bytes. -/
def codeBlock (b : Bytes) : Bytes := leBytes 8 (listMask ((List.range 64).filter (fun i => b.getD i 0 != 0))) ++ b.filter (· != 0)

/-- The blocks of a row. -/
def codeRow (b : Bytes) : Bytes := ((List.range (b.length / 64)).map (fun i => codeBlock (slice b (64 * i) 64))).flatten

/-- A chunk header, R156. -/
structure ChunkHeader where
  sealed_ : Bool
  rows : Nat
  rowBytes : Nat
  coded : Nat
  nonzero : Nat
  capacity : Nat
  deriving DecidableEq, Repr

/-- The first 0x18 bytes of a header. -/
def ChunkHeader.bytes (h : ChunkHeader) : Bytes :=
  [0x52, 0x5A, 1, if h.sealed_ then 1 else 0] ++ leBytes 4 h.rows ++ leBytes 4 h.rowBytes ++ leBytes 4 h.coded ++ leBytes 4 h.nonzero
    ++ leBytes 4 h.capacity

/-- A whole chunk with its CRC and padding. -/
def chunkBytes (h : ChunkHeader) (coded : Bytes) : Bytes :=
  h.bytes ++ leBytes 4 (if h.sealed_ then crc32c (h.bytes ++ coded) else 0) ++ List.replicate 36 0 ++ coded
    ++ List.replicate ((64 - coded.length % 64) % 64) 0

/-- The header in Pond, with whether MAGIC and VERSION are right. -/
def readChunk (rd : Reader) (off : Nat) : ChunkHeader × Bool :=
  let b := rd off 64
  ({ sealed_ := bit (fieldAt b 3 1) 0, rows := fieldAt b 4 4, rowBytes := fieldAt b 8 4, coded := fieldAt b 12 4, nonzero := fieldAt b 16 4,
     capacity := fieldAt b 20 4 }, fieldAt b 0 2 == 0x5A52 && fieldAt b 2 1 == 1)

/-- ROW_BYTES of an appending drain, R157. -/
def zrowBytes (shape : Nat) : Nat := if shape = 4 ∨ shape = 1 then 64 else 128

/-- The capacity check of R158 for m rows. -/
def chunkRoom (rd : Reader) (x : Stage) (shape m : Nat) : Bool :=
  let h := readChunk rd (x.g0 * 64)
  let need := m * zrowBytes shape * 9
  if bit x.a 0 then decide (need ≤ 8 * (x.g1 * 64))
  else h.2 && !h.1.sealed_ && h.1.rowBytes == zrowBytes shape && decide (8 * h.1.coded + need ≤ 8 * h.1.capacity)

/-- OPEN at drain start, R157: a new header with ROWS = 0. -/
def openChunk (x : Stage) (shape : Nat) : Nat × Bytes := (x.g0 * 64, chunkBytes ⟨false, 0, zrowBytes shape, 0, 0, x.g1 * 64⟩ [])

/-- Rows appended to the chunk in Pond, R157: the coded blocks behind those that are there, and the header; with SEAL the padding and the CRC,
which is taken over the whole chunk. -/
def appendChunk (rd : Reader) (x : Stage) (rows : List Bytes) : List (Nat × Bytes) :=
  let h0 := (readChunk rd (x.g0 * 64)).1
  let add := (rows.map codeRow).flatten
  let h : ChunkHeader :=
    { h0 with sealed_ := bit x.a 1, rows := h0.rows + rows.length, coded := h0.coded + add.length,
              nonzero := h0.nonzero + ((rows.map (fun r => (r.filter (· != 0)).length)).sum) }
  if h.sealed_ then
    [(x.g0 * 64 + 64 + h0.coded, add ++ List.replicate ((64 - h.coded % 64) % 64) 0),
     (x.g0 * 64, (chunkBytes h (rd (x.g0 * 64 + 64) h0.coded ++ add)).take 64)]
  else [(x.g0 * 64 + 64 + h0.coded, add), (x.g0 * 64, (chunkBytes h []).take 64)]

/-- Decoding one block from coded bytes: its 64 bytes and the rest; none when the bytes run out, R160. -/
def decodeBlock (c : Bytes) : Option (Bytes × Bytes) :=
  let map := leNat (c.take 8)
  let n := (maskList 64 map).length
  if c.length < 8 + n then none
  else some (((List.range 64).foldl (fun (a : Bytes × Bytes) i =>
    if bit map i then (a.1 ++ [a.2.headD 0], a.2.drop 1) else (a.1 ++ [0], a.2)) ([], (c.drop 8).take n)).1, c.drop (8 + n))

/-- n blocks: their bytes, the rest, and the sum of the popcounts of their bitmaps. -/
def decodeBlocks : Nat → Bytes → Option (Bytes × Bytes × Nat)
  | 0, c => some ([], c, 0)
  | n + 1, c => match decodeBlock c with
    | none => none
    | some (b, rest) =>
      (decodeBlocks n rest).map (fun r => (b ++ r.1, r.2.1, r.2.2 + (maskList 64 (leNat (c.take 8))).length))

/-! ## The prologue, R117, R124, R125, R138 -/

/-- NORM on element j of source row i, R138. -/
def normElem (rd : Reader) (e : ChainEntry) (x : Stage) (f i j : Nat) (v : Word) : Word :=
  let row := (f - e.srcFirst) / e.srcRow + i
  let k := e.firstK f + j
  let len := e.rowLength
  let off := x.g0 * 64 + 0x40 + 8 * row
  let s0 := readF rd off
  let s1 := readF rd (off + 4)
  if x.b % 2 = 0 then
    (if s1 = 0 then 0 else fmul (sfu 0 (fmul (fsub v s0) log2e)) (sfu 2 s1))
  else
    let n := rnd (intNum (readSide rd (x.g0 * 64)).cols)
    let mean := fdiv s0 n
    let var := fmax (fsub (fdiv s1 n) (fmul mean mean)) 0
    let rstd := sfu 3 (fadd var (BitVec.ofNat 32 x.a))
    ffma (fmul (fsub v mean) rstd) (readF rd (x.g1 * 64 + 4 * k)) (readF rd (x.g1 * 64 + 4 * len + 4 * k))

/-- One stage of a prologue on row i. -/
def prologueStage (rd : Reader) (e : ChainEntry) (f i : Nat) (x : Stage) (r : List Word × QCounts) : List Word × QCounts :=
  let y := match x.code with
    | 0x12 => mapCols (fun j v => normElem rd e x f i j v) r.1
    | 0x13 => match fmtOf (x.a % 16) with
      | some g => mapCols (fun j v => fadd v (elemAsF rd g x.g1 ((x.g0 + i * (x.a / 2 ^ 16)) * 64) j)) r.1
      | none => r.1
    | _ => r.1
  if e.fs then roundRow rd x y r.2 else (y, r.2)

/-- Row i of a pass through its prologue: the values converted to the activation format, as exact numbers, and the counts. -/
def prologueRow (rd : Reader) (e : ChainEntry) (shape fmt f i : Nat) (q : QCounts) : List Num × QCounts :=
  match fmtOf e.srcFmt, activationFmt fmt with
  | some sf, some af =>
    let deq := ((e.stage 0x11).map (·.qg)).getD 0
    let v0 := (List.range (rowElems shape fmt)).map (elemAsF rd sf deq ((f + i * e.srcRow) * 64))
    let r := e.stages.foldl (fun y x => prologueStage rd e f i x y) (v0, q)
    if af.quantised then
      let z := quantRow rd af e.entryQg r.1 r.2
      (z.1.map af.value, z.2)
    else (r.1.map (fun w => af.value (af.store (num w)).1), r.2)
  | _, _ => ([], q)

/-- The check of R139 on a NORM prologue. -/
def normOk (rd : Reader) (e : ChainEntry) (x1 : Word) : Bool :=
  match e.stage 0x12 with
  | none => true
  | some x =>
    let h := readSide rd (x.g0 * 64)
    h.state == 2 && h.mode == x.b % 2 && h.step == x1.toNat

/-! ## The array, R49 to R51, R90, R91, R94 to R99 -/

/-- N columns by SHAPE; complex columns count once. -/
def arrayCols (shape : Nat) : Nat := if shape = 1 ∨ shape = 4 then 64 else if shape = 3 then 32 else 128

/-- Bytes of a weight block. -/
def weightBytes (shape : Nat) : Nat := if shape = 1 then 4096 else if shape = 3 then 4096 else if shape = 4 then 8192 else 16384

/-- The exact value of a weight: K index k, column j, of a block stored row by row. DESIGN CHOICE, log 48: the two INT4 elements of a byte (R90) are
the K indices 2r and 2r + 1 of one column, which one array element holds. -/
def weightAt (shape fmt : Nat) (w : Bytes) (k j : Nat) : Num :=
  let n := arrayCols shape
  match fmt with
  | 0 => intNum (signed 8 (w.getD (k * n + j) 0).toNat)
  | 1 => intNum (signed 4 (let y := (w.getD (k / 2 * n + j) 0).toNat; if k % 2 = 0 then y else y / 16))
  | 2 | 3 => e4m3.decode (w.getD (k * n + j) 0).toNat
  | 4 => e5m2.decode (w.getD (k * n + j) 0).toNat
  | 5 => bf16.decode (leNat (slice w (2 * (k * n + j)) 2))
  | 6 => fp16.decode (leNat (slice w (2 * (k * n + j)) 2))
  | _ => intNum (signed 16 (leNat (slice w (2 * (k * n + j)) 2)))

/-- Part p (0 real, 1 imaginary) of a complex element number i. -/
def complexAt (fmt : Nat) (b : Bytes) (i p : Nat) : Num :=
  let v := leNat (slice b (4 * i + 2 * p) 2)
  if fmt = 8 then fp16.decode v else intNum (signed 16 v)

/-- The activations of a row as stored, by FMT. -/
def activationsOf (shape fmt : Nat) (b : Bytes) : List Num :=
  (List.range (rowElems shape fmt)).map (fun k =>
    match fmt with
    | 0 | 1 => intNum (signed 8 (b.getD k 0).toNat)
    | 2 => e4m3.decode (b.getD k 0).toNat
    | 3 | 4 => e5m2.decode (b.getD k 0).toNat
    | 5 => bf16.decode (leNat (slice b (2 * k) 2))
    | 6 | 8 => fp16.decode (leNat (slice b (2 * k) 2))
    | _ => intNum (signed 16 (leNat (slice b (2 * k) 2))))

/-- The sums are INT32. -/
def intSums (fmt : Nat) : Bool := fmt == 0 || fmt == 1 || fmt == 7 || fmt == 9

/-- An exact value that is an integer. -/
def numInt : Num → Int
  | .fin s m e => (if s then -1 else 1) * (m * 2 ^ e.toNat : Nat)
  | _ => 0

/-- add1 of R96: FP32 with one rounding, or saturating INT32. -/
def add1 (fmt : Nat) (s : Word × Bool) (p : Num) : Word × Bool :=
  if intSums fmt then let r := satAdd s.1 (numInt p); (r.1, s.2 || r.2) else (rnd (addNum (num s.1) p), s.2)

/-- The column sum of one real column, from +0, K ascending, R94 and R96. -/
def columnSum (shape fmt : Nat) (w : Bytes) (a : List Num) (j : Nat) : Word × Bool :=
  a.zipIdx.foldl (fun s p => add1 fmt s (mulNum (weightAt shape fmt w p.2 j) p.1)) (0, false)

/-- The two sums of one complex column, R99. -/
def complexSum (fmt : Nat) (w : Bytes) (a : List Num) (j : Nat) : (Word × Bool) × (Word × Bool) :=
  (List.range 32).foldl (fun s k =>
    let wr := complexAt fmt w (k * 32 + j) 0
    let wi := complexAt fmt w (k * 32 + j) 1
    let c := a.getD (2 * k) (.fin false 0 0)
    let d := a.getD (2 * k + 1) (.fin false 0 0)
    (add1 fmt (add1 fmt s.1 (mulNum wr c)) (negNum (mulNum wi d)), add1 fmt (add1 fmt s.2 (mulNum wr d)) (mulNum wi c)))
    ((0, false), (0, false))

/-- The sums of one activation row in column order, R57. -/
def rowSums (shape fmt : Nat) (w : Bytes) (a : List Num) : List (Word × Bool) :=
  if shape = 3 then ((List.range 32).map (fun j => let s := complexSum fmt w a j; [s.1, s.2])).flatten
  else (List.range (arrayCols shape)).map (columnSum shape fmt w a)

/-- A sum joins its accumulator word, R55. -/
def joinAcc (fmt : Nat) (old s : Word) : Word × Bool :=
  if intSums fmt then satAdd old (int32 s) else (fadd old s, false)

end Sys2Proof.Machine
end

