-- ==== Sys2Proof/Machine/SeqOps.lean ====
section
/-! DEFINITION. The sequencer (R66, R67, R69, R79): instruction words, fetch and issue, the Pond interlock, vector registers,
and the end of a program (R76, R314). -/

namespace Sys2Proof.Machine

/-! ## Instruction words, R67 and R68 -/

/-- A number as a field of w bits. -/
abbrev fld (w v : Nat) : BitVec w := BitVec.ofNat w v

/-- The operands of a vector operation. -/
def decodeVector (n : BitVec 6) (w : Nat) (op : BitVec 6 → BitVec 5 → BitVec 5 → BitVec 5 → BitVec 5 → Word → Instr) : Instr :=
  op n (fld 5 (bits w 51 47)) (fld 5 (bits w 46 42)) (fld 5 (bits w 41 37)) (fld 5 (bits w 36 32)) (fld 32 w)

/-- The vector operations of class 3. DESIGN CHOICE, log 85: VST stores from register VS1, [46:42]; R67 names no field for it. -/
def decodeClass3 (n : BitVec 6) (w : Nat) : Option Instr :=
  match bits w 59 52 with
  | 0x00 => some (decodeVector n w .vadd)
  | 0x01 => some (decodeVector n w .vsub)
  | 0x02 => some (decodeVector n w .vmul)
  | 0x03 => some (decodeVector n w .vfma)
  | 0x04 => some (decodeVector n w .vmin)
  | 0x05 => some (decodeVector n w .vmax)
  | 0x06 => some (decodeVector n w .vcmp)
  | 0x07 => some (decodeVector n w .vsel)
  | 0x08 => some (decodeVector n w .vcvt)
  | 0x09 => some (decodeVector n w .viadd)
  | 0x0A => some (decodeVector n w .vimul)
  | 0x0B => some (decodeVector n w .vand)
  | 0x0C => some (decodeVector n w .vor)
  | 0x0D => some (decodeVector n w .vshift)
  | 0x10 => some (.vld n (fld 5 (bits w 51 47)) (fld 16 w))
  | 0x11 => some (.vst n (fld 5 (bits w 46 42)) (fld 16 w))
  | 0x12 => some (decodeVector n w .vred)
  | 0x13 => some (decodeVector n w .vbcast)
  | 0x18 => if w % 8 < 6 then some (decodeVector n w .vsfu) else none
  | _ => none

/-- The control operations of class 0. -/
def decodeClass0 (n : BitVec 6) (w : Nat) : Option Instr :=
  match bits w 59 52 with
  | 0x00 => some (.nop n)
  | 0x01 => some (.halt n)
  | 0x02 => some (.tileEnd n)
  | 0x03 => some (.jump n (fld 16 w))
  | 0x04 => some (.loop n (fld 2 (bits w 51 50)) (fld 16 w))
  | 0x05 => some (.setlc n (fld 2 (bits w 51 50)) (fld 16 (bits w 47 32)))
  | 0x06 => some (.setx n (fld 4 (bits w 51 48)) (fld 32 w))
  | 0x07 => some (.addx n (fld 4 (bits w 51 48)) (fld 32 w))
  | 0x08 => some (.addxr n (fld 4 (bits w 51 48)) (fld 4 (bits w 47 44)) (fld 4 (bits w 43 40)))
  | 0x09 => some (.mulxi n (fld 4 (bits w 51 48)) (fld 4 (bits w 47 44)) (fld 32 w))
  | _ => none

/-- SHAPE and FMT hold values that R59 and R68 list; another value is ILLEGAL by R67. -/
def listedShapeFmt (w : Nat) : Bool := decide (bits w 51 48 < 5) && decide (bits w 47 44 < 10)

/-- The instruction of core n that a 64-bit word encodes; none where R67 lists nothing. -/
def tileDecode (n : BitVec 6) (v : Word64) : Option Instr :=
  let w := v.toNat
  match bits w 63 60, bits w 59 52 with
  | 0, _ => decodeClass0 n w
  | 1, 0 => some (.waitSeq n (fld 4 (bits w 51 48)) (bit w 47) (fld 4 (bits w 35 32)) (fld 32 w))
  | 1, 1 => some (.signal n (fld 4 (bits w 51 48)) (fld 6 (bits w 47 42)) (fld 6 (bits w 41 36)) (fld 3 (bits w 35 33)))
  | 2, 0 => if listedShapeFmt w then
      some (.mloadw n (fld 4 (bits w 51 48)) (fld 4 (bits w 47 44)) (fld 2 (bits w 41 40)) (fld 16 w)) else none
  | 2, 1 => if listedShapeFmt w then
      some (.mpass n (fld 4 (bits w 51 48)) (fld 4 (bits w 47 44)) (bit w 43) (bit w 42) (fld 2 (bits w 41 40))
        (fld 9 (bits w 39 31)) (fld 9 (bits w 30 22)) (bit w 21) (fld 5 (bits w 20 16)) (fld 16 w)) else none
  | 3, _ => decodeClass3 n w
  | 4, 0 => some (.tmv n (bit w 51) (fld 16 w))
  | _, _ => none

/-! ## Fetch and issue -/

/-- The Pond offset of the instruction at the PC, R78. -/
def Core.fetchOff (c : Core) (p : Program) : Nat := p.hdr.toNat * 64 + 64 + 8 * c.pc

/-- The sequencer may issue: nothing is held back, no boundary or wait is due, and no preemption waits at a boundary. -/
def Core.issuing (c : Core) : Bool :=
  (c.st == CcState.running || c.st == CcState.draining) && c.held.isNone && !c.tileEndPending && c.waitOn.isNone
    && !(c.atTb && c.preemptAt.isSome)

/-- What a fetch gives. -/
inductive Fetched where
  /-- the sequencer does not issue -/
  | idle
  /-- outside the program's region, R79 -/
  | outside (off : Nat)
  /-- a poisoned or uncorrectable word -/
  | bad (s : State) (addr : Nat)
  | word (s : State) (w : Word64)

/-- Core n stands at its tile boundary until one of its pair's members is restored, R382, or until its remap is done, R298. -/
def State.pairHeld (s : State) (n : Nat) : Bool :=
  s.sched.remaps.any (fun r => r.old.toNat == n || r.new.toNat == n) || (s.core n).atTb && match s.groupOf (s.logical n) with
    | some g => !s.isTriad g && (s.groupRt g).resync.isSome
    | none => false

/-- The instruction at core n's PC is fetched from its Pond. A pair's member that is to be restored takes a word that cannot be read as it
stands, up to its tile boundary. -/
def State.fetch (s : State) (n : Nat) : Fetched :=
  let c := s.core n
  match c.prog with
  | none => .idle
  | some p =>
    if !s.up || !c.issuing || s.pairHeld n then .idle
    else if !p.covers (c.fetchOff p) 8 then .outside (c.fetchOff p)
    else
      let r := s.readMem (pondBase + s.logical n * 0x400000 + c.fetchOff p) 8
      match r.2.2 with
      | some a => if s.beingRestored n then .word r.1 (BitVec.ofNat 64 (leNat r.2.1)) else .bad r.1 a
      | none => .word r.1 (BitVec.ofNat 64 (leNat r.2.1))

/-- Instruction i issues on core n: the word at its PC is i's, and the effect follows. -/
def State.issue (s : State) (n : BitVec 6) (i : Instr) (effect : State → State) : State :=
  match s.fetch n.toNat with
  | .word t w => if tileDecode n w = some i then effect t else s
  | _ => s

/-- The PC after the issued instruction; the core has left its tile boundary. -/
def Core.next (c : Core) : Core := { c with pc := (c.pc + 1) % 65536, atTb := false }

/-- Core n goes on after the issued instruction. -/
def State.next (s : State) (n : Nat) : State := s.onCore n Core.next

/-! ## The interlock, R66 -/

/-- Units that hold Pond ranges: 0 epilogue pipe, 1 vector unit, 2 TM0, 3 TM1, 4 matrix queue and array. -/
def pondRange (unit_ : Nat) (write : Bool) (off len : Nat) : Range :=
  { unit_ := unit_, write := write, first := off / 4096, last := (off + max len 1 - 1) / 4096 }

/-- Two ranges share a 4 KiB unit. -/
def Range.meets (a b : Range) : Bool := decide (a.first ≤ b.last) && decide (b.first ≤ a.last)

/-- The ranges of every instruction issued and not completed. -/
def Core.pendingRanges (c : Core) : List Range :=
  (c.mq.map (fun o => match o with | .pass p => p.ranges | .load _ rs => rs)).flatten
    ++ (c.inArray.map (·.ranges)).flatten
    ++ (c.draining.map (fun p => p.ranges.filter (fun r => r.unit_ == 0))).flatten
    ++ ((c.tmq.flatten).map (·.2)).flatten
    ++ ((c.tm.filterMap (fun m => m.map (·.ranges)))).flatten

/-- A new range conflicts: a write with another unit's pending read or write, a read with a pending write. -/
def Core.conflicts (c : Core) (rs : List Range) : Bool :=
  rs.any (fun r => c.pendingRanges.any (fun q => r.meets q && (if r.write then q.unit_ != r.unit_ else q.write)))

/-- Instruction i is held back on core n while its ranges conflict, else it takes effect. -/
def State.interlock (s : State) (n : Nat) (i : Instr) (rs : List Range) (effect : State → State) : State :=
  if (s.core n).conflicts rs then s.onCore n (fun c => { c with held := some i, atTb := false })
  else effect (s.onCore n (fun c => { c with held := none }))

/-! ## The Pond operands of a program -/

/-- The program's region holds the range. -/
def Core.inRegion (c : Core) (off len : Nat) : Bool := (c.prog.map (fun p => p.covers off len)).getD false

/-- The reaction of core n to bad data, R360; where it keeps its work, as a pair's member does up to its tile boundary (R382), it goes on. -/
def State.meetsBad (s : State) (n : Nat) (bad : Option Nat) (k : State → State) : State :=
  match bad with
  | none => k s
  | some a => if ((s.consumerUe n none a).core n).busy then k (s.consumerUe n none a) else s.consumerUe n none a

/-- A read of a Pond operand: what follows, or the reaction to bad data, R360. -/
def State.withPond (s : State) (n off len : Nat) (k : State → Bytes → State) : State :=
  let r := s.readMem (pondBase + s.logical n * 0x400000 + off) len
  r.1.meetsBad n r.2.2 (fun t => k t r.2.1)

/-- How a pipe reads core n's Pond. -/
def State.pondReader (s : State) (n : Nat) : Reader := fun off len => s.mem.bytes (pondAt n off) len

/-- Writes of a unit of core n into its Pond, in order, taken into the unit's CRC, R81. -/
def State.unitWrites (s : State) (n u : Nat) (ws : List (Nat × Bytes)) (poisoned : Bool) : State :=
  ws.foldl (fun t w => (t.pondWrite n w.1 w.2 poisoned).onCore n (fun c => c.signUnit u w.2)) s

/-! ## Vector registers -/

/-- The 64 lanes of register r. -/
def Core.lanes (c : Core) (r : BitVec 5) : List Word := (List.range 64).map (fun l => sget 0 c.v (r.toNat * 64 + l))

/-- Register r takes 64 lanes. -/
def Core.setLanes (c : Core) (r : BitVec 5) (ws : List Word) : Core :=
  { c with v := (List.range 64).foldl (fun v l => sset 0 v (r.toNat * 64 + l) (ws.getD l 0)) c.v }

/-! ## The end of a program -/

/-- HALT on one core, R76 and R314: the unsent numbers are to be voided, and the core is free. -/
def Core.halted (c : Core) : Core :=
  { c with
    st := .idle, ctx := 0, atTb := false, accBusy := [false, false], prog := none, work := none, preemptAt := none,
    voidDue := c.voidDue ++ (match c.prog with
      | some p => c.voidsOf p.bank.toNat p.outMask.toNat
      | none => []) }

/-- A release whose program has halted on its last core is complete, R314; with no deadline nothing is kept of it. -/
def State.finishRelease (s : State) (w : Option Work) : State :=
  let ends := fun (r : Rel) => if r.runsAs w && !s.workRuns w then { r with st := .done, completed := some s.now } else r
  let kept := (s.sched.rels.map ends).filter (fun r => !(r.st == .done && r.completed.isSome && r.deadline == 0))
  s.onSched (fun x => { x with rels := kept })

/-- A job whose program has halted on its last core completes, R321: DONE, or DEADLINE after its deadline; JOBS counts it. -/
def State.finishJob (s : State) (w : Option Work) : State :=
  match s.sched.jobs.find? (fun j => j.runsAs w) with
  | none => s
  | some j =>
    if s.workRuns w then s
    else
      let s1 := (s.onSched (fun x => { x with jobs := x.jobs.filter (fun y => !(y.part == j.part && y.seq == j.seq)) })).onAcct j.part.toNat
        (fun a => { a with jobs := a.jobs + 1 })
      if j.deadline ≠ 0 ∧ j.deadline < s.now then
        (s1.complete j.part.toNat j.seq 8 j.coreNs).missed j.part.toNat j.ctx.toNat 0xFFFF (s.frameAt s.now)
      else
        let k := if j.deadline ≠ 0 ∧ marginal s.now j.deadline then 1 else 0
        (s1.onSched (fun x => { x with deadlineMarginal := x.deadlineMarginal + k })).complete j.part.toNat j.seq 0 j.coreNs

/-- HALT retires on core n. -/
def State.haltCore (s : State) (n : Nat) : State :=
  ((((s.chargeCore n).onCore n Core.halted).finishRelease (s.core n).work).finishJob (s.core n).work).servePools

end Sys2Proof.Machine
end

