-- ==== Sys2Proof/Machine/MatrixOps.lean ====
section
/-! DEFINITION. The matrix unit: weight preloads (R51), passes (R53 to R57, R69, R118, R129, R139), and drains (R56, R126, R136,
R137, R157, R158). Sums are formed when a pass starts, and a drain's results when its last row leaves the pipe; the interlock of
R66 makes the instants between irrelevant. -/

namespace Sys2Proof.Machine

/-- SHAPE and FMT pair, R68. -/
def pairOk (shape fmt : Nat) : Bool :=
  if shape < 3 then decide (fmt < 5) else if shape = 3 then fmt == 8 || fmt == 9 else if shape = 4 then decide (5 ≤ fmt) && decide (fmt < 8)
  else false

/-- The accumulator rows of a pass lie in its buffer, R53, and in its quadrant's rows, R57. -/
def rowsOk (shape quad arow m : Nat) : Bool :=
  if shape = 1 then decide (256 * (quad / 2) ≤ arow) && decide (arow + m ≤ 256 * (quad / 2) + 256) else decide (arow + m ≤ 512)

/-! ## Weight planes, R48 and R51 -/

/-- Two blocks of weights occupy the same cells. -/
def Weights.covers (w v : Weights) : Bool := !(w.shape == 1 && v.shape == 1 && w.quad != v.quad)

/-- A block of weights is written into a plane. -/
def putWeights (plane : List Weights) (w : Weights) : List Weights := plane.filter (fun v => !w.covers v) ++ [w]

/-- MM128 and MV use the plane alike. -/
def planeShape (shape : Nat) : Nat := if shape = 2 then 0 else shape

/-- The weights of a pass in the active plane. -/
def findWeights (plane : List Weights) (p : Pass) : Option Weights :=
  plane.find? (fun w => planeShape w.shape.toNat == planeShape p.shape.toNat && (p.shape != 1 || w.quad == p.quad))

/-- The loads at the front of the queue, and the pass behind them with the rest. -/
def frontOf (q : List MatrixOp) : List Weights × Option (Pass × List MatrixOp) :=
  match q with
  | [] => ([], none)
  | .load w _ :: t => let r := frontOf t; (w :: r.1, r.2)
  | .pass p :: t => ([], some (p, t))

/-- Preloads at the head of the matrix queue fill the shadow plane, whether or not a pass streams from the active one, R51; a preload behind a
pass waits until that pass has taken the shadow plane. -/
def Core.preload (c : Core) : Core :=
  match frontOf c.mq with
  | ([], _) => c
  | (ws, r) =>
    { c with shadow := ws.foldl putWeights c.shadow, preloaded := true
             mq := match r with | some (p, rest) => .pass p :: rest | none => [] }

/-! ## MLOADW -/

/-- MLOADW at its issue. -/
def State.issueLoad (s : State) (n : BitVec 6) (shape fmt : BitVec 4) (quad : BitVec 2) (block : BitVec 16) : State :=
  let off := block.toNat * 64
  let len := weightBytes shape.toNat
  if !pairOk shape.toNat fmt.toNat then s.coreFault n.toNat eShapeFmt n.toNat
  else if !(s.core n.toNat).inRegion off len then s.coreFault n.toNat ePondAddr (off / 65536)
  else if 4 ≤ (s.core n.toNat).mq.length then s
  else s.interlock n.toNat (.mloadw n shape fmt quad block) [pondRange 4 false off len] (fun t =>
    t.withPond n.toNat off len (fun u bs =>
      u.onCore n.toNat (fun c =>
        ({ c.next with
            mq := c.mq ++ [MatrixOp.load { shape := shape, fmt := fmt, quad := quad, bytes := bs } [pondRange 4 false off len]] }
          : Core).preload)))

/-! ## MPASS -/

/-- The fields of an MPASS, R67. -/
structure PassArgs where
  shape : BitVec 4
  fmt : BitVec 4
  acc : Bool
  abuf : Bool
  quad : BitVec 2
  m1 : BitVec 9
  arow : BitVec 9
  drain : Bool
  chain : BitVec 5
  row : BitVec 16

/-- Activation rows. -/
def PassArgs.m (a : PassArgs) : Nat := a.m1.toNat + 1

/-- The instruction that an MPASS's fields stand for. -/
def PassArgs.instr (a : PassArgs) (n : BitVec 6) : Instr := .mpass n a.shape a.fmt a.acc a.abuf a.quad a.m1 a.arow a.drain a.chain a.row

/-- The 192 bytes of chain entry i. -/
def entryBytes (table : Bytes) (i : Nat) : Bytes := slice table (192 * i) 192

/-- What a pass reads: its rows and, through a prologue, what that reads and counts. -/
def passReads (a : PassArgs) (pro : Option ChainEntry) : List (Nat × Nat × Bool) :=
  match pro with
  | none => [(a.row.toNat * 64, a.m * rowBytesOf a.shape.toNat a.fmt.toNat, false)]
  | some e => prologueRanges a.shape.toNat a.fmt.toNat a.row.toNat a.m e

/-- The checks of R118 and R129: the prologue's bytes, or none where the pass is refused. -/
def checkChains (a : PassArgs) (p : Program) (table : Bytes) : Option (Option Bytes) :=
  let es := (List.range p.chainCount).map (fun i => parseEntry (entryBytes table i))
  let drainOk := !a.drain || (decide (a.chain.toNat < p.chainCount)
    && epilogueOk a.shape.toNat p.pondBase p.pondSize (parseEntry (entryBytes table a.chain.toNat)))
  if !drainOk then none
  else match selectPrologue es a.shape.toNat a.fmt.toNat a.row.toNat a.m with
    | .none => some none
    | .refused => none
    | .entry i =>
      if prologueOk a.shape.toNat a.fmt.toNat p.pondBase p.pondSize (parseEntry (entryBytes table i))
      then some (some (entryBytes table i)) else none

/-- The pass that an MPASS queues. -/
def PassArgs.toPass (a : PassArgs) (table : Bytes) (pro : Option Bytes) (ranges : List Range) : Pass :=
  { shape := a.shape, fmt := a.fmt, acc := a.acc, abuf := a.abuf, quad := a.quad, rows := a.m, arow := a.arow.toNat, drain := a.drain,
    chain := a.chain, row := a.row, epilogue := if a.drain then entryBytes table a.chain.toNat else [], prologue := pro, ranges := ranges }

/-- What the drain of a pass uses. -/
def drainUses (a : PassArgs) (table : Bytes) : List (Nat × Nat × Bool) :=
  if a.drain then epilogueRanges a.shape.toNat a.arow.toNat a.m (parseEntry (entryBytes table a.chain.toNat)) else []

/-- Ranges of one unit and kind that follow each other without a gap are one. -/
def joinRanges : List Range → List Range
  | [] => []
  | r :: rs => match joinRanges rs with
    | q :: t =>
      if q.unit_ = r.unit_ ∧ q.write = r.write ∧ r.first ≤ q.first ∧ q.first ≤ r.last + 1 then { r with last := max r.last q.last } :: t
      else r :: q :: t
    | [] => [r]

/-- The Pond ranges of a pass and of its drain, R66. -/
def passRanges (a : PassArgs) (p : Program) (table : Bytes) (pro : Option ChainEntry) : List Range :=
  joinRanges ((if p.chainCount = 0 then [] else [pondRange 4 false p.chainTable (192 * p.chainCount)])
    ++ (passReads a pro).map (fun r => pondRange 4 r.2.2 r.1 r.2.1)
    ++ (drainUses a table).map (fun r => pondRange 0 r.2.2 r.1 r.2.1))

/-- The pass is queued once nothing conflicts, unless a NORM prologue's buffer is refused, R139. -/
def State.queuePass (s : State) (n : BitVec 6) (a : PassArgs) (p : Program) (table : Bytes) (pro : Option Bytes) : State :=
  let e := pro.map parseEntry
  let rs := passRanges a p table e
  s.interlock n.toNat (a.instr n) rs (fun t =>
    if (e.map (fun x => normOk (t.pondReader n.toNat) x ((t.core n.toNat).x.getD 1 0))).getD true then
      t.onCore n.toNat (fun c => { c.next with mq := c.mq ++ [.pass (a.toPass table pro rs)] })
    else t.coreFault n.toNat eDesc n.toNat)

/-- Some byte that the pass or its drain uses lies outside the program's region, R79 and R142. -/
def PassArgs.strays (a : PassArgs) (p : Program) (table : Bytes) (pro : Option ChainEntry) : Option Nat :=
  ((passReads a pro ++ drainUses a table).find? (fun r => !p.covers r.1 r.2.1)).map (·.1)

/-- MPASS at its issue, for the program that runs. What the pass and its drain use is known here, and an access outside the region stops it
here. DESIGN CHOICE, log 92. -/
def State.issuePassOf (s : State) (n : BitVec 6) (a : PassArgs) (p : Program) : State :=
  let len := 192 * p.chainCount
  if p.chainCount ≠ 0 ∧ !p.covers p.chainTable len then s.coreFault n.toNat ePondAddr (p.chainTable / 65536)
  else s.interlock n.toNat (a.instr n) (if p.chainCount = 0 then [] else [pondRange 4 false p.chainTable len]) (fun t =>
    t.withPond n.toNat p.chainTable len (fun u table =>
      match checkChains a p table with
      | none => u.coreFault n.toNat eDesc n.toNat
      | some pro => match a.strays p table (pro.map parseEntry) with
        | none => u.queuePass n a p table pro
        | some off => u.coreFault n.toNat ePondAddr (off / 65536)))

/-- MPASS at its issue. DESIGN CHOICE, log 86: accumulator rows outside the buffer, or outside the quadrant's rows, set CC_ERR.ILLEGAL; R53 names no
error for them. -/
def State.issuePass (s : State) (n : BitVec 6) (a : PassArgs) : State :=
  match (s.core n.toNat).prog with
  | none => s
  | some p =>
    if !pairOk a.shape.toNat a.fmt.toNat then s.coreFault n.toNat eShapeFmt n.toNat
    else if !rowsOk a.shape.toNat a.quad.toNat a.arow.toNat a.m then s.coreFault n.toNat eIllegal n.toNat
    else if 4 ≤ (s.core n.toNat).mq.length then s
    else s.issuePassOf n a p

/-! ## PASS_START -/

/-- Where a pass's column j of row i lies in the accumulator store, R57. -/
def Pass.accAt (p : Pass) (i j : Nat) : Nat :=
  (if p.abuf then 65536 else 0) + (p.arow + i) * 128 + (if p.shape = 1 then 64 * (p.quad.toNat % 2) else 0) + j

/-- The activations of row i and the counts so far. -/
def Pass.activations (p : Pass) (rd : Reader) (i : Nat) (q : QCounts) : List Num × QCounts :=
  let shape := p.shape.toNat
  let fmt := p.fmt.toNat
  match p.prologue with
  | some b => prologueRow rd (parseEntry b) shape fmt p.row.toNat i q
  | none => (activationsOf shape fmt (rd (p.row.toNat * 64 + i * rowBytesOf shape fmt) (rowBytesOf shape fmt)), q)

/-- A row of sums enters the accumulator, R55: the store, and whether INT32 saturated. -/
def Pass.enterRow (p : Pass) (i : Nat) (sums : List (Word × Bool)) (a : Sparse Word × Bool) : Sparse Word × Bool :=
  sums.zipIdx.foldl (fun x e =>
    let k := p.accAt i e.2
    let r := if p.acc then joinAcc p.fmt.toNat (sget 0 x.1 k) e.1.1 else (e.1.1, false)
    (sset 0 x.1 k r.1, x.2 || e.1.2 || r.2)) a

/-- All rows of a pass through the array: the store, saturation, and the prologue's counts. -/
def Pass.run (p : Pass) (rd : Reader) (w : Bytes) (acc : Sparse Word) : (Sparse Word × Bool) × QCounts :=
  (List.range p.rows).foldl (fun x i =>
    let r := p.activations rd i x.2
    (p.enterRow i (rowSums p.shape.toNat p.fmt.toNat w r.1) x.1, r.2)) ((acc, false), [])

/-- The exact Pond ranges that a pass reads. -/
def Pass.reads (p : Pass) : List (Nat × Nat) :=
  match p.prologue with
  | some b => (prologueRanges p.shape.toNat p.fmt.toNat p.row.toNat p.rows (parseEntry b)).map (fun r => (r.1, r.2.1))
  | none => [(p.row.toNat * 64, p.rows * rowBytesOf p.shape.toNat p.fmt.toNat)]

/-- Ranges are read through the code: the state, and the first bad address. -/
def State.touchPond (s : State) (n : Nat) (rs : List (Nat × Nat)) : State × Option Nat :=
  rs.foldl (fun (x : State × Option Nat) r =>
    let y := x.1.readMem (pondBase + x.1.logical n * 0x400000 + r.1) r.2
    (y.1, x.2.orElse (fun _ => y.2.2))) (s, none)

/-- The buffer of a pass is free: no drain of it is running or to come, R54 and R56. -/
def Core.bufferFree (c : Core) (abuf : Bool) : Bool :=
  !c.inArray.any (fun p => p.drain && p.abuf == abuf) && !c.draining.any (fun p => p.abuf == abuf)

/-- The planes as a pass starts, R51: a shadow plane that preloads have filled becomes active. -/
def Core.planes (c : Core) : List Weights × List Weights := if c.preloaded then (c.shadow, c.active) else (c.active, c.shadow)

/-- The core after a pass has started: the planes as they stand, and the preloads behind the pass begin, R51. -/
def Core.started (c : Core) (p : Pass) (rest : List MatrixOp) (acc : Sparse Word) : Core :=
  { c with
    active := c.planes.1, shadow := c.planes.2, preloaded := false, mq := rest, inArray := c.inArray ++ [p], acc := acc
    accBusy := setAt c.accBusy (if p.abuf then 1 else 0) true }.preload

/-- A pass starts. Weights that no preload of its shape has brought are a free value. -/
def State.startPass (s : State) (n : Nat) (p : Pass) (rest : List MatrixOp) : State :=
  let r := s.touchPond n p.reads
  r.1.meetsBad n r.2 (fun t =>
    let c := t.core n
    let known := findWeights c.planes.1 p
    let w := (known.map (·.bytes)).getD (Config.freeBytes t.fresh (weightBytes p.shape.toNat))
    let rd := t.pondReader n
    let x := p.run rd w c.acc
    let t1 := (if known.isNone then t.fresh1 else t).onCore n (fun c => c.started p rest x.1.1)
    let t2 := (x.2.map (fun g => addCounts rd g.1 g.2)).foldl (fun u e => u.pondWrite n e.1 e.2 false) t1
    if x.1.2 then t2.ccErr n eSat n else t2)

/-! ## Drains -/

/-- What a drain reads as it begins: the header of a chunk that it does not open, and of a side buffer that it does not reset. -/
def beginReads (e : ChainEntry) : List (Nat × Nat) :=
  (match e.stage 7, e.stage 9 with
    | some _, some x => if bit x.a 0 then [] else [(x.g0 * 64, 64)]
    | _, _ => [])
  ++ (match e.stage 8 with
    | some x => if bit x.a 1 then [] else [(x.g0 * 64, 64)]
    | none => [])

/-- The drain at the head of core n's list begins: the capacity check of R158, the new header of R157, and the side buffer's start of R136. -/
def State.beginDrain (s : State) (n : Nat) : State :=
  match (s.core n).draining with
  | [] => s
  | p :: _ =>
    let e := parseEntry p.epilogue
    let r := s.touchPond n (beginReads e)
    r.1.meetsBad n r.2 (fun t =>
      let rd := t.pondReader n
      let chunk := match e.stage 7 with | some _ => e.stage 9 | none => none
      if !(chunk.map (fun x => chunkRoom rd x p.shape.toNat p.rows)).getD true then t.coreFault n eDesc n
      else match e.stage 8 with
        | some x =>
          if !bit x.a 1 && !sideOpen rd x then t.coreFault n eDesc n
          else t.unitWrites n 0 ((chunk.filter (fun x => bit x.a 0)).toList.map (fun x => openChunk x p.shape.toNat)
            ++ (if bit x.a 1 then openSide x ((t.core n).x.getD 1 0) else [])) false
        | none => t.unitWrites n 0 ((chunk.filter (fun x => bit x.a 0)).toList.map (fun x => openChunk x p.shape.toNat)) false)

/-- The last row of the oldest pass is complete, R56. -/
def State.completePass (s : State) (n : Nat) : State :=
  match (s.core n).inArray with
  | [] => s
  | p :: t =>
    if p.drain then
      let s1 := s.onCore n (fun c => { c with inArray := t, draining := c.draining ++ [p] })
      if (s.core n).draining.isEmpty then s1.beginDrain n else s1
    else s.onCore n (fun c => { c with inArray := t })

/-- The accumulator rows of a drain as FP32, R119. -/
def Core.drainedRows (c : Core) (p : Pass) : List (List Word) :=
  (List.range p.rows).map (fun i => (List.range (rowWidth p.shape.toNat)).map (fun j =>
    let w := sget 0 c.acc (p.accAt i j)
    if intSums p.fmt.toNat then rnd (intNum (int32 w)) else w))

/-- What a drain writes, in the pipe's order: the rows, the statistics and the header of their buffer, the counts. -/
def drainWrites (rd : Reader) (e : ChainEntry) (p : Pass) (rows : List (List Word)) : List (Nat × Bytes) :=
  let r := drainRows rd e p.arow rows
  let stores := match e.stage 9 with
    | none => []
    | some x =>
      if (e.stage 7).isSome then appendChunk rd x r.1
      else r.1.zipIdx.map (fun b => ((x.g0 + b.2 * x.g1) * 64, b.1))
  let side := match e.stage 8 with
    | none => []
    | some x => [closeSide rd x]
  stores ++ r.2.stats ++ side ++ r.2.q.map (fun g => addCounts rd g.1 g.2)

/-- What a drain reads: operands, granules, statistics, and of a chunk its header and, to seal it, its coded bytes. -/
def drainReads (rd : Reader) (e : ChainEntry) (p : Pass) : List (Nat × Nat) :=
  (epilogueRanges p.shape.toNat p.arow p.rows { e with stages := e.stages.filter (·.code != 9) }).map (fun r => (r.1, r.2.1))
    ++ (match e.stage 7, e.stage 9 with
      | some _, some x => [(x.g0 * 64, 64 + (if bit x.a 1 then (readChunk rd (x.g0 * 64)).1.coded else 0))]
      | _, _ => [])

/-- The drain at the head ends: its results are written, poisoned after a parity error, R58, and its buffer is free, R56. -/
def State.endDrain (s : State) (n : Nat) (parityOk : Bool) : State :=
  match (s.core n).draining with
  | [] => s
  | p :: rest =>
    let e := parseEntry p.epilogue
    let r := s.touchPond n (drainReads (s.pondReader n) e p)
    r.1.meetsBad n r.2 (fun u =>
      let t := u.unitWrites n 0 (drainWrites (u.pondReader n) e p ((u.core n).drainedRows p)) (!parityOk)
      let t1 := t.onCore n (fun c => { c with draining := rest, accBusy := setAt c.accBusy (if p.abuf then 1 else 0) false })
      if parityOk then t1.beginDrain n else t1.coreFault n eAccPar n)

end Sys2Proof.Machine
end

