-- ==== Sys2Proof/Machine/Matrix.lean ====
section
/-! DEFINITION. The matrix instructions and the events of the array and its epilogue pipe (R51, R54, R56, R58, R129). -/

namespace Sys2Proof.Machine

/-- MLOADW, R51 and R68. -/
def execMloadw (n : BitVec 6) (shape fmt : BitVec 4) (quad : BitVec 2) (block : BitVec 16) (s : State) : Host.Outcome State Fault Refusal :=
  .next (s.issue n (.mloadw n shape fmt quad block) (fun t => t.issueLoad n shape fmt quad block))

/-- MPASS, R53, R68, R69, R118, R129 and R139. -/
def execMpass (n : BitVec 6) (shape fmt : BitVec 4) (acc abuf : Bool) (quad : BitVec 2) (m1 arow : BitVec 9) (drain : Bool) (chain : BitVec 5)
    (row : BitVec 16) (s : State) : Host.Outcome State Fault Refusal :=
  .next (s.issue n (.mpass n shape fmt acc abuf quad m1 arow drain chain row)
    (fun t => t.issuePass n ⟨shape, fmt, acc, abuf, quad, m1, arow, drain, chain, row⟩))

/-- PASS_START, R51, R54 to R57 and R94 to R99. -/
def execPassStart (n : BitVec 6) (s : State) : Host.Outcome State Fault Refusal :=
  .next (let c := s.core n.toNat
    match (frontOf c.mq).2 with
    | some (p, rest) => if s.up && c.busy && c.bufferFree p.abuf then (s.onCore n.toNat Core.preload).startPass n.toNat p rest else s
    | none => s)

/-- PASS_COMPLETE, R56. -/
def execPassComplete (n : BitVec 6) (s : State) : Host.Outcome State Fault Refusal :=
  .next (if s.up && (s.core n.toNat).busy then s.completePass n.toNat else s)

/-- DRAIN_COMPLETE, R56, R58, R119 and R136: the oldest drain ends; the parity check of its words is the array's. -/
def execDrainComplete (n : BitVec 6) (abuf parityOk : Bool) (s : State) : Host.Outcome State Fault Refusal :=
  .next (if s.up && (s.core n.toNat).busy && ((s.core n.toNat).draining.head?.map (·.abuf)) == some abuf
    then s.endDrain n.toNat parityOk else s)

end Sys2Proof.Machine
end

