-- ==== Sys2Proof/Machine/Memory.lean ====
section
/-! DEFINITION. Training, initialisation, pages, refresh, replay, scrubbing and retirement (R336, R342 to R346, R350 to
R359). -/

namespace Sys2Proof.Machine

/-- LAKE_TRAINING_COMPLETE, R346 and R355: an attempt succeeds, and the channel is zero-filled and loads its remap table,
or fails; the third failure marks the channel FAILED. -/
def execLakeTrainingComplete (ch : BitVec 6) (ok : Bool) (s : State) : Host.Outcome State Fault Refusal :=
  .next (if s.up && !(s.lake ch.toNat).trained && (s.lake ch.toNat).state == 0 then
    if ok then s.onLake ch.toNat (fun l =>
      { l with trained := true, remap := (s.flash.lkRetired.filter (fun e => e.1 == ch.toNat)).map (·.2) })
    else if (s.lake ch.toNat).attempts + 1 < 3 then s.onLake ch.toNat (fun l => { l with attempts := l.attempts + 1 })
    else (s.onLake ch.toNat (fun l => { l with attempts := 3, state := 2 })).onBoot
      (fun b => { b with lakeFailed := b.lakeFailed ||| (1#64 <<< ch.toNat) })
  else s)

/-- Installed bytes by the installed code 0 to 3, R357. -/
def lpBytes (installed : BitVec 2) : Nat := (installed.toNat + 1) * 0x200000000

/-- LP_TOP, R357: four channels of whole 640-byte groups, 512 data bytes each. -/
def lpTopOf (installed : BitVec 2) : Nat := lpBase + 4 * (lpBytes installed / 4 / 640 * 512)

/-- LPDDR_TRAINING_COMPLETE, R359: the training ends; at a cold boot the first 256 MiB are zero. A channel's third failure
sends the device to RECOVERY. -/
def execLpddrTrainingComplete (failed : BitVec 4) (installed : BitVec 2) (s : State) : Host.Outcome State Fault Refusal :=
  .next (if s.up then
    if failed = 0 then
      s.onMem (fun m =>
        { m with lpInstalled := lpBytes installed, lpTop := lpTopOf installed, lpSelfRefresh := false,
                 lpMark := if s.boot.wake = 0 ∨ m.lpMark = 0 then lpBase + 0x10000000 else m.lpMark })
    else
      let n := (List.range 4).map (fun c => s.mem.lpAttempts.getD c 0 + (if failed.getLsbD c then 1 else 0))
      let s1 := s.onMem (fun m => { m with lpAttempts := n })
      let dead := listMask ((List.range 4).filter (fun c => 3 ≤ n.getD c 0))
      if dead = 0 then s1 else (s1.onBoot (fun b => { b with lpFail := BitVec.ofNat 4 dead })).toRecovery
  else s)

/-- MEMORY_INIT_COMPLETE, R336: the zero-fill of the Ponds (or of the Reservoir) ends, and waiting accesses proceed. -/
def execMemoryInitComplete (reservoir : Bool) (s : State) : Host.Outcome State Fault Refusal :=
  .next (if s.up then
    (s.onMem (fun m => if reservoir then { m with reservoirReady := true } else { m with pondReady := true })).serveWaiting
  else s)

/-- The 512-byte group of the first access that waits above the mark, R359. -/
def State.lpWanted (s : State) : Option Nat :=
  s.mem.waiting.findSome? (fun x => match s.placeOf x.addr with | .lpddr _ => s.lpUnready x.addr x.len | _ => none)

/-- LP_INIT_ADVANCE, R359: the group that an access waits for first, else the next group in ascending order. -/
def execLpInitAdvance (s : State) : Host.Outcome State Fault Refusal :=
  .next (if s.up && decide (s.mem.lpMark < s.mem.lpTop) then
    match s.lpWanted with
    | some g => (s.onMem (fun m => { m with lpAhead := m.lpAhead ++ [g] })).serveWaiting
    | none => (s.onMem (fun m =>
        { m with lpMark := m.lpMark + 512, lpAhead := m.lpAhead.filter (· != m.lpMark / 512) })).serveWaiting
  else s)

/-- PAGE_IDLE_CLOSE, R342: a bank idle for LK_IDLE cycles closes its page. -/
def execPageIdleClose (ch : BitVec 6) (bank : BitVec 4) (s : State) : Host.Outcome State Fault Refusal :=
  .next (if s.up then s.onLake ch.toNat (fun l => { l with openRow := sdel l.openRow bank.toNat }) else s)

/-- REFRESH_DUE, R343 and R344: placed when the bank has no queued request, postponed up to 8 times, then forced. -/
def execRefreshDue (ch : BitVec 6) (bank : BitVec 4) (queued : Bool) (s : State) : Host.Outcome State Fault Refusal :=
  .next (if s.up then
    s.onLake ch.toNat (fun l =>
      if !queued then { l with postponed := sdel l.postponed bank.toNat }
      else if sget 0 l.postponed bank.toNat < 8 then { l with postponed := sinc l.postponed bank.toNat }
      else { l with counters := sinc l.counters 4 })
  else s)

/-- LAKE_ALERT, R345: the retry buffer is replayed; a command's fourth alert in a row withdraws the channel. -/
def execLakeAlert (ch : BitVec 6) (s : State) : Host.Outcome State Fault Refusal :=
  .next (if s.up && (s.lake ch.toNat).state < 2 then
    if (s.lake ch.toNat).alerts < 3 then
      (((s.lakeCount ch.toNat 3).onLake ch.toNat (fun l => { l with alerts := l.alerts + 1, retryBuf := l.retryBuf.map (fun e => (s.now, e.2)) })).logEvent (0x40 + ch.toNat) 1 .caReplay
        [ch.toNat]).lakeReport ch.toNat 3 1 0
    else ((s.onLake ch.toNat (fun l => { l with state := 3, alerts := 0 })).logEvent (0x40 + ch.toNat) 3 .lpFail [ch.toNat]).lakeReport
      ch.toNat 4 3 0
  else s)

/-- The tier of an address is the one scrubbed. -/
def State.inTier (s : State) (t : Tier) (a : Nat) : Bool :=
  match t, s.placeOf a with
  | .lake, .lake _ _ => true
  | .reservoir, .reservoir _ => true
  | .lpddr, .lpddr _ => true
  | .pond, .pond _ _ => true
  | _, _ => false

/-- A UE found by a scrub read, R360: in a Pond the core reports it without CC_ERR. -/
def State.scrubUe (s : State) (a : Nat) : State :=
  match s.placeOf a with
  | .pond l _ => (s.onMem (fun m => { m with sramUe := m.sramUe + 1 })).raise (s.phys l) (quadrant (s.phys l)) ePondUe 2 (granule a)
  | _ => s.reportUe a

/-- One word read by a scrubber, R350, R352 and R360. `newer` says that a write has landed since the read. -/
def State.scrubWord (s : State) (a : Nat) (newer : Bool) : State :=
  let w := s.store a / 4
  match decodeSyndrome (sget 0 s.mem.synd w) with
  | .clean => s
  | .correct _ => ((if newer then s else s.onMem (·.fix w))).reportCe a
  | .ue => ((if newer then s else s.onMem (·.poisonWord w))).scrubUe a
  | .poison => s.reportPoison a

/-- The correction counts of a channel restart after the last access of its scrub pass, R353. -/
def State.scrubPassEnd (s : State) (a : Nat) : State :=
  match s.placeOf a with
  | .lake ch off => if off / 64 = 0x1FFFFF then s.onLake ch (fun l => { l with ceTable := [] }) else s
  | _ => s

/-- SCRUB_READ, R351 and R352. -/
def execScrubRead (tier : Tier) (addr : Nat) (upset : BitVec 40) (newer : Bool) (s : State) : Host.Outcome State Fault Refusal :=
  .next (if s.up && s.inTier tier addr then
    ((s.onMem (fun m => m.upset (s.store addr / 4) upset)).scrubWord addr newer).scrubPassEnd addr
  else s)

/-- RETIREMENT_COPY_COMPLETE, R354 and R355: the unit's bytes lie in the next reserve unit, the pair is in the remap
table and stored, the next unit begins, and the accesses that waited are served. -/
def execRetirementCopyComplete (ch : BitVec 6) (s : State) : Host.Outcome State Fault Refusal :=
  .next (match (s.lake ch.toNat).copying with
    | some u =>
      if s.up then
        let k := (s.lake ch.toNat).remap.length
        let base := ch.toNat * 0x8000000
        let s1 := (s.readMem (base + u * 0x4000) 0x4000).1.onMem (fun m => m.copyRange (base + u * 0x4000) (base + s.reserveUnit k * 0x4000) 0x4000)
        let s2 := s1.onLake ch.toNat (fun l =>
          { l with remap := l.remap ++ [(u, k)], copying := l.waiting.head?, waiting := l.waiting.drop 1, counters := sinc l.counters 5 })
        (((s2.onFlash (fun f => { f with lkRetired := f.lkRetired ++ [(ch.toNat, u, k)] })).logEvent (0x40 + ch.toNat) 0 .retirement
          [u, k]).lakeReport ch.toNat 5 0 u).serveWaiting
      else s
    | none => s)

end Sys2Proof.Machine
end

