-- ==== Sys2Proof/Machine/MoveOps.lean ====
section
/-! DEFINITION. Tile moves (R64, R65, R145 to R149, R156, R159, R160): descriptors, the checks when an engine takes one, the
data paths of the five modes, and packets (R71, R74, R76, R77). -/

namespace Sys2Proof.Machine

/-! ## The descriptor, R65 -/

/-- The fields of a descriptor. -/
structure TileDesc where
  src : Nat
  dst : Nat
  rows : Nat
  rowBytes : Nat
  srcStride : Nat
  dstStride : Nat
  mode : Nat
  out : Nat
  dctr : Nat
  dnode : Nat
  dcore : Nat
  ext : Nat
  fill : Bytes
  reservedZero : Bool

/-- A destination in a Pond window lies in the window of DCORE, R65: the address gives the offset. DEDUCED, log 89. -/
def toWindow (dcore a : Nat) : Nat :=
  let off := a % 2 ^ 40
  if pondBase ≤ off ∧ off < pondBase + 0x10000000 ∧ dcore < 64 ∧ (a = off ∨ bit a 47) then a - off + pondBase + dcore * 0x400000 + off % 0x400000
  else a

/-- A descriptor of 64 bytes. -/
def parseDesc (b : Bytes) : TileDesc :=
  { src := fieldAt b 0 8, dst := toWindow (fieldAt b 0x24 2) (fieldAt b 8 8), rows := fieldAt b 0x10 4, rowBytes := fieldAt b 0x14 4, srcStride := fieldAt b 0x18 4,
    dstStride := fieldAt b 0x1C 4, mode := fieldAt b 0x20 1, out := fieldAt b 0x21 1, dctr := fieldAt b 0x22 1, dnode := fieldAt b 0x23 1,
    dcore := fieldAt b 0x24 2, ext := fieldAt b 0x28 8, fill := slice b 0x30 8,
    reservedZero := fieldAt b 0x26 2 == 0 && fieldAt b 0x38 8 == 0 }

/-- The field ranges of R65, on engine TM0 or TM1. -/
def TileDesc.fieldsOk (d : TileDesc) (tm1 : Bool) : Bool :=
  decide (d.src < 2 ^ 48) && decide (d.dst < 2 ^ 48) && decide (1 ≤ d.rows) && decide (d.rows ≤ 65536) && decide (64 ≤ d.rowBytes)
    && decide (d.rowBytes ≤ 1048576) && d.rowBytes % 64 == 0 && decide (d.mode ≤ 4) && (tm1 || d.mode == 0 || d.mode == 4)
    && (d.out == 0xFF && d.dctr == 0xFF || decide (d.out < 16) && decide (d.dctr < 64)) && decide (d.dnode < 8) && decide (d.dcore < 64)
    && (d.mode == 1 || d.mode == 2 || d.mode == 3 || d.ext == 0) && d.ext % 64 == 0 && d.reservedZero

/-! ## The expander, R146 to R149 -/

/-- Its parameter block. -/
structure Expand where
  ih : Nat
  iw : Nat
  ow : Nat
  oy0 : Nat
  ox0 : Nat
  kh : Nat
  kw : Nat
  sy : Nat
  sx : Nat
  dy : Nat
  dx : Nat
  pt : Nat
  pl : Nat
  seg : Nat
  padMode : Nat
  elem : Nat
  padConst : Nat
  valid : Nat
  rowPad : Nat
  pixStride : Nat
  reservedZero : Bool

/-- The parameter block of 64 bytes. -/
def parseExpand (b : Bytes) : Expand :=
  { ih := fieldAt b 0 2, iw := fieldAt b 2 2, ow := fieldAt b 4 2, oy0 := fieldAt b 8 2, ox0 := fieldAt b 0x0A 2, kh := fieldAt b 0x0C 1,
    kw := fieldAt b 0x0D 1, sy := fieldAt b 0x0E 1, sx := fieldAt b 0x0F 1, dy := fieldAt b 0x10 1, dx := fieldAt b 0x11 1,
    pt := fieldAt b 0x12 1, pl := fieldAt b 0x13 1, seg := fieldAt b 0x14 2, padMode := fieldAt b 0x16 1, elem := fieldAt b 0x17 1,
    padConst := fieldAt b 0x18 2, valid := fieldAt b 0x1A 2, rowPad := fieldAt b 0x1C 1, pixStride := fieldAt b 0x20 4,
    reservedZero := fieldAt b 6 2 == 0 && fieldAt b 0x1D 3 == 0 && allZero (slice b 0x24 28) }

/-- A number in a range. -/
def within (lo hi v : Nat) : Bool := decide (lo ≤ v) && decide (v ≤ hi)

/-- The field ranges of R146. -/
def Expand.fieldsOk (x : Expand) : Bool :=
  within 1 65535 x.ih && within 1 65535 x.iw && within 1 65535 x.ow && decide (x.ox0 < x.ow) && within 1 16 x.kh && within 1 16 x.kw
    && within 1 8 x.sy && within 1 8 x.sx && within 1 8 x.dy && within 1 8 x.dx && within 0 127 x.pt && within 0 127 x.pl && within 1 1024 x.seg
    && within 0 3 x.padMode && within 1 2 x.elem && within 1 x.seg x.valid && x.valid % x.elem == 0 && within 0 1 x.rowPad
    && decide (x.seg ≤ x.pixStride) && x.reservedZero

/-- The input index of tap k on one axis for output index o. -/
def tapIndex (o stride k dil pad : Nat) : Int := (o * stride + k * dil : Nat) - (pad : Int)

/-- The taps of one output position, in order: the input indices. -/
def Expand.taps (x : Expand) (p : Nat) : List (Int × Int) :=
  let q := x.oy0 * x.ow + x.ox0 + p
  ((List.range x.kh).map (fun ky => (List.range x.kw).map (fun kx =>
    (tapIndex (q / x.ow) x.sy ky x.dy x.pt, tapIndex (q % x.ow) x.sx kx x.dx x.pl)))).flatten

/-- An index inside an axis. -/
def onAxis (i : Int) (n : Nat) : Bool := decide (0 ≤ i) && decide (i < n)

/-- mir of R148. -/
def mirrored (i : Int) (n : Nat) : Int := if i < 0 then -i else if (n : Int) ≤ i then 2 * n - 2 - i else i

/-- The input pixel that a tap reads, by padding mode; none for a tap of padding. -/
def Expand.pixel (x : Expand) (iy ix : Int) : Option (Nat × Nat) :=
  if onAxis iy x.ih && onAxis ix x.iw then some (iy.toNat, ix.toNat)
  else if x.padMode = 2 then some ((mirrored iy x.ih).toNat, (mirrored ix x.iw).toNat)
  else if x.padMode = 3 then some ((clamp 0 (x.ih - 1) iy).toNat, (clamp 0 (x.iw - 1) ix).toNat)
  else none

/-- The segment of a tap of padding, R148. -/
def Expand.padSegment (x : Expand) : Bytes :=
  if x.padMode = 1 then fitBytes x.seg (((List.replicate (x.valid / x.elem) (leBytes x.elem x.padConst)).flatten))
  else List.replicate x.seg 0

/-- One expanded row from the input map, R147. -/
def Expand.row (x : Expand) (d : TileDesc) (src : Bytes) (p : Nat) : Bytes :=
  fitBytes d.rowBytes (((x.taps p).map (fun t =>
    match x.pixel t.1 t.2 with
    | some (iy, ix) => fitBytes x.seg (slice src (iy * d.srcStride + ix * x.pixStride) x.seg)
    | none => x.padSegment)).flatten)

/-- Bytes from the first to the last input pixel. -/
def Expand.mapBytes (x : Expand) (d : TileDesc) : Nat := (x.ih - 1) * d.srcStride + (x.iw - 1) * x.pixStride + x.seg

/-- Mirror indices stay within one reflection, R149. -/
def Expand.mirrorOk (x : Expand) (d : TileDesc) : Bool :=
  x.padMode != 2 || (List.range d.rows).all (fun p => (x.taps p).all (fun t =>
    decide (1 - (x.ih : Int) ≤ t.1) && decide (t.1 ≤ 2 * x.ih - 2) && decide (1 - (x.iw : Int) ≤ t.2) && decide (t.2 ≤ 2 * x.iw - 2)))

/-- Two byte ranges overlap. -/
def rangesMeet (a n b m : Nat) : Bool := decide (a < b + m) && decide (b < a + n)

/-- No expanded row overlaps a source pixel that is read, R149. -/
def Expand.apart (x : Expand) (d : TileDesc) : Bool :=
  (List.range d.rows).all (fun p => (x.taps p).all (fun t => match x.pixel t.1 t.2 with
    | none => true
    | some (iy, ix) => (List.range d.rows).all (fun r =>
        !rangesMeet (d.dst + r * d.dstStride) d.rowBytes (d.src + iy * d.srcStride + ix * x.pixStride) x.seg)))

/-- A number rounded up to a multiple. -/
def roundUp (n k : Nat) : Nat := (n + k - 1) / k * k

/-- The checks of R149 but for the region. -/
def Expand.ok (x : Expand) (d : TileDesc) : Bool :=
  x.fieldsOk && d.rowBytes == roundUp (x.kh * x.kw * x.seg) (if x.rowPad = 0 then 128 else 256) && decide (d.rowBytes ≤ d.dstStride)
    && x.mirrorOk d && x.apart d

/-! ## The zero-run codec, R159 and R160 -/

/-- The parameter block of mode 2: FORM and CAPACITY, the rest reserved. -/
def encodeBlockOk (d : TileDesc) (b : Bytes) : Bool :=
  decide (fieldAt b 0 4 < 2) && allZero (slice b 8 56)
    && (fieldAt b 0 4 == 1 || decide (64 * 8 + d.rows * d.rowBytes * 9 ≤ 8 * fieldAt b 4 4))

/-- The chunk that mode 2 with FORM = 0 writes. -/
def encodedChunk (d : TileDesc) (cap : Nat) (src : Bytes) : Bytes :=
  let coded := codeRow src
  chunkBytes ⟨true, d.rows, d.rowBytes, coded.length, (src.filter (· != 0)).length, cap⟩ coded

/-- The header checks of R160: MAGIC, VERSION, SEALED, ROWS, ROW_BYTES and CODED_BYTES. -/
def headerFits (d : TileDesc) (maxCoded : Nat) (b : Bytes) : Bool :=
  let h := readChunk (fun o n => slice b o n) 0
  h.2 && h.1.sealed_ && h.1.rows == d.rows && h.1.rowBytes == d.rowBytes && decide (h.1.coded ≤ maxCoded)

/-- The rows that mode 3 decodes from a chunk; none when a check of R160 fails. -/
def decodedRows (d : TileDesc) (maxCoded : Nat) (src : Bytes) : Option Bytes :=
  let h := (readChunk (fun o n => slice src o n) 0).1
  let coded := slice src 64 h.coded
  if headerFits d maxCoded src && fieldAt src 0x18 4 == crc32c (src.take 0x18 ++ coded) then
    match decodeBlocks (d.rows * d.rowBytes / 64) coded with
    | some (raw, rest, ones) => if rest.isEmpty && ones == h.nonzero then some raw else none
    | none => none
  else none

/-! ## What a descriptor reads and writes -/

/-- Rows as (address, length). -/
def rowPieces (a stride n len : Nat) : List (Nat × Nat) := (List.range n).map (fun i => (a + i * stride, len))

/-- The bytes of a chunk from its header, with padding. -/
def chunkLength (coded : Nat) : Nat := 64 + roundUp coded 64

/-- The source pieces, given the parameter block and, for a chunk, its CODED_BYTES. -/
def TileDesc.sources (d : TileDesc) (ext : Bytes) (coded : Nat) : List (Nat × Nat) :=
  match d.mode with
  | 0 => rowPieces d.src d.srcStride d.rows d.rowBytes
  | 1 => [(d.src, (parseExpand ext).mapBytes d)]
  | 2 => if fieldAt ext 0 4 = 1 then [(d.src, chunkLength coded)] else rowPieces d.src d.srcStride d.rows d.rowBytes
  | 3 => [(d.src, chunkLength coded)]
  | _ => []

/-- The destination pieces as (address, largest length). -/
def TileDesc.targets (d : TileDesc) (ext : Bytes) (coded : Nat) : List (Nat × Nat) :=
  match d.mode with
  | 2 => if fieldAt ext 0 4 = 1 then [(d.dst, chunkLength coded)] else [(d.dst, chunkLength (d.rows * d.rowBytes * 9 / 8))]
  | _ => rowPieces d.dst d.dstStride d.rows d.rowBytes

/-- The writes of a move whose source is complete: address, bytes, and where the bytes stand in the source (copies only); none
when a check of R160 fails. -/
def TileDesc.writes (d : TileDesc) (ext src : Bytes) : Option (List (Nat × Bytes × Option Nat)) :=
  match d.mode with
  | 0 => some ((List.range d.rows).map (fun i => (d.dst + i * d.dstStride, slice src (i * d.rowBytes) d.rowBytes, some (i * d.rowBytes))))
  | 1 => some ((List.range d.rows).map (fun i => (d.dst + i * d.dstStride, (parseExpand ext).row d src i, none)))
  | 2 => some [(d.dst, if fieldAt ext 0 4 = 1 then src else encodedChunk d (fieldAt ext 4 4) src, none)]
  | 3 => (decodedRows d (fieldAt ext 0 4) src).map (fun raw =>
      (List.range d.rows).map (fun i => (d.dst + i * d.dstStride, slice raw (i * d.rowBytes) d.rowBytes, none)))
  | _ => some ((List.range d.rows).map (fun i =>
      (d.dst + i * d.dstStride, (List.replicate (d.rowBytes / 8) d.fill).flatten, none)))

/-! ## A core's own Pond and the map -/

/-- The Pond offset of an address in the core's own window, or in a window of its group, R379. -/
def State.ownOffset (s : State) (n a : Nat) : Option Nat :=
  match s.placeOf a with
  | .pond l off =>
    if l = s.logical n then some off
    else match s.groupOf (s.logical n) with
      | some g => if (s.groupCores g).contains l then some off else none
      | none => none
  | _ => none

/-- A descriptor with addresses that name this node's own id made local, R429. -/
def State.descOf (s : State) (b : Bytes) : TileDesc :=
  let d := parseDesc b
  match s.placeOf d.dst with
  | .remote node off => if node = s.fab.nodeId.toNat then { d with src := s.homeAddr d.src, dst := off, dnode := node } else { d with src := s.homeAddr d.src }
  | _ => { d with src := s.homeAddr d.src }

/-- The node that a destination address lies on, R65 and R429: bit 47 names it, else DNODE. -/
def State.targetNode (s : State) (d : TileDesc) : Nat :=
  match s.placeOf d.dst with
  | .remote node _ => node
  | _ => d.dnode

/-- The destination lies on another node. -/
def State.leaves (s : State) (d : TileDesc) : Bool := decide (s.targetNode d ≠ s.fab.nodeId.toNat)

/-- The Pond ranges of a descriptor for R66. -/
def State.moveRanges (s : State) (n : Nat) (engine : Bool) (d : TileDesc) (ext : Bytes) (coded : Nat) (at_ : Nat) : List Range :=
  let u := if engine then 3 else 2
  pondRange u false at_ 64
    :: (if d.mode = 1 ∨ d.mode = 2 ∨ d.mode = 3 then [pondRange u false d.ext 64] else [])
    ++ (d.sources ext coded).filterMap (fun p => (s.ownOffset n p.1).map (fun o => pondRange u false o p.2))
    ++ (if s.leaves d then [] else (d.targets ext coded).filterMap (fun p => (s.ownOffset n p.1).map (fun o => pondRange u true o p.2)))

/-- The header of a chunk at an address, as the engine reads it first, with its words corrected. -/
def State.chunkHead (s : State) (n a : Nat) : Bytes := (s.readMem (s.replicaAddr (.core (BitVec.ofNat 6 n)) a) 64).2.1

/-- CODED_BYTES of the chunk at the source; a remote chunk's is not known before its header has come. -/
def State.codedOf (s : State) (n : Nat) (d : TileDesc) : Nat :=
  match s.placeOf d.src with
  | .remote _ _ => 0
  | _ => fieldAt (s.chunkHead n d.src) 12 4

/-- Mode 3 on a chunk of this node whose header fails a check of R160. -/
def State.badHeader (s : State) (n : Nat) (d : TileDesc) (ext : Bytes) : Bool :=
  d.mode == 3 && (match s.placeOf d.src with | .remote _ _ => false | _ => true) && !headerFits d (fieldAt ext 0 4) (s.chunkHead n d.src)

/-- Mode 3 on a chunk of another node: its header comes first. -/
def State.remoteChunk (s : State) (d : TileDesc) : Bool := d.mode == 3 && (match s.placeOf d.src with | .remote _ _ => true | _ => false)

/-! ## Checks when an engine takes a descriptor -/

/-- What stops an access of core n's engine at a piece of the map, if anything: the region (R79), a reserved address (R44), a
Shutter (R362). -/
def State.pieceFault (s : State) (n : Nat) (write : Bool) (p : Nat × Nat) : Option State :=
  match s.ownOffset n p.1 with
  | some o => if (s.core n).inRegion o p.2 then none else some (s.coreFault n ePondAddr (granule p.1))
  | none =>
    let by_ : Initiator := .core (BitVec.ofNat 6 n)
    let part := (s.core n).ctlPart.toNat
    match s.placeOf p.1 with
    | .remote node _ => if s.reachable node then none else some (s.fabFails (s.sourceId n) p.1)
    | _ =>
      if !s.inMemory p.1 p.2 then some (s.decodeFault n p.1)
      else
        let v := s.shutter by_ part p.1 p.2 write
        if v.1 then none else some (s.refusedBus by_ part p.1 write v.2)

/-- The Pond region holds every piece, R145, R159, R160. -/
def State.allOwn (s : State) (n : Nat) (ps : List (Nat × Nat)) : Bool :=
  ps.all (fun p => ((s.ownOffset n p.1).map (fun o => (s.core n).inRegion o p.2)).getD false)

/-- The mode's own checks before the first byte: R145, R149, R159. -/
def State.modeOk (s : State) (n : Nat) (d : TileDesc) (ext : Bytes) (coded : Nat) : Bool :=
  match d.mode with
  | 1 => s.allOwn n (d.sources ext coded) && !s.leaves d && s.allOwn n (d.targets ext coded) && (parseExpand ext).ok d
  | 2 => s.allOwn n (d.sources ext coded) && encodeBlockOk d ext
  | 3 => !s.leaves d && s.allOwn n (d.targets ext coded) && allZero (slice ext 4 60)
  | _ => true

/-- The destination of a packet named by DNODE, DCORE and DCTR. -/
def destOf (dnode dcore dctr : Nat) : Dest :=
  { node := BitVec.ofNat 3 dnode, core := BitVec.ofNat 6 dcore, bank := BitVec.ofNat 2 (bits dctr 5 4), ctr := BitVec.ofNat 4 dctr }

/-- A packet of stream o to a destination may be sent by the running program, R71 and R76. -/
def Core.streamOk (c : Core) (p : Program) (o : Nat) (d : Dest) : Bool :=
  let x := c.out p.bank.toNat o
  p.outMask.getLsbD o && x.dest == some d && decide ((x.next - x.base).toNat < x.count.toNat)

/-- The next number of stream o is taken. -/
def Core.takeNumber (c : Core) (p : Program) (o : Nat) : Core :=
  { c with outs := supd {} c.outs (p.bank.toNat * 16 + o) (fun x => { x with next := x.next + 1 }) }

/-! ## Packets -/

/-- Of a group, the first active member's copy is the one that the port releases, R377 and R378. -/
def State.speaks (s : State) (n : Nat) : Bool :=
  match s.groupOf (s.logical n) with
  | none => true
  | some g => (s.activePhys g).isEmpty || (s.activePhys g).head? == some n

/-- The header of a transaction that belongs to a packet, or that only names its destination core, R65. -/
def State.packetHeader (s : State) (n op dcore : Nat) (p : Option (BitVec 4 × Word × Dest)) : Txn :=
  let h := { s.header op n (s.core n).ctlPart.toNat with dcore := BitVec.ofNat 8 dcore }
  match p with
  | none => h
  | some (o, seq, d) =>
    { h with sseq := seq, out := BitVec.ofNat 8 o.toNat, dctr := BitVec.ofNat 8 (d.bank.toNat * 16 + d.ctr.toNat), dcore := BitVec.ofNat 8 d.core.toNat }

/-- A data-less packet leaves core n: over the mesh, or as a SIGNAL of the fabric, R74 and R77. -/
def State.sendPacket (s : State) (n : Nat) (o : BitVec 4) (seq : Word) (d : Dest) (void : Bool) : State :=
  if !s.speaks n then s
  else if d.node = s.fab.nodeId then s.emit (.packet d.core.toNat d.bank.toNat d.ctr.toNat seq.toNat void)
  else s.fabSend d.node.toNat 0 { s.packetHeader n 4 d.core.toNat (some (o, seq, d)) with flags := BitVec.ofNat 8 (flagAt void 2) }

/-! ## Starting and landing -/

/-- Offsets, within a piece, of the words that read as poison. -/
def State.badOffsets (s : State) (a len : Nat) : List Nat :=
  if s.mem.synd.isEmpty then []
  else ((wordsOf a len).filter (fun w => match decodeSyndrome (sget 0 s.mem.synd (s.store (4 * w) / 4)) with
    | .ue => true
    | .poison => true
    | _ => false)).map (fun w => 4 * w - a)

/-- One source piece is read: the state, and the move so far. -/
def State.readPiece (s : State) (n : Nat) (m : Move) (p : Nat × Nat) : State × Move :=
  let by_ : Initiator := .core (BitVec.ofNat 6 n)
  match s.placeOf p.1 with
  | .remote node a =>
    (List.range ((p.2 + 4095) / 4096)).foldl (fun (x : State × Move) i =>
      let len := min 4096 (p.2 - 4096 * i)
      let tag := x.1.fab.nextTag
      (x.1.remoteRead by_ (x.1.core n).ctlPart.toNat node (a + 4096 * i) len,
       { x.2 with need := x.2.need ++ [(tag, x.2.src.length)], src := x.2.src ++ List.replicate len 0 })) (s, m)
  | _ =>
    let a := s.replicaAddr by_ p.1
    let r := (if (s.ownOffset n p.1).isSome then s else s.louvre (s.core n).ctlPart.toNat a p.2 false).readMem a p.2
    (r.1, { m with src := m.src ++ r.2.1, bad := m.bad ++ (s.badOffsets a p.2).map (· + m.src.length) })

/-- The engine takes a descriptor that has passed its checks: the number of its packet, and its source. -/
def State.beginMove (s : State) (n : Nat) (engine : Bool) (b : Bytes) (ranges : List Range) (ps : List (Nat × Nat)) (p : Program) : State :=
  let d := parseDesc b
  let far := s.remoteChunk (s.descOf b)
  let packet := if d.out = 0xFF then none else some (BitVec.ofNat 4 d.out, ((s.core n).out p.bank.toNat d.out).next, destOf d.dnode d.dcore d.dctr)
  let s1 := if d.out = 0xFF then s else s.onCore n (fun c => c.takeNumber p d.out)
  let r := ps.foldl (fun (x : State × Move) q => x.1.readPiece n x.2 q)
    (s1, { desc := b, src := [], bad := [], need := [], packet := packet, ranges := ranges, header := far })
  r.1.onCore n (fun c => { c with tm := setAt c.tm (if engine then 1 else 0) (some r.2) })

/-- The engine checks the descriptor at the head of its queue, and starts it. -/
def State.takeDesc (s : State) (n : Nat) (engine : Bool) (granule_ : BitVec 16) (ranges : List Range) (p : Program) : State :=
  s.withPond n (granule_.toNat * 64) 64 (fun t b =>
    let d0 := parseDesc b
    let d := t.descOf b
    if !d0.fieldsOk engine then t.coreFault n eDesc n
    else if d.mode ≠ 0 && d.mode ≠ 4 && !p.covers d.ext 64 then t.coreFault n ePondAddr (d.ext / 65536)
    else
      let ext := t.pondReader n d.ext 64
      let coded := t.codedOf n d
      if !t.modeOk n d ext coded then t.coreFault n eDesc n
      else if d.out ≠ 0xFF && !(t.core n).streamOk p d.out (destOf d0.dnode d.dcore d.dctr) then t.coreFault n eDesc n
      else
        let srcs := if t.badHeader n d ext then [(d.src, 64)] else d.sources ext coded
        let dsts := d.targets ext coded
        match srcs.findSome? (t.pieceFault n false) with
        | some u => u
        | none =>
          if t.badHeader n d ext then t.coreFault n eDesc (granule d.src)
          else if t.leaves d then
            (if t.reachable (t.targetNode d) then t.beginMove n engine b ranges srcs p else t.fabFails (t.sourceId n) d.dst)
          else match dsts.findSome? (t.pieceFault n true) with
            | some u => u
            | none => t.beginMove n engine b ranges srcs p)

/-- Some byte of a piece that a move reads or writes must wait for its memory, R336, R354, R359. -/
def State.pieceWaits (s : State) (p : Nat × Nat) : Bool := s.mustWait p.1 p.2

/-- A local write of a move, with its poisoned words, R349. -/
def State.landPiece (s : State) (n u : Nat) (bad : List Nat) (w : Nat × Bytes × Option Nat) : State :=
  let by_ : Initiator := .core (BitVec.ofNat 6 n)
  let whole := w.2.2.isNone && !bad.isEmpty
  let a := s.replicaAddr by_ w.1
  let own := (s.ownOffset n w.1).isSome
  let s1 := if own then s.poke a w.2.1 whole
    else if s.portMakes by_ w.1 then ((s.louvre (s.core n).ctlPart.toNat a w.2.1.length true).portWrite by_ w.1 w.2.1 whole).noteRoi a w.2.1.length
    else s
  let s2 := match w.2.2 with
    | none => s1
    | some o => (bad.filter (fun k => decide (o ≤ k) && decide (k < o + w.2.1.length))).foldl (fun t k =>
        t.onMem (fun m => m.poisonWord (t.store (a + (k - o)) / 4))) s1
  s2.onCore n (fun c => if own then c.signUnit u w.2.1 else (c.signUnit u w.2.1).signUnit 4 w.2.1)

/-- The writes of a move as it lands, R64, R429. -/
def State.landWrites (s : State) (n : Nat) (engine : Bool) (m : Move) (ws : List (Nat × Bytes × Option Nat)) : State :=
  let d := s.descOf m.desc
  let u := if engine then 3 else 2
  if s.leaves d then
    let node := s.targetNode d
    let s1 := ws.foldl (fun t w => t.onCore n (fun c => (c.signUnit u w.2.1).signUnit 4 w.2.1)) s
    if !s.speaks n then s1
    else if !s.reachable node then s1.fabFails (s.sourceId n) d.dst
    else
      let pieces := ws.map (fun w => (w.1 % 2 ^ 40, w.2.1))
      (writesOf (s.packetHeader n 1 d.dcore m.packet) (!m.bad.isEmpty) pieces).foldl (fun t w => t.fabSend node 0 w)
        (s1.louvre (s.core n).ctlPart.toNat (remoteAddr node 0) ((ws.map (fun w => w.2.1.length)).sum) true)
  else
    let s1 := ws.foldl (fun t w => t.landPiece n u m.bad w) s
    match m.packet with
    | some (o, seq, dst) => s1.sendPacket n o seq dst false
    | none => s1

/-- The header of a remote chunk has come: refused where a check of R160 fails, else its blocks are read. -/
def State.readBlocks (s : State) (n : Nat) (engine : Bool) (m : Move) : State :=
  let d := s.descOf m.desc
  let maxCoded := fieldAt (s.pondReader n d.ext 64) 0 4
  if headerFits d maxCoded m.src then
    let r := s.readPiece n { m with header := false } (d.src + 64, chunkLength (fieldAt m.src 12 4) - 64)
    r.1.onCore n (fun c => { c with tm := setAt c.tm (if engine then 1 else 0) (some r.2) })
  else s.coreFault n eDesc (granule d.src)

/-- The move of an engine lands, R64: a chunk that fails the checks of R160 is refused. -/
def State.landMove (s : State) (n : Nat) (engine : Bool) (m : Move) : State :=
  let d := s.descOf m.desc
  let ext := s.pondReader n d.ext 64
  if m.header then s.readBlocks n engine m
  else match d.writes ext m.src with
    | none => s.coreFault n eDesc (granule d.src)
    | some ws => (s.onCore n (fun c => { c with tm := setAt c.tm (if engine then 1 else 0) none })).landWrites n engine m ws

end Sys2Proof.Machine
end

