-- ==== Sys2Proof/Machine/VectorUnit.lean ====
section
/-! DEFINITION. The vector unit and the SFU (R61, R62, R68, R100, R101). An operation issued is complete, since R66 makes
unit speed irrelevant (log 7). -/

namespace Sys2Proof.Machine

/-- A vector instruction issues on core n and writes register vd with lanes made from the core's registers. -/
def State.vecOp (s : State) (n : BitVec 6) (i : Instr) (vd : BitVec 5) (f : Core → List Word) : State :=
  s.issue n i (fun t => t.onCore n.toNat (fun c => (c.setLanes vd (f c)).next))

/-- Lane by lane over two registers. -/
def lanes2 (vs1 vs2 : BitVec 5) (f : Word → Word → Word) (c : Core) : List Word := List.zipWith f (c.lanes vs1) (c.lanes vs2)

/-- Lane by lane over three registers. -/
def lanes3 (vs1 vs2 vs3 : BitVec 5) (f : Word → Word → Word → Word) (c : Core) : List Word :=
  List.zipWith (fun g z => g z) (List.zipWith f (c.lanes vs1) (c.lanes vs2)) (c.lanes vs3)

/-- Lane by lane over one register. -/
def lanes1 (vs1 : BitVec 5) (f : Word → Word) (c : Core) : List Word := (c.lanes vs1).map f

/-- VADD, R100. -/
def execVadd (n : BitVec 6) (vd vs1 vs2 vs3 : BitVec 5) (imm : Word) (s : State) : Host.Outcome State Fault Refusal :=
  .next (s.vecOp n (.vadd n vd vs1 vs2 vs3 imm) vd (lanes2 vs1 vs2 fadd))

/-- VSUB, R100. -/
def execVsub (n : BitVec 6) (vd vs1 vs2 vs3 : BitVec 5) (imm : Word) (s : State) : Host.Outcome State Fault Refusal :=
  .next (s.vecOp n (.vsub n vd vs1 vs2 vs3 imm) vd (lanes2 vs1 vs2 fsub))

/-- VMUL, R100. -/
def execVmul (n : BitVec 6) (vd vs1 vs2 vs3 : BitVec 5) (imm : Word) (s : State) : Host.Outcome State Fault Refusal :=
  .next (s.vecOp n (.vmul n vd vs1 vs2 vs3 imm) vd (lanes2 vs1 vs2 fmul))

/-- VFMA, R100: VS1 x VS2 + VS3 with one rounding. -/
def execVfma (n : BitVec 6) (vd vs1 vs2 vs3 : BitVec 5) (imm : Word) (s : State) : Host.Outcome State Fault Refusal :=
  .next (s.vecOp n (.vfma n vd vs1 vs2 vs3 imm) vd (lanes3 vs1 vs2 vs3 ffma))

/-- VMIN, R100. -/
def execVmin (n : BitVec 6) (vd vs1 vs2 vs3 : BitVec 5) (imm : Word) (s : State) : Host.Outcome State Fault Refusal :=
  .next (s.vecOp n (.vmin n vd vs1 vs2 vs3 imm) vd (lanes2 vs1 vs2 fmin))

/-- VMAX, R100. -/
def execVmax (n : BitVec 6) (vd vs1 vs2 vs3 : BitVec 5) (imm : Word) (s : State) : Host.Outcome State Fault Refusal :=
  .next (s.vecOp n (.vmax n vd vs1 vs2 vs3 imm) vd (lanes2 vs1 vs2 fmax))

/-- A comparison of FP32 values, R100: with a NaN only "not equal" is true. -/
def compareF (k : Nat) (x y : Word) : Bool :=
  match k % 6 with
  | 0 => feq x y
  | 1 => !feq x y
  | 2 => fless x y
  | 3 => fless x y || feq x y
  | 4 => fless y x
  | _ => fless y x || feq x y

/-- VCMP, R100; which variant compares how, and what a lane then holds, is Config's: log 7. -/
def execVcmp (n : BitVec 6) (vd vs1 vs2 vs3 : BitVec 5) (imm : Word) (s : State) : Host.Outcome State Fault Refusal :=
  .next (s.vecOp n (.vcmp n vd vs1 vs2 vs3 imm) vd
    (lanes2 vs1 vs2 (fun x y => if compareF (Config.vcmpKind (imm.toNat % 16)) x y then Config.vcmpTrue else Config.vcmpFalse)))

/-- VSEL, R68; how a lane is selected is Config's: log 7. -/
def execVsel (n : BitVec 6) (vd vs1 vs2 vs3 : BitVec 5) (imm : Word) (s : State) : Host.Outcome State Fault Refusal :=
  .next (s.vecOp n (.vsel n vd vs1 vs2 vs3 imm) vd (lanes3 vs1 vs2 vs3 (fun x y z => Config.vselLane x y z imm)))

/-- The conversions of R101 on one lane, the element in its low bits: 0 to 7 from FP16, BF16, E4M3, E5M2, INT4, INT8, INT16 and
INT32 to FP32, 8 to 12 from FP32 to FP16, BF16, E5M2, E4M3 and INT32. -/
def vcvtLane (k : Nat) (w : Word) : Word :=
  match k with
  | 0 => rnd (fp16.decode (w.toNat % 2 ^ 16))
  | 1 => rnd (bf16.decode (w.toNat % 2 ^ 16))
  | 2 => rnd (e4m3.decode (w.toNat % 2 ^ 8))
  | 3 => rnd (e5m2.decode (w.toNat % 2 ^ 8))
  | 4 => rnd (intNum (signed 4 w.toNat))
  | 5 => rnd (intNum (signed 8 w.toNat))
  | 6 => rnd (intNum (signed 16 w.toNat))
  | 7 => rnd (intNum (int32 w))
  | 8 => BitVec.ofNat 32 (narrow fp16 (num w))
  | 9 => BitVec.ofNat 32 (narrow bf16 (num w))
  | 10 => BitVec.ofNat 32 (toE5m2 (num w)).1
  | 11 => BitVec.ofNat 32 (toE4m3 (num w)).1
  | _ => BitVec.ofNat 32 (toInt 32 (num w)).1

/-- A scaled conversion of R102, by kind, and whether it saturated. -/
def scaledLane (k : Nat) (x inv : Word) : Nat × Bool :=
  match k with
  | 0 => quantise .int8 x inv
  | 1 => quantise .int16 x inv
  | 2 => toInt 4 (mulNum (num x) (num inv))
  | 3 => quantise .e4m3 x inv
  | _ => quantise .e5m2 x inv

/-- The lanes that a scaled VCVT gives, with what it counts. -/
def scaledLanes (k : Nat) (inv : Word → Word) (xs ys : List Word) : List Word × QCount :=
  (xs.zip ys).foldl (fun a p => let r := scaledLane k p.1 (inv p.2); (a.1 ++ [BitVec.ofNat 32 r.1], a.2.take p.1 r.2)) ([], {})

/-- A scaled VCVT at its issue, R102: its saturations and NaNs are counted in the granule of its tensor, R109 and R123. -/
def State.convertScaled (s : State) (n : BitVec 6) (vd vs1 vs2 vs3 : BitVec 5) (imm : Word) (k : Nat) : State :=
  match Config.vcvtGranule imm with
  | none => s.onCore n.toNat (fun c =>
      (c.setLanes vd (scaledLanes k (fun y => Config.vcvtInv imm y 0) (c.lanes vs1) (c.lanes vs2)).1).next)
  | some g =>
    if !(s.core n.toNat).inRegion (g * 64) 64 then s.coreFault n.toNat ePondAddr (g / 1024)
    else s.interlock n.toNat (.vcvt n vd vs1 vs2 vs3 imm) [pondRange 1 true (g * 64) 64] (fun t =>
      t.withPond n.toNat (g * 64) 64 (fun u _ =>
        let rd := u.pondReader n.toNat
        let r := scaledLanes k (fun y => Config.vcvtInv imm y (qInv rd g)) ((u.core n.toNat).lanes vs1) ((u.core n.toNat).lanes vs2)
        (u.unitWrites n.toNat 1 [addCounts rd g r.2] false).onCore n.toNat (fun c => (c.setLanes vd r.1).next)))

/-- VCVT at its issue, R100. -/
def State.convert (s : State) (n : BitVec 6) (vd vs1 vs2 vs3 : BitVec 5) (imm : Word) : State :=
  let k := Config.vcvtKind (imm.toNat % 16)
  if k ≤ 12 then s.onCore n.toNat (fun c => (c.setLanes vd (lanes1 vs1 (vcvtLane k) c)).next)
  else s.convertScaled n vd vs1 vs2 vs3 imm ((k - 13) % 5)

/-- VCVT, R101 and R102; which variant converts how, and which tensor's granule a scaled one names, is Config's: log 7. -/
def execVcvt (n : BitVec 6) (vd vs1 vs2 vs3 : BitVec 5) (imm : Word) (s : State) : Host.Outcome State Fault Refusal :=
  .next (s.issue n (.vcvt n vd vs1 vs2 vs3 imm) (fun t => t.convert n vd vs1 vs2 vs3 imm))

/-- VIADD, R100: modulo 2^32. -/
def execViadd (n : BitVec 6) (vd vs1 vs2 vs3 : BitVec 5) (imm : Word) (s : State) : Host.Outcome State Fault Refusal :=
  .next (s.vecOp n (.viadd n vd vs1 vs2 vs3 imm) vd (lanes2 vs1 vs2 (· + ·)))

/-- VIMUL, R100: modulo 2^32. -/
def execVimul (n : BitVec 6) (vd vs1 vs2 vs3 : BitVec 5) (imm : Word) (s : State) : Host.Outcome State Fault Refusal :=
  .next (s.vecOp n (.vimul n vd vs1 vs2 vs3 imm) vd (lanes2 vs1 vs2 (· * ·)))

/-- VAND, R100. -/
def execVand (n : BitVec 6) (vd vs1 vs2 vs3 : BitVec 5) (imm : Word) (s : State) : Host.Outcome State Fault Refusal :=
  .next (s.vecOp n (.vand n vd vs1 vs2 vs3 imm) vd (lanes2 vs1 vs2 (· &&& ·)))

/-- VOR, R100. -/
def execVor (n : BitVec 6) (vd vs1 vs2 vs3 : BitVec 5) (imm : Word) (s : State) : Host.Outcome State Fault Refusal :=
  .next (s.vecOp n (.vor n vd vs1 vs2 vs3 imm) vd (lanes2 vs1 vs2 (· ||| ·)))

/-- A shift of one lane: 0 left, 1 logical right, 2 arithmetic right; the count modulo 32, R100. -/
def shiftLane (k : Nat) (x y : Word) : Word :=
  match k % 3 with
  | 0 => x <<< (y.toNat % 32)
  | 1 => x >>> (y.toNat % 32)
  | _ => x.sshiftRight (y.toNat % 32)

/-- VSHIFT, R100; the kind of shift is Config's, and the count is the lane of VS2 (DESIGN CHOICE): log 7. -/
def execVshift (n : BitVec 6) (vd vs1 vs2 vs3 : BitVec 5) (imm : Word) (s : State) : Host.Outcome State Fault Refusal :=
  .next (s.vecOp n (.vshift n vd vs1 vs2 vs3 imm) vd (lanes2 vs1 vs2 (shiftLane (Config.vshiftKind imm))))

/-- The reduction of one register, R61 and R100. -/
def reduceLanes (variant : Nat) (l : List Word) : Word :=
  match Config.vredKind variant with
  | 0 => tree64 fadd l
  | 1 => tree64 (· + ·) l
  | _ => tree64 (Config.vredOther variant) l

/-- VRED, R61: the result in lane 0; the other lanes are Config's: log 7. -/
def execVred (n : BitVec 6) (vd vs1 vs2 vs3 : BitVec 5) (imm : Word) (s : State) : Host.Outcome State Fault Refusal :=
  .next (s.vecOp n (.vred n vd vs1 vs2 vs3 imm) vd (fun c =>
    let r := reduceLanes (imm.toNat % 16) (c.lanes vs1)
    r :: ((c.lanes vd).zipIdx.drop 1).map (fun p => Config.vredRest p.2 r p.1)))

/-- VBCAST, R68; which lane is broadcast is Config's: log 7. -/
def execVbcast (n : BitVec 6) (vd vs1 vs2 vs3 : BitVec 5) (imm : Word) (s : State) : Host.Outcome State Fault Refusal :=
  .next (s.vecOp n (.vbcast n vd vs1 vs2 vs3 imm) vd (fun c =>
    List.replicate 64 ((c.lanes vs1).getD (Config.vbcastLane imm % 64) 0)))

/-- VSFU, R62 and R68. -/
def execVsfu (n : BitVec 6) (vd vs1 vs2 vs3 : BitVec 5) (imm : Word) (s : State) : Host.Outcome State Fault Refusal :=
  .next (s.vecOp n (.vsfu n vd vs1 vs2 vs3 imm) vd (lanes1 vs1 (sfu (imm.toNat % 8))))

/-- VLD at its issue: 256 bytes from a granule of the program's region. -/
def State.loadLanes (s : State) (n : BitVec 6) (vd : BitVec 5) (granule : BitVec 16) : State :=
  let off := granule.toNat * 64
  if !(s.core n.toNat).inRegion off 256 then s.coreFault n.toNat ePondAddr (off / 65536)
  else s.interlock n.toNat (.vld n vd granule) [pondRange 1 false off 256] (fun t =>
    t.withPond n.toNat off 256 (fun u bs =>
      u.onCore n.toNat (fun c => (c.setLanes vd ((List.range 64).map (fun l => BitVec.ofNat 32 (fieldAt bs (4 * l) 4)))).next)))

/-- VST at its issue: 256 bytes to a granule of the program's region. -/
def State.storeLanes (s : State) (n : BitVec 6) (vs1 : BitVec 5) (granule : BitVec 16) : State :=
  let off := granule.toNat * 64
  if !(s.core n.toNat).inRegion off 256 then s.coreFault n.toNat ePondAddr (off / 65536)
  else s.interlock n.toNat (.vst n vs1 granule) [pondRange 1 true off 256] (fun t =>
    (t.unitWrites n.toNat 1 [(off, (((t.core n.toNat).lanes vs1).map (fun w => leBytes 4 w.toNat)).flatten)] false).next n.toNat)

/-- VLD, R67 and R79. -/
def execVld (n : BitVec 6) (vd : BitVec 5) (granule : BitVec 16) (s : State) : Host.Outcome State Fault Refusal :=
  .next (s.issue n (.vld n vd granule) (fun t => t.loadLanes n vd granule))

/-- VST, R67 and R79. -/
def execVst (n : BitVec 6) (vs1 : BitVec 5) (granule : BitVec 16) (s : State) : Host.Outcome State Fault Refusal :=
  .next (s.issue n (.vst n vs1 granule) (fun t => t.storeLanes n vs1 granule))

end Sys2Proof.Machine
end

