-- ==== Sys2Proof/Machine/Moves.lean ====
section
/-! DEFINITION. Tile moves and packets (R64, R71, R72, R74, R76, R77), and the release of what the interlock held (R66). -/

namespace Sys2Proof.Machine

/-- The engine number. -/
def tmIndex (engine : Bool) : Nat := if engine then 1 else 0

/-- TMV at its issue: the descriptor joins the engine's queue once its ranges do not conflict. -/
def State.issueMove (s : State) (n : BitVec 6) (engine : Bool) (desc : BitVec 16) : State :=
  let c := s.core n.toNat
  let at_ := desc.toNat * 64
  let u := if engine then 3 else 2
  if !c.inRegion at_ 64 then s.coreFault n.toNat ePondAddr (at_ / 65536)
  else if 8 ≤ (c.tmq.getD (tmIndex engine) []).length then s
  else s.interlock n.toNat (.tmv n engine desc) [pondRange u false at_ 64] (fun t =>
    t.withPond n.toNat at_ 64 (fun v b =>
      let d := v.descOf b
      let ext := v.pondReader n.toNat d.ext 64
      let rs := v.moveRanges n.toNat engine d ext (v.codedOf n.toNat d) at_
      v.interlock n.toNat (.tmv n engine desc) rs (fun w =>
        w.onCore n.toNat (fun c => { c.next with tmq := updAt c.tmq (tmIndex engine) (fun q => q ++ [(desc, rs)]) }))))

/-- TMV, R64 and R67. -/
def execTmv (n : BitVec 6) (engine : Bool) (desc : BitVec 16) (s : State) : Host.Outcome State Fault Refusal :=
  .next (s.issue n (.tmv n engine desc) (fun t => t.issueMove n engine desc))

/-- TILE_MOVE_START, R64, R65, R71, R76, R145, R149 and R159. -/
def execTileMoveStart (n : BitVec 6) (engine : Bool) (s : State) : Host.Outcome State Fault Refusal :=
  .next (let c := s.core n.toNat
    match c.prog, c.tmq.getD (tmIndex engine) [] with
    | some p, (g, rs) :: rest =>
      if s.up && c.busy && (c.tm.getD (tmIndex engine) none).isNone then
        (s.onCore n.toNat (fun c => { c with tmq := setAt c.tmq (tmIndex engine) rest })).takeDesc n.toNat engine g rs p
      else s
    | _, _ => s)

/-- TILE_MOVE_LAND, R64: the last byte lands, once remote data has come and no memory is to be waited for. -/
def execTileMoveLand (n : BitVec 6) (engine : Bool) (s : State) : Host.Outcome State Fault Refusal :=
  .next (match (s.core n.toNat).tm.getD (tmIndex engine) none with
    | some m =>
      let d := s.descOf m.desc
      if s.up && m.need.isEmpty && !((d.targets (s.pondReader n.toNat d.ext 64) 0).any s.pieceWaits)
      then s.landMove n.toNat engine m else s
    | none => s)

/-- A tile move of stream o is queued and not yet taken by its engine, R74. -/
def State.streamQueued (s : State) (n o : Nat) : Bool :=
  ((s.core n).tmq.flatten).any (fun e => fieldAt (s.pondReader n (e.1.toNat * 64 + 0x21) 1) 0 1 == o)

/-- SIGNAL at its issue. -/
def State.issueSignal (s : State) (n : BitVec 6) (out : BitVec 4) (d : Dest) : State :=
  match (s.core n.toNat).prog with
  | none => s
  | some p =>
    let c := s.core n.toNat
    if !c.streamOk p out.toNat d then s.coreFault n.toNat eDesc n.toNat
    else (s.onCore n.toNat (fun c => (c.takeNumber p out.toNat).next)).sendPacket n.toNat out (c.out p.bank.toNat out.toNat).next d false

/-- SIGNAL, R71, R74 and R76: once every earlier tile move of the stream has been taken. -/
def execSignal (n : BitVec 6) (out : BitVec 4) (dctr : BitVec 6) (dcore : BitVec 6) (dnode : BitVec 3) (s : State) :
    Host.Outcome State Fault Refusal :=
  .next (if s.streamQueued n.toNat out.toNat then s
    else s.issue n (.signal n out dctr dcore dnode) (fun t => t.issueSignal n out (destOf dnode.toNat dcore.toNat dctr.toNat)))

/-- PACKET_LAND, R72 and R379. -/
def execPacketLand (p : Packet) (s : State) : Host.Outcome State Fault Refusal := .next (if s.up then s.landPacket p else s)

/-- The void packets of one stream, from its next number up to a number. -/
def State.voidStream (s : State) (n : Nat) (e : BitVec 2 × BitVec 4 × Word) : State :=
  let x := (s.core n).out e.1.toNat e.2.1.toNat
  let k := (e.2.2 - x.next).toNat
  match x.dest with
  | none => s
  | some d =>
    if 2 ^ 31 ≤ k then s
    else
      ((List.range k).foldl (fun t i => t.sendPacket n e.2.1 (x.next + BitVec.ofNat 32 i) d true) s).onCore n (fun c =>
        { c with outs := supd {} c.outs (e.1.toNat * 16 + e.2.1.toNat) (fun y => { y with next := e.2.2 }) })

/-- VOID_FILL, R76 and R77: first the numbers of aborted moves, then those not sent, each stream ascending. -/
def execVoidFill (n : BitVec 6) (s : State) : Host.Outcome State Fault Refusal :=
  .next (if s.up then
    let c := s.core n.toNat
    let s1 := s.onCore n.toNat (fun c => { c with toVoid := [], voidDue := [] })
    let s2 := c.toVoid.foldl (fun t e => t.sendPacket n.toNat e.2.1 e.2.2.1 e.2.2.2 true) s1
    c.voidDue.foldl (fun t e => t.voidStream n.toNat e) s2
  else s)

/-- The held instruction tries again. -/
def State.retryInstr (s : State) (i : Instr) : State :=
  match i with
  | .mloadw n shape fmt quad block => s.issueLoad n shape fmt quad block
  | .mpass n shape fmt acc abuf quad m1 arow drain chain row => s.issuePass n ⟨shape, fmt, acc, abuf, quad, m1, arow, drain, chain, row⟩
  | .vld n vd granule => s.loadLanes n vd granule
  | .vst n vs1 granule => s.storeLanes n vs1 granule
  | .vcvt n vd vs1 vs2 vs3 imm => s.convert n vd vs1 vs2 vs3 imm
  | .tmv n engine desc => s.issueMove n engine desc
  | _ => s

/-- INTERLOCK_RELEASE, R66: the held instruction issues when nothing conflicts any more. -/
def execInterlockRelease (n : BitVec 6) (s : State) : Host.Outcome State Fault Refusal :=
  .next (match (s.core n.toNat).held with
    | some i => if s.up && (s.core n.toNat).busy then s.retryInstr i else s
    | none => s)

end Sys2Proof.Machine
end

