-- ==== Sys2Proof/Machine/Radio.lean ====
section
/-! DEFINITION. The events of the radio: links, slots, the AGC and the correlator, grids, RF lists, decoder jobs, transmission and
the validation gate (R240 to R287). -/

namespace Sys2Proof.Machine

/-! ## Links, R241, R242 and R286 -/

/-- JESD_ALIGN, R242: the sync header has locked and the extended multiblock has aligned. -/
def execJesdAlign (door : BitVec 1) (s : State) : Host.Outcome State Fault Refusal :=
  .next (if s.up && (s.radioDoor door.toNat).link == .aligning then s.onRadioDoor door.toNat (fun x => { x with aligned := true }) else s)

/-- SYSREF_EDGE, R241 and R286: it stamps T_S, or a periodic edge is checked against the stamped phase. -/
def execSysrefEdge (door : BitVec 1) (displaced : Bool) (s : State) : Host.Outcome State Fault Refusal :=
  .next (if s.up then
    match (s.radioDoor door.toNat).link with
    | .aligning =>
      if (s.radioDoor door.toNat).aligned then
        s.onRadioDoor door.toNat (fun x => { x with link := .up, ts := some s.now })
      else s
    | .up => if displaced && s.jesdField door.toNat 1 1 == 1 then s.radioViolation door.toNat 4 else s
    | .down => s
  else s)

/-- JESD_LINK_ERROR, R286: the slots in progress are IMPAIRED. -/
def execJesdLinkError (door : BitVec 1) (crc12 : Bool) (s : State) : Host.Outcome State Fault Refusal :=
  .next (if s.up && (s.radioDoor door.toNat).link == .up then
    (s.doorCarriers door.toNat).foldl (fun t c => t.onCurSlot c (fun x => { x with impaired := true }))
      (s.radioViolation door.toNat (if crc12 then 1 else 0))
  else s)

/-- JESD_ALIGNMENT_LOSS, R286: the link re-aligns, and the slots in progress are LOST. -/
def execJesdAlignmentLoss (door : BitVec 1) (elastic : Bool) (s : State) : Host.Outcome State Fault Refusal :=
  .next (if s.up && (s.radioDoor door.toNat).link == .up then
    let s1 := (s.radioViolation door.toNat (if elastic then 3 else 2)).onRadioDoor door.toNat
      (fun x => { x with link := .aligning, aligned := false, ts := none })
    let s2 := (s.doorCarriers door.toNat).foldl (fun t c => t.onCurSlot c (fun x => { x with lost := true })) s1
    if violThrottled (door.toNat, 0, 0) s.radio.viols then s2 else s2.logEvent (0xAB + door.toNat) 0 .radioLinkLost [door.toNat]
  else s)

/-! ## Slots -/

/-- The first sample whose antenna time lies at or after the boundary of a slot that has not begun has arrived, R241, R245 and R247. -/
def State.slotDue (s : State) (c : Nat) : Bool :=
  s.up && (s.carrier c).on && decide (s.radioEpoch ≤ s.airNow (s.carrierDoor c)) && (s.carrier c).lastSlot != some (s.slotOnAir c)

/-- SLOT_BOUNDARY, R247, R254, R262, R276, R284 and R285. -/
def execSlotBoundary (c : BitVec 2) (samples : Nat) (s : State) : Host.Outcome State Fault Refusal :=
  .next (if s.slotDue c.toNat then s.slotBoundary c.toNat (s.slotOnAir c.toNat) samples else s)

/-- The AGC of carrier c adjusts: it is its door's, a slot is being received and GI is neither frozen nor settled, R243 and R254. -/
def State.agcRuns (s : State) (c : Nat) : Bool :=
  s.up && s.leadsDoor c && ((s.curSlot c).map (fun x => !x.frozen && !x.settled && !x.lost)).getD false

/-- One measurement of the AGC loop, R254. -/
def State.agcMeasure (s : State) (c : Nat) (power : Int) : State :=
  let step := max 1 (s.gainStep c)
  let e := signed 16 (s.carrierField c 0x1C 2) - power
  if 2 * e.natAbs ≤ step then s.settleGain c
  else
    let gi := ((s.curSlot c).map (·.gi)).getD 0
    let new := (clamp 0 15 ((gi : Int) + roundHalfEven (-e) step)).toNat
    (s.onCurSlot c (fun x => { x with gi := new, settling := true })).driveGain c new

/-- AGC_WINDOW_END, R254. -/
def execAgcWindowEnd (c : BitVec 2) (power : Int) (s : State) : Host.Outcome State Fault Refusal :=
  .next (if s.agcRuns c.toNat && !((s.curSlot c.toNat).map (·.settling)).getD false then s.agcMeasure c.toNat power else s)

/-- AGC_SETTLE_END, R254. -/
def execAgcSettleEnd (c : BitVec 2) (s : State) : Host.Outcome State Fault Refusal :=
  .next (if s.agcRuns c.toNat then s.onCurSlot c.toNat (fun x => { x with settling := false }) else s)

/-- AGC_SYMBOL_END, R255. -/
def execAgcSymbolEnd (c : BitVec 2) (s : State) : Host.Outcome State Fault Refusal :=
  .next (if s.up then s.onCurSlot c.toNat SlotRt.freeze else s)

/-! ## The correlator, R251 to R253 -/

/-- The mismatches over the last SYNC_LEN chips when i chips have followed chip j; the lists hold chips j - SYNC_LEN + 1 to
j + 7. -/
def mismatches (len i : Nat) (pattern : Bytes) (sI sQ : List Bool) : Nat :=
  ((List.range len).map (fun k =>
    (if sI.getD (i + k) false != bit (fieldAt pattern (k / 4) 1) (2 * (k % 4)) then 1 else 0)
      + (if sQ.getD (i + k) false != bit (fieldAt pattern (k / 4) 1) (2 * (k % 4) + 1) then 1 else 0))).sum

/-- The smallest count among chips j to j + 7, with its distance from j; the earliest wins. -/
def bestChip (len : Nat) (pattern : Bytes) (sI sQ : List Bool) : Nat × Nat :=
  (List.range 8).foldl (fun b i => let m := mismatches len i pattern sI sQ; if m < b.2 then (i, m) else b)
    (0, mismatches len 0 pattern sI sQ)

/-- A detection of carrier c is reported. -/
def State.detect (s : State) (c chip d m : Nat) (power : Int) (x : SlotRt) : State :=
  let rssi := power + (x.gi * s.gainStep c : Nat)
  (((s.onCurSlot c (fun y => { y.freeze with detect := true, detM := m, detChip := chip + d, rssiSync := some rssi })).onCarrier c
    (fun y => { y with noDetBefore := chip + s.carrierField c 0x16 2 })).radioCount c 3).logEvent (frontSrc (s.carrierDoor c)) 0
    .detection [c, x.n, chip + d, m]

/-- The chips of a run of tap samples of both antennas, I (0) or Q (1), R251, of the antenna SYNC_ANT: chips j - SYNC_LEN + 1
to j + 7. -/
def State.syncChips (s : State) (c : Nat) (ant0 ant1 : Bytes) (k : Nat) : List Bool :=
  chipsOf (s.carrierField c 0x1A 1) (if s.carrierField c 0x1B 1 % 2 = 0 then ant0 else ant1) k

/-- The symbol in which a chip of slot n lies. -/
def State.chipSymbol (s : State) (c n chip : Nat) : Nat :=
  symbolOf (s.carrierField c 2 1) (s.carrierField c 3 1) n (chip * max 1 (s.carrierField c 0x1A 1))

/-- SYNC_DETECTION, R251 to R253 and R255; not on symbols that the own door transmits. -/
def execSyncDetection (c : BitVec 2) (chip : Word) (ant0 ant1 : Bytes) (power : Int) (s : State) : Host.Outcome State Fault Refusal :=
  .next (match s.curSlot c.toNat with
    | none => s
    | some x =>
      let sI := s.syncChips c.toNat ant0 ant1 0
      let sQ := s.syncChips c.toNat ant0 ant1 1
      let len := s.carrierField c.toNat 0x16 2
      let pattern := s.entry (0x514000 + 256 * c.toNat)
      let b := bestChip len pattern sI sQ
      if s.up && !x.lost && !bit x.txSym (s.chipSymbol c.toNat x.n chip.toNat) && decide (mismatches len 0 pattern sI sQ ≤ s.carrierField c.toNat 0x18 2)
          && decide ((s.carrier c.toNat).noDetBefore ≤ chip.toNat) then
        s.detect c.toNat chip.toNat b.1 b.2 power x
      else s)

/-! ## Grids, R249 and R256 -/

/-- The oldest slot of carrier c whose symbols are not all written. -/
def State.gridSlot (s : State) (c : Nat) : Option SlotRt :=
  ((s.carrier c).slots.take 2).reverse.find? (fun x => decide (x.symbols < 14) && !x.lost)

/-- GRID_SYMBOL, R249 and R256: the symbol's samples at the interface go through the front end; the grid packet is written with its
number, and after the last one the slot record and the SIGNAL. -/
def execGridSymbol (c : BitVec 2) (symbol : BitVec 4) (samples : Bytes) (s : State) : Host.Outcome State Fault Refusal :=
  .next (match s.gridSlot c.toNat with
    | none => s
    | some x =>
      if s.up && symbol.toNat == x.symbols then
        let k := c.toNat
        let z := s.carrier k
        let taps := tapStream (s.entry (0x510000 + 256 * k)) z.rxCount z.rxTail samples z.dc
        let pkt := fitBytes (s.packetLen k) (gridPacket (s.entry (0x510000 + 256 * k)) x.n x.symbols x.gi (12 * s.prbs k) taps.2)
        let w := (s.engineWrite 1 (frontSrc (s.carrierDoor k)) (s.gridAddr k x.n + x.symbols * s.packetLen k) pkt).1
        let y : SlotRt := { x with symbols := x.symbols + 1, clip := x.clip + clipCount taps.2,
                                   gridSeq := if x.symbols = 0 then z.gridSeq else x.gridSeq }
        let s1 := ((w.onSlot k x.n (fun _ => y)).onCarrier k (fun v =>
          { v with gridSeq := v.gridSeq + 1, dc := taps.1, rxTail := samples, rxCount := v.rxCount + samples.length / 8 })).emit
          (.gridPacket k x.n x.symbols z.gridSeq.toNat)
        if y.symbols = 14 then s1.writeSlot k y else s1
      else s)

/-! ## RF lists, R244 -/

/-- The first transmission of door d whose list is due. -/
def State.listDue (s : State) (d : Nat) : Option Tx :=
  ((s.listStarts d).find? (fun p => decide (p.1 ≤ s.now) && decide (s.now < p.1 + s.jesdField d 0x0C 2 + 1))).map (·.2)

/-- TX_LIST with the power word of a descriptor as its 16th and last transfer; the index is POWER within 0 to 63: DESIGN CHOICE, log 44. -/
def State.txList (s : State) (d : Nat) (t : Tx) : Bytes :=
  let i := (clamp 0 63 (signed 16 (fieldAt t.bytes 0x0E 2))).toNat
  (s.rfList d 0).take 45 ++ slice (s.entry (0x502000 + 256 * d)) (96 + 3 * i) 3

/-- RF_TX_LIST_START, R244. -/
def execRfTxListStart (door : BitVec 1) (s : State) : Host.Outcome State Fault Refusal :=
  .next (match s.listDue door.toNat with
    | none => s
    | some t =>
      if s.up && !(s.radioDoor door.toNat).transmitting && !(s.radioDoor door.toNat).txStopped
      then s.runList door.toNat 0 (s.txList door.toNat t) else s)

/-! ## Decoder jobs -/

/-- DECODER_JOB_LAND, R261: a job granule lands in its place of the 1,024 of the ring; an earlier number is never admitted. -/
def execDecoderJobLand (engine : BitVec 1) (job : Bytes) (s : State) : Host.Outcome State Fault Refusal :=
  .next (if s.up && job.length == 64 then
    s.onDecoder engine.toNat (fun e =>
      if serialAfter e.next (jobSeq job) || e.landed.any (fun j => jobSeq j == jobSeq job) then e
      else admitJobs 64 { e with landed := e.landed.filter (fun j => (jobSeq j).toNat % 1024 != (jobSeq job).toNat % 1024) ++ [job] })
  else s)

/-- DECODER_JOB_START, R262: the admitted job with the earliest deadline; a codeword of a lost or blanked slot is reported without
decoding. -/
def execDecoderJobStart (engine : BitVec 1) (s : State) : Host.Outcome State Fault Refusal :=
  .next (if s.up && (s.decoder engine.toNat).running.isNone then
    match s.nextDecode engine.toNat with
    | none => s
    | some j =>
      let s1 := s.onDecoder engine.toNat (fun e => admitJobs 64 { e with pending := e.pending.filter (fun k => jobSeq k != jobSeq j) })
      match s.slotOutcome j with
      | some o => s1.cutJob engine.toNat j o
      | none => s1.onDecoder engine.toNat (fun e => { e with running := some (j, s.now) })
  else s)

/-- DECODER_JOB_COMPLETE, R266, R267 and R269: a decode or an encode finishes in time. -/
def execDecoderJobComplete (engine : BitVec 1) (s : State) : Host.Outcome State Fault Refusal :=
  .next (match (s.decoder engine.toNat).running with
    | none => s
    | some (j, _) =>
      if s.up && inTime s.now (s.jobLimit j) then
        let s1 := s.endJob engine.toNat
        if jobOp j = 0 then s1.finishDecodeJob engine.toNat j else s1.finishEncodeJob engine.toNat j
      else s)

/-- An admitted job that has not started by its deadline is abandoned, R267. -/
def State.abandon (s : State) (e : Nat) (seq : Word) : State :=
  match (s.decoder e).pending.find? (fun j => jobSeq j == seq) with
  | none => s
  | some j =>
    if s.jobLimit j < s.now then
      (s.onDecoder e (fun x => admitJobs 64 { x with pending := x.pending.filter (fun k => jobSeq k != seq) })).cutJob e j 2
    else s

/-- DECODER_DEADLINE, R267: a job that has not started, or runs one granule after its deadline, is abandoned. -/
def execDecoderDeadline (engine : BitVec 1) (seq : Word) (s : State) : Host.Outcome State Fault Refusal :=
  .next (if s.up then
    match (s.decoder engine.toNat).running with
    | some (j, _) =>
      if jobSeq j == seq then (if expired s.now (s.jobLimit j) then (s.endJob engine.toNat).cutJob engine.toNat j 2 else s)
      else s.abandon engine.toNat seq
    | none => s.abandon engine.toNat seq
  else s)

/-- DECODER_SHARE_STOP, R262 and R267: the running job has spent its carrier's share. -/
def execDecoderShareStop (engine : BitVec 1) (s : State) : Host.Outcome State Fault Refusal :=
  .next (match (s.decoder engine.toNat).running with
    | none => s
    | some (j, _) =>
      if s.up && s.shareLeft engine.toNat (jobCarrier j) == 0 then (s.endJob engine.toNat).cutJob engine.toNat j 3 else s)

/-- HARQ_BUFFER_EXPIRY, R272: 16 subframes after the retransmission slot an unclaimed LTE buffer is free. -/
def execHarqBufferExpiry (c : BitVec 2) (slot : Word) (subch : Byte) (s : State) : Host.Outcome State Fault Refusal :=
  .next (let n := s.fullSlot c.toNat slot.toNat
    if s.up && s.carrierField c.toNat 0 1 == 0 && decide (n + 16 ≤ s.slotNow c.toNat) then
      s.onCarrier c.toNat (fun x => { x with harq := x.harq.filter (fun h => h.key != (n, subch.toNat, 0)) })
    else s)

/-! ## Feedback and transmission -/

/-- a goes before b in a PSFCH occasion, R275. -/
def feedbackBefore (a b : Feedback) : Bool := if a.prio ≠ b.prio then decide (a.prio < b.prio) else decide (a.subch < b.subch)

/-- Feedbacks in order of choice. -/
def sortFeedback : List Feedback → List Feedback
  | [] => []
  | f :: t => let r := sortFeedback t; r.takeWhile (fun g => feedbackBefore g f) ++ [f] ++ r.dropWhile (fun g => feedbackBefore g f)

/-- The feedbacks due in the slot in progress go out, and those beyond PSFCH_MAX are dropped, R275. -/
def State.sendFeedback (s : State) (c n : Nat) : State :=
  let due := sortFeedback ((s.carrier c).feedback.filter (fun f => f.slot == n))
  let max_ := s.carrierField c 0x11 1
  let s1 := s.onCarrier c (fun x => { x with feedback := x.feedback.filter (fun f => n < f.slot) })
  let s2 := (due.drop max_).foldl (fun t _ => t.radioCount c 13) s1
  if due.isEmpty then s2
  else ((due.take max_).foldl (fun t f => t.emit (.feedback c n f.subch f.ack)) s2).blank c n psfchSymbols

/-- PSFCH_OCCASION, R248, R274, R275 and R278. -/
def execPsfchOccasion (c : BitVec 2) (s : State) : Host.Outcome State Fault Refusal :=
  .next (match s.curSlot c.toNat with
    | none => s
    | some x =>
      let p := s.carrierField c.toNat 0x10 1
      if s.up && p != 0 && x.n % p == 0 then
        if s.tb.lock == .locked && x.synced && (s.radioDoor (s.carrierDoor c.toNat)).link == .up
            && !(s.radioDoor (s.carrierDoor c.toNat)).txStopped && s.carrierField c.toNat 0x0E 1 == 1 then s.sendFeedback c.toNat x.n
        else s.onCarrier c.toNat (fun y => { y with feedback := y.feedback.filter (fun f => decide (x.n < f.slot)) })
      else s)

/-- A descriptor has landed in time, R277. -/
def State.txInTime (s : State) (c n : Nat) : Bool :=
  decide (s.now + 2 * s.slotLen c ≤ s.slotStart c n) && decide (s.now + 500000 ≤ s.slotStart c n)

/-- TX_DESCRIPTOR_LAND, R276 and R277; a descriptor of a carrier without TX_EN, of another carrier or of a reserved KIND is reported as
CONFLICT: DESIGN CHOICE, log 110. -/
def execTxDescriptorLand (c : BitVec 2) (desc : Bytes) (s : State) : Host.Outcome State Fault Refusal :=
  .next (if s.up && (s.carrier c.toNat).on && desc.length == 64 then
    let n := s.fullSlot c.toNat (fieldAt desc 8 4)
    if !s.txInTime c.toNat n then s.txReport c.toNat desc 1
    else if s.carrierField c.toNat 0x0E 1 ≠ 1 ∨ fieldAt desc 4 1 ≠ c.toNat ∨ 1 < fieldAt desc 5 1 ∨ (s.carrier c.toNat).txs.any (fun t => t.slot == n) then s.txReport c.toNat desc 2
    else s.onCarrier c.toNat (fun x => { x with txs := x.txs ++ [({ slot := n, bytes := desc } : Tx)] })
  else s)

/-! ## The validation gate, R283 -/

/-- VALIDATION_COMPLETE, R283: the candidate's CRC matches, every MUST_PASS vector decodes, and at least as many vectors as with
the active bank. -/
def execValidationComplete (c : BitVec 2) (mustPass : Bool) (candidate active : Nat) (s : State) : Host.Outcome State Fault Refusal :=
  .next (match (s.carrier c.toNat).verdict, (s.carrier c.toNat).candidate with
    | 1, some (crc, b) =>
      if s.up then
        if crc32c (s.bankBytes c.toNat b) == crc.toNat && mustPass && decide (active ≤ candidate) then
          s.onCarrier c.toNat (fun x => { x with verdict := 2, swapAfter := some s.now })
        else (s.onCarrier c.toNat (fun x => { x with verdict := 3, candidate := none })).radioCount c.toNat 21
      else s
    | _, _ => s)

end Sys2Proof.Machine
end

