-- ==== Sys2Proof/Machine/Schedule.lean ====
section
/-! DEFINITION. The schedule engine's own events: entries, arbitration, golden slots, self-test segments, deadlines and
remaps (R297, R298, R302 to R315, R388 to R390, R551). -/

namespace Sys2Proof.Machine

/-! ## Entries -/

/-- RELEASE, R302: a WORK entry with CONTINUE clear starts. -/
def execRelease (e : Nat) (s : State) : Host.Outcome State Fault Refusal :=
  .next (match s.workEntry e with
    | some w => if s.entryStarts w && w.kind == 0 && !w.isContinue then s.makeRelease e w else s
    | none => s)

/-- CONTINUE_ENTRY, R302 and R305: the release's work, when preempted, resumes; when it runs it goes on. -/
def execContinueEntry (e : Nat) (s : State) : Host.Outcome State Fault Refusal :=
  .next (match s.workEntry e with
    | some w =>
      if s.entryStarts w && w.kind == 0 && w.isContinue then
        match s.continued w with
        | some r => if r.st == .preempted && s.startable w then s.resumeOn (s.entryPhys w) (s.hdrOf w.modelId w.prog) else s
        | none => s
      else s
    | none => s)

/-- POOL_ENTRY, R321. -/
def execPoolEntry (e : Nat) (s : State) : Host.Outcome State Fault Refusal :=
  .next (match s.workEntry e with
    | some w => if s.entryStarts w && w.kind == 2 then s.servePool w else s
    | none => s)

/-- RADIO_ENTRY, R306: the program is released at the tick boundary. -/
def execRadioEntry (e : Nat) (s : State) : Host.Outcome State Fault Refusal :=
  .next (match s.workEntry e with
    | some w => if s.entryStarts w && w.kind == 1 then s.makeRelease e w else s
    | none => s)

/-! ## Arbitration -/

/-- The work of core n is that of entry i of the table: its release in the frame in progress, the release that it continues, or a
job of its POOL's partition. -/
def State.sameWork (s : State) (n i : Nat) (w : WorkEntry) : Bool :=
  match (s.core n).work with
  | some (.job p _) => w.kind == 2 && p.toNat == w.part
  | some (.rel e f) => if w.isContinue then (s.continued w).any (fun r => r.entry == e && r.frame == f) else e == i && f == s.frameAt s.now
  | none => false

/-- A new occupant of core n starts 3 us from now, R304: an entry with other work, or a segment. A golden slot has its drain. -/
def State.newOccupant (s : State) (n : Nat) : Bool :=
  match s.occupantAt n (s.now + 3000) with
  | .entry i w => !s.sameWork n i w
  | .segment => true
  | .golden | .slack => false

/-- OCCUPANT_PREEMPT, R304: PREEMPT goes to the core's occupant, to every member of its group. -/
def execOccupantPreempt (n : BitVec 6) (s : State) : Host.Outcome State Fault Refusal :=
  .next (if s.up && s.inFrames && (s.core n.toNat).busy && s.newOccupant n.toNat then (s.members n.toNat).foldl State.preemptCore s else s)

/-- Throttling stops QM and BACKGROUND work in slack from level 1, R518. -/
def State.slackAllowed (s : State) (p : Nat) : Bool := s.pwr.level == 0 || s.rated p

/-- ENTRY_END, R305: the job continues into the slack, unless throttling stops it there (R518). -/
def execEntryEnd (e : Nat) (s : State) : Host.Outcome State Fault Refusal :=
  .next (match s.workEntry e with
    | some w =>
      if s.up && s.inFrames && s.now == s.thisFrame + w.to_ && !s.slackAllowed w.part then (s.entryPhys w).foldl State.preemptCore s
      else s
    | none => s)

/-- The physical cores that core n's group runs on, itself alone outside a group. -/
def State.workers (s : State) (n : Nat) : List Nat :=
  match s.groupOf (s.logical n) with
  | some g => s.activePhys g
  | none => [n]

/-- A preempted program on core n that slack may resume, R305: the oldest whose work is still preempted; a TEST_DUE core takes no
work of a partition of class A or above, R312. -/
def State.slackCandidate (s : State) (n : Nat) : Option Saved :=
  (s.core n).saved.find? (fun v => s.slackAllowed v.part.toNat
    && !(s.rated v.part.toNat && (s.workers n).any (fun m => (s.core m).testDue))
    && (s.sched.jobs.any (fun j => j.waitsAs v.work) || s.sched.rels.any (fun r => r.waitsAs v.work)))

/-- A BACKGROUND job that core n may run, R294: on a headroom core or an idle core of a QM partition. -/
def State.backgroundJob (s : State) (n : Nat) : Option Job :=
  if s.pwr.level == 0 && (s.isHeadroom (s.logical n) || ((s.ownerOf (s.logical n)).map s.partClass) == some 0) && (s.core n).mode == 0 then
    ((List.range 16).filterMap (fun p => if s.partEnabled p && s.partBackground p then s.nextJob p else none)).head?
  else none

/-- SLACK_RESUME, R305 and R304: in slack a preempted job resumes on its cores; else a BACKGROUND job starts. -/
def execSlackResume (n : BitVec 6) (s : State) : Host.Outcome State Fault Refusal :=
  .next (if s.up && s.inFrames && !s.sched.stopped && (s.workers n.toNat).all (fun m => s.coreFree m && s.occupantAt m s.now == .slack) then
    match s.slackCandidate n.toNat with
    | some v => s.resumeOn (s.workers n.toNat) v.hdr
    | none => match s.backgroundJob n.toNat with
      | some j => s.startJob j [n.toNat]
      | none => s
  else s)

/-- HELD_RELEASE_START, R551: a held release starts once its group is whole, its core free and its model resident. -/
def execHeldReleaseStart (e : Nat) (s : State) : Host.Outcome State Fault Refusal :=
  .next (match s.workEntry e, s.heldRelease e with
    | some w, some r => if s.up && s.inRun && !s.sched.stopped && (s.rejoin w).startable w then (s.rejoin w).startHeld r w else s
    | _, _ => s)

/-! ## Golden slots -/

/-- The copies of R383 stop at the drain of a golden slot of their cores, R384. -/
def State.stopCopies (s : State) (k : Nat) : State :=
  (List.range 32).foldl (fun t g =>
    if (t.groupPhys g).any (fun n => t.slotNames k n) then
      t.onGroup g (fun x => { x with resync := x.resync.map (fun r => (r.1, r.2.1, ResyncSt.waitTb)) })
    else t) s

/-- GOLDEN_DRAIN, R307: 3 us before the slot every occupied core of it is preempted. -/
def execGoldenDrain (slot : Nat) (s : State) : Host.Outcome State Fault Refusal :=
  .next (match s.goldenEntry slot with
    | some g =>
      if s.up && s.inFrames && !s.sched.goldenSlots.contains slot && (s.slotStarts g).contains (s.now + 3000) then
        ((s.goldenPhys g).foldl State.preemptCore s).stopCopies slot |>.onSched (fun x => { x with goldenSlots := x.goldenSlots ++ [slot] })
      else s
    | none => s)

/-- GOLDEN on core n, R388: variant v = frame mod 16. -/
def State.startGolden (s : State) (n : Nat) : State :=
  s.onCore n (fun c => { c.wiped with st := .golden, variant := some (s.frameAt s.now % 16), since := some s.now })

/-- GOLDEN_SLOT_START, R307 and R308: work that reached no tile boundary is torn down, and every core of the slot runs its
test. -/
def execGoldenSlotStart (slot : Nat) (s : State) : Host.Outcome State Fault Refusal :=
  .next (match s.goldenEntry slot with
    | some g =>
      if s.up && s.inFrames && s.now == s.thisFrame + g.from_ then
        (((s.goldenPhys g).filter (fun n => !s.isWithdrawn n)).foldl (fun t n =>
          (if (t.core n).busy then t.coreFault n eTileOverrun n else t).startGolden n) s).onSched
          (fun x => { x with goldenSlots := x.goldenSlots.filter (· != slot) ++ [slot] })
      else s
    | none => s)

/-- GOLDEN_TEST_END, R388: the sequencer reset, both buffers empty, the golden signature in CC_SIG. -/
def execGoldenTestEnd (n : BitVec 6) (sig : Word64) (s : State) : Host.Outcome State Fault Refusal :=
  .next (if s.up && (s.core n.toNat).st == CcState.golden then
    (s.chargeCore n.toNat).onCore n.toNat (fun c => { c.wiped with st := if s.beingRestored n.toNat then .resync else .idle, sig := sig })
  else s)

/-- The slot has started and its 120 us have passed. -/
def State.slotOver (s : State) (slot : Nat) (g : GoldenEntry) : Bool :=
  s.sched.goldenSlots.contains slot && (s.goldenPhys g).any (fun n => (s.core n).variant.isSome)
    && (decide (s.thisFrame + g.from_ + 120000 ≤ s.now) || decide (s.now < s.thisFrame + g.from_))

/-- The island's check of one core, R389. -/
def State.checkGolden (s : State) (n frame : Nat) : State :=
  let c := s.core n
  let s1 := s.onCore n (fun c => { c with variant := none })
  if (c.st == CcState.idle || c.st == CcState.resync) && c.sig == s.isl.expected.getD (c.variant.getD 0) 0 then
    s1.onCore n (fun c => { c with goldenLast := frame })
  else
    ((s1.onSched (fun x => { x with goldenFail := x.goldenFail + 1 })).raise n 33 0 3 n).withdrawCore n

/-- GOLDEN_CHECK, R389: every core of the slot against EXPECTED[v]; a failing core is withdrawn at class 3. -/
def execGoldenCheck (slot : Nat) (s : State) : Host.Outcome State Fault Refusal :=
  .next (match s.goldenEntry slot with
    | some g =>
      if s.aonUp && s.up && s.slotOver slot g then
        let frame := if s.thisFrame + g.from_ ≤ s.now then s.frameAt s.now else s.frameAt s.now - 1
        (((s.goldenPhys g).filter (fun n => !s.isWithdrawn n)).foldl (fun t n => t.checkGolden n frame) s).onSched
          (fun x => { x with goldenSlots := x.goldenSlots.filter (· != slot) })
      else s
    | none => s)

/-! ## Structural self-test -/

/-- SEGMENT_START, R304, R310 and R311. -/
def execSegmentStart (n : BitVec 6) (s : State) : Host.Outcome State Fault Refusal :=
  .next (if s.up && s.inFrames && s.coreFree n.toNat && decide ((s.core n.toNat).segsDone < s.cfg 0x230001) && s.segmentAllowed n.toNat
      && s.segmentFits n.toNat then
    s.onCore n.toNat (fun c => { c with st := .selftest, since := some s.now })
  else s)

/-- SEGMENT_END, R390 and R313: the signature is compared, the core is reset, and a complete set clears TEST_DUE. -/
def execSegmentEnd (n : BitVec 6) (sig : Word64) (s : State) : Host.Outcome State Fault Refusal :=
  .next (if s.up && (s.core n.toNat).st == CcState.selftest then
    let k := (s.core n.toNat).segsDone
    let s1 := (s.chargeCore n.toNat).onCore n.toNat (fun c => { c.wiped with segsDone := k + 1 })
    if sig.toNat ≠ s.segSig k then
      ((s1.onSched (fun x => { x with selftestFail := x.selftestFail + 1 })).raise n.toNat 34 0 3 n.toNat).withdrawCore n.toNat
    else if s.cfg 0x230001 ≤ k + 1 then s1.testSetDone n.toNat
    else s1
  else s)

/-! ## Deadlines -/

/-- The release whose deadline instant has passed, R34 and R315. -/
def State.dueRelease (s : State) (e : Nat) : Option Rel :=
  s.sched.rels.find? (fun r => r.entry == e && r.deadline != 0 && expired s.now r.deadline)

/-- DEADLINE_CHECK, R314 and R315. -/
def execDeadlineCheck (d : DeadlineOf) (s : State) : Host.Outcome State Fault Refusal :=
  .next (if s.up && s.inRun then
    match d with
    | .entry e => match s.workEntry e, s.dueRelease e with
      | some w, some r => s.checkRelease r w
      | _, _ => s
    | .job p q => match s.sched.jobs.find? (fun j => j.part == p && j.seq == q && j.deadline != 0 && expired s.now j.deadline) with
      | some j => s.missJob j
      | none => s
  else s)

/-! ## Remaps -/

/-- The work of core n, or of its group's active members, stands at a tile boundary. -/
def State.workAtBoundary (s : State) (n : Nat) : Bool :=
  match s.groupOf (s.logical n) with
  | none => (s.core n).atBoundary || s.isWithdrawn n
  | some g => (s.activePhys g).all (fun m => (s.core m).atBoundary)

/-- The moves that a remap of core n makes: a withdrawn core or a TEST_DUE pair member to a substitute, or a core whose
test set is complete back to its own place. -/
def State.remapPlan (s : State) (n : Nat) : List (Nat × Nat) :=
  let pair := match s.groupOf (s.logical n) with | some g => !s.isTriad g | none => false
  if s.isWithdrawn n then (if s.isHeadroom (s.logical n) then [] else s.substitutes n)
  else if (s.core n).testDue then (if pair then s.substitutes n else [])
  else s.returnHome n

/-- Both cores of every move of a plan stand at a boundary, or are withdrawn, or hold work that a withdrawal ends. -/
def State.placesFree (s : State) (ps : List (Nat × Nat)) : Bool :=
  ps.all (fun p => (s.isWithdrawn (s.phys p.1) || (s.core (s.phys p.1)).atBoundary)
    && ((s.core p.2).atBoundary || (s.remapTakes ps && (s.core p.2).busy)))

/-- REMAP_START, R297, R298, R312 and R313. -/
def execRemapStart (n : BitVec 6) (s : State) : Host.Outcome State Fault Refusal :=
  .next (if s.up && s.inRun && !s.sched.remaps.any (fun r => r.old == n) && s.workAtBoundary n.toNat && !(s.remapPlan n.toNat).isEmpty
      && s.placesFree (s.remapPlan n.toNat) then
    s.startRemap (s.remapPlan n.toNat)
  else s)

/-- REMAP_COMPLETE, R298: landing is confirmed, the banks are copied, but for the banks `bad` of a single core with an uncorrectable
counter word, CORE_MAP is written, held packets land. -/
def execRemapComplete (n : BitVec 6) (bad : BitVec 4) (s : State) : Host.Outcome State Fault Refusal :=
  .next (if s.up && !(s.remapsOf n.toNat).isEmpty then s.finishRemap (s.remapsOf n.toNat) bad else s)

/-- REMAP_TIMEOUT, R298: no confirmation within 5 us; the banks are lost until the next boot. -/
def execRemapTimeout (n : BitVec 6) (s : State) : Host.Outcome State Fault Refusal :=
  .next (if s.up && (s.remapsOf n.toNat).any (fun r => expired s.now (r.since + 5000)) then s.finishRemap (s.remapsOf n.toNat) 0xF else s)

end Sys2Proof.Machine
end

