-- ==== Sys2Proof/Machine/Security.lean ====
section
/-! DEFINITION. Update and security: the activation epoch (R497), anti-rollback bits (R500), quotes (R503), the debug nonce
(R504) and the verification ring (R506), and the flash's programming (R496). -/

namespace Sys2Proof.Machine

/-! ## Activation and the flash -/

/-- The epoch passes: it is set for a staged image, device time has reached it, and SYNCED is 1, R497. -/
def State.epochDue (s : State) : Bool :=
  s.flash.act.staged.isSome && !s.flash.act.passed && s.flash.act.epoch != 0 && decide (s.flash.act.epoch ≤ s.now) && s.tb.synced

/-- EPOCH_PASS, R497: in any state, standby included. -/
def execEpochPass (s : State) : Host.Outcome State Fault Refusal :=
  .next (if s.aonUp && s.epochDue then s.passEpoch else s)

/-- FLASH_PROGRAM_DONE, R496. -/
def execFlashProgramDone (ok : Bool) (s : State) : Host.Outcome State Fault Refusal := .next (if s.up then s.flashDone ok else s)

/-! ## Anti-rollback, R500 -/

/-- ROLLBACK_BIT_BLOWN, R500: the counter goes up by one; the write completes when it equals its value. -/
def execRollbackBitBlown (s : State) : Host.Outcome State Fault Refusal :=
  .next (match s.sec.commit with
    | none => s
    | some (c, tid, v) =>
      if s.up then
        let s1 := s.onFlash (fun f => { f with rollback := f.rollback + 1 })
        if s.flash.rollback + 1 < v then s1 else (s1.onSec (fun x => { x with commit := none })).finishTx c tid aOk
      else s)

/-! ## Quotes, R503 -/

/-- The registers that a MASK selects, ascending. -/
def State.quotedMrs (s : State) (mask : Byte) : Bytes :=
  (((List.range 8).filter (fun i => mask.getLsbD i)).map s.boot.mrOf).flatten

/-- A quote without its signature. -/
def State.quoteBody (s : State) (j : QuoteJob) : Bytes :=
  let slot := match s.boot.slot with | none => 0xFF | some false => 0 | some true => 1
  leBytes 4 0x5A515554 ++ leBytes 2 1 ++ [j.mask] ++ leBytes 1 slot ++ leBytes 8 s.ident.toNat ++ fitBytes 32 j.nonce
    ++ leBytes 8 s.now ++ leBytes 4 s.flash.act.bootCount.toNat ++ leBytes 1 s.flash.rollback ++ [s.sec.dbgState]
    ++ leBytes 1 s.dict.state.code ++ [0] ++ leBytes 8 s.boot.build.toNat ++ leBytes 8 0 ++ s.quotedMrs j.mask

/-- A quote with its signature, a value that depends on the engine's random number. -/
def State.quote (s : State) (j : QuoteJob) : Bytes := s.quoteBody j ++ fitBytes 64 (Config.sm2Sign s.fresh (s.quoteBody j))

/-- QUOTE_SIGNED, R503: the oldest request's quote becomes its origin's QUOTE, and the request is answered. -/
def execQuoteSigned (s : State) : Host.Outcome State Fault Refusal :=
  .next (match s.sec.quoteQueue with
    | [] => s
    | j :: rest =>
      if s.up then
        ((s.onSec (fun x => { x with quoteQueue := rest, quotes := sput x.quotes j.client.origin.quoteSub (s.quote j) })).fresh1).finishTx
          j.client j.tid aOk
      else s)

/-! ## Debug, R504 -/

/-- The nonce in force is older than 60 s. -/
def State.nonceOld (s : State) : Bool :=
  match s.sec.nonce with
  | some (_, t) => decide (t + 60000000000 < s.now)
  | none => false

/-- DBG_NONCE_EXPIRY, R504. -/
def execDbgNonceExpiry (s : State) : Host.Outcome State Fault Refusal :=
  .next (if s.up && s.nonceOld then s.onSec (fun x => { x with nonce := none }) else s)

/-! ## The verification ring, R506 -/

/-- A field of the SEC_RING record. -/
def State.secRing (s : State) (off n : Nat) : Nat := s.cfgField 0x950001 off n

/-- RESULT of a job: 3 a field out of range, 2 a key not on the curve, 1 invalid, 0 valid. -/
def secResult (job : Bytes) : Nat :=
  let pub := slice job 16 64
  let sig := slice job 112 64
  let x := beNat (slice pub 0 32)
  let y := beNat (slice pub 32 32)
  let r := beNat (slice sig 0 32)
  let t := beNat (slice sig 32 32)
  if r = 0 ∨ sm2n ≤ r ∨ t = 0 ∨ sm2n ≤ t ∨ sm2p ≤ x ∨ sm2p ≤ y then 3
  else if y * y % sm2p ≠ (x * x * x + sm2a * x + sm2b) % sm2p then 2
  else if sm2CheckDigest pub sig (slice job 80 32) then 0
  else 1

/-- The 16 bytes of a result. -/
def secResultBytes (job : Bytes) : Bytes :=
  slice job 0 4 ++ leBytes 1 (secResult job) ++ leBytes 3 0 ++ slice job 8 8

/-! ## The TAP, R547; log 80 -/

/-- IDCODE: version 0x1, part 0x0880, manufacturer field 0x2D1. -/
def tapIdcode : Word := 0x108805A3

/-- An instruction that the TAP offers: BYPASS and IDCODE always, boundary scan and each debug scope while its bit of DBG_STATE is open, R504. -/
def State.tapOffers (s : State) : TapInstr → Bool
  | .bypass => true
  | .idcode => true
  | .boundaryScan => s.sec.dbgState.getLsbD 3
  | .debugApp => s.sec.dbgState.getLsbD 0
  | .debugDevice => s.sec.dbgState.getLsbD 1
  | .debugIsland => s.sec.dbgState.getLsbD 2

/-- The TAP takes an instruction; one that it does not offer selects BYPASS. -/
def State.tapSelect (s : State) (i : TapInstr) : State := s.onSec (fun x => { x with tap := if s.tapOffers i then i else .bypass })

/-- What the TAP's data register gives where R547 says it: the 32 bits of IDCODE, and the single 0 of BYPASS. -/
def State.tapData (s : State) : Option (List Bool) :=
  match s.sec.tap with
  | .idcode => some ((List.range 32).map (fun i => tapIdcode.getLsbD i))
  | .bypass => some [false]
  | _ => none

/-- SEC_JOB_LAND, R506: a job of 192 bytes lands; one that was taken before is not taken again. -/
def execSecJobLand (job : Bytes) (s : State) : Host.Outcome State Fault Refusal :=
  .next (if s.up && job.length == 192 then
    s.onSec (fun x =>
      if serialAfter x.jobNext (jobSeq job) || x.landed.any (fun j => jobSeq j == jobSeq job) then x
      else { x with landed := x.landed ++ [job] })
  else s)

/-- The job that the engine takes next, R22. -/
def Security.nextJob (x : Security) : Option Bytes := x.landed.find? (fun j => jobSeq j == x.jobNext)

/-- A job's result is written at its number's place in the result ring. -/
def State.writeResult (s : State) (job : Bytes) : State :=
  (s.engineWrite 4 srcSec (s.secRing 8 8 + (jobSeq job).toNat % max 1 (s.secRing 24 2) * 16) (secResultBytes job)).1

/-- SEC_JOB_COMPLETE, R506: the result, its counts, and the MSI when no further job waits or after 64 results. -/
def execSecJobComplete (s : State) : Host.Outcome State Fault Refusal :=
  .next (match s.sec.nextJob with
    | none => s
    | some j =>
      if s.up then
        let s1 := (s.writeResult j).onSec (fun x =>
          { x with jobNext := x.jobNext + 1, landed := x.landed.filter (fun k => jobSeq k != jobSeq j), verifies := x.verifies + 1
                   invalid := if secResult j = 0 then x.invalid else x.invalid + 1, sinceMsi := x.sinceMsi + 1 })
        if s1.sec.nextJob.isNone || decide (64 ≤ s1.sec.sinceMsi) then
          (s1.emit (.msi (s.secRing 16 8) (s.secRing 26 2))).onSec (fun x => { x with sinceMsi := 0 })
        else s1
      else s)

end Sys2Proof.Machine
end

