-- ==== Sys2Proof/Machine/Spring.lean ====
section
/-! DEFINITION. The events of the Spring: CSI-2 and Ethernet packets, the payload decoders, batches (R200 to R234). -/

namespace Sys2Proof.Machine

/-! ## Cameras -/

/-- A CSI-2 packet that matches no descriptor, R203. -/
def State.unmatchedPacket (s : State) (door : Nat) : State := s.onSpring (fun x => { x with unmatched := sinc x.unmatched door })

/-- The stream and number that a header violation of a virtual channel concerns: its open sample, where there is one, R231. -/
def State.cameraConcerned (s : State) (door vc : Nat) : Option Nat × Nat :=
  match (s.cameraStreams door vc).filterMap (fun n => (s.openCamera n).map (fun x => (n, x.seq.toNat))) with
  | e :: _ => (some e.1, e.2)
  | [] => ((s.cameraStreams door vc).head?, 0)

/-- The packet header check of a packet, R231: one corrected bit is a class 1 report of the door and a violation. -/
def State.eccNote (s : State) (door vc : Nat) (ecc : EccResult) : State :=
  if ecc = .corrected then
    (s.raise (0xA0 + door) 15 0 1 door).springViolation (0, door, vc) door (s.cameraConcerned door vc).1 (s.cameraConcerned door vc).2
  else s

/-- A packet whose header cannot be corrected is dropped, and the open samples of its virtual channel are corrupt. -/
def State.eccDrop (s : State) (door vc : Nat) : State :=
  (s.cameraStreams door vc).foldl (fun t n => match t.openCamera n with
    | some x => t.failCamera x 1
    | none => t) (s.springViolation (0, door, vc) door (s.cameraConcerned door vc).1 (s.cameraConcerned door vc).2)

/-- The capture stamp of a camera sample, R205; its FSYNC edge is the internal instant of R39. -/
def State.cameraCapture (s : State) (n : Nat) : Nat :=
  if s.streamField n 0x1A 1 = 1 then
    ((s.tb.fsyncEdge.getD (s.streamField n 0x31 1) 0 : Nat) + signed 32 (s.streamField n 0x24 4)).toNat
  else s.now

/-- A sample of stream n opens at a frame start; one that is still open is closed as corrupt, R207 and R231. -/
def State.startCamera (s : State) (door vc n : Nat) : State :=
  let s0 := match s.openCamera n with
    | none => s
    | some x => (s.cameraViolation door vc n (some 2)).completeSample n x.seq
  if s.captureCounts (s.cameraCapture n) then
    (s0.onStream n (fun r => { r with dropLines := false })).openSample
      { stream := BitVec.ofNat 7 n, seq := 0, capture := s.cameraCapture n, openedAt := s.now, settled := true }
  else s0.onStream n (fun r => { r with dropLines := true })

/-- CSI2_FRAME_START, R205 and R207. -/
def execCsi2FrameStart (door : BitVec 3) (vc : BitVec 4) (ecc : EccResult) (s : State) : Host.Outcome State Fault Refusal :=
  .next (if s.up then
    let ns := s.cameraStreams door.toNat vc.toNat
    if ns.isEmpty then s.unmatchedPacket door.toNat
    else if ecc = .bad then s.eccDrop door.toNat vc.toNat
    else (ns.foldl (fun t n => t.startCamera door.toNat vc.toNat n) (s.eccNote door.toNat vc.toNat ecc)).pruneSamples
  else s)

/-- A line of stream n passes the checks of R231 and is converted and released, R213 and R215; one whose payload CRC failed is kept and
its sample fails from the next line on, log 54. -/
def State.cameraLine (s : State) (door vc n dt wc : Nat) (pixels : List (List Nat)) (crcOk comparable : Bool) : State :=
  match s.openCamera n with
  | none => if (s.streamRt n).dropLines then s else s.cameraViolation door vc n none
  | some x =>
    let passed := fun (t : State) => t.onSample n x.seq (fun y => { y with lines := y.lines + 1 })
    if !comparable then s.cameraViolation door vc n (some 8)
    else if 8 * wc ≠ s.streamField n 0x1C 2 * pixelBits dt then s.cameraViolation door vc n (some 2)
    else if s.streamHeight n ≤ x.lines then s.cameraViolation door vc n (some 2)
    else
      let c := convertLine (s.streamProfile n) dt pixels
      let kept :=
        if x.reason ≠ 0 then passed s
        else passed ((s.streamCount n 14 c.2).releaseLine x x.lines (fitBytes (s.streamField n 0x1C 2 * s.pixelBytes n) c.1))
      if crcOk then kept else kept.cameraViolation door vc n (some 1)

/-- CSI2_LINE, R203, R215 and R231. -/
def execCsi2Line (door : BitVec 3) (vc : BitVec 4) (dt : BitVec 6) (wc : Nat) (pixels : List (List Nat)) (crcOk comparable : Bool)
    (ecc : EccResult) (s : State) : Host.Outcome State Fault Refusal :=
  .next (if s.up then
    match s.cameraStream door.toNat vc.toNat dt.toNat with
    | none => s.unmatchedPacket door.toNat
    | some n =>
      if ecc = .bad then s.cameraViolation door.toNat vc.toNat n (some 1)
      else (s.eccNote door.toNat vc.toNat ecc).cameraLine door.toNat vc.toNat n dt.toNat wc pixels crcOk comparable
  else s)

/-- The frame of stream n ends: a sample short of lines is corrupt, R211. -/
def State.endCamera (s : State) (n : Nat) : State :=
  match s.openCamera n with
  | none => s.onStream n (fun r => { r with dropLines := false })
  | some x => (if x.lines < s.streamHeight n then s.failCamera x 2 else s).completeSample n x.seq

/-- CSI2_FRAME_END, R201 and R211. -/
def execCsi2FrameEnd (door : BitVec 3) (vc : BitVec 4) (ecc : EccResult) (s : State) : Host.Outcome State Fault Refusal :=
  .next (if s.up then
    let ns := s.cameraStreams door.toNat vc.toNat
    if ns.isEmpty then s.unmatchedPacket door.toNat
    else if ecc = .bad then s.eccDrop door.toNat vc.toNat
    else (ns.foldl State.endCamera (s.eccNote door.toNat vc.toNat ecc)).pruneSamples
  else s)

/-! ## UDP sensors -/

/-- The origin of an Ethernet frame, R231. -/
def ethOrigin (f : EthFrame) : Nat × Nat × Nat := if f.isIp then (1, 0, f.srcIp) else (2, 0, f.srcMac)

/-- Stream n is a UDP sensor on the frame's door, VLAN and source address, R201. -/
def State.ethHost (s : State) (f : EthFrame) (n : Nat) : Bool :=
  s.streamKind n == 2 && s.streamField n 1 1 == 8 + f.door.val && s.streamField n 4 2 == f.vlan.toNat && f.isIp
    && beNat (slice (s.entry (0x410000 + 256 * n)) 8 16) == f.srcIp

/-- Stream n matches the frame, R201. -/
def State.ethMatch (s : State) (f : EthFrame) (n : Nat) : Bool :=
  s.ethHost f n && s.streamField n 6 2 == f.udpDst.toNat && (s.streamField n 0x18 2 == 0 || s.streamField n 0x18 2 == f.udpSrc.toNat)

/-- The stream of a frame. A frame whose IP header or fragmentation hides its ports is taken by its source. DESIGN CHOICE, log
43. -/
def State.ethStream (s : State) (f : EthFrame) : Option Nat :=
  (List.range 128).find? (if f.ipOk && !f.fragment then s.ethMatch f else s.ethHost f)

/-- The length of the header that a datagram of stream n carries before its part of the payload: up to the end of its last
header field. DESIGN CHOICE, log 43. -/
def State.segmentHead (s : State) (n : Nat) : Nat :=
  max (max (s.streamField n 0x2A 2 + 4) (s.streamField n 0x2C 2 + 2))
    (max (s.streamField n 0x2E 2 + 2) (if s.streamField n 0x1A 1 = 3 then s.streamField n 0x28 2 + 8 else 0))

/-- A sample from before RUN_FRAME0 is discarded, R207: it has no number, and the samples of its stream that arrived after it are
numbered without it. -/
def State.unnumber (s : State) (n : Nat) (seq : Word) : State :=
  let down : Word → Word := fun k => if serialAfter k seq then k - 1 else k
  (s.onSpring (fun x =>
    { x with
      samples := (x.samples.filter (fun y => !(y.stream.toNat == n && y.seq == seq))).map (fun y =>
        if y.stream.toNat = n then { y with seq := down y.seq } else y)
      decoders := x.decoders.map (Option.map (fun d => if d.stream.toNat = n then { d with seq := down d.seq } else d))
      batches := x.batches.map (fun e =>
        (e.1, { e.2 with slots := e.2.slots.map (fun y => if y.1 = n then (y.1, y.2.1, down y.2.2.1, y.2.2.2) else y) })) })).onStream n
    (fun r => { r with next := r.next - 1, counters := supd 0 r.counters 0 (· - 1) })

/-- The capture stamp that segment 0 gives, R205. -/
def State.segmentCapture (s : State) (n : Nat) (p : Bytes) : Nat :=
  if s.streamField n 0x1A 1 = 3 then beNat (slice p (s.streamField n 0x28 2) 8) / 2 * 2 else s.now

/-- Segment 0 gives the capture stamp, R205 and R206; a sample from before RUN_FRAME0 is discarded. -/
def State.stampSegment (s : State) (n : Nat) (seq : Word) (p : Bytes) : State :=
  let cap := s.segmentCapture n p
  if !s.captureCounts cap then
    (s.unnumber n seq).onStream n (fun r => { r with dropped := (((s.sampleOf n seq).map (·.sid)).toList ++ r.dropped).take 16 })
  else s.onSample n seq (fun y =>
    { y with capture := cap, reason := if s.now < cap ∧ y.reason = 0 then 7 else y.reason, settled := y.settled || decide (s.now < cap) })

/-- Segment i of a sample arrives, R204; the last one completes it. -/
def State.landSegment (s : State) (n : Nat) (seq : Word) (i : Nat) (p : Bytes) : State :=
  let s1 := s.onSample n seq (fun y => { y with segs := sput y.segs i (p.drop (s.segmentHead n)) })
  let s2 := if i = 0 then s1.stampSegment n seq p else s1
  match s2.sampleOf n seq with
  | none => s2
  | some y => if y.segs.length = y.count ∧ !y.complete then s2.payloadComplete n seq ((y.segs.map (·.2)).flatten) else s2

/-- A datagram of stream n, R204 and R231. -/
def State.udpSegment (s : State) (n : Nat) (f : EthFrame) : State :=
  let p := f.payload
  let door := 8 + f.door.val
  let sid : Word := BitVec.ofNat 32 (beNat (slice p (s.streamField n 0x2A 2) 4))
  let i := beNat (slice p (s.streamField n 0x2C 2) 2)
  let cnt := beNat (slice p (s.streamField n 0x2E 2) 2)
  let held := s.spring.samples.find? (fun y => y.stream.toNat == n && y.sid == sid)
  if p.length < s.segmentHead n then s.springViolation (ethOrigin f) door (some n) 0
  else match held with
  | some y =>
    if cnt ≤ i ∨ cnt ≠ y.count then
      (s.springViolation (ethOrigin f) door (some n) y.seq.toNat).onSample n y.seq (fun z =>
        if z.complete ∨ z.reason ≠ 0 then z else { z with reason := 2, settled := true })
    else if (sfind y.segs i).isSome then (s.springViolation (ethOrigin f) door (some n) y.seq.toNat).streamCount n 11 1
    else s.landSegment n y.seq i p
  | none =>
    if !s.inRun || ((s.streamRt n).dropped.contains sid && !(i == 0 && s.captureCounts (s.segmentCapture n p))) then s
    else
      let bad := decide (cnt ≤ i)
      let s0 := s.onStream n (fun r => { r with dropped := r.dropped.filter (· != sid) })
      let s1 := s0.openSample
        { stream := BitVec.ofNat 7 n, seq := 0, capture := 0, openedAt := s.now, sid := sid, count := cnt
          reason := if bad then 2 else 0, settled := bad }
      let seq := (s.streamRt n).next
      if bad then s1.springViolation (ethOrigin f) door (some n) seq.toNat else s1.landSegment n seq i p

/-- ETH_FRAME_RECEIVE, R203, R204, R231 and R232. -/
def execEthFrameReceive (f : EthFrame) (s : State) : Host.Outcome State Fault Refusal :=
  .next (if s.up then
    let key := ethOrigin f
    let door := 8 + f.door.val
    let n := s.ethStream f
    let v := violOf key s.spring.viols
    if v.throttledSince.isSome && decide (s.cfg 0x400003 ≤ v.admitted) then
      let s1 := s.onSpring (fun x => { x with viols := violRequest key false x.viols })
      match n with
      | some k => s1.streamCount k 13 1
      | none => s1
    else
      let s1 := s.onSpring (fun x => { x with viols := violRequest key true x.viols })
      if !f.fcsOk || decide (f.bytes < 64) || decide (9022 < f.bytes) then s1.springViolation key door n 0
      else match n with
        | none => s1.emit (.toNetwork f.door.val f.payload)
        | some k => if !f.ipOk || f.fragment || !f.udpOk then s1.springViolation key door (some k) 0 else s1.udpSegment k f
  else s)

/-! ## Payload decoders -/

/-- A closed batch has kept the sample at its close, R218. -/
def State.keptByBatch (s : State) (y : Sample) : Bool :=
  s.spring.batches.any (fun e => e.2.slots.any (fun x => x.1 == y.stream.toNat && x.2.1 == 0 && x.2.2.1 == y.seq))

/-- Samples that are stale when their decode would begin are skipped, R218, but for those that a closed batch has kept. -/
def State.skipStale (s : State) : State :=
  (s.decodable.filter (fun y => s.staleAt y.stream.toNat y.capture s.now && !s.keptByBatch y)).foldl
    (fun t y => t.onSample y.stream.toNat y.seq (fun z => { z with reason := 4, settled := true })) s

/-- DECODE_START, R218 and R220: an idle decoder takes the first complete sample. -/
def execDecodeStart (dec : BitVec 1) (s : State) : Host.Outcome State Fault Refusal :=
  .next (if s.up && (s.spring.decoders.getD dec.toNat none).isNone then
    let s1 := s.skipStale
    match firstSample s1.decodable with
    | none => s1
    | some y => s1.onSpring (fun x =>
        { x with decoders := setAt x.decoders dec.toNat (some ⟨y.stream, y.seq, s.now, s.decodeBudget y.stream.toNat⟩) })
  else s)

/-- A decode has finished in time with its outcome, R219 to R222. -/
def State.finishDecode (s : State) (dec : Nat) (e : Decoder) (y : Sample) : State :=
  let n := e.stream.toNat
  let t := drcCycles y.data
  let s1 := s.freeDecoder dec
  let s2 := if e.budget - t ≤ 64 then s1.springMarginal n else s1
  let s3 := if drcReadable y.data then s2.onStream n (fun r => { r with decodes := (r.decodes ++ [t]).drop (r.decodes.length + 1 - 256) }) else s2
  (s3.onSample n e.seq (fun z => match drcDecode (s.recBytes n) y.data with
    | some d => { z with data := d, settled := true }
    | none => { z with reason := 6, settled := true })).pruneSamples

/-- DECODE_COMPLETE, R220 to R222: the decode takes one cycle of 1 ns for a code and two for an escaped one. -/
def execDecodeComplete (dec : BitVec 1) (s : State) : Host.Outcome State Fault Refusal :=
  .next (if s.up then
    match s.decoding dec.toNat with
    | none => s.freeDecoder dec.toNat
    | some (e, y) =>
      if drcCycles y.data ≤ e.budget ∧ e.start + drcCycles y.data ≤ s.now then s.finishDecode dec.toNat e y else s
  else s)

/-- DECODE_BUDGET_EXPIRY, R222: the sample is abandoned. -/
def execDecodeBudgetExpiry (dec : BitVec 1) (s : State) : Host.Outcome State Fault Refusal :=
  .next (if s.up then
    match s.decoding dec.toNat with
    | none => s.freeDecoder dec.toNat
    | some (e, y) =>
      if e.budget < drcCycles y.data ∧ expired s.now (e.start + e.budget) then
        (((s.freeDecoder dec.toNat).onSample e.stream.toNat e.seq (fun z => { z with reason := 5, settled := true })).logEvent srcSpring 0
          .decodeAbandoned [e.stream.toNat, e.seq.toNat]).pruneSamples
      else s
  else s)

/-! ## Batches -/

/-- The close instant of a live batch, R208. -/
def State.closesNow (s : State) (b : Nat) : Bool :=
  s.up && s.batchLive b && s.inFrames && s.atTickStart && s.tickAt s.now == s.batchField b 4 2 && !s.spring.stopped
    && (s.batchRt b).closedAt.isNone && (s.batchRt b).lastClose != some s.now

/-- BATCH_CLOSE, R208 to R212, R218 and R230. -/
def execBatchClose (b : BitVec 6) (s : State) : Host.Outcome State Fault Refusal :=
  .next (if s.closesNow b.toNat then
    let r := (s.forgetSamples b.toNat).closeSlots b.toNat
    r.1.onBatch b.toNat (fun x =>
      { x with closedAt := some s.now, lastClose := some s.now, frame := s.frameAt s.now % 2 ^ 32, epoch := 0, slots := r.2 })
  else s)

/-- BATCH_RECORD_WRITE, R212: every slot outcome of a closed batch is settled. -/
def execBatchRecordWrite (b : BitVec 6) (s : State) : Host.Outcome State Fault Refusal :=
  .next (if s.up && (s.batchRt b.toNat).closedAt.isSome && s.slotsSettled b.toNat then s.finishBatch b.toNat else s)

end Sys2Proof.Machine
end

