-- ==== Sys2Proof/Machine/TileProgram.lean ====
section
/-! DEFINITION. The control and sync instructions of a tile program (R67, R73, R80, R314) but SIGNAL. -/

namespace Sys2Proof.Machine

/-- A control instruction issues and changes its core. -/
def State.scalarOp (s : State) (n : BitVec 6) (i : Instr) (f : Core → Core) : State :=
  s.issue n i (fun t => t.onCore n.toNat (fun c => f c.next))

/-- Xk. -/
def Core.xreg (c : Core) (k : BitVec 4) : Word := c.x.getD k.toNat 0

/-- Xk takes a value. -/
def Core.setX (c : Core) (k : BitVec 4) (v : Word) : Core := { c with x := setAt c.x k.toNat v }

/-- NOP, R67. -/
def execNop (n : BitVec 6) (s : State) : Host.Outcome State Fault Refusal := .next (s.scalarOp n (.nop n) id)

/-- HALT, R314: it retires when everything earlier is complete. -/
def execHalt (n : BitVec 6) (s : State) : Host.Outcome State Fault Refusal :=
  .next (if (s.core n.toNat).quiet then s.issue n (.halt n) (fun t => t.haltCore n.toNat) else s)

/-- TILE_END, R80: it issues, and retires at the tile boundary. -/
def execTileEnd (n : BitVec 6) (s : State) : Host.Outcome State Fault Refusal :=
  .next (s.scalarOp n (.tileEnd n) (fun c => { c with tileEndPending := true }))

/-- JUMP, R67. -/
def execJump (n : BitVec 6) (target : BitVec 16) (s : State) : Host.Outcome State Fault Refusal :=
  .next (s.scalarOp n (.jump n target) (fun c => { c with pc := target.toNat }))

/-- LCk. -/
def Core.lcount (c : Core) (k : BitVec 2) : BitVec 16 := c.lc.getD k.toNat 0

/-- LOOP, R67: LC is decremented, and the program jumps while it is not 0. DESIGN CHOICE, log 88: an LC of 0 is decremented modulo 2^16, so that the
program jumps. -/
def execLoop (n : BitVec 6) (lc : BitVec 2) (target : BitVec 16) (s : State) : Host.Outcome State Fault Refusal :=
  .next (s.scalarOp n (.loop n lc target) (fun c =>
    let v := c.lcount lc - 1
    { c with lc := setAt c.lc lc.toNat v, pc := if v = 0 then c.pc else target.toNat }))

/-- SETLC, R67. -/
def execSetlc (n : BitVec 6) (lc : BitVec 2) (count : BitVec 16) (s : State) : Host.Outcome State Fault Refusal :=
  .next (s.scalarOp n (.setlc n lc count) (fun c => { c with lc := setAt c.lc lc.toNat count }))

/-- SETX, R67. -/
def execSetx (n : BitVec 6) (x : BitVec 4) (value : Word) (s : State) : Host.Outcome State Fault Refusal :=
  .next (s.scalarOp n (.setx n x value) (fun c => c.setX x value))

/-- ADDX, R67: modulo 2^32. -/
def execAddx (n : BitVec 6) (x : BitVec 4) (value : Word) (s : State) : Host.Outcome State Fault Refusal :=
  .next (s.scalarOp n (.addx n x value) (fun c => c.setX x (c.xreg x + value)))

/-- ADDXR, R67: XD = XA + XB. -/
def execAddxr (n : BitVec 6) (xd xa xb : BitVec 4) (s : State) : Host.Outcome State Fault Refusal :=
  .next (s.scalarOp n (.addxr n xd xa xb) (fun c => c.setX xd (c.xreg xa + c.xreg xb)))

/-- MULXI, R67: XD = XS x value. -/
def execMulxi (n : BitVec 6) (xd xs : BitVec 4) (value : Word) (s : State) : Host.Outcome State Fault Refusal :=
  .next (s.scalarOp n (.mulxi n xd xs value) (fun c => c.setX xd (c.xreg xs * value)))

/-- ILLEGAL_INSTRUCTION, R67 and R87; and a fetch outside the region, R79, or of a word that cannot be read, R360. -/
def execIllegalInstruction (n : BitVec 6) (s : State) : Host.Outcome State Fault Refusal :=
  .next (match s.fetch n.toNat with
    | .idle => s
    | .outside off => s.coreFault n.toNat ePondAddr (off / 65536)
    | .bad t a => t.consumerUe n.toNat none a
    | .word t w => if (tileDecode n w).isNone then t.coreFault n.toNat eIllegal n.toNat else s)

/-- WAIT_SEQ, R73: it issues, and its wait begins when everything earlier has retired; the PC names it until it retires. -/
def execWaitSeq (n : BitVec 6) (ctr : BitVec 4) (byReg : Bool) (x : BitVec 4) (imm : Word) (s : State) : Host.Outcome State Fault Refusal :=
  .next (s.issue n (.waitSeq n ctr byReg x imm) (fun t => t.onCore n.toNat (fun c =>
    { c with waitOn := some (ctr, if byReg then c.xreg x else imm), atTb := false })))

/-- WAIT_SEQ_RETIRE, R73 and R77: X15 takes VOIDS. A preemption that waits at the boundary comes first, R82. -/
def execWaitSeqRetire (n : BitVec 6) (s : State) : Host.Outcome State Fault Refusal :=
  .next (let c := s.core n.toNat
    match c.waitOn with
    | none => s
    | some (k, v) =>
      if s.up && c.st == CcState.waiting && c.atTb && c.preemptAt.isNone && !s.pairHeld n.toNat && waitOver (c.awaited k) v then
        s.onCore n.toNat (fun c => { (c.setX 15 (c.awaited k).voids).next with st := .running, waitOn := none })
      else s)

end Sys2Proof.Machine
end

