-- ==== Sys2Proof/Machine/Time.lean ====
section
/-! DEFINITION. Monitors, timebase, ticks and the balls that follow device time (R18, R30 to R39, R391, R509, R537, R545,
R546). -/

namespace Sys2Proof.Machine

/-- The class of an island's clock alarm, R399. -/
def clockClass (src : Nat) : Nat := if src = srcSched ∨ src = srcTb ∨ src = srcFc then 4 else 3

/-- CLOCK_MONITOR_ALARM, R18, R19, R399 and R400. -/
def execClockMonitorAlarm (u : ClockUnit) (s : State) : Host.Outcome State Fault Refusal :=
  .next (if s.aonUp then
    match u with
    | .core n => (s.ccErr n.toNat eClkMon n.toNat).withdrawGroupOf n.toNat
    | .gen g => (s.raise srcFc 9 0 3 g.toNat).withdrawGenerator g.toNat
    | .island src =>
      if unitInGroup 10 src.toNat && decide (64 ≤ src.toNat) then
        let s1 := s.raise src.toNat 10 0 (clockClass src.toNat) src.toNat
        if src = srcTb then (s1.onTb (fun t => { t with monErr := true })).raise srcTb 24 0 4 0 else s1
      else s
  else s)

/-- VOLTAGE_MONITOR_ALARM, R509: beyond 3 % a WARN of class 0, beyond 6 % OUT_OF_RANGE of class 4; in standby only the
monitors of rails 2 and 8 are active. -/
def execVoltageMonitorAlarm (rail : Fin 9) (outOfRange : Bool) (s : State) : Host.Outcome State Fault Refusal :=
  .next (if s.aonUp && (s.up || rail == 2 || rail == 8) then
    (s.onPwr (fun p => if outOfRange then { p with out := sinc p.out rail.val } else { p with warn := sinc p.warn rail.val })).raise
      srcFc 30 (if outOfRange then 1 else 0) (if outOfRange then 4 else 0) rail.val
  else s)

/-- A measurement is one of the source in force: of IEEE 802.1AS on E0 or E1, or of PPS_IN while it is claimed with function 1 and its edge may
discipline the timebase (R33, R546); with GPTP_PORT 3 there is none. -/
def State.sourceHeard (s : State) : Bool := s.tb.src != 3 && (s.tb.src != 2 || (s.claimedWith 0x25 1 && s.ppsUsed))

/-- TIMEBASE_MEASUREMENT, R31 and R32: of the source that GPTP_PORT selects, if one does. -/
def execTimebaseMeasurement (offset : Int) (s : State) : Host.Outcome State Fault Refusal :=
  .next (if s.aonUp && s.sourceHeard then s.measure offset else s)

/-- The source has been silent for 1 s while LOCKED. -/
def State.sourceSilent (s : State) : Bool :=
  s.tb.lock == .locked && (match s.tb.lastHeard with | some t => expired s.now (t + 1000000000) | none => true)

/-- SOURCE_SILENCE_TIMEOUT, R32: HOLDOVER. -/
def execSourceSilenceTimeout (s : State) : Host.Outcome State Fault Refusal :=
  .next (if s.aonUp && s.sourceSilent then (s.onTb (fun t => { t with steadySince := none })).setLock .holdover else s)

/-- The source has been heard for 10 s without a jump beyond 1 us, in HOLDOVER; a source silent for more than 1 s is not heard. -/
def State.holdoverDone (s : State) : Bool :=
  s.tb.lock == .holdover && !s.tb.silent && (match s.tb.steadySince with | some t => decide (t + 10000000000 ≤ s.now) | none => false)

/-- HOLDOVER_EXIT, R32: SLEWING. -/
def execHoldoverExit (s : State) : Host.Outcome State Fault Refusal :=
  .next (if s.aonUp && s.holdoverDone then s.setLock .slewing else s)

/-- PPS_IN_EDGE, R33 and R546: stamped and logged while claimed, and used with GPTP_PORT 2. -/
def execPpsInEdge (s : State) : Host.Outcome State Fault Refusal :=
  .next (if s.aonUp && s.claimedWith 0x25 1 then
    let s1 := (s.logEvent srcTb 0 .ppsIn [s.now]).onTb (fun t => { t with ppsSeen := true, lastPps := some t.now })
    if s.ppsUsed then s1.measure (ppsOffset s.now) else s1
  else s)

/-- PPS_OUT_EDGE, R33: at a whole second, while PPS_OUT is claimed with function 1. -/
def execPpsOutEdge (s : State) : Host.Outcome State Fault Refusal :=
  .next (if s.aonUp && s.claimedWith 0x24 1 && s.now % 1000000000 == 0 then s.onPins (fun p => { p with ppsOut := true }) else s)

/-- PPS_OUT_FALL, R545: 100 ms after the edge. -/
def execPpsOutFall (s : State) : Host.Outcome State Fault Refusal :=
  .next (if s.aonUp && s.pins.ppsOut && decide (100000000 ≤ s.now % 1000000000) then s.onPins (fun p => { p with ppsOut := false })
  else s)

/-- BUILD of the table in force. -/
def State.schedBuild (s : State) : Nat := (s.sched.table.map (·.build.toNat)).getD 0

/-- TICK_START, R37 and R391: in a frame of the run, the schedule engine sends its heartbeat and the island takes it. -/
def execTickStart (s : State) : Host.Outcome State Fault Refusal :=
  .next (if s.up && s.inFrames && s.atTickStart then
    (s.onIsl (fun i => { i with lastHeartbeat := some s.now, hbRun := 0 })).emit
      (.heartbeat (s.tickAt s.now) (s.frameAt s.now) s.schedBuild)
  else s)

/-- The internal FSYNC instant of output n: tick 0 plus its offset, R39. -/
def State.fsyncDue (s : State) (n : Nat) : Bool := s.inFrames && s.now == s.thisFrame + s.tb.fsyncOffset.getD n 0

/-- FSYNC_EDGE, R39: the internal edge, and the balls claimed for it. -/
def execFsyncEdge (n : BitVec 2) (s : State) : Host.Outcome State Fault Refusal :=
  .next (if s.up && s.fsyncDue n.toNat then
    (s.onTb (fun t => { t with fsyncEdge := setAt t.fsyncEdge n.toNat s.now })).driveFsync n.toNat true
  else s)

/-- FSYNC_PULSE_END, R39: the programmed width has passed since the edge. -/
def execFsyncPulseEnd (n : BitVec 2) (s : State) : Host.Outcome State Fault Refusal :=
  .next (if s.up && decide (s.tb.fsyncEdge.getD n.toNat 0 + s.tb.fsyncWidth.getD n.toNat 0 ≤ s.now) then s.driveFsync n.toNat false
  else s)

/-- MFIO_EDGE_CAPTURE, R537: a rising edge on a ball claimed with function 2 is stamped and logged. -/
def execMfioEdgeCapture (k : BitVec 5) (s : State) : Host.Outcome State Fault Refusal :=
  .next (if s.up && s.claimedWith k.toNat 2 then s.logEvent srcTb 0 .edgeCapture [k.toNat, s.now] else s)

/-- REFCLK_LOSS, R30: the always-on units go on from the always-on oscillator. -/
def execRefclkLoss (s : State) : Host.Outcome State Fault Refusal :=
  .next (if s.aonUp then s.onTb (fun t => { t with refclk := false }) else s)

end Sys2Proof.Machine
end

