-- ==== Sys2Proof/Machine/Dispatch.lean ====
section
/-! DEFINITION. One arm for each command of spec/opcode_table.json. -/

namespace Sys2Proof.Machine

def exec (i : Instr) (s : State) : Host.Outcome State Fault Refusal :=
  match i with
  | .porstNRise bootsel nodeId => Sys2Proof.Machine.execPorstNRise bootsel nodeId s
  | .porstNFall lowNs => Sys2Proof.Machine.execPorstNFall lowNs s
  | .warmReset => Sys2Proof.Machine.execWarmReset s
  | .slotCheckComplete readOk => Sys2Proof.Machine.execSlotCheckComplete readOk s
  | .lakeTrainingComplete ch ok => Sys2Proof.Machine.execLakeTrainingComplete ch ok s
  | .lpddrTrainingComplete failed installed => Sys2Proof.Machine.execLpddrTrainingComplete failed installed s
  | .memoryInitComplete reservoir => Sys2Proof.Machine.execMemoryInitComplete reservoir s
  | .lpInitAdvance => Sys2Proof.Machine.execLpInitAdvance s
  | .phase1SectionRead sec => Sys2Proof.Machine.execPhase1SectionRead sec s
  | .phase2SectionRead sec => Sys2Proof.Machine.execPhase2SectionRead sec s
  | .exerciseReadback high => Sys2Proof.Machine.execExerciseReadback high s
  | .exerciseLatch low ns => Sys2Proof.Machine.execExerciseLatch low ns s
  | .exerciseClear high => Sys2Proof.Machine.execExerciseClear high s
  | .clockMonitorAlarm u => Sys2Proof.Machine.execClockMonitorAlarm u s
  | .voltageMonitorAlarm rail outOfRange => Sys2Proof.Machine.execVoltageMonitorAlarm rail outOfRange s
  | .timebaseMeasurement offset => Sys2Proof.Machine.execTimebaseMeasurement offset s
  | .sourceSilenceTimeout => Sys2Proof.Machine.execSourceSilenceTimeout s
  | .holdoverExit => Sys2Proof.Machine.execHoldoverExit s
  | .ppsInEdge => Sys2Proof.Machine.execPpsInEdge s
  | .ppsOutEdge => Sys2Proof.Machine.execPpsOutEdge s
  | .gptpPort q v => Sys2Proof.Machine.execGptpPort q v s
  | .tickStart => Sys2Proof.Machine.execTickStart s
  | .heartbeatTimeout => Sys2Proof.Machine.execHeartbeatTimeout s
  | .frameStart => Sys2Proof.Machine.execFrameStart s
  | .fsyncEdge n => Sys2Proof.Machine.execFsyncEdge n s
  | .violationSecondEnd => Sys2Proof.Machine.execViolationSecondEnd s
  | .packetLand p => Sys2Proof.Machine.execPacketLand p s
  | .voidFill n => Sys2Proof.Machine.execVoidFill n s
  | .nop n => Sys2Proof.Machine.execNop n s
  | .halt n => Sys2Proof.Machine.execHalt n s
  | .tileEnd n => Sys2Proof.Machine.execTileEnd n s
  | .jump n target => Sys2Proof.Machine.execJump n target s
  | .loop n lc target => Sys2Proof.Machine.execLoop n lc target s
  | .setlc n lc count => Sys2Proof.Machine.execSetlc n lc count s
  | .setx n x value => Sys2Proof.Machine.execSetx n x value s
  | .addx n x value => Sys2Proof.Machine.execAddx n x value s
  | .addxr n xd xa xb => Sys2Proof.Machine.execAddxr n xd xa xb s
  | .mulxi n xd xs value => Sys2Proof.Machine.execMulxi n xd xs value s
  | .illegalInstruction n => Sys2Proof.Machine.execIllegalInstruction n s
  | .waitSeq n ctr byReg x imm => Sys2Proof.Machine.execWaitSeq n ctr byReg x imm s
  | .waitSeqRetire n => Sys2Proof.Machine.execWaitSeqRetire n s
  | .signal n out dctr dcore dnode => Sys2Proof.Machine.execSignal n out dctr dcore dnode s
  | .mloadw n shape fmt quad block => Sys2Proof.Machine.execMloadw n shape fmt quad block s
  | .mpass n shape fmt acc abuf quad m1 arow drain chain row => Sys2Proof.Machine.execMpass n shape fmt acc abuf quad m1 arow drain chain row s
  | .passStart n => Sys2Proof.Machine.execPassStart n s
  | .passComplete n => Sys2Proof.Machine.execPassComplete n s
  | .drainComplete n abuf parityOk => Sys2Proof.Machine.execDrainComplete n abuf parityOk s
  | .interlockRelease n => Sys2Proof.Machine.execInterlockRelease n s
  | .tmv n engine desc => Sys2Proof.Machine.execTmv n engine desc s
  | .tileMoveStart n engine => Sys2Proof.Machine.execTileMoveStart n engine s
  | .tileMoveLand n engine => Sys2Proof.Machine.execTileMoveLand n engine s
  | .vadd n vd vs1 vs2 vs3 imm => Sys2Proof.Machine.execVadd n vd vs1 vs2 vs3 imm s
  | .vsub n vd vs1 vs2 vs3 imm => Sys2Proof.Machine.execVsub n vd vs1 vs2 vs3 imm s
  | .vmul n vd vs1 vs2 vs3 imm => Sys2Proof.Machine.execVmul n vd vs1 vs2 vs3 imm s
  | .vfma n vd vs1 vs2 vs3 imm => Sys2Proof.Machine.execVfma n vd vs1 vs2 vs3 imm s
  | .vmin n vd vs1 vs2 vs3 imm => Sys2Proof.Machine.execVmin n vd vs1 vs2 vs3 imm s
  | .vmax n vd vs1 vs2 vs3 imm => Sys2Proof.Machine.execVmax n vd vs1 vs2 vs3 imm s
  | .vcmp n vd vs1 vs2 vs3 imm => Sys2Proof.Machine.execVcmp n vd vs1 vs2 vs3 imm s
  | .vsel n vd vs1 vs2 vs3 imm => Sys2Proof.Machine.execVsel n vd vs1 vs2 vs3 imm s
  | .vcvt n vd vs1 vs2 vs3 imm => Sys2Proof.Machine.execVcvt n vd vs1 vs2 vs3 imm s
  | .viadd n vd vs1 vs2 vs3 imm => Sys2Proof.Machine.execViadd n vd vs1 vs2 vs3 imm s
  | .vimul n vd vs1 vs2 vs3 imm => Sys2Proof.Machine.execVimul n vd vs1 vs2 vs3 imm s
  | .vand n vd vs1 vs2 vs3 imm => Sys2Proof.Machine.execVand n vd vs1 vs2 vs3 imm s
  | .vor n vd vs1 vs2 vs3 imm => Sys2Proof.Machine.execVor n vd vs1 vs2 vs3 imm s
  | .vshift n vd vs1 vs2 vs3 imm => Sys2Proof.Machine.execVshift n vd vs1 vs2 vs3 imm s
  | .vld n vd granule => Sys2Proof.Machine.execVld n vd granule s
  | .vst n vs1 granule => Sys2Proof.Machine.execVst n vs1 granule s
  | .vred n vd vs1 vs2 vs3 imm => Sys2Proof.Machine.execVred n vd vs1 vs2 vs3 imm s
  | .vbcast n vd vs1 vs2 vs3 imm => Sys2Proof.Machine.execVbcast n vd vs1 vs2 vs3 imm s
  | .vsfu n vd vs1 vs2 vs3 imm => Sys2Proof.Machine.execVsfu n vd vs1 vs2 vs3 imm s
  | .tileBoundaryReached n => Sys2Proof.Machine.execTileBoundaryReached n s
  | .tileOverrun n => Sys2Proof.Machine.execTileOverrun n s
  | .start by_ n ctl => Sys2Proof.Machine.execStart by_ n ctl s
  | .resume by_ n ctl => Sys2Proof.Machine.execResume by_ n ctl s
  | .preempt by_ n ctl => Sys2Proof.Machine.execPreempt by_ n ctl s
  | .teardown by_ n ctl => Sys2Proof.Machine.execTeardown by_ n ctl s
  | .golden by_ n ctl => Sys2Proof.Machine.execGolden by_ n ctl s
  | .reset by_ n ctl => Sys2Proof.Machine.execReset by_ n ctl s
  | .ccGroupWrite by_ n v => Sys2Proof.Machine.execCcGroupWrite by_ n v s
  | .groupChangeApply n => Sys2Proof.Machine.execGroupChangeApply n s
  | .groupPortDecide g c0 c1 c2 => Sys2Proof.Machine.execGroupPortDecide g c0 c1 c2 s
  | .resyncCopyStart g => Sys2Proof.Machine.execResyncCopyStart g s
  | .resyncCopyLanded g => Sys2Proof.Machine.execResyncCopyLanded g s
  | .resyncStateSend g => Sys2Proof.Machine.execResyncStateSend g s
  | .resyncRestart g => Sys2Proof.Machine.execResyncRestart g s
  | .release e => Sys2Proof.Machine.execRelease e s
  | .continueEntry e => Sys2Proof.Machine.execContinueEntry e s
  | .poolEntry e => Sys2Proof.Machine.execPoolEntry e s
  | .radioEntry e => Sys2Proof.Machine.execRadioEntry e s
  | .occupantPreempt n => Sys2Proof.Machine.execOccupantPreempt n s
  | .entryEnd e => Sys2Proof.Machine.execEntryEnd e s
  | .slackResume n => Sys2Proof.Machine.execSlackResume n s
  | .heldReleaseStart e => Sys2Proof.Machine.execHeldReleaseStart e s
  | .goldenDrain slot => Sys2Proof.Machine.execGoldenDrain slot s
  | .goldenSlotStart slot => Sys2Proof.Machine.execGoldenSlotStart slot s
  | .goldenTestEnd n sig => Sys2Proof.Machine.execGoldenTestEnd n sig s
  | .goldenCheck slot => Sys2Proof.Machine.execGoldenCheck slot s
  | .segmentStart n => Sys2Proof.Machine.execSegmentStart n s
  | .segmentEnd n sig => Sys2Proof.Machine.execSegmentEnd n sig s
  | .deadlineCheck d => Sys2Proof.Machine.execDeadlineCheck d s
  | .remapStart n => Sys2Proof.Machine.execRemapStart n s
  | .remapComplete n bad => Sys2Proof.Machine.execRemapComplete n bad s
  | .remapTimeout n => Sys2Proof.Machine.execRemapTimeout n s
  | .submit part slot => Sys2Proof.Machine.execSubmit part slot s
  | .cmdNop part seq => Sys2Proof.Machine.execCmdNop part seq s
  | .runJob part seq => Sys2Proof.Machine.execRunJob part seq s
  | .open_ part seq => Sys2Proof.Machine.execOpen part seq s
  | .fork part seq => Sys2Proof.Machine.execFork part seq s
  | .leave part seq => Sys2Proof.Machine.execLeave part seq s
  | .block part seq => Sys2Proof.Machine.execBlock part seq s
  | .unblock part seq => Sys2Proof.Machine.execUnblock part seq s
  | .cmdTeardown part seq => Sys2Proof.Machine.execCmdTeardown part seq s
  | .modelLoad part seq => Sys2Proof.Machine.execModelLoad part seq s
  | .modelLoadComplete => Sys2Proof.Machine.execModelLoadComplete s
  | .modelPin part seq => Sys2Proof.Machine.execModelPin part seq s
  | .splitPair part seq => Sys2Proof.Machine.execSplitPair part seq s
  | .reformPair part seq => Sys2Proof.Machine.execReformPair part seq s
  | .ctxQuery part seq => Sys2Proof.Machine.execCtxQuery part seq s
  | .cqFaultClear part => Sys2Proof.Machine.execCqFaultClear part s
  | .stepBoundary part model appends report => Sys2Proof.Machine.execStepBoundary part model appends report s
  | .swapOutComplete ctx => Sys2Proof.Machine.execSwapOutComplete ctx s
  | .swapInComplete ctx => Sys2Proof.Machine.execSwapInComplete ctx s
  | .stepDecisionReceive model d => Sys2Proof.Machine.execStepDecisionReceive model d s
  | .stepDecisionTimeout part model => Sys2Proof.Machine.execStepDecisionTimeout part model s
  | .csi2FrameStart door vc ecc => Sys2Proof.Machine.execCsi2FrameStart door vc ecc s
  | .csi2Line door vc dt wc pixels crcOk comparable ecc => Sys2Proof.Machine.execCsi2Line door vc dt wc pixels crcOk comparable ecc s
  | .csi2FrameEnd door vc ecc => Sys2Proof.Machine.execCsi2FrameEnd door vc ecc s
  | .ethFrameReceive f => Sys2Proof.Machine.execEthFrameReceive f s
  | .decodeStart dec => Sys2Proof.Machine.execDecodeStart dec s
  | .decodeComplete dec => Sys2Proof.Machine.execDecodeComplete dec s
  | .decodeBudgetExpiry dec => Sys2Proof.Machine.execDecodeBudgetExpiry dec s
  | .batchClose b => Sys2Proof.Machine.execBatchClose b s
  | .batchRecordWrite b => Sys2Proof.Machine.execBatchRecordWrite b s
  | .batchNext q b k => Sys2Proof.Machine.execBatchNext q b k s
  | .carrierOn q v => Sys2Proof.Machine.execCarrierOn q v s
  | .jesdAlign door => Sys2Proof.Machine.execJesdAlign door s
  | .sysrefEdge door displaced => Sys2Proof.Machine.execSysrefEdge door displaced s
  | .jesdLinkError door crc12 => Sys2Proof.Machine.execJesdLinkError door crc12 s
  | .jesdAlignmentLoss door elastic => Sys2Proof.Machine.execJesdAlignmentLoss door elastic s
  | .slotBoundary c samples => Sys2Proof.Machine.execSlotBoundary c samples s
  | .agcWindowEnd c power => Sys2Proof.Machine.execAgcWindowEnd c power s
  | .agcSettleEnd c => Sys2Proof.Machine.execAgcSettleEnd c s
  | .agcSymbolEnd c => Sys2Proof.Machine.execAgcSymbolEnd c s
  | .syncDetection c chip ant0 ant1 power => Sys2Proof.Machine.execSyncDetection c chip ant0 ant1 power s
  | .gridSymbol c symbol samples => Sys2Proof.Machine.execGridSymbol c symbol samples s
  | .rfTxListStart door => Sys2Proof.Machine.execRfTxListStart door s
  | .rfSpiXfer q door v => Sys2Proof.Machine.execRfSpiXfer q door v s
  | .decoderJobLand engine job => Sys2Proof.Machine.execDecoderJobLand engine job s
  | .decoderJobStart engine => Sys2Proof.Machine.execDecoderJobStart engine s
  | .decoderJobComplete engine => Sys2Proof.Machine.execDecoderJobComplete engine s
  | .decoderDeadline engine jobSeq => Sys2Proof.Machine.execDecoderDeadline engine jobSeq s
  | .decoderShareStop engine => Sys2Proof.Machine.execDecoderShareStop engine s
  | .harqBufferExpiry c slot subch => Sys2Proof.Machine.execHarqBufferExpiry c slot subch s
  | .psfchOccasion c => Sys2Proof.Machine.execPsfchOccasion c s
  | .txDescriptorLand c desc => Sys2Proof.Machine.execTxDescriptorLand c desc s
  | .rxSubmit q c crc => Sys2Proof.Machine.execRxSubmit q c crc s
  | .validationComplete c mustPass candidate active => Sys2Proof.Machine.execValidationComplete c mustPass candidate active s
  | .rxRevert q c v => Sys2Proof.Machine.execRxRevert q c v s
  | .memoryAccess a => Sys2Proof.Machine.execMemoryAccess a s
  | .pageIdleClose ch bank => Sys2Proof.Machine.execPageIdleClose ch bank s
  | .refreshDue ch bank queued => Sys2Proof.Machine.execRefreshDue ch bank queued s
  | .lakeAlert ch => Sys2Proof.Machine.execLakeAlert ch s
  | .scrubRead tier addr upset newer => Sys2Proof.Machine.execScrubRead tier addr upset newer s
  | .retirementCopyComplete ch => Sys2Proof.Machine.execRetirementCopyComplete ch s
  | .faultReport r => Sys2Proof.Machine.execFaultReport r s
  | .attributionTimeout => Sys2Proof.Machine.execAttributionTimeout s
  | .altPulseEnd => Sys2Proof.Machine.execAltPulseEnd s
  | .fcClear by_ slot seq => Sys2Proof.Machine.execFcClear by_ slot seq s
  | .fcInject by_ v => Sys2Proof.Machine.execFcInject by_ v s
  | .fcAltSw by_ level => Sys2Proof.Machine.execFcAltSw by_ level s
  | .overflowClear by_ => Sys2Proof.Machine.execOverflowClear by_ s
  | .islandTmrDeviate k => Sys2Proof.Machine.execIslandTmrDeviate k s
  | .islandReloadComplete => Sys2Proof.Machine.execIslandReloadComplete s
  | .wdKick q pair v => Sys2Proof.Machine.execWdKick q pair v s
  | .watchdogExpiry pair => Sys2Proof.Machine.execWatchdogExpiry pair s
  | .linkTrainComplete door ok => Sys2Proof.Machine.execLinkTrainComplete door ok s
  | .flitData door f => Sys2Proof.Machine.execFlitData door f s
  | .flitNak door ack => Sys2Proof.Machine.execFlitNak door ack s
  | .flitIdle door f => Sys2Proof.Machine.execFlitIdle door f s
  | .fabRetryTimeout door => Sys2Proof.Machine.execFabRetryTimeout door s
  | .linkSilenceTimeout door => Sys2Proof.Machine.execLinkSilenceTimeout door s
  | .quarantineExpiry door => Sys2Proof.Machine.execQuarantineExpiry door s
  | .quarantineTestEnd door failed => Sys2Proof.Machine.execQuarantineTestEnd door failed s
  | .fabWrite door t => Sys2Proof.Machine.execFabWrite door t s
  | .fabRead door t => Sys2Proof.Machine.execFabRead door t s
  | .readResp door t => Sys2Proof.Machine.execReadResp door t s
  | .fabSignal door t => Sys2Proof.Machine.execFabSignal door t s
  | .fabError door t => Sys2Proof.Machine.execFabError door t s
  | .e2eAck node vc num => Sys2Proof.Machine.execE2eAck node vc num s
  | .e2eAckTimer => Sys2Proof.Machine.execE2eAckTimer s
  | .hello door h => Sys2Proof.Machine.execHello door h s
  | .linkState door r => Sys2Proof.Machine.execLinkState door r s
  | .discoveryEnd => Sys2Proof.Machine.execDiscoveryEnd s
  | .fabJoinTimeout => Sys2Proof.Machine.execFabJoinTimeout s
  | .read q => Sys2Proof.Machine.execRead q s
  | .write q v => Sys2Proof.Machine.execWrite q v s
  | .openRead q start => Sys2Proof.Machine.execOpenRead q start s
  | .openWrite q length => Sys2Proof.Machine.execOpenWrite q length s
  | .seg q num v => Sys2Proof.Machine.execSeg q num v s
  | .end_ q crc => Sys2Proof.Machine.execEnd q crc s
  | .describe q => Sys2Proof.Machine.execDescribe q s
  | .abort q => Sys2Proof.Machine.execAbort q s
  | .response q => Sys2Proof.Machine.execResponse q s
  | .dwWordAccess slot write => Sys2Proof.Machine.execDwWordAccess slot write s
  | .kdpTransferExpiry c tid => Sys2Proof.Machine.execKdpTransferExpiry c tid s
  | .kdpPeerTimeout node => Sys2Proof.Machine.execKdpPeerTimeout node s
  | .kdpDupExpiry c tid => Sys2Proof.Machine.execKdpDupExpiry c tid s
  | .stateReq q v => Sys2Proof.Machine.execStateReq q v s
  | .runTransitionComplete => Sys2Proof.Machine.execRunTransitionComplete s
  | .claim q v => Sys2Proof.Machine.execClaim q v s
  | .timerWrite q n v => Sys2Proof.Machine.execTimerWrite q n v s
  | .timerFire n => Sys2Proof.Machine.execTimerFire n s
  | .timerPulseEnd n => Sys2Proof.Machine.execTimerPulseEnd n s
  | .actEpoch q v => Sys2Proof.Machine.execActEpoch q v s
  | .epochPass => Sys2Proof.Machine.execEpochPass s
  | .rollbackCommit q v => Sys2Proof.Machine.execRollbackCommit q v s
  | .rollbackBitBlown => Sys2Proof.Machine.execRollbackBitBlown s
  | .quoteReq q v => Sys2Proof.Machine.execQuoteReq q v s
  | .quoteSigned => Sys2Proof.Machine.execQuoteSigned s
  | .mrExtend q v => Sys2Proof.Machine.execMrExtend q v s
  | .dbgChallenge q => Sys2Proof.Machine.execDbgChallenge q s
  | .dbgResponse q v => Sys2Proof.Machine.execDbgResponse q v s
  | .dbgNonceExpiry => Sys2Proof.Machine.execDbgNonceExpiry s
  | .secJobLand job => Sys2Proof.Machine.execSecJobLand job s
  | .secJobComplete => Sys2Proof.Machine.execSecJobComplete s
  | .recSlot q v => Sys2Proof.Machine.execRecSlot q v s
  | .recReboot q v => Sys2Proof.Machine.execRecReboot q v s
  | .pwrStateReq q v => Sys2Proof.Machine.execPwrStateReq q v s
  | .standbyEntry => Sys2Proof.Machine.execStandbyEntry s
  | .wakeIn byIsland => Sys2Proof.Machine.execWakeIn byIsland s
  | .wakeRelease bootsel nodeId => Sys2Proof.Machine.execWakeRelease bootsel nodeId s
  | .pwrCap q v => Sys2Proof.Machine.execPwrCap q v s
  | .capEvaluate estimate => Sys2Proof.Machine.execCapEvaluate estimate s
  | .powerCorrection current0 current1 => Sys2Proof.Machine.execPowerCorrection current0 current1 s
  | .avsBandUpdate confirmed => Sys2Proof.Machine.execAvsBandUpdate confirmed s
  | .avsTransactionFail rail => Sys2Proof.Machine.execAvsTransactionFail rail s
  | .avsRetry rail ok => Sys2Proof.Machine.execAvsRetry rail ok s
  | .thermalSample die lake => Sys2Proof.Machine.execThermalSample die lake s
  | .thermalCapStep => Sys2Proof.Machine.execThermalCapStep s
  | .mfioEdgeCapture k => Sys2Proof.Machine.execMfioEdgeCapture k s
  | .registerWrite by_ addr v => Sys2Proof.Machine.execRegisterWrite by_ addr v s
  | .errorPinRelease origin group code => Sys2Proof.Machine.execErrorPinRelease origin group code s
  | .vddAonLoss => Sys2Proof.Machine.execVddAonLoss s
  | .refclkLoss => Sys2Proof.Machine.execRefclkLoss s
  | .ppsOutFall => Sys2Proof.Machine.execPpsOutFall s
  | .fsyncPulseEnd n => Sys2Proof.Machine.execFsyncPulseEnd n s
  | .flashProgramDone ok => Sys2Proof.Machine.execFlashProgramDone ok s
  | .kdpFrameDiscard c tid flaw => Sys2Proof.Machine.execKdpFrameDiscard c tid flaw s

end Sys2Proof.Machine
end

