-- ==== Sys2Proof/Machine/Idle.lean ====
section
/-! DEFINITION. What a step does when no command waits: device time advances by one granule of 2 ns (R28), and with it
the counters of elapsed time DETECT_NS (R396) and THROTTLE_NS (R525). DESIGN CHOICE, log 1. -/

namespace Sys2Proof.Machine

/-- A triad runs as a detecting pair: some member's CC_GROUP.DETECT is set, R85. -/
def State.detectingPairs (s : State) : Nat :=
  (s.cores.filter (fun c => c.group.getLsbD 25 && c.group.toNat / 4 % 4 == 0)).length

/-- Device time advances by one granule; while PORST_N is low it stands at 0, R30. -/
def idle (s : State) : Host.Outcome State Fault Refusal :=
  if s.pins.porstN then
    if s.tb.now + 2 < 2 ^ 64 then
      .next { s with
        tb := { s.tb with now := s.tb.now + 2 }
        sched := { s.sched with detectNs := s.sched.detectNs + 2 * s.detectingPairs }
        pwr := if 1 ≤ s.pwr.level then { s.pwr with throttleNs := s.pwr.throttleNs + 2 } else s.pwr }
    else .fault .deviceTimeEnd
  else .next s

end Sys2Proof.Machine
end

