-- ==== Sys2Proof/Safety.lean ====
section
/-! DEFINITION. What a safe state is, in the terms that statements use: an invariant for each unit that has one, and what a
step never takes back. -/

namespace Sys2Proof

open Machine

/-- Device time is a multiple of its granule of 2 ns, R28. -/
def Machine.Timebase.Ok (t : Timebase) : Prop := t.now % 2 = 0

/-- The throttle level is one of R518's nine, the clock of the application cores follows it (levels 7 and 8), and a cap is
unmet only at level 8. -/
structure Machine.Power.Ok (p : Power) : Prop where
  level : p.level ≤ 8
  clock : p.appClock = p.level - 6
  unmet : p.unmet = true → p.level = 8

/-- The Latch bit of every group that holds an uncleared record is set, R404, and the fault log holds at most its 1,024
records, R409. -/
structure Machine.Collector.Ok (c : Collector) : Prop where
  latch : ∀ kv ∈ c.slots, kv.2.group.toNat < 36 → c.status.getLsbD kv.2.group.toNat = true
  log : c.log.length ≤ 1024

/-- The change log holds at most its 65,536 records, R475. -/
def Machine.Dict.Ok (d : Dict) : Prop := d.changes.length ≤ 65536

/-- The memory is in its canonical form. -/
def Machine.Mem.Ok (m : Mem) : Prop := m.wf = true

/-- The OTP of b follows that of a: the keys, the serial number and the slot size stay, and the anti-rollback counter does not
fall, R481 and R500. -/
structure Machine.Flash.OtpLe (a b : Flash) : Prop where
  rollback : a.rollback ≤ b.rollback
  keys : b.rootHash = a.rootHash ∧ b.keyRevoked = a.keyRevoked ∧ b.idPub = a.idPub ∧ b.debugPub = a.debugPub
  fixed : b.serial = a.serial ∧ b.slotSize = a.slotSize ∧ b.imgKeySet = a.imgKeySet

/-- The invariant of the block. -/
structure Machine.State.Inv (s : State) : Prop where
  time : s.tb.Ok
  pwr : s.pwr.Ok
  fc : s.fc.Ok
  dict : s.dict.Ok
  mem : s.mem.Ok
  cores : s.cores.length = 64

/-- The device runs in safety: it is not in SAFE, FAULT_N is high, and no core's watchdog bars a pair (R393, R403, R411). -/
def Machine.State.Sound (s : State) : Prop := s.dict.state ≠ .safe ∧ s.faultNLow = false ∧ s.isl.wdBarred.all (· == false) = true

/-! ## When a command has its own effect -/

/-- Core n's next instruction is i: the sequencer issues, the word at the PC can be read and encodes i; t is the state after its
fetch (R66, R67, R79). -/
def Machine.State.Issues (s : State) (n : BitVec 6) (i : Instr) (t : State) : Prop :=
  ∃ w, s.fetch n.toNat = .word t w ∧ tileDecode n w = some i

/-- The core that a control or vector instruction without a Pond operand and without a packet changes, and it alone; a scaled VCVT counts in
its granule in the Pond, R102. -/
def Instr.onlyCore : Instr → Option (BitVec 6)
  | .nop n | .tileEnd n | .jump n _ | .loop n _ _ | .setlc n _ _ | .setx n _ _ | .addx n _ _ | .addxr n _ _ _ | .mulxi n _ _ _
  | .waitSeq n _ _ _ _ | .vadd n _ _ _ _ _ | .vsub n _ _ _ _ _ | .vmul n _ _ _ _ _ | .vfma n _ _ _ _ _ | .vmin n _ _ _ _ _
  | .vmax n _ _ _ _ _ | .vcmp n _ _ _ _ _ | .vsel n _ _ _ _ _ | .viadd n _ _ _ _ _ | .vimul n _ _ _ _ _
  | .vand n _ _ _ _ _ | .vor n _ _ _ _ _ | .vshift n _ _ _ _ _ | .vred n _ _ _ _ _ | .vbcast n _ _ _ _ _ | .vsfu n _ _ _ _ _ => some n
  | .vcvt n _ _ _ _ imm => if Config.vcvtKind (imm.toNat % 16) ≤ 12 then some n else none
  | _ => none

/-- A core of the device as it goes on after an issued instruction: the PC moves on, and the tile boundary is left. -/
def Machine.Core.onward (c : Core) : Core := { c with pc := (c.pc + 1) % 65536, atTb := false }

/-- A read of n bytes at an address of the map gives bytes without a bad word, and the state after it. -/
def Machine.State.Reads (s : State) (a n : Nat) (t : State) (bs : Bytes) : Prop := s.readMem a n = (t, bs, none)

/-- A write request for an entry reaches the server and passes the checks of R453. -/
def Machine.State.Accepts (s : State) (q : Req) (v : Bytes) : Prop :=
  s.heard q = true ∧ (s.admitReq q).2 = true ∧ ((s.admitReq q).1.clientWrite q v).2.1 = aOk

/-- The release that entry w, number e, makes at this instant, R302. -/
def Machine.State.releaseOf (s : State) (e : Nat) (w : WorkEntry) (st : JobSt) : Rel :=
  { entry := e, frame := s.frameAt s.now, ctx := w.ctx, cores := (s.entryCores w).map (BitVec.ofNat 6), at_ := s.now,
    deadline := if w.deadline = 0 then 0 else s.now + w.deadline, st := st }

end Sys2Proof
end

