-- ==== Sys2Proof/Certificates/Slice0/Obligations.lean ====
section
/-! DEFINITION. The statements for the provers. -/

open Sys2Proof Sys2Proof.Machine


/-! ## The block, its invariant and its arithmetic -/

/-- Taking a command: a step with command c at the front of the queue is c's effect on the state with the queue's rest. -/
def Obligations.StepRunsTheFrontCommand : Prop :=
  ∀ (c : Instr) (rest : List Instr) (s : State), step { s with pending := c :: rest } = exec c { s with pending := rest }

/-- The model's choice of log 1: on an empty queue device time advances by one granule of 2 ns (R28), with the two counters of elapsed
time, and nothing else changes; while PORST_N is low nothing changes; at the end of its 64 bits time can go no further. -/
def Obligations.EmptyQueueIsTwoNanoseconds : Prop :=
  (∀ s : State, s.pending = [] → s.pins.porstN = true → s.tb.now + 2 < 2 ^ 64 →
    step s = .next { s with
      tb := { s.tb with now := s.tb.now + 2 }
      sched := { s.sched with detectNs := s.sched.detectNs + 2 * s.detectingPairs }
      pwr := { s.pwr with throttleNs := if s.pwr.level = 0 then s.pwr.throttleNs else s.pwr.throttleNs + 2 } })
  ∧ (∀ s : State, s.pending = [] → s.pins.porstN = false → step s = .next s)
  ∧ ∀ s : State, s.pending = [] → s.pins.porstN = true → 2 ^ 64 ≤ s.tb.now + 2 → step s = .fault .deviceTimeEnd

/-- No command stops the block: whatever the state, every command answers a next state. The queue is the senders': no command adds to it,
takes from it or reorders it. -/
def Obligations.CommandsAnswerAndLeaveTheQueue : Prop :=
  (∀ (c : Instr) (s : State), ∃ t, exec c s = .next t)
  ∧ (∀ (c : Instr) (s t : State), exec c s = .next t → t.pending = s.pending)

/-- The state after reset meets the invariant; its device time is 0, DEV_STATE is BOOT, no fault is latched, FAULT_N is low, the memory
lists nothing, the queue is empty. -/
def Obligations.ResetMeetsTheInvariant : Prop :=
  State.reset.Inv ∧ State.reset.tb.now = 0 ∧ State.reset.dict.state = .boot ∧ State.reset.fc.status = 0 ∧ State.reset.faultNLow = true
    ∧ State.reset.mem.data = [] ∧ State.reset.mem.synd = [] ∧ State.reset.pending = []

/-- Every step keeps the invariant: device time a multiple of 2 ns; the throttle level one of nine, the application clock following it, a
cap unmet only at level 8; every group with an uncleared record latched in FC_STATUS and at most 1,024 records in the fault log; at most
65,536 change-log records; memory and check bits in canonical form; 64 cores. -/
def Obligations.EveryStepKeepsTheInvariant : Prop := ∀ s t : State, s.Inv → step s = .next t → t.Inv

/-- What has been logged and sent is never taken back (the model's record of a run, log 2), and the OTP never runs backwards: the
anti-rollback counter does not fall and the keys stay. -/
def Obligations.StepsNeverTakeBack : Prop :=
  ∀ s t : State, step s = .next t → s.events <+: t.events ∧ s.sent <+: t.sent ∧ s.flash.OtpLe t.flash

/-- Serial-number arithmetic of stream numbers, R22: with d = (a - b) mod 2^32, a equals b, is after b, is before b, or is not comparable
with b, by the four ranges of d. -/
def Obligations.SerialNumbersCompare : Prop :=
  ∀ a b : Word, ∀ d : Nat, d = (a.toNat + 2 ^ 32 - b.toNat) % 2 ^ 32 →
    (a = b ↔ d = 0)
    ∧ (serialAfter a b = true ↔ 1 ≤ d ∧ d ≤ 2 ^ 31 - 1)
    ∧ (serialAfter b a = true ↔ 2 ^ 31 + 1 ≤ d)
    ∧ (serialUnordered a b = true ↔ d = 2 ^ 31)

/-- The merge order of event records, R27: for records that do not stand at one stamp, source and number, and whose numbers, at one stamp
and source, lie within a window of 2^47, exactly one is before the other; and no record is before itself. -/
def Obligations.EventMergeDecidesEveryPair : Prop :=
  (∀ a : Event, eventBefore a a = false)
  ∧ ∀ a b : Event, a.seq < 2 ^ 48 → b.seq < 2 ^ 48 →
      (a.time = b.time → a.source = b.source → a.seq ≠ b.seq ∧ (a.seq + 2 ^ 48 - b.seq) % 2 ^ 48 ≠ 2 ^ 47) →
      eventBefore a b = !eventBefore b a

/-- Frame f begins at FRAME_ORIGIN + f x FRAME_TICKS x 250,000 ns, tick t of it 250,000 x t ns later, ticks run from 0 to FRAME_TICKS - 1,
and devices with one FRAME_ORIGIN and FRAME_TICKS share their frame boundaries, R37. -/
def Obligations.FramesAndTicksBegin : Prop :=
  (∀ (s : State) (f t : Nat), t < s.cfg kFrameTicks →
    s.frameStartOf f = s.frameOrigin + f * s.cfg kFrameTicks * 250000
    ∧ s.frameAt (s.frameStartOf f + 250000 * t) = f ∧ s.tickAt (s.frameStartOf f + 250000 * t) = t)
  ∧ (∀ (s : State) (i : Nat), 0 < s.cfg kFrameTicks → s.tickAt i < s.cfg kFrameTicks)
  ∧ ∀ (s u : State) (f : Nat), s.frameOrigin = u.frameOrigin → s.cfg kFrameTicks = u.cfg kFrameTicks → s.frameStartOf f = u.frameStartOf f

/-- The mixing function of R225. -/
def Obligations.MixingFunction : Prop :=
  ∀ z : Word64, (mix64 z).toNat =
    (let z1 := ((z.toNat ^^^ z.toNat / 2 ^ 31) * 0x8F3B9C1D52A7E64B) % 2 ^ 64
     let z2 := ((z1 ^^^ z1 / 2 ^ 29) * 0xE1D46F07B35C92A9) % 2 ^ 64
     z2 ^^^ z2 / 2 ^ 32)

/-- A write of bytes to a storage address keeps the canonical form, is read back, and leaves the byte at every other address as it was: of
every word that it does not touch, and, where no word holds a bit in error, of every address outside the bytes written (the rest of a word
written in part is corrected, R337). -/
def Obligations.MemoryWriteIsReadBack : Prop :=
  ∀ (m : Mem) (a : Nat) (bs : Bytes) (poisoned : Bool),
    (m.wf = true → (m.write a bs poisoned).wf = true) ∧ (m.write a bs poisoned).bytes a bs.length = bs
    ∧ (∀ x, x < a / 4 * 4 ∨ (a + bs.length + 3) / 4 * 4 ≤ x → (m.write a bs poisoned).byte x = m.byte x)
    ∧ (m.synd = [] → ∀ x, x < a ∨ a + bs.length ≤ x → (m.write a bs poisoned).byte x = m.byte x)

/-- The syndrome table of R348 for the Ponds, the Reservoir and the Lake: for each of the 128 syndromes, clean for 0, a check bit in error
for one bit, the data bit of its column, poison for 0x7F, and uncorrectable for everything else. A poisoned word written whole reads as
poisoned, and a clean word written whole reads clean, R337 and R349. A single flipped bit of a clean 39-bit codeword is corrected: the
word reads as it was before the disturbance, R347, R348 and R350. -/
def Obligations.WordsAreCorrected : Prop :=
  (∀ y : BitVec 8, y.toNat < 128 →
    (decodeSyndrome y = .clean ↔ y = 0)
    ∧ (decodeSyndrome y = .poison ↔ y = 0x7F)
    ∧ ((∃ i, i < 7 ∧ y = 1#8 <<< i) → decodeSyndrome y = .correct 0)
    ∧ (∀ j, j < 32 → y = checkBits (1#32 <<< j) → decodeSyndrome y = .correct (1#32 <<< j))
    ∧ (decodeSyndrome y = .ue ↔ y ≠ 0 ∧ y ≠ 0x7F ∧ (∀ i, i < 7 → y ≠ 1#8 <<< i) ∧ ∀ j, j < 32 → y ≠ checkBits (1#32 <<< j)))
  ∧ (∀ (m : Mem) (w : Nat) (bs : Bytes), bs.length = 4 →
    decodeSyndrome (sget 0 (m.write (4 * w) bs true).synd w) = .poison
    ∧ decodeSyndrome (sget 0 (m.write (4 * w) bs false).synd w) = .clean)
  ∧ (∀ (m : Mem) (w j : Nat), sget 0 m.synd w = 0 → j < 39 →
    ((m.upset w (1#40 <<< j)).fix w).word w = m.word w ∧ sget 0 ((m.upset w (1#40 <<< j)).fix w).synd w = 0)


/-! ## Sequencer and vector instructions -/

/-- Each control instruction of R67 that issues takes its effect on its core and leaves everything else as its fetch left it: the PC moves
on (modulo 2^16) or goes to the target, LC is decremented before LOOP tests it, X arithmetic is modulo 2^32, TILE_END then waits for its
tile boundary (R80), WAIT_SEQ waits with the PC on it (R73). WAIT_SEQ retires at its tile boundary once SEQ_DONE is at the number or after
it, R73, unless the core is held there (R298, R382); X15 takes VOIDS of the counter (R77) and the core runs on. The model's choices in it:
log 88. -/
def Obligations.ControlInstructionsComplete : Prop :=
  (∀ (s t : State) (n : BitVec 6),
    (s.Issues n (.nop n) t → exec (.nop n) s = .next (t.onCore n.toNat Core.onward))
    ∧ (s.Issues n (.tileEnd n) t → exec (.tileEnd n) s = .next (t.onCore n.toNat (fun c => { c.onward with tileEndPending := true })))
    ∧ (∀ target, s.Issues n (.jump n target) t →
        exec (.jump n target) s = .next (t.onCore n.toNat (fun c => { c with pc := target.toNat, atTb := false })))
    ∧ (∀ lc target, s.Issues n (.loop n lc target) t →
        exec (.loop n lc target) s = .next (t.onCore n.toNat (fun c =>
          { c.onward with
            lc := setAt c.lc lc.toNat (c.lc.getD lc.toNat 0 - 1)
            pc := if c.lc.getD lc.toNat 0 = 1 then (c.pc + 1) % 65536 else target.toNat })))
    ∧ (∀ lc count, s.Issues n (.setlc n lc count) t →
        exec (.setlc n lc count) s = .next (t.onCore n.toNat (fun c => { c.onward with lc := setAt c.lc lc.toNat count })))
    ∧ (∀ x value, s.Issues n (.setx n x value) t →
        exec (.setx n x value) s = .next (t.onCore n.toNat (fun c => { c.onward with x := setAt c.x x.toNat value })))
    ∧ (∀ x value, s.Issues n (.addx n x value) t →
        exec (.addx n x value) s = .next (t.onCore n.toNat (fun c =>
          { c.onward with x := setAt c.x x.toNat (c.x.getD x.toNat 0 + value) })))
    ∧ (∀ xd xa xb, s.Issues n (.addxr n xd xa xb) t →
        exec (.addxr n xd xa xb) s = .next (t.onCore n.toNat (fun c =>
          { c.onward with x := setAt c.x xd.toNat (c.x.getD xa.toNat 0 + c.x.getD xb.toNat 0) })))
    ∧ (∀ xd xs value, s.Issues n (.mulxi n xd xs value) t →
        exec (.mulxi n xd xs value) s = .next (t.onCore n.toNat (fun c =>
          { c.onward with x := setAt c.x xd.toNat (c.x.getD xs.toNat 0 * value) })))
    ∧ ∀ ctr byReg x imm, s.Issues n (.waitSeq n ctr byReg x imm) t →
        exec (.waitSeq n ctr byReg x imm) s = .next (t.onCore n.toNat (fun c =>
          { c with waitOn := some (ctr, if byReg then c.x.getD x.toNat 0 else imm), atTb := false })))
  ∧ (∀ (s : State) (n : BitVec 6) (k : BitVec 4) (v : Word),
    s.up = true → (s.core n.toNat).st = .waiting → (s.core n.toNat).atTb = true → (s.core n.toNat).preemptAt = none →
    s.pairHeld n.toNat = false → (s.core n.toNat).waitOn = some (k, v) → ((s.core n.toNat).awaited k).seqDone = v ∨ serialAfter ((s.core n.toNat).awaited k).seqDone v = true →
    exec (.waitSeqRetire n) s = .next (s.onCore n.toNat (fun c =>
      { c.onward with x := setAt c.x 15 (c.awaited k).voids, st := .running, waitOn := none })))

/-- The fetch of an instruction from a Pond without a bad word changes nothing (R350 and R360 give it effects only on bad words). HALT
with nothing in flight frees its core, R76 and R314: the core is IDLE with context 0, holds no program, and its unsent stream numbers are
to be voided; the release or job that it belonged to is then closed when its last core has halted, and the pools are served. A word that
R67 does not list sets CC_ERR.ILLEGAL, a PC outside the program's region POND_ADDR, both with the tear-down of R87; a word that cannot be
read is poisoned data to the sequencer, R360. -/
def Obligations.FetchHaltAndIllegalWords : Prop :=
  (∀ (s t : State) (n : BitVec 6) (i : Instr), s.mem.synd = [] → s.Issues n i t → t = s)
  ∧ (∀ (s t : State) (n : BitVec 6), s.Issues n (.halt n) t → (s.core n.toNat).quiet = true →
    exec (.halt n) s = .next (((((t.chargeCore n.toNat).onCore n.toNat Core.halted).finishRelease (t.core n.toNat).work).finishJob
        (t.core n.toNat).work).servePools)
    ∧ ∀ c : Core, c.halted.st = .idle ∧ c.halted.ctx = 0 ∧ c.halted.prog = none ∧ c.halted.accBusy = [false, false]
        ∧ (∀ p, c.prog = some p → c.halted.voidDue = c.voidDue ++ c.voidsOf p.bank.toNat p.outMask.toNat)
        ∧ c.halted.x = c.x ∧ c.halted.lc = c.lc ∧ c.halted.v = c.v ∧ c.halted.acc = c.acc ∧ c.halted.pc = c.pc)
  ∧ (∀ (s t : State) (n : BitVec 6),
    (∀ w, s.fetch n.toNat = .word t w → tileDecode n w = none → exec (.illegalInstruction n) s = .next (t.coreFault n.toNat eIllegal n.toNat))
    ∧ (∀ off, s.fetch n.toNat = .outside off → exec (.illegalInstruction n) s = .next (s.coreFault n.toNat ePondAddr (off / 65536)))
    ∧ ∀ a, s.fetch n.toNat = .bad t a → exec (.illegalInstruction n) s = .next (t.consumerUe n.toNat none a))

/-- The frame of the control and vector instructions that have no Pond operand: one that is answered with a next state changes its core
alone, and of that core the PC, the boundary flags, X, LC, the wait and the V registers alone. -/
def Obligations.ScalarAndLaneFrame : Prop :=
  ∀ (s t : State) (n : BitVec 6) (i : Instr), s.mem.synd = [] → i.onlyCore = some n → exec i s = .next t →
    t = { s with cores := t.cores } ∧ (∀ m, m ≠ n.toNat → t.core m = s.core m)
    ∧ t.core n.toNat = { s.core n.toNat with
        pc := (t.core n.toNat).pc, atTb := (t.core n.toNat).atTb, x := (t.core n.toNat).x, lc := (t.core n.toNat).lc
        v := (t.core n.toNat).v, waitOn := (t.core n.toNat).waitOn, tileEndPending := (t.core n.toNat).tileEndPending }

/-- The words of R67 read back: an instruction's operands from the fields where R67 puts them (words written out from its table). -/
def Obligations.TileWordsDecode : Prop :=
  ∀ n : BitVec 6,
    tileDecode n 0x0000000000000000 = some (.nop n) ∧ tileDecode n 0x0010000000000000 = some (.halt n)
    ∧ tileDecode n 0x003000000000BEEF = some (.jump n 0xBEEF) ∧ tileDecode n 0x004C000000001234 = some (.loop n 3 0x1234)
    ∧ tileDecode n 0x0054ABCD00000000 = some (.setlc n 1 0xABCD) ∧ tileDecode n 0x006500000000000F = some (.setx n 5 15)
    ∧ tileDecode n 0x0081230000000000 = some (.addxr n 1 2 3) ∧ tileDecode n 0x300044830000000A = some (.vadd n 0 17 4 3 10)
    ∧ tileDecode n 0x0FF0000000000000 = none ∧ tileDecode n 0xF000000000000000 = none

/-- A V register reads back the 64 lanes written to it, every other V register reads as before, and nothing else of the core changes. VLD
reads 256 bytes of the program's region into VD, VST writes VS1's lanes there, each lane 4 bytes little-endian; both move the PC on, R67
and R79. VST's store is computed from its GRANULE operand, and every byte of memory outside it stays. The model's choices in it: log 85. -/
def Obligations.VectorRegistersLoadAndStore : Prop :=
  (∀ (c : Core) (r : BitVec 5) (ws : List Word), ws.length = 64 →
    (c.setLanes r ws).lanes r = ws ∧ (∀ q, q ≠ r → (c.setLanes r ws).lanes q = c.lanes q) ∧ c.setLanes r ws = { c with v := (c.setLanes r ws).v })
  ∧ (∀ (s t : State) (n : BitVec 6) (r : BitVec 5) (granule : BitVec 16),
    (t.core n.toNat).inRegion (granule.toNat * 64) 256 = true →
    let free := t.onCore n.toNat (fun c => { c with held := none })
    (s.Issues n (.vld n r granule) t → (t.core n.toNat).conflicts [pondRange 1 false (granule.toNat * 64) 256] = false →
      ∀ u bs, free.Reads (pondBase + t.logical n.toNat * 0x400000 + granule.toNat * 64) 256 u bs →
        exec (.vld n r granule) s = .next (u.onCore n.toNat (fun c =>
          (c.setLanes r ((List.range 64).map (fun l => BitVec.ofNat 32 (fieldAt bs (4 * l) 4)))).onward)))
    ∧ (s.Issues n (.vst n r granule) t → (t.core n.toNat).conflicts [pondRange 1 true (granule.toNat * 64) 256] = false →
      ∃ u, exec (.vst n r granule) s = .next u
        ∧ (n.toNat < t.cores.length →
            u.mem.bytes (pondAt n.toNat (granule.toNat * 64)) 256 = (((t.core n.toNat).lanes r).map (fun w => leBytes 4 w.toNat)).flatten)
        ∧ (∀ a, a < pondAt n.toNat (granule.toNat * 64) ∨ pondAt n.toNat (granule.toNat * 64) + 256 ≤ a → u.mem.byte a = t.mem.byte a)
        ∧ u = { t with cores := u.cores, mem := u.mem } ∧ (∀ m, m ≠ n.toNat → u.core m = t.core m)
        ∧ (n.toNat < t.cores.length → (u.core n.toNat).pc = ((t.core n.toNat).pc + 1) % 65536 ∧ (u.core n.toNat).v = (t.core n.toNat).v
            ∧ (u.core n.toNat).x = (t.core n.toNat).x)))

/-- Each lane operation of R68 and R100 that issues writes VD, lane by lane, with the operation on the lanes of its sources, and the PC
moves on: FP32 add, subtract, multiply, fused multiply-add, minimum, maximum; comparison, conversion and shift of the kind that VARIANT
names (the encodings are Config's, log 7; a scaled conversion counts its saturations and NaNs in its granule, R102); integer operations
modulo 2^32; bitwise AND and OR. The model's choices in it: logs 7, 8. -/
def Obligations.LaneOperationsComplete : Prop :=
  ∀ (s t : State) (n : BitVec 6) (vd vs1 vs2 vs3 : BitVec 5) (imm : Word),
    let ans := fun (f : Core → List Word) => (Host.Outcome.next (t.onCore n.toNat (fun c => (c.setLanes vd (f c)).onward)) : Host.Outcome State Fault Refusal)
    let two := fun (f : Word → Word → Word) => ans (fun c => List.zipWith f (c.lanes vs1) (c.lanes vs2))
    let three := fun (f : Word → Word → Word → Word) =>
      ans (fun c => (List.range 64).map (fun l => f ((c.lanes vs1).getD l 0) ((c.lanes vs2).getD l 0) ((c.lanes vs3).getD l 0)))
    (s.Issues n (.vadd n vd vs1 vs2 vs3 imm) t → exec (.vadd n vd vs1 vs2 vs3 imm) s = two fadd)
    ∧ (s.Issues n (.vsub n vd vs1 vs2 vs3 imm) t → exec (.vsub n vd vs1 vs2 vs3 imm) s = two fsub)
    ∧ (s.Issues n (.vmul n vd vs1 vs2 vs3 imm) t → exec (.vmul n vd vs1 vs2 vs3 imm) s = two fmul)
    ∧ (s.Issues n (.vfma n vd vs1 vs2 vs3 imm) t → exec (.vfma n vd vs1 vs2 vs3 imm) s = three ffma)
    ∧ (s.Issues n (.vmin n vd vs1 vs2 vs3 imm) t → exec (.vmin n vd vs1 vs2 vs3 imm) s = two fmin)
    ∧ (s.Issues n (.vmax n vd vs1 vs2 vs3 imm) t → exec (.vmax n vd vs1 vs2 vs3 imm) s = two fmax)
    ∧ (s.Issues n (.vcmp n vd vs1 vs2 vs3 imm) t → exec (.vcmp n vd vs1 vs2 vs3 imm) s =
        two (fun x y => if compareF (Config.vcmpKind (imm.toNat % 16)) x y then Config.vcmpTrue else Config.vcmpFalse))
    ∧ (s.Issues n (.vsel n vd vs1 vs2 vs3 imm) t → exec (.vsel n vd vs1 vs2 vs3 imm) s = three (fun x y z => Config.vselLane x y z imm))
    ∧ (s.Issues n (.vcvt n vd vs1 vs2 vs3 imm) t → exec (.vcvt n vd vs1 vs2 vs3 imm) s =
        Host.Outcome.next (t.convert n vd vs1 vs2 vs3 imm))
    ∧ (let k := Config.vcvtKind (imm.toNat % 16)
      let to_ := fun (f : Core → List Word) => t.onCore n.toNat (fun c => (c.setLanes vd (f c)).onward)
      (k ≤ 12 → t.convert n vd vs1 vs2 vs3 imm = to_ (fun c => (c.lanes vs1).map (vcvtLane k)))
      ∧ (12 < k → Config.vcvtGranule imm = none → t.convert n vd vs1 vs2 vs3 imm =
          to_ (fun c => (scaledLanes ((k - 13) % 5) (fun y => Config.vcvtInv imm y 0) (c.lanes vs1) (c.lanes vs2)).1))
      ∧ (12 < k → ∀ g u bs, Config.vcvtGranule imm = some g → (t.core n.toNat).inRegion (g * 64) 64 = true →
          (t.core n.toNat).conflicts [pondRange 1 true (g * 64) 64] = false →
          (t.onCore n.toNat (fun c => { c with held := none })).Reads (pondBase + t.logical n.toNat * 0x400000 + g * 64) 64 u bs →
          let rd := u.pondReader n.toNat
          let r := scaledLanes ((k - 13) % 5) (fun y => Config.vcvtInv imm y (qInv rd g)) ((u.core n.toNat).lanes vs1) ((u.core n.toNat).lanes vs2)
          t.convert n vd vs1 vs2 vs3 imm = (u.unitWrites n.toNat 1 [addCounts rd g r.2] false).onCore n.toNat (fun c => (c.setLanes vd r.1).onward)))
    ∧ (s.Issues n (.viadd n vd vs1 vs2 vs3 imm) t → exec (.viadd n vd vs1 vs2 vs3 imm) s = two (fun x y => x + y))
    ∧ (s.Issues n (.vimul n vd vs1 vs2 vs3 imm) t → exec (.vimul n vd vs1 vs2 vs3 imm) s = two (fun x y => x * y))
    ∧ (s.Issues n (.vand n vd vs1 vs2 vs3 imm) t → exec (.vand n vd vs1 vs2 vs3 imm) s = two (fun x y => x &&& y))
    ∧ (s.Issues n (.vor n vd vs1 vs2 vs3 imm) t → exec (.vor n vd vs1 vs2 vs3 imm) s = two (fun x y => x ||| y))
    ∧ (s.Issues n (.vshift n vd vs1 vs2 vs3 imm) t → exec (.vshift n vd vs1 vs2 vs3 imm) s = two (shiftLane (Config.vshiftKind imm)))
    ∧ (s.Issues n (.vred n vd vs1 vs2 vs3 imm) t → ∃ u, exec (.vred n vd vs1 vs2 vs3 imm) s = .next u
        ∧ (n.toNat < t.cores.length → ((u.core n.toNat).lanes vd).getD 0 0 = reduceLanes (imm.toNat % 16) ((t.core n.toNat).lanes vs1)
            ∧ (u.core n.toNat).pc = ((t.core n.toNat).pc + 1) % 65536))
    ∧ (s.Issues n (.vbcast n vd vs1 vs2 vs3 imm) t → exec (.vbcast n vd vs1 vs2 vs3 imm) s =
        ans (fun c => List.replicate 64 ((c.lanes vs1).getD (Config.vbcastLane imm % 64) 0)))
    ∧ (s.Issues n (.vsfu n vd vs1 vs2 vs3 imm) t → exec (.vsfu n vd vs1 vs2 vs3 imm) s = ans (fun c => (c.lanes vs1).map (sfu (imm.toNat % 8))))


/-! ## Streams, passes and moves -/

/-- A counter takes a landed number as the routine of R72 does: an accepted number again is a duplicate, a number too far ahead or not
comparable a violation that leaves the counter's window, and any other sets its landed bit, counts a void (R77), and SEQ_DONE moves over
every number that has landed without a gap. SIGNAL on a stream of the program's OUT_MASK, to the stream's fixed destination and within its
count, takes the stream's next number and sends it (R71, R74, R76): on the own node the packet leaves over the mesh, unless another member
speaks for the group (R377). -/
def Obligations.CountersAndSignals : Prop :=
  (∀ (k : Counter) (seq : Word) (void : Bool) (d : Nat), d = (seq.toNat + 2 ^ 32 - k.seqDone.toNat) % 2 ^ 32 →
    (2 ^ 31 + 1 ≤ d ∨ (d ≤ 63 ∧ k.landed.getLsbD d = true) → landOn k seq void = ({ k with dups := k.dups + 1 }, false))
    ∧ (63 < d → d ≤ 2 ^ 31 → landOn k seq void = ({ k with viols := k.viols + 1 }, true))
    ∧ (d ≤ 63 → k.landed.getLsbD d = false →
        let l := k.landed ||| (1#64 <<< d)
        ∃ j, j ≤ 64 ∧ (∀ i, i < j → l.getLsbD i = true) ∧ (l >>> j).getLsbD 0 = false
          ∧ landOn k seq void = ({ k with landed := l >>> j, seqDone := k.seqDone + BitVec.ofNat 32 j
                                          voids := if void then k.voids + 1 else k.voids }, false)))
  ∧ (∀ (s t : State) (n : BitVec 6) (out : BitVec 4) (dctr dcore : BitVec 6) (dnode : BitVec 3) (p : Program),
    s.Issues n (.signal n out dctr dcore dnode) t → s.streamQueued n.toNat out.toNat = false → (t.core n.toNat).prog = some p →
    let d := destOf dnode.toNat dcore.toNat dctr.toNat
    let x := (t.core n.toNat).out p.bank.toNat out.toNat
    (t.core n.toNat).streamOk p out.toNat d = true → d.node = t.fab.nodeId → t.speaks n.toNat = true →
    exec (.signal n out dctr dcore dnode) s = .next
      { t.onCore n.toNat (fun c => (c.takeNumber p out.toNat).onward) with
        sent := t.sent ++ [.packet dcore.toNat (dctr.toNat / 16) (dctr.toNat % 16) x.next.toNat false] })

/-- The instructions with Pond operands join the queues of their units when nothing conflicts, the queue has room and their operands read
well, and the PC moves on: MLOADW with the block's bytes, after which the preloads at the head of the queue fill the shadow plane (R51,
R68), MPASS with its rows, chain and ranges (R53, R67, R69, R118, R129, R139), TMV with its descriptor and ranges (R64). The model's
choices in it: logs 47, 49, 92. -/
def Obligations.MatrixAndMoveInstructionsQueue : Prop :=
  ∀ (s t : State) (n : BitVec 6),
    let free := t.onCore n.toNat (fun c => { c with held := none })
    let pond := pondBase + t.logical n.toNat * 0x400000
    (∀ shape fmt quad block u bs, s.Issues n (.mloadw n shape fmt quad block) t → pairOk shape.toNat fmt.toNat = true →
      (t.core n.toNat).inRegion (block.toNat * 64) (weightBytes shape.toNat) = true → (t.core n.toNat).mq.length < 4 →
      (t.core n.toNat).conflicts [pondRange 4 false (block.toNat * 64) (weightBytes shape.toNat)] = false →
      free.Reads (pond + block.toNat * 64) (weightBytes shape.toNat) u bs →
      exec (.mloadw n shape fmt quad block) s = .next (u.onCore n.toNat (fun c =>
        ({ c.onward with mq := c.mq ++ [.load { shape := shape, fmt := fmt, quad := quad, bytes := bs }
                                          [pondRange 4 false (block.toNat * 64) (weightBytes shape.toNat)]] } : Core).preload)))
    ∧ (∀ (a : PassArgs) (p : Program) u table pro, s.Issues n (a.instr n) t → (t.core n.toNat).prog = some p →
      pairOk a.shape.toNat a.fmt.toNat = true → rowsOk a.shape.toNat a.quad.toNat a.arow.toNat a.m = true → (t.core n.toNat).mq.length < 4 →
      (p.chainCount = 0 ∨ p.covers p.chainTable (192 * p.chainCount) = true) →
      (t.core n.toNat).conflicts (if p.chainCount = 0 then [] else [pondRange 4 false p.chainTable (192 * p.chainCount)]) = false →
      free.Reads (pond + p.chainTable) (192 * p.chainCount) u table → checkChains a p table = some pro →
      a.strays p table (pro.map parseEntry) = none →
      (u.core n.toNat).conflicts (passRanges a p table (pro.map parseEntry)) = false →
      (∀ e, pro.map parseEntry = some e → normOk (u.pondReader n.toNat) e ((u.core n.toNat).x.getD 1 0) = true) →
      exec (.mpass n a.shape a.fmt a.acc a.abuf a.quad a.m1 a.arow a.drain a.chain a.row) s = .next (u.onCore n.toNat (fun c =>
        { c.onward with held := none, mq := c.mq ++ [.pass (a.toPass table pro (passRanges a p table (pro.map parseEntry)))] })))
    ∧ ∀ engine desc u bs, s.Issues n (.tmv n engine desc) t → (t.core n.toNat).inRegion (desc.toNat * 64) 64 = true →
      ((t.core n.toNat).tmq.getD (tmIndex engine) []).length < 8 →
      (t.core n.toNat).conflicts [pondRange (if engine then 3 else 2) false (desc.toNat * 64) 64] = false →
      free.Reads (pond + desc.toNat * 64) 64 u bs →
      let d := u.descOf bs
      let ext := u.pondReader n.toNat d.ext 64
      let rs := u.moveRanges n.toNat engine d ext (u.codedOf n.toNat d) (desc.toNat * 64)
      (u.core n.toNat).conflicts rs = false →
      exec (.tmv n engine desc) s = .next (u.onCore n.toNat (fun c =>
        { c.onward with held := none, tmq := updAt c.tmq (tmIndex engine) (fun q => q ++ [(desc, rs)]) }))

/-- An instruction held back by the interlock tries again once its core is busy, R66; a held VLD whose range is free then completes as at
its issue. PASS_START with a free accumulator buffer and readable operands, R51 and R54 to R57: the preloads ahead of it fill the shadow
plane, a filled shadow plane becomes the active one, the pass enters the array, its sums enter the accumulator (weights that no preload
brought are a free value, log 46), its buffer is busy, a prologue's counts are written to the Pond, and a saturated INT32 sum sets
CC_ERR.SAT (R94, R95). PASS_COMPLETE moves the oldest pass out of the array, to its drain if it has one (R56). DRAIN_COMPLETE of the
oldest drain with readable operands, R56, R58, R119 and R136: its rows go through the epilogue, its results enter the Pond, poisoned after
a parity error, and its accumulator buffer is free; the next drain begins, or a parity error sets CC_ERR.ACC_PAR with the reaction of R87.
The model's choices in it: logs 46, 47, 48. -/
def Obligations.PassesRunAndDrain : Prop :=
  (∀ (s : State) (n : BitVec 6), s.up = true → (s.core n.toNat).busy = true →
    (∀ i, (s.core n.toNat).held = some i → exec (.interlockRelease n) s = .next (s.retryInstr i))
    ∧ ∀ r granule u bs, (s.core n.toNat).held = some (.vld n r granule) → (s.core n.toNat).inRegion (granule.toNat * 64) 256 = true →
      (s.core n.toNat).conflicts [pondRange 1 false (granule.toNat * 64) 256] = false →
      (s.onCore n.toNat (fun c => { c with held := none })).Reads (pondBase + s.logical n.toNat * 0x400000 + granule.toNat * 64) 256 u bs →
      exec (.interlockRelease n) s = .next (u.onCore n.toNat (fun c =>
        (c.setLanes r ((List.range 64).map (fun l => BitVec.ofNat 32 (fieldAt bs (4 * l) 4)))).onward)))
  ∧ (∀ (s t : State) (n : BitVec 6), s.up = true → (s.core n.toNat).busy = true →
    (∀ p rest, (frontOf (s.core n.toNat).mq).2 = some (p, rest) → (s.core n.toNat).bufferFree p.abuf = true →
      (s.onCore n.toNat Core.preload).touchPond n.toNat p.reads = (t, none) →
      let c := t.core n.toNat
      let active := c.planes.1
      let x := p.run (t.pondReader n.toNat) (((findWeights active p).map (·.bytes)).getD (Config.freeBytes t.fresh (weightBytes p.shape.toNat))) c.acc
      let u := (if (findWeights active p).isNone then t.fresh1 else t).onCore n.toNat (fun c => c.started p rest x.1.1)
      let v := (x.2.map (fun g => addCounts (t.pondReader n.toNat) g.1 g.2)).foldl (fun u e => u.pondWrite n.toNat e.1 e.2 false) u
      exec (.passStart n) s = .next (if x.1.2 then v.ccErr n.toNat eSat n.toNat else v))
    ∧ ∀ p rest, (s.core n.toNat).inArray = p :: rest →
      exec (.passComplete n) s = .next (
        if !p.drain then s.onCore n.toNat (fun c => { c with inArray := rest })
        else
          let u := s.onCore n.toNat (fun c => { c with inArray := rest, draining := c.draining ++ [p] })
          if (s.core n.toNat).draining = [] then u.beginDrain n.toNat else u))
  ∧ (∀ (s t : State) (n : BitVec 6) (abuf parityOk : Bool) (p : Pass) (rest : List Pass),
    s.up = true → (s.core n.toNat).busy = true → (s.core n.toNat).draining = p :: rest → p.abuf = abuf →
    s.touchPond n.toNat (drainReads (s.pondReader n.toNat) (parseEntry p.epilogue) p) = (t, none) →
    let ws := drainWrites (t.pondReader n.toNat) (parseEntry p.epilogue) p ((t.core n.toNat).drainedRows p)
    let u := (t.unitWrites n.toNat 0 ws (!parityOk)).onCore n.toNat (fun c =>
      { c with draining := rest, accBusy := setAt c.accBusy (if abuf then 1 else 0) false })
    exec (.drainComplete n abuf parityOk) s = .next (if parityOk then u.beginDrain n.toNat else u.coreFault n.toNat eAccPar n.toNat))

/-- TILE_MOVE_START: an idle engine takes the descriptor at the head of its queue, and a good one begins, taking its packet's number (R64,
R65, R71, R76). TILE_MOVE_LAND: with every remote answer in and no memory to wait for, the engine is free and the move's writes are made,
or a chunk that fails the checks of R160 is refused; the header of a remote chunk is checked first, and a good one has its blocks read.
The model's choices in it: logs 49, 89. -/
def Obligations.TileMovesStartAndLand : Prop :=
  (∀ (s t : State) (n : BitVec 6) (engine : Bool) (p : Program) (g : BitVec 16) (rs : List Range) (rest : List (BitVec 16 × List Range)) (b : Bytes),
    s.up = true → (s.core n.toNat).busy = true → (s.core n.toNat).prog = some p → (s.core n.toNat).tmq.getD (tmIndex engine) [] = (g, rs) :: rest →
    (s.core n.toNat).tm.getD (tmIndex engine) none = none →
    let s1 := s.onCore n.toNat (fun c => { c with tmq := setAt c.tmq (tmIndex engine) rest })
    s1.Reads (pondBase + s1.logical n.toNat * 0x400000 + g.toNat * 64) 64 t b →
    let d := t.descOf b
    let ext := t.pondReader n.toNat d.ext 64
    let coded := t.codedOf n.toNat d
    (parseDesc b).fieldsOk engine = true → (d.mode = 0 ∨ d.mode = 4 ∨ p.covers d.ext 64 = true) → t.modeOk n.toNat d ext coded = true →
    (d.out = 0xFF ∨ (t.core n.toNat).streamOk p d.out (destOf (parseDesc b).dnode d.dcore d.dctr) = true) →
    t.badHeader n.toNat d ext = false → (∀ q, q ∈ d.sources ext coded → t.pieceFault n.toNat false q = none) → 
    (t.leaves d = true → t.reachable (t.targetNode d) = true) →
    (t.leaves d = false → ∀ q, q ∈ d.targets ext coded → t.pieceFault n.toNat true q = none) →
    exec (.tileMoveStart n engine) s = .next (t.beginMove n.toNat engine b rs (d.sources ext coded) p))
  ∧ ∀ (s : State) (n : BitVec 6) (engine : Bool) (m : Move),
    s.up = true → (s.core n.toNat).tm.getD (tmIndex engine) none = some m → m.need = [] →
    let d := s.descOf m.desc
    let ext := s.pondReader n.toNat d.ext 64
    (∀ q, q ∈ d.targets ext 0 → s.pieceWaits q = false) →
    (∀ ws, m.header = false → d.writes ext m.src = some ws → exec (.tileMoveLand n engine) s = .next
      ((s.onCore n.toNat (fun c => { c with tm := setAt c.tm (tmIndex engine) none })).landWrites n.toNat engine m ws))
    ∧ (m.header = false → d.writes ext m.src = none → exec (.tileMoveLand n engine) s = .next (s.coreFault n.toNat eDesc (granule d.src)))
    ∧ (m.header = true → exec (.tileMoveLand n engine) s = .next (s.readBlocks n.toNat engine m))

/-- PACKET_LAND: the packet lands at the counter of every core that takes it, R72 and R379, or is held while its logical core is remapped,
R298. VOID_FILL, R76 and R77: nothing is left to be voided but what sending itself brings, and on the own node a stream's voids are sent
for every number from its next up to base + count - 1, ascending, after which its next number is base + count. -/
def Obligations.PacketsAndVoids : Prop :=
  (∀ (s : State) (p : Packet), s.up = true →
    ((∀ r ∈ s.sched.remaps, r.logical ≠ p.core) → exec (.packetLand p) s = .next ((s.packetTargets p.core.toNat).foldl (fun t n => t.landAt n p) s))
    ∧ ((∃ r ∈ s.sched.remaps, r.logical = p.core) → exec (.packetLand p) s = .next
        { s with sched := { s.sched with remaps := s.sched.remaps.map (fun r =>
            if r.logical = p.core then { r with heldPackets := r.heldPackets ++ [p] } else r) } }))
  ∧ (∀ (s : State) (n : BitVec 6), s.up = true →
    exec (.voidFill n) s = .next ((s.core n.toNat).voidDue.foldl (fun t e => t.voidStream n.toNat e)
      ((s.core n.toNat).toVoid.foldl (fun t e => t.sendPacket n.toNat e.2.1 e.2.2.1 e.2.2.2 true)
        (s.onCore n.toNat (fun c => { c with toVoid := [], voidDue := [] }))))
    ∧ ∀ (bank : BitVec 2) (o : BitVec 4) (last : Word) (d : Dest), s.speaks n.toNat = true →
      ((s.core n.toNat).out bank.toNat o.toNat).dest = some d → d.node = s.fab.nodeId →
      let x := (s.core n.toNat).out bank.toNat o.toNat
      (last - x.next).toNat < 2 ^ 31 →
      s.voidStream n.toNat (bank, o, last) =
        { s.onCore n.toNat (fun c => { c with outs := supd {} c.outs (bank.toNat * 16 + o.toNat) (fun y => { y with next := last }) }) with
          sent := s.sent ++ (List.range (last - x.next).toNat).map (fun i =>
            .packet d.core.toNat d.bank.toNat d.ctr.toNat (x.next + BitVec.ofNat 32 i).toNat true) })


/-! ## Cores and groups -/

/-- A write of CC_CTL by the schedule engine or the island, with one command bit, in a state of the core that accepts it, stores CTX_ID,
HDR and PART and has the command's effect on the physical core that carries the logical core, R85 and R298: RESET (R85), START (R75, R79),
PREEMPT and RESUME (R82), TEARDOWN (R83), GOLDEN (R388). A CC_CTL write with a second command bit, or in a state of the core that does not
accept it, sets CC_ERR.CMD and stores nothing; one by another initiator is a decode error, R85. START of a program whose header passes the
checks of R79: X0 is the run frame number and X1 the context's step number, modulo 2^32, X2 to X15 and LC0 to LC3 are 0, the PC is ENTRY,
and the core runs (R75, R78). The model's choices in it: logs 16, 39. -/
def Obligations.CoreCommandsComplete : Prop :=
  (∀ (s : State) (by_ : Initiator) (l : BitVec 6) (v : Word64), s.up = true → mayControl by_ = true →
    let n := s.phys l.toNat
    let t := s.onCore n (fun c =>
      { c with ctlCtx := BitVec.ofNat 18 (bits v.toNat 49 32), ctlHdr := BitVec.ofNat 16 (bits v.toNat 31 16)
               ctlPart := BitVec.ofNat 4 (bits v.toNat 15 12) })
    (bits v.toNat 5 0 = 1 → (s.core n).st ≠ .withdrawn →
      exec (.reset by_ l v) s = .next (((t.chargeCore n).dropWork (s.core n).work).onCore n Core.wiped))
    ∧ (bits v.toNat 5 0 = 2 → (s.core n).st = .idle →
      exec (.start by_ l v) s = .next (t.startCore n (t.core n).ctlHdr (t.core n).ctlCtx (t.core n).ctlPart (s.frameAt s.now - s.tb.runFrame0)))
    ∧ (bits v.toNat 5 0 = 4 → (s.core n).st = .running ∨ (s.core n).st = .waiting →
      exec (.preempt by_ l v) s = .next (t.onCore n (fun c =>
        if c.preemptAt = none then { c with preemptAt := some s.now, st := if c.st = .running then .draining else c.st } else c)))
    ∧ (bits v.toNat 5 0 = 8 → (s.core n).st = .idle → (∃ x ∈ (s.core n).saved, x.hdr.toNat = bits v.toNat 31 16) →
      exec (.resume by_ l v) s = .next (t.resumeSaved n (t.core n).ctlHdr))
    ∧ (bits v.toNat 5 0 = 16 → (s.core n).st = .running ∨ (s.core n).st = .waiting →
      exec (.teardown by_ l v) s = .next (t.teardownCore n))
    ∧ (bits v.toNat 5 0 = 32 → (s.core n).st = .idle →
      exec (.golden by_ l v) s = .next (t.onCore n (fun c => { c.wiped with st := .golden, variant := some (s.frameAt s.now % 16) }))))
  ∧ (∀ (s : State) (by_ : Initiator) (l : BitVec 6) (v : Word64), s.up = true →
    let n := s.phys l.toNat
    (∀ x ∈ ([(.reset by_ l v, 0), (.start by_ l v, 1), (.preempt by_ l v, 2), (.resume by_ l v, 3), (.teardown by_ l v, 4),
        (.golden by_ l v, 5)] : List (Instr × Nat)), v.getLsbD x.2 = true →
      (mayControl by_ = true → (bits v.toNat 5 0 ≠ 2 ^ x.2 ∨ s.ctlAccepted n x.2 v = false) → exec x.1 s = .next (s.ccErr n eCmd n))
      ∧ (mayControl by_ = false → exec x.1 s = .next (s.busFault by_ (0x2001000000 + l.toNat * 0x10000))))
    ∧ (v.getLsbD 1 = true → mayControl by_ = true → (bits v.toNat 5 0 ≠ 2 ∨ (s.core n).st ≠ .idle) →
      exec (.start by_ l v) s = .next (s.ccErr n eCmd n))
    ∧ (v.getLsbD 4 = true → mayControl by_ = true → (bits v.toNat 5 0 ≠ 16 ∨ ((s.core n).st ≠ .running ∧ (s.core n).st ≠ .waiting)) →
      exec (.teardown by_ l v) s = .next (s.ccErr n eCmd n))
    ∧ mayControl .island = true ∧ (∀ h, mayControl (.app h) = false) ∧ (∀ m, mayControl (.core m) = false)
    ∧ (∀ d, mayControl (.fabric d) = false))
  ∧ (∀ (s t u : State) (n : Nat) (hdr : BitVec 16) (ctx : BitVec 18) (part : BitVec 4) (runFrame : Nat) (h code tab : Bytes),
    let s0 := s.onCore n (fun c => { c with ctlHdr := hdr, ctlCtx := ctx, ctlPart := part })
    s0.pondRead n (hdr.toNat * 64) 64 = (t, h, false) →
    let p := parseHeader hdr h
    t.pondRead n (hdr.toNat * 64 + 64) (8 * min p.length 65536) = (u, code, false) →
    (u.pondRead n (fieldAt h 0x30 4) 128).2.1 = tab →
    let w := (u.pondRead n (fieldAt h 0x30 4) 128).1
    headerOk p h code ctx (w.core n).mode = true → outTableOk (w.core n) p.bank.toNat p.outMask.toNat tab = true → n < w.cores.length →
    let c := (s.startCore n hdr ctx part runFrame).core n
    c.st = .running ∧ c.pc = p.entry ∧ c.ctx = ctx ∧ c.prog = some p
    ∧ c.x = BitVec.ofNat 32 runFrame :: (s.ctxOf ctx.toNat).step :: List.replicate 14 0 ∧ c.lc = List.replicate 4 0
    ∧ c.v = (w.core n).v ∧ c.ctrs = (w.core n).ctrs
    ∧ ∀ o, o < 16 → p.outMask.getLsbD o = true →
        (c.out p.bank.toNat o).dest = some (outEntry tab o).2 ∧ (c.out p.bank.toNat o).count = (outEntry tab o).1
        ∧ (c.out p.bank.toNat o).base = ((w.core n).out p.bank.toNat o).next)

/-- Preemption and resumption, R82: a saved program writes its state to SAVE_AREA and gives up its core, and a RESUME with those bytes,
whatever fills the places the rule leaves open, restores the PC, X0 to X15, LC0 to LC3, V0 to V31, the release bases of its streams, the
header, the context and the partition. What a teardown leaves of a core, R83, and what RESET leaves, R85: no passes, moves or preemption
in flight, the moves that had taken numbers and the unsent numbers to be voided; a teardown keeps X, LC and V and clears both accumulator
buffers; RESET clears the sequencer, V0 to V31 and both buffers; both keep the counters and the streams. The model's choices in it: log
23. -/
def Obligations.PreemptionAndTeardown : Prop :=
  (∀ (s : State) (n : Nat) (p : Program) (fill : Bytes), (s.core n).prog = some p → n < s.cores.length → (s.core n).pc < 65536 →
    let u := s.saveCore n
    let v := u.resumeCore n p.hdr ((s.core n).saveBytes p fill)
    (u.core n).st = .idle ∧ (u.core n).prog = none ∧ (u.core n).ctx = 0
    ∧ u.mem = (s.pondWrite n p.saveArea ((s.core n).saveBytes p (Config.freeBytes s.fresh 116)) false).mem
    ∧ (v.core n).st = .running ∧ (v.core n).pc = (s.core n).pc
    ∧ (∀ i, i < 16 → (v.core n).x.getD i 0 = (s.core n).x.getD i 0) ∧ (∀ i, i < 4 → (v.core n).lc.getD i 0 = (s.core n).lc.getD i 0)
    ∧ (∀ r : BitVec 5, (v.core n).lanes r = (s.core n).lanes r)
    ∧ (∀ o, o < 16 → p.outMask.getLsbD o = true →
        ((v.core n).out p.bank.toNat o).base = ((s.core n).out p.bank.toNat o).base
        ∧ ((v.core n).out p.bank.toNat o).count = ((s.core n).out p.bank.toNat o).count)
    ∧ (v.core n).prog = some p ∧ (v.core n).ctx = p.ctx ∧ (v.core n).ctlPart = (s.core n).ctlPart
    ∧ (v.core n).atTb = false ∧ (v.core n).preemptAt = none)
  ∧ (∀ c : Core, c.st ≠ .withdrawn →
    (∀ d ∈ [c.torn, c.wiped],
      d.st = .idle ∧ d.ctx = 0 ∧ d.prog = none ∧ d.acc = [] ∧ d.mq = [] ∧ d.inArray = [] ∧ d.draining = [] ∧ d.tm = [none, none]
      ∧ d.tmq = [[], []] ∧ d.held = none ∧ d.waitOn = none ∧ d.preemptAt = none ∧ d.toVoid = c.toVoid ++ c.abortedMoves
      ∧ (∀ p, c.prog = some p → d.voidDue = c.voidDue ++ c.voidsOf p.bank.toNat p.outMask.toNat)
      ∧ d.ctrs = c.ctrs ∧ d.outs = c.outs ∧ d.err = c.err ∧ d.group = c.group ∧ d.saved = c.saved)
    ∧ c.torn.x = c.x ∧ c.torn.lc = c.lc ∧ c.torn.v = c.v
    ∧ c.wiped.pc = 0 ∧ c.wiped.x = List.replicate 16 0 ∧ c.wiped.lc = List.replicate 4 0 ∧ c.wiped.v = [])

/-- CC_ERR, R85: a bit set stays beside those set before, and FIRST_PC takes the PC when the register was clear. A tile boundary, R73, R80
to R82, R84 and R380: CC_SIG is latched and the unit CRCs restart, a held group change takes effect, the group's signatures are compared,
the core waits or runs on, a WAIT_SEQ for a number that cannot be compared is a violation, and a preempted core saves its state. Outside
any group nothing is compared or split. A core that stands at a boundary when it is preempted saves its state there. TILE_OVERRUN, R83: a
preempted program without a tile boundary after 2.5 us sets CC_ERR.TILE_OVERRUN and is torn down as R87 says. The model's choices in it:
logs 25, 39. -/
def Obligations.TileBoundariesAndFaults : Prop :=
  (∀ (c : Core) (b : Nat), b < 15 →
    (c.setErr b).err.getLsbD b = true ∧ (∀ k, k ≠ b → (c.setErr b).err.getLsbD k = c.err.getLsbD k)
    ∧ (c.err = 0 → (c.setErr b).firstPc = BitVec.ofNat 16 c.pc) ∧ (c.err ≠ 0 → (c.setErr b).firstPc = c.firstPc)
    ∧ c.setErr b = { c with err := (c.setErr b).err, firstPc := (c.setErr b).firstPc })
  ∧ (∀ (s : State) (n : BitVec 6), s.up = true →
    ((s.core n.toNat).reachesTb = true →
      let t := s.onCore n.toNat (fun c =>
        { c with
          sig := BitVec.ofNat 64 (crc64Add 0 ((c.unitCrc.map (fun v => beBytes 8 v.toNat)).flatten)), unitCrc := [0, 0, 0, 0, 0]
          atTb := true, tileEndPending := false, st := if c.waitOn.isSome then .waiting else .running })
      let g := match (s.core n.toNat).groupHeld with
        | some v => t.applyGroup n.toNat v
        | none => t
      let u := (g.compareSigs n.toNat).splitHere n.toNat
      ((u.core n.toNat).waitUnordered = true → exec (.tileBoundaryReached n) s = .next (u.coreFault n.toNat eSeqViol n.toNat))
      ∧ ((u.core n.toNat).waitUnordered = false → (u.core n.toNat).preemptAt = none → exec (.tileBoundaryReached n) s = .next u)
      ∧ ((u.core n.toNat).waitUnordered = false → (u.core n.toNat).preemptAt.isSome = true → (u.core n.toNat).busy = true →
        exec (.tileBoundaryReached n) s = .next (u.saveCore n.toNat))
      ∧ ((s.core n.toNat).groupHeld = none → t.groupOf (t.logical n.toNat) = none → u = t))
    ∧ ((s.core n.toNat).atTb = true → (s.core n.toNat).busy = true → (s.core n.toNat).preemptAt.isSome = true →
      exec (.tileBoundaryReached n) s = .next (s.saveCore n.toNat)))
  ∧ (∀ (s : State) (n : BitVec 6) (t : Nat), s.up = true → (s.core n.toNat).preemptAt = some t → (s.core n.toNat).busy = true →
    (s.core n.toNat).atTb = false → t + 2500 ≤ s.now → exec (.tileOverrun n) s = .next (s.coreFault n.toNat eTileOverrun n.toNat))

/-- CC_GROUP, R84 and R86: a write at a tile boundary takes effect at once, one between boundaries is held and applied at the next; a
value that breaks the rules leaves the core single and sets CC_ERR.CMD. While it is held, the register reads as written, DETECT being the
port's. The port's decision, R377: of three copies one that two agree on is released, of two one that both agree on; a copy that differs
from a released majority names its member; without agreement nothing is released. The model's choices in it: logs 16, 24, 28, 87. -/
def Obligations.GroupsChangeAndCompare : Prop :=
  (∀ (s : State) (v : Word64), s.up = true →
    let applied := fun (n : Nat) =>
      if s.groupValueOk n v.toNat then s.onCore n (fun c => { c with group := groupBits c.group v, groupHeld := none })
      else (s.onCore n (fun c => { c with group := 0, groupHeld := none })).ccErr n eCmd n
    (∀ by_ (l : BitVec 6), mayControl by_ = true → (s.core (s.phys l.toNat)).atBoundary = true →
      exec (.ccGroupWrite by_ l v) s = .next (applied (s.phys l.toNat)))
    ∧ (∀ by_ (l : BitVec 6), mayControl by_ = true → (s.core (s.phys l.toNat)).atBoundary = false →
      exec (.ccGroupWrite by_ l v) s = .next (s.onCore (s.phys l.toNat) (fun c => { c with groupHeld := some v })))
    ∧ (∀ n : BitVec 6, (s.core n.toNat).groupHeld = some v → (s.core n.toNat).atBoundary = true →
      exec (.groupChangeApply n) s = .next (applied n.toNat))
    ∧ ∀ old : Word64, (groupBits old v).getLsbD 25 = old.getLsbD 25 ∧ (∀ i, i < 24 → (groupBits old v).getLsbD i = v.getLsbD i)
        ∧ (groupBits old v).getLsbD 24 = false ∧ ∀ i, 26 ≤ i → (groupBits old v).getLsbD i = false)
  ∧ (∀ (s : State) (g : BitVec 5) (a b c : Word64), s.up = true → (s.groupRt g.toNat).split = false →
    let released := fun v => ({ s with sent := s.sent ++ [.groupWord g.toNat v] } : State)
    ((s.groupRt g.toNat).active = [0, 1, 2] →
      (a = b → b = c → exec (.groupPortDecide g a b c) s = .next (released a))
      ∧ (a = b → a ≠ c → exec (.groupPortDecide g a b c) s = .next ((released a).memberDeviates g.toNat 2 0))
      ∧ (a = c → a ≠ b → exec (.groupPortDecide g a b c) s = .next ((released a).memberDeviates g.toNat 1 0))
      ∧ (b = c → a ≠ b → exec (.groupPortDecide g a b c) s = .next ((released b).memberDeviates g.toNat 0 0))
      ∧ (a ≠ b → a ≠ c → b ≠ c → exec (.groupPortDecide g a b c) s = .next (s.groupMismatch g.toNat 1)))
    ∧ ∀ i j, (s.groupRt g.toNat).active = [i, j] →
        let x := ([a, b, c] : List Word64).getD i 0
        let y := ([a, b, c] : List Word64).getD j 0
        (x = y → exec (.groupPortDecide g a b c) s = .next (released x))
        ∧ (x ≠ y → exec (.groupPortDecide g a b c) s = .next (s.groupMismatch g.toNat 0)))

/-- The re-synchronisation of a member moves through its four stages, R383 and R386: the copy starts at a tile boundary of the members
that run; when it has landed the member's Pond, counters and golden area are the donor's; at the next boundary the donor sends its state;
then all members run again; but for a pair that re-forms, the counter of re-synchronisations rises by one. The model's choices in it: log
30. -/
def Obligations.ResynchronisationMovesOn : Prop :=
  ∀ (s : State) (g : BitVec 5) (m donor : Nat), s.up = true →
    let stage := fun (t : State) (st : ResyncSt) => t.onGroup g.toNat (fun x => { x with resync := some (m, donor, st) })
    ((s.groupRt g.toNat).resync = some (m, donor, .waitTb) → s.donorsAtBoundary g.toNat = true →
      exec (.resyncCopyStart g) s = .next (stage s .copying))
    ∧ ((s.groupRt g.toNat).resync = some (m, donor, .copying) →
      exec (.resyncCopyLanded g) s = .next (stage (s.landCopy g.toNat m donor) .landed))
    ∧ ((s.groupRt g.toNat).resync = some (m, donor, .landed) → s.donorsAtBoundary g.toNat = true →
      exec (.resyncStateSend g) s = .next (stage (s.landCopy g.toNat m donor) .stateSent))
    ∧ ((s.groupRt g.toNat).resync = some (m, donor, .stateSent) →
      ∃ u, exec (.resyncRestart g) s = .next u ∧ (u.groupRt g.toNat).resync = none
        ∧ ((s.groupRt g.toNat).split = false → u.sched.resyncs = s.sched.resyncs + 1)
        ∧ (u.groupRt g.toNat).active = (List.range (s.groupPhys g.toNat).length).filter (fun i => (s.groupRt g.toNat).active.contains i || i == m))


/-! ## The schedule -/

/-- RELEASE of a WORK entry with CONTINUE clear and RADIO_ENTRY of a RADIO entry, at the entry's instant, R302, R306 and R551: the release
is made, on its cores at once with the run frame number counted from RUN_FRAME0 (R75), or held until its group is whole, its cores free
and its model resident, with the load requested; with its banks lost it is not made (R298), nor when every START is refused (R79). A triad
first takes back the members whose re-synchronisation was stopped (R384). HELD_RELEASE_START starts a held one with the run frame of its
release. CONTINUE_ENTRY resumes the release of its target when it is preempted (R302, R305), POOL_ENTRY serves its partition's jobs, the
preempted one first, else the queued one of highest PRIO (R321), SLACK_RESUME resumes preempted work or starts a BACKGROUND job on a free
core, or a group of free cores, whose occupant is the slack (R294, R304, R305). OCCUPANT_PREEMPT sends PREEMPT to every member of the
occupant's group 3 us before a new occupant, a segment or an entry with other work (R304); ENTRY_END sends it to work that throttling
keeps out of the slack (R305, R518), and leaves other work running. The model's choices in it: logs 38, 104, 112. -/
def Obligations.ReleasesAndEntries : Prop :=
  (∀ (s : State) (e : Nat) (w : WorkEntry), s.workEntry e = some w →
    let u := s.rejoin w
    let f := u.frameAt u.now
    let add := fun (r : Rel) => u.onSched (fun x => { x with rels := x.rels ++ [r] })
    let made := fun (t : State) =>
      (u.entryLost w = false → u.startable w = true → t =
        ((add (u.releaseOf e w .running)).startOn (u.entryPhys w) w.modelId w.prog w.ctx w.part (f - u.tb.runFrame0) (.rel e f)).unlessRefused e f)
      ∧ (u.entryLost w = false → u.startable w = false → t = (add (u.releaseOf e w .held)).requestLoad w.modelId none w.part)
      ∧ (u.entryLost w = true → t = add (u.releaseOf e w .notMade))
    (s.entryStarts w = true → w.kind = 0 → w.isContinue = false → ∃ t, exec (.release e) s = .next t ∧ made t)
    ∧ (s.entryStarts w = true → w.kind = 1 → ∃ t, exec (.radioEntry e) s = .next t ∧ made t)
    ∧ ∀ r, s.heldRelease e = some r → s.up = true → s.inRun = true → s.sched.stopped = false → u.startable w = true →
        exec (.heldReleaseStart e) s = .next
          (((u.onSched (fun x => { x with rels := x.rels.map (fun y => if y = r then { y with st := .running } else y) })).startOn
            (u.entryPhys w) w.modelId w.prog w.ctx w.part (r.frame - u.tb.runFrame0) (.rel r.entry r.frame)).unlessRefused r.entry r.frame))
  ∧ ((∀ (s : State) (e : Nat) (w : WorkEntry), s.workEntry e = some w → s.entryStarts w = true →
    (∀ r, w.kind = 0 → w.isContinue = true → s.continued w = some r → r.st = .preempted → s.startable w = true →
      exec (.continueEntry e) s = .next ((s.entryPhys w).foldl (fun t n => t.resumeSaved n (s.hdrOf w.modelId w.prog)) s))
    ∧ (let u := s.rejoin w
      w.kind = 2 → u.startable { w with modelId := noModel } = true →
      (∀ j, u.preemptedJob w.part (u.entryPhys w) = some j →
        exec (.poolEntry e) s = .next ((u.entryPhys w).foldl (fun t n => t.resumeSaved n (u.hdrOf j.model j.prog)) u))
      ∧ ∀ j, u.preemptedJob w.part (u.entryPhys w) = none → u.nextJob w.part = some j →
        exec (.poolEntry e) s = .next (u.startJob j (u.entryPhys w))))
  ∧ ∀ (s : State) (n : BitVec 6), s.up = true → s.inFrames = true → s.sched.stopped = false →
    (∀ m ∈ s.workers n.toNat, s.coreFree m = true ∧ s.occupantAt m s.now = .slack) →
    (∀ v, s.slackCandidate n.toNat = some v →
      exec (.slackResume n) s = .next ((s.workers n.toNat).foldl (fun t m => t.resumeSaved m v.hdr) s))
    ∧ ∀ j, s.slackCandidate n.toNat = none → s.backgroundJob n.toNat = some j → exec (.slackResume n) s = .next (s.startJob j [n.toNat]))
  ∧ ((∀ (s : State) (n : BitVec 6), s.up = true → s.inFrames = true → (s.core n.toNat).busy = true →
    (s.occupantAt n.toNat (s.now + 3000) = .segment
      ∨ ∃ i w, s.occupantAt n.toNat (s.now + 3000) = .entry i w ∧ s.sameWork n.toNat i w = false) →
    exec (.occupantPreempt n) s = .next ((s.members n.toNat).foldl (fun t m => t.onCore m (fun c => c.requested t.now)) s))
  ∧ ∀ (s : State) (e : Nat) (w : WorkEntry), s.workEntry e = some w → s.up = true → s.inFrames = true → s.now = s.thisFrame + w.to_ →
    exec (.entryEnd e) s = .next (if s.pwr.level = 0 ∨ s.rated w.part = true then s
      else (s.entryPhys w).foldl (fun t m => t.onCore m (fun c => c.requested t.now)) s))

/-- Golden tests, R307, R308, R388 and R389: 3 us before the slot its cores are preempted; at the slot's start each runs the test of
variant frame mod 16, work without a tile boundary being torn down; the test's end leaves the sequencer reset, both buffers empty and the
signature in CC_SIG; the island then checks every core's signature, and withdraws a core that fails at class 3. Structural self-test,
R310, R311, R313 and R390: a segment starts on a free core where it is allowed and fits; its end resets the core and counts the segment, a
deviating signature withdraws the core at class 3, and a complete set ends TEST_DUE. Remaps, R297, R298, R312 and R313: one starts when
its work and both places of every move stand at a tile boundary; work on the substitutes of a withdrawn core is torn down, and the moves
are recorded; with landing confirmed it completes with the banks copied but for those with a bad word, or after 5 us without confirmation
with all four banks lost. The model's choices in it: logs 29, 71, 99. -/
def Obligations.TestsAndRemaps : Prop :=
  ((∀ (s : State) (slot : Nat) (g : GoldenEntry), s.goldenEntry slot = some g → s.up = true →
    (s.inFrames = true → slot ∉ s.sched.goldenSlots → (s.now + 3000 = s.thisFrame + g.from_ ∨ s.now + 3000 = s.thisFrame + s.frameLen + g.from_) →
      exec (.goldenDrain slot) s = .next ((((s.goldenPhys g).foldl State.preemptCore s).stopCopies slot).onSched (fun x =>
        { x with goldenSlots := x.goldenSlots ++ [slot] })))
    ∧ (s.inFrames = true → s.now = s.thisFrame + g.from_ →
      exec (.goldenSlotStart slot) s = .next ((((s.goldenPhys g).filter (fun n => !s.isWithdrawn n)).foldl (fun t n =>
        let u := if (t.core n).busy then t.coreFault n eTileOverrun n else t
        u.onCore n (fun c => { c.wiped with st := .golden, variant := some (u.frameAt u.now % 16), since := some u.now })) s).onSched
          (fun x => { x with goldenSlots := x.goldenSlots.filter (· != slot) ++ [slot] })))
    ∧ (s.aonUp = true → s.slotOver slot g = true → s.thisFrame + g.from_ ≤ s.now →
      exec (.goldenCheck slot) s = .next ((((s.goldenPhys g).filter (fun n => !s.isWithdrawn n)).foldl (fun t n =>
        t.checkGolden n (s.frameAt s.now)) s).onSched (fun x => { x with goldenSlots := x.goldenSlots.filter (· != slot) }))))
  ∧ (∀ (s : State) (n : BitVec 6) (sig : Word64), s.up = true → (s.core n.toNat).st = .golden →
    exec (.goldenTestEnd n sig) s = .next ((s.chargeCore n.toNat).onCore n.toNat (fun c =>
      { c.wiped with st := if s.beingRestored n.toNat then .resync else .idle, sig := sig })))
  ∧ ∀ (s : State) (n frame v : Nat), (s.core n).variant = some v →
    (((s.core n).st = .idle ∨ (s.core n).st = .resync) → (s.core n).sig = s.isl.expected.getD v 0 →
      s.checkGolden n frame = (s.onCore n (fun c => { c with variant := none })).onCore n (fun c => { c with goldenLast := frame }))
    ∧ ((¬ ((s.core n).st = .idle ∨ (s.core n).st = .resync) ∨ (s.core n).sig ≠ s.isl.expected.getD v 0) →
      s.checkGolden n frame = ((((s.onCore n (fun c => { c with variant := none })).onSched (fun x =>
        { x with goldenFail := x.goldenFail + 1 })).raise n 33 0 3 n).withdrawCore n)))
  ∧ (∀ (s : State) (n : BitVec 6), s.up = true →
    (s.inFrames = true → s.coreFree n.toNat = true → (s.core n.toNat).segsDone < s.cfg 0x230001 → s.segmentAllowed n.toNat = true →
      s.segmentFits n.toNat = true → exec (.segmentStart n) s = .next (s.onCore n.toNat (fun c => { c with st := .selftest, since := some s.now })))
    ∧ ∀ sig : Word64, (s.core n.toNat).st = .selftest →
      let k := (s.core n.toNat).segsDone
      let t := (s.chargeCore n.toNat).onCore n.toNat (fun c => { c.wiped with segsDone := k + 1 })
      (sig.toNat = s.segSig k → k + 1 < s.cfg 0x230001 → exec (.segmentEnd n sig) s = .next t)
      ∧ (sig.toNat = s.segSig k → s.cfg 0x230001 ≤ k + 1 → exec (.segmentEnd n sig) s = .next (t.testSetDone n.toNat))
      ∧ (sig.toNat ≠ s.segSig k → exec (.segmentEnd n sig) s = .next
          (((t.onSched (fun x => { x with selftestFail := x.selftestFail + 1 })).raise n.toNat 34 0 3 n.toNat).withdrawCore n.toNat)))
  ∧ (∀ (s : State) (n : BitVec 6), s.up = true →
    (s.inRun = true → (∀ r ∈ s.sched.remaps, r.old ≠ n) → s.workAtBoundary n.toNat = true → s.remapPlan n.toNat ≠ [] →
      s.placesFree (s.remapPlan n.toNat) = true →
      exec (.remapStart n) s = .next ((if s.remapTakes (s.remapPlan n.toNat) = true
        then (s.remapPlan n.toNat).foldl (fun t p => t.teardownCore p.2) s else s).onSched (fun x =>
        { x with remaps := x.remaps ++ (s.remapPlan n.toNat).map (fun p =>
            { logical := BitVec.ofNat 6 p.1, old := BitVec.ofNat 6 (s.phys p.1), new := BitVec.ofNat 6 p.2, since := s.now }) })))
    ∧ (∀ bad, s.remapsOf n.toNat ≠ [] → exec (.remapComplete n bad) s = .next (s.finishRemap (s.remapsOf n.toNat) bad))
    ∧ ((∃ r ∈ s.remapsOf n.toNat, r.since + 5002 ≤ s.now) → exec (.remapTimeout n) s = .next (s.finishRemap (s.remapsOf n.toNat) 0xF)))

/-- DEADLINE_CHECK at an expired deadline, R34, R314 and R315: a release completed in time is closed and its run of misses ends; a
completion after the deadline, or none, is a miss that is logged, reported and counted, and what still runs is torn down; a job completes
with DEADLINE, running work being torn down and preempted work discarded. -/
def Obligations.DeadlinesAreChecked : Prop :=
  ∀ (s : State), s.up = true → s.inRun = true →
    (∀ e w r, s.workEntry e = some w → s.dueRelease e = some r →
      let gone := fun (t : State) => t.onSched (fun x => { x with rels := x.rels.filter (fun y => !(y.entry == r.entry && y.frame == r.frame)) })
      (∀ t, r.completed = some t → t ≤ r.deadline →
        exec (.deadlineCheck (.entry e)) s = .next ((gone s).onSched (fun x =>
          { x with missRun := sdel x.missRun r.entry
                   deadlineMarginal := if r.deadline - t ≤ 64 then x.deadlineMarginal + 1 else x.deadlineMarginal })))
      ∧ (∀ t, r.completed = some t → r.deadline < t →
        exec (.deadlineCheck (.entry e)) s = .next (((gone s).missed w.part w.ctx r.entry r.frame).countMiss r.entry w.part))
      ∧ (r.completed = none →
        exec (.deadlineCheck (.entry e)) s = .next (((gone (s.dropRelease r w)).missed w.part w.ctx r.entry r.frame).countMiss r.entry w.part)))
    ∧ ∀ (p : BitVec 4) (q : Word) (j : Job),
      s.sched.jobs.find? (fun j => j.part == p && j.seq == q && j.deadline != 0 && decide (j.deadline + 2 ≤ s.now)) = some j →
      let ns := (j.core.map (fun c => s.members c.toNat)).getD []
      let gone := fun (t : State) => t.onSched (fun x => { x with jobs := x.jobs.filter (fun y => !(y.part == j.part && y.seq == j.seq)) })
      let ends := fun (t : State) (used : Nat) =>
        (t.complete j.part.toNat j.seq 8 used).missed j.part.toNat j.ctx.toNat 0xFFFF (s.frameAt s.now)
      (j.st = .running →
        let c := ns.foldl State.chargeCore s
        exec (.deadlineCheck (.job p q)) s = .next (ends (ns.foldl State.teardownCore (gone c)) (c.jobNs j)))
      ∧ (j.st = .preempted → exec (.deadlineCheck (.job p q)) s = .next
          (ends ((gone s).discardOn ns (s.hdrOf j.model j.prog) j.ctx.toNat j.part.toNat) (s.jobNs j)))
      ∧ (j.st ≠ .running → j.st ≠ .preempted → exec (.deadlineCheck (.job p q)) s = .next (ends (gone s) (s.jobNs j)))


/-! ## Commands and contexts -/

/-- A read of SUBMIT, R316 to R318: with no reason to refuse, the record of the slot is accepted with the next number, which the read
returns, and it waits (an opcode of no command completes with OPCODE at once, R320); refused, the read returns the reason and nothing is
accepted. A record that fails its checks completes with the status of R320 and has no other effect: RUN_JOB, OPEN, FORK, BLOCK, UNBLOCK,
TEARDOWN, MODEL_LOAD, MODEL_PIN, SPLIT_PAIR and REFORM_PAIR by their own checks, LEAVE by those of its context, CTX_QUERY with PERM for
another partition's context, and NOP, LEAVE and CTX_QUERY with a reserved bit set with RANGE. The model's choices in it: log 36. -/
def Obligations.SubmitAcceptsOrRefuses : Prop :=
  (∀ (s : State) (part : BitVec 4) (slot : Fin 12), s.up = true →
    let p := part.toNat
    let w := s.window p
    let at_ := 0x2000010000 + p * 0x1000 + 0x128 + slot.val * 0x40
    let c : Cmd := { seq := w.subNext, w0 := w.recWord slot.val 0, w1 := w.recWord slot.val 1, w2 := w.recWord slot.val 2, w3 := w.recWord slot.val 3 }
    (s.submitRefusal p slot.val = 0 → bits c.w0.toNat 7 0 ≤ 0x0C →
      ∃ t, exec (.submit part slot) s = .next t
        ∧ t.sent = s.sent ++ [.regData at_ (BitVec.ofNat 64 (2 ^ 32 + w.subNext.toNat))]
        ∧ (t.window p).cmds = w.cmds ++ [c] ∧ (t.window p).subNext = w.subNext + 1 ∧ (t.window p).pending = w.pending + 1
        ∧ sget 0 (t.window p).subStat slot.val = BitVec.ofNat 64 (2 ^ 32 + w.subNext.toNat))
    ∧ (s.submitRefusal p slot.val = 0 → 0x0C < bits c.w0.toNat 7 0 →
      ∃ u : State, exec (.submit part slot) s = .next ((u.complete p w.subNext 11 0).emit (.regData at_ (BitVec.ofNat 64 (2 ^ 32 + w.subNext.toNat))))
        ∧ (u.window p).cmds = w.cmds ++ [c] ∧ (u.window p).subNext = w.subNext + 1 ∧ (u.window p).pending = w.pending + 1)
    ∧ (s.submitRefusal p slot.val ≠ 0 →
      ∃ t, exec (.submit part slot) s = .next t
        ∧ t.sent = s.sent ++ [.regData at_ (BitVec.ofNat 64 (place (s.submitRefusal p slot.val) 40))]
        ∧ (t.window p).cmds = w.cmds ∧ (t.window p).subNext = w.subNext ∧ (t.window p).pending = w.pending ∧ (t.window p).refused = true))
  ∧ (∀ (s : State) (part : BitVec 4) (seq : Word) (c : Cmd),
    let p := part.toNat
    let done := fun (status : Nat) => (s.takeCmd part seq).complete p seq status 0
    (∀ x ∈ ([(0x01, s.runJobStatus p c, .runJob part seq), (0x02, s.openStatus p c, .open_ part seq), (0x03, s.forkStatus p c, .fork part seq),
        (0x05, s.blockStatus p c, .block part seq), (0x06, s.unblockStatus p c, .unblock part seq),
        (0x07, s.teardownStatus part c, .cmdTeardown part seq), (0x08, s.modelLoadStatus p c, .modelLoad part seq),
        (0x09, s.modelPinStatus p c, .modelPin part seq), (0x0A, s.splitStatus p c, .splitPair part seq),
        (0x0B, s.reformStatus p c, .reformPair part seq)] : List (Nat × Nat × Instr)),
      s.cmdOf part seq x.1 = some c → x.2.1 ≠ 0 → exec x.2.2 s = .next (done x.2.1))
    ∧ (c.form 0 0 0 = false →
      (s.cmdOf part seq 0x00 = some c → exec (.cmdNop part seq) s = .next (done 1))
      ∧ (s.cmdOf part seq 0x04 = some c → exec (.leave part seq) s = .next (done 1))
      ∧ (s.cmdOf part seq 0x0C = some c → exec (.ctxQuery part seq) s = .next (done 1)))
    ∧ (c.form 0 0 0 = true → s.ctxStatus p c.ctx ≠ 0 → s.cmdOf part seq 0x04 = some c →
      exec (.leave part seq) s = .next (done (s.ctxStatus p c.ctx)))
    ∧ (c.form 0 0 0 = true → (s.ctxOf c.ctx).st ≠ .free → (s.ctxOf c.ctx).part ≠ part → s.cmdOf part seq 0x0C = some c →
      exec (.ctxQuery part seq) s = .next (done 3)))

/-- Each command of R319 whose accepted record waits and passes its checks (status 0) is taken up and has its effect: NOP completes;
RUN_JOB queues its job, asks for its model and the pools are served (R321, R329); OPEN and FORK allocate a context (R168, R177); LEAVE,
BLOCK and UNBLOCK mark theirs and wait for the step boundary (R167, R325); TEARDOWN cancels a job or tears a context down (R323);
MODEL_LOAD completes for a resident model, else queues its load (R329); MODEL_PIN sets the pin (R331); SPLIT_PAIR and REFORM_PAIR begin
(R324, R385, R386); CTX_QUERY completes with the context's state. The model's choices in it: logs 27, 34, 37. -/
def Obligations.CommandsComplete : Prop :=
  ∀ (s : State) (part : BitVec 4) (seq : Word) (c : Cmd),
    let t := s.takeCmd part seq
    let p := part.toNat
    let waits := fun (op : Nat) => s.cmdOf part seq op = some c
    let m := BitVec.ofNat 32 c.w1.toNat
    let job : Job :=
      { part := part, seq := seq, model := m, prog := bits c.w1.toNat 47 32, prio := bits c.w1.toNat 55 48, arg := bits c.w2.toNat 47 0,
        deadline := c.w3.toNat, ctx := BitVec.ofNat 18 c.ctx, irq := c.w0.getLsbD 8, st := .queued }
    let wait := fun (u : State) (op : Nat) => u.onCtx (fun x => { x with waiters := x.waiters ++ [(BitVec.ofNat 18 c.ctx, part, seq, op)] })
    (waits 0x00 → c.form 0 0 0 = true → exec (.cmdNop part seq) s = .next (t.complete p seq 0 0))
    ∧ (waits 0x01 → s.runJobStatus p c = 0 → exec (.runJob part seq) s = .next
        (((t.onSched (fun x => { x with jobs := x.jobs ++ [job] })).requestLoad m none p).servePools))
    ∧ (waits 0x02 → s.openStatus p c = 0 → exec (.open_ part seq) s = .next (t.allocCtx part seq (openCtx part c)))
    ∧ (waits 0x03 → s.forkStatus p c = 0 → exec (.fork part seq) s = .next (t.forkCtx part seq c))
    ∧ (waits 0x04 → c.form 0 0 0 = true → s.ctxStatus p c.ctx = 0 → exec (.leave part seq) s = .next
        (wait (t.onCtxEntry c.ctx (fun x => { x with leave := true })) 4))
    ∧ (waits 0x05 → s.blockStatus p c = 0 → exec (.block part seq) s = .next
        (wait (t.onCtxEntry c.ctx (fun x => { x with wantBlock := some c.w1.toNat })) 5))
    ∧ (waits 0x06 → s.unblockStatus p c = 0 → exec (.unblock part seq) s = .next
        (wait (t.onCtxEntry c.ctx (fun x => { x with wantUnblock := true })) 6))
    ∧ (waits 0x07 → s.teardownStatus part c = 0 → (bits c.w1.toNat 31 0 = 0 → exec (.cmdTeardown part seq) s = .next
          ((t.tearCtx c.ctx).complete p seq 0 0))
        ∧ (∀ j, bits c.w1.toNat 31 0 ≠ 0 → t.jobOf part m = some j → exec (.cmdTeardown part seq) s = .next ((t.tearJob j).complete p seq 0 0)))
    ∧ (waits 0x08 → s.modelLoadStatus p c = 0 → exec (.modelLoad part seq) s = .next
        (if t.resident m then (t.useModel m).complete p seq 0 0 else t.requestLoad m (some (part, seq)) p))
    ∧ (waits 0x09 → s.modelPinStatus p c = 0 → exec (.modelPin part seq) s = .next
        ((t.onSched (fun x => { x with models := x.models.map (fun k => if k.id = m then { k with pinned := c.w1.getLsbD 32 } else k) })).complete
          p seq 0 0))
    ∧ (waits 0x0A → s.splitStatus p c = 0 →
        let u := t.onGroup (bits c.w1.toNat 4 0) (fun x => { x with cmd := some (part, seq) })
        exec (.splitPair part seq) s = .next (if u.pairAtBoundary (bits c.w1.toNat 4 0) then u.finishSplit (bits c.w1.toNat 4 0) else u))
    ∧ (waits 0x0B → s.reformStatus p c = 0 →
        let g := bits c.w1.toNat 4 0
        exec (.reformPair part seq) s = .next
          ((t.onGroup g (fun x => { x with cmd := some (part, seq), resync := some (1, 0, .waitTb) })).onCore ((t.groupPhys g).getD 1 0)
            (fun k => { k with group := groupWord 1 (((t.groupEntry g).map (·.gclk)).getD 0) 1 (t.groupPhys g), st := .resync })))
    ∧ (waits 0x0C → c.form 0 0 0 = true → ((s.ctxOf c.ctx).st = .free ∨ (s.ctxOf c.ctx).part = part) →
        exec (.ctxQuery part seq) s = .next (t.complete p seq 0 ((s.ctxOf c.ctx).st.code
          + if (s.ctxOf c.ctx).marked || (s.ctxOf c.ctx).st == .blocked then 256 else 0)))

/-- A completion, R317 and R320: its record of 16 bytes lands in the partition's ring at the slot of its number, the record's command
leaves the window, PENDING falls by one and CMPL_LAST names it; with CQ_FAULT set, or no ring, it is held instead; CQ_FAULT_CLEAR tries
the held ones again in their order. MODEL_LOAD_COMPLETE, R329 and R330: the load at the head of the queue lands when room can be made, its
scale table with it, and the pools are served. The model's choices in it: logs 26, 37. -/
def Obligations.CompletionsAndLoadsLand : Prop :=
  (∀ (s : State) (part : BitVec 4) (seq : Word) (status result : Nat) (x : Cmd),
    let p := part.toNat
    let w := s.window p
    let k : Completion := { seq := seq, opcode := x.w0.truncate 8, status := status, result := result, irq := x.w0.getLsbD 8 }
    w.cmds.find? (fun y => y.seq == seq) = some x →
    (∀ t, w.cqFault = false → 8 ≤ w.cqLog2.toNat → w.cqLog2.toNat ≤ 16 →
      s.engineWrite 3 srcSched (w.cqBase.toNat * 64 + 16 * (seq.toNat % 2 ^ w.cqLog2.toNat)) (completionBytes k) = (t, true) →
      let u := s.complete p seq status result
      (u.window p).cmplLast = seq ∧ (u.window p).pending = w.pending - 1 ∧ (u.window p).cmds = w.cmds.filter (fun y => y.seq != seq)
      ∧ (u.window p).cqFault = false ∧ u.mem = t.mem
      ∧ u.sent = if w.irqEn && x.w0.getLsbD 8 then t.sent ++ [.msi w.msiAddr.toNat w.msiData.toNat] else t.sent)
    ∧ ((w.cqFault = true ∨ w.cqLog2.toNat < 8 ∨ 16 < w.cqLog2.toNat) →
      s.complete p seq status result = s.onWindow p (fun y => { y with cqFault := true, heldCq := y.heldCq ++ [k] }))
    ∧ (completionBytes k).length = 16
    ∧ (s.up = true → w.cqFault = true → exec (.cqFaultClear part) s = .next (w.heldCq.foldl (fun t c => t.writeCompletion p c)
        (s.onWindow p (fun y => { y with heldCq := [], cqFault := false })))))
  ∧ (∀ (s t : State) (l : LoadReq) (rest : List LoadReq), s.up = true → s.sched.loads = l :: rest →
    s.makeRoom 65 (s.hotSet l.model) = some t →
    exec .modelLoadComplete s = .next ((t.modelLoaded l.model l.part).servePools))

/-- Contexts, R108, R190, R191, R196 and R198: a step boundary that is due on the leader updates the scales of the tensors written and
runs the order of R191; on another node the step waits for the leader's decision; the last byte of a swap-out or a swap-in lands and the
context is SWAPPED, or RESIDENT again, BLOCKED with the blocked mark; a leader's decisions are applied unchanged, and a marginal one is
counted; KDP_TIMEOUT_P after the boundary without a decision the node holds its step, logs it and reports the miss. KV pages, R176 to
R178: a page shared once more counts one reference more, one reference given up counts one less, and a page with no reference left is
free; pages of other numbers keep theirs. The model's choices in it: logs 50, 93, 96, 97. -/
def Obligations.ContextsAndPages : Prop :=
  (∀ (s : State), s.up = true →
    (∀ part model appends written reports, s.inRun = true → s.resident model = true → s.boundaryWaits part.toNat model = false →
      (∀ h ∈ s.ctx.heldSteps, ¬ (h.1 = part ∧ h.2 = model)) →
      ((∀ r ∈ reports, s.fab.nodeId.toNat < r.1.toNat) →
        let u := ((s.updateScales model written).endStep part.toNat model).applyBlocks part.toNat model
        let free := (s.updateScales model written).freePages part.toNat
        exec (.stepBoundary part model appends ⟨written, reports⟩) s = .next ((u.leaveStep (u.leavers part.toNat)).runBoundary
          { part := part.toNat, model := model, appends := appends, short := free - reports.foldl (fun a r => min a r.2) free
            nodes := reports.map (·.1)
            dec := { part := part, leaves := (u.leavers part.toNat).map (BitVec.ofNat 18), swaps := [], joins := [], appends := appends, written := written } }))
      ∧ ((∃ r ∈ reports, r.1.toNat ≤ s.fab.nodeId.toNat) → (∀ h ∈ s.ctx.awaiting, ¬ (h.1 = part ∧ h.2.1 = model)) →
        exec (.stepBoundary part model appends ⟨written, reports⟩) s = .next
          { s with ctx := { s.ctx with awaiting := s.ctx.awaiting ++ [(part, model, s.now)] } }))
    ∧ (∀ ctx : BitVec 18, (s.ctxOf ctx.toNat).st = .swappingOut →
        exec (.swapOutComplete ctx) s = .next ((s.finishSwapOut ctx.toNat).resumeBoundary ctx.toNat))
    ∧ (∀ ctx : BitVec 18, (s.ctxOf ctx.toNat).st = .swappingIn → ∃ t, exec (.swapInComplete ctx) s = .next t
        ∧ (t.ctxOf ctx.toNat).st = (if (s.ctxOf ctx.toNat).marked then .blocked else .resident)
        ∧ (t.ctxOf ctx.toNat).marked = false ∧ (t.ctxOf ctx.toNat).incoming = [])
    ∧ (∀ model (d : StepDecision), s.inRun = true → s.boundaryWaits d.part.toNat model = false →
        let late := (s.decisionExpiry d.part model).any (marginal s.now)
        exec (.stepDecisionReceive model d) s = .next
          ((({ s with dict := { s.dict with kdpMarginal := s.dict.kdpMarginal + (if late then 1 else 0) } } : State).updateScales
            model d.written).applyDecision model d))
    ∧ ∀ part model t, s.inRun = true → s.decisionExpiry part model = some t → t + 2 ≤ s.now →
        exec (.stepDecisionTimeout part model) s = .next
          ((({ s with ctx := { s.ctx with heldSteps := s.ctx.heldSteps ++ [(part, model)]
                                          awaiting := s.ctx.awaiting.filter (fun h => !(h.1 == part && h.2.1 == model)) } } : State).logEvent
            srcSched 2 .stepHeld [part.toNat, model.toNat]).raiseCtx srcSched 23 0 2 0 part.toNat model.toNat))
  ∧ (∀ (x : Contexts) (ch : BitVec 6) (i o n : Nat), i < 2 ^ 25 → sfind x.pages (pageNo ch i) = some (o, n) → 1 ≤ n →
    (sharePage x (.lake ch i)).count (.lake ch i) = n + 1 ∧ (dropPage x (.lake ch i)).count (.lake ch i) = n - 1
    ∧ (n = 1 → sfind (dropPage x (.lake ch i)).pages (pageNo ch i) = none)
    ∧ ∀ c j, j < 2 ^ 25 → (c, j) ≠ (ch, i) →
        (sharePage x (.lake ch i)).count (.lake c j) = x.count (.lake c j) ∧ (dropPage x (.lake ch i)).count (.lake c j) = x.count (.lake c j))


/-! ## Sensors -/

/-- Camera packets, R203, R205, R207, R211, R213, R215 and R231: a frame start with a good header opens a sample of every stream of its
virtual channel; a line that passes every check is converted and released to the stream's open sample, which counts it; a frame end closes
the samples, a sample short of lines as corrupt. A packet that matches no descriptor is counted. A corrected header error is noted first,
a packet with a bad header is dropped, and a line that fails a check is a violation with its reason. Ethernet frames, R203, R204 and R231:
a good frame that is no sensor's goes to the OS network path unchanged, a sensor's datagram is taken by its stream, and a frame that fails
the checks of R231 is a violation of its origin; a frame of a throttled origin beyond its allowance is discarded and counted (R550). The
model's choices in it: logs 54, 57. -/
def Obligations.SensorDataArrives : Prop :=
  (∀ (s : State) (door : BitVec 3) (vc : BitVec 4), s.up = true →
    let ns := s.cameraStreams door.toNat vc.toNat
    (ns ≠ [] → exec (.csi2FrameStart door vc .ok) s = .next (ns.foldl (fun t n => t.startCamera door.toNat vc.toNat n) s).pruneSamples
      ∧ exec (.csi2FrameEnd door vc .ok) s = .next (ns.foldl State.endCamera s).pruneSamples)
    ∧ (ns = [] → ∀ ecc, exec (.csi2FrameStart door vc ecc) s = .next (s.unmatchedPacket door.toNat)
      ∧ exec (.csi2FrameEnd door vc ecc) s = .next (s.unmatchedPacket door.toNat))
    ∧ (ns ≠ [] → exec (.csi2FrameStart door vc .corrected) s = .next
          (ns.foldl (fun t n => t.startCamera door.toNat vc.toNat n) (s.eccNote door.toNat vc.toNat .corrected)).pruneSamples
      ∧ exec (.csi2FrameEnd door vc .corrected) s = .next (ns.foldl State.endCamera (s.eccNote door.toNat vc.toNat .corrected)).pruneSamples
      ∧ exec (.csi2FrameStart door vc .bad) s = .next (s.eccDrop door.toNat vc.toNat)
      ∧ exec (.csi2FrameEnd door vc .bad) s = .next (s.eccDrop door.toNat vc.toNat))
    ∧ (∀ dt wc pixels crcOk comparable ecc, s.cameraStream door.toNat vc.toNat dt.toNat = none →
        exec (.csi2Line door vc dt wc pixels crcOk comparable ecc) s = .next (s.unmatchedPacket door.toNat))
    ∧ (∀ dt wc pixels crcOk comparable n, s.cameraStream door.toNat vc.toNat dt.toNat = some n →
        exec (.csi2Line door vc dt wc pixels crcOk comparable .bad) s = .next (s.cameraViolation door.toNat vc.toNat n (some 1))
        ∧ ∀ x, s.openCamera n = some x → (comparable = false → exec (.csi2Line door vc dt wc pixels crcOk comparable .ok) s = .next
            (s.cameraViolation door.toNat vc.toNat n (some 8)))
          ∧ (comparable = true → (8 * wc ≠ s.streamField n 0x1C 2 * pixelBits dt.toNat ∨ s.streamHeight n ≤ x.lines) →
            exec (.csi2Line door vc dt wc pixels crcOk comparable .ok) s = .next (s.cameraViolation door.toNat vc.toNat n (some 2))))
    ∧ (∀ n, s.openCamera n = none → s.captureCounts (s.cameraCapture n) = true → s.startCamera door.toNat vc.toNat n =
        (s.onStream n (fun r => { r with dropLines := false })).openSample
          { stream := BitVec.ofNat 7 n, seq := 0, capture := s.cameraCapture n, openedAt := s.now, settled := true })
    ∧ ∀ dt wc pixels n x, s.cameraStream door.toNat vc.toNat dt.toNat = some n → s.openCamera n = some x →
        8 * wc = s.streamField n 0x1C 2 * pixelBits dt.toNat → x.lines < s.streamHeight n → x.reason = 0 →
        let c := convertLine (s.streamProfile n) dt.toNat pixels
        exec (.csi2Line door vc dt wc pixels true true .ok) s = .next
          (((s.streamCount n 14 c.2).releaseLine x x.lines (fitBytes (s.streamField n 0x1C 2 * s.pixelBytes n) c.1)).onSample n x.seq
            (fun y => { y with lines := y.lines + 1 })))
  ∧ (∀ (s : State) (f : EthFrame), s.up = true →
    let v := violOf (ethOrigin f) s.spring.viols
    let t := s.onSpring (fun x => { x with viols := violRequest (ethOrigin f) true x.viols })
    (v.throttledSince = none ∨ v.admitted < s.cfg 0x400003 →
      (f.fcsOk = true → 64 ≤ f.bytes → f.bytes ≤ 9022 →
        (s.ethStream f = none → exec (.ethFrameReceive f) s = .next { t with sent := t.sent ++ [.toNetwork f.door.val f.payload] })
        ∧ (∀ n, s.ethStream f = some n → f.ipOk = true → f.fragment = false → f.udpOk = true →
            exec (.ethFrameReceive f) s = .next (t.udpSegment n f)))
      ∧ ((f.fcsOk = false ∨ f.bytes < 64 ∨ 9022 < f.bytes) →
        exec (.ethFrameReceive f) s = .next (t.springViolation (ethOrigin f) (8 + f.door.val) (s.ethStream f) 0)))
    ∧ (v.throttledSince.isSome = true → s.cfg 0x400003 ≤ v.admitted → s.ethStream f = none →
      exec (.ethFrameReceive f) s = .next (s.onSpring (fun x => { x with viols := violRequest (ethOrigin f) false x.viols }))))

/-- The payload decoders, R218 to R222: an idle decoder takes the first sample that is not stale; the decode ends after its cycles, in
time for its budget, with the records or reason 6, and one beyond its budget is abandoned with reason 5. Batches, R208 to R212 and R230: a
live batch closes at its tick with an outcome for every slot, and once every outcome is settled its samples are placed, its record is
written and its SIGNAL is sent. The model's choices in it: logs 41, 42, 56. -/
def Obligations.DecodersAndBatches : Prop :=
  (∀ (s : State) (dec : BitVec 1), s.up = true →
    (∀ y, s.spring.decoders.getD dec.toNat none = none → firstSample s.skipStale.decodable = some y →
      exec (.decodeStart dec) s = .next (s.skipStale.onSpring (fun x =>
        { x with decoders := setAt x.decoders dec.toNat (some ⟨y.stream, y.seq, s.now, s.decodeBudget y.stream.toNat⟩) })))
    ∧ ∀ e y, s.decoding dec.toNat = some (e, y) →
      (drcCycles y.data ≤ e.budget → e.start + drcCycles y.data ≤ s.now → exec (.decodeComplete dec) s = .next (s.finishDecode dec.toNat e y))
      ∧ (e.budget < drcCycles y.data → e.start + e.budget + 2 ≤ s.now → exec (.decodeBudgetExpiry dec) s = .next
          (((s.freeDecoder dec.toNat).onSample e.stream.toNat e.seq (fun z => { z with reason := 5, settled := true })).logEvent srcSpring 0
            .decodeAbandoned [e.stream.toNat, e.seq.toNat]).pruneSamples))
  ∧ (∀ (s : State) (b : BitVec 6),
    (s.closesNow b.toNat = true → ∃ t, exec (.batchClose b) s = .next t
      ∧ (t.batchRt b.toNat).closedAt = some s.now ∧ (t.batchRt b.toNat).frame = s.frameAt s.now % 2 ^ 32
      ∧ (t.batchRt b.toNat).slots = ((s.forgetSamples b.toNat).closeSlots b.toNat).2)
    ∧ (s.up = true → (s.batchRt b.toNat).closedAt.isSome = true → s.slotsSettled b.toNat = true →
      exec (.batchRecordWrite b) s = .next (s.finishBatch b.toNat)))


/-! ## The radio -/

/-- The links, R241, R242 and R286: an aligning link aligns; its SYSREF edge then stamps T_S and the link is up; a displaced periodic
edge, and an error of a link that is up, are violations; an error leaves the slots in progress IMPAIRED, a loss of alignment leaves them
LOST, is logged but for a throttled door (R287), and the link aligns anew. Slots and the gain, R243, R247, R254 and R255: a slot boundary
whose first sample has arrived ends the slot and begins the next; on the instance whose AGC its door follows, a measurement within half a
step of its target settles the gain, any other moves it by the rounded number of steps within 0 to 15 and waits for it to settle; the AGC
symbol's end freezes it. The model's choices in it: logs 9, 110. -/
def Obligations.RadioLinksAndSlots : Prop :=
  (∀ (s : State) (d : BitVec 1), s.up = true →
    ((s.radioDoor d.toNat).link = .aligning →
      exec (.jesdAlign d) s = .next (s.onRadioDoor d.toNat (fun x => { x with aligned := true }))
      ∧ ((s.radioDoor d.toNat).aligned = true → ∀ displaced,
          exec (.sysrefEdge d displaced) s = .next (s.onRadioDoor d.toNat (fun x => { x with link := .up, ts := some s.now }))))
    ∧ ((s.radioDoor d.toNat).link = .up →
      (s.jesdField d.toNat 1 1 = 1 → exec (.sysrefEdge d true) s = .next (s.radioViolation d.toNat 4))
      ∧ exec (.sysrefEdge d false) s = .next s
      ∧ (∀ crc12, exec (.jesdLinkError d crc12) s = .next ((s.doorCarriers d.toNat).foldl (fun t c => t.onCurSlot c (fun x =>
          { x with impaired := true })) (s.radioViolation d.toNat (if crc12 then 1 else 0))))
      ∧ ∀ elastic,
          let t := (s.doorCarriers d.toNat).foldl (fun t c => t.onCurSlot c (fun x => { x with lost := true }))
            ((s.radioViolation d.toNat (if elastic then 3 else 2)).onRadioDoor d.toNat (fun x => { x with link := .aligning, aligned := false, ts := none }))
          exec (.jesdAlignmentLoss d elastic) s = .next (if (violOf (d.toNat, 0, 0) s.radio.viols).throttledSince.isSome = true then t
            else t.logEvent (0xAB + d.toNat) 0 .radioLinkLost [d.toNat])))
  ∧ (∀ (s : State) (c : BitVec 2), s.up = true →
    (s.slotDue c.toNat = true → ∀ k, exec (.slotBoundary c k) s = .next (s.slotBoundary c.toNat (s.slotOnAir c.toNat) k))
    ∧ (∀ x, s.curSlot c.toNat = some x → x.frozen = false → x.settled = false → x.lost = false →
      s.leadsDoor c.toNat = true → (x.settling = false → ∀ power : Int,
        let step := max 1 (s.gainStep c.toNat)
        let e := signed 16 (s.carrierField c.toNat 0x1C 2) - power
        let gi := (clamp 0 15 ((x.gi : Int) + roundHalfEven (-e) step)).toNat
        exec (.agcWindowEnd c power) s = .next (if 2 * e.natAbs ≤ step then s.settleGain c.toNat
          else (s.onCurSlot c.toNat (fun y => { y with gi := gi, settling := true })).driveGain c.toNat gi))
      ∧ exec (.agcSettleEnd c) s = .next (s.onCurSlot c.toNat (fun y => { y with settling := false })))
    ∧ exec (.agcSymbolEnd c) s = .next (s.onCurSlot c.toNat (fun x =>
        if x.frozen then x else { x with frozen := true, unsettled := !x.settled })))

/-- SYNC_DETECTION, R251 to R253 and R255: outside the symbols that the own door transmits, a chip of the antenna SYNC_ANT at which at
most SYNC_MAX mismatches stand, after the dead time of the last detection, is reported with the best of its eight chips, freezes the gain
and starts the dead time. GRID_SYMBOL, R249 and R256: the symbol's samples go through the front end, which keeps its DC and its place, the
packet of the slot's next symbol is written to the grid ring, its number follows, clipped samples are counted, and after the fourteenth
the slot record is written. RF_TX_LIST_START runs the transmit list that is due on its door (R244). The model's choices in it: logs 9, 44. -/
def Obligations.DetectionsAndGrids : Prop :=
  (∀ (s : State) (c : BitVec 2) (chip : Word) (ant0 ant1 : Bytes) (power : Int) (x : SlotRt), s.up = true → s.curSlot c.toNat = some x →
    x.lost = false → bit x.txSym (s.chipSymbol c.toNat x.n chip.toNat) = false →
    let sI := s.syncChips c.toNat ant0 ant1 0
    let sQ := s.syncChips c.toNat ant0 ant1 1
    let len := s.carrierField c.toNat 0x16 2
    let pattern := s.entry (0x514000 + 256 * c.toNat)
    mismatches len 0 pattern sI sQ ≤ s.carrierField c.toNat 0x18 2 → (s.carrier c.toNat).noDetBefore ≤ chip.toNat →
    exec (.syncDetection c chip ant0 ant1 power) s = .next
      (s.detect c.toNat chip.toNat (bestChip len pattern sI sQ).1 (bestChip len pattern sI sQ).2 power x))
  ∧ ((∀ (s : State) (c : BitVec 2) (symbol : BitVec 4) (samples : Bytes) (x : SlotRt), s.up = true → s.gridSlot c.toNat = some x →
    symbol.toNat = x.symbols →
    let k := c.toNat
    let taps := tapStream (s.entry (0x510000 + 256 * k)) (s.carrier k).rxCount (s.carrier k).rxTail samples (s.carrier k).dc
    let pkt := fitBytes (s.packetLen k) (gridPacket (s.entry (0x510000 + 256 * k)) x.n x.symbols x.gi (12 * s.prbs k) taps.2)
    let w := (s.engineWrite 1 (frontSrc (s.carrierDoor k)) (s.gridAddr k x.n + x.symbols * s.packetLen k) pkt).1
    let y : SlotRt :=
      { x with symbols := x.symbols + 1, clip := x.clip + clipCount taps.2, gridSeq := if x.symbols = 0 then (s.carrier k).gridSeq else x.gridSeq }
    let u := ((w.onSlot k x.n (fun _ => y)).onCarrier k (fun v =>
      { v with gridSeq := v.gridSeq + 1, dc := taps.1, rxTail := samples, rxCount := v.rxCount + samples.length / 8 })).emit
        (.gridPacket k x.n x.symbols (s.carrier k).gridSeq.toNat)
    exec (.gridSymbol c symbol samples) s = .next (if x.symbols = 13 then u.writeSlot k y else u))
  ∧ ∀ (s : State) (d : BitVec 1) (t : Tx), s.up = true → s.listDue d.toNat = some t → (s.radioDoor d.toNat).transmitting = false →
    (s.radioDoor d.toNat).txStopped = false →
    exec (.rfTxListStart d) s = .next (({ s with sent := s.sent ++ [.spi d.toNat 0 (s.txList d.toNat t)] } : State).onRadioDoor d.toNat
      (fun x => { x with listEnd := s.now + (s.txList d.toNat t).length / 3 * 960, transmitting := true })))

/-- The decoder engines, R261, R262, R266, R267, R269 and R272: a granule of 64 bytes with a number not yet admitted lands and waits for
its turn; an idle engine starts the admitted job of earliest deadline, and the place it leaves is filled, or reports without decoding the
codeword of a lost or blanked slot; a job that ends in time delivers its decode or encode; a job past its deadline, no later than the
table of R268 gives, or one whose carrier has spent its share, is cut off and reported; an old LTE soft buffer is free. Transmission and
the validation gate, R274 to R277 and R283: the feedbacks due in an occasion's slot go out, or lapse where the carrier may not transmit or
its slot began unlocked; a descriptor in time for a free slot waits for it, one for a slot that is taken is reported as CONFLICT, one too
late as LATE; a candidate bank whose CRC, MUST_PASS vectors and count hold is to be swapped in, any other is refused and counted. The
model's choices in it: logs 45, 59, 106, 107, 110. -/
def Obligations.DecodersAndTransmission : Prop :=
  (∀ (s : State) (e : BitVec 1), s.up = true →
    (∀ job : Bytes, job.length = 64 → serialAfter (s.decoder e.toNat).next (jobSeq job) = false →
      (∀ j ∈ (s.decoder e.toNat).landed, jobSeq j ≠ jobSeq job) →
      exec (.decoderJobLand e job) s = .next (s.onDecoder e.toNat (fun x => admitJobs 64 { x with
        landed := x.landed.filter (fun j => (jobSeq j).toNat % 1024 != (jobSeq job).toNat % 1024) ++ [job] })))
    ∧ (∀ j, (s.decoder e.toNat).running = none → s.nextDecode e.toNat = some j →
      let u := s.onDecoder e.toNat (fun x => admitJobs 64 { x with pending := x.pending.filter (fun k => jobSeq k != jobSeq j) })
      (s.slotOutcome j = none → exec (.decoderJobStart e) s = .next (u.onDecoder e.toNat (fun x => { x with running := some (j, s.now) })))
      ∧ ∀ o, s.slotOutcome j = some o → exec (.decoderJobStart e) s = .next (u.cutJob e.toNat j o))
    ∧ (∀ j t, (s.decoder e.toNat).running = some (j, t) →
      (s.now ≤ s.jobLimit j → exec (.decoderJobComplete e) s = .next
        (if jobOp j = 0 then (s.endJob e.toNat).finishDecodeJob e.toNat j else (s.endJob e.toNat).finishEncodeJob e.toNat j))
      ∧ (s.jobLimit j + 2 ≤ s.now → exec (.decoderDeadline e (jobSeq j)) s = .next ((s.endJob e.toNat).cutJob e.toNat j 2))
      ∧ (s.shareLeft e.toNat (jobCarrier j) = 0 → exec (.decoderShareStop e) s = .next ((s.endJob e.toNat).cutJob e.toNat j 3)))
    ∧ (∀ j, (s.decoder e.toNat).running.map (fun r => jobSeq r.1) ≠ some (jobSeq j) → (s.decoder e.toNat).pending.find? (fun k => jobSeq k == jobSeq j) = some j →
      s.jobLimit j < s.now → exec (.decoderDeadline e (jobSeq j)) s = .next
        ((s.onDecoder e.toNat (fun x => admitJobs 64 { x with pending := x.pending.filter (fun k => jobSeq k != jobSeq j) })).cutJob e.toNat j 2))
    ∧ ∀ (c : BitVec 2) (slot : Word) (subch : Byte), s.carrierField c.toNat 0 1 = 0 → s.fullSlot c.toNat slot.toNat + 16 ≤ s.slotNow c.toNat →
      exec (.harqBufferExpiry c slot subch) s = .next (s.onCarrier c.toNat (fun x =>
        { x with harq := x.harq.filter (fun h => h.key != (s.fullSlot c.toNat slot.toNat, subch.toNat, 0)) })))
  ∧ (∀ (s : State) (c : BitVec 2), s.up = true →
    (∀ x, s.curSlot c.toNat = some x → s.carrierField c.toNat 0x10 1 ≠ 0 → x.n % s.carrierField c.toNat 0x10 1 = 0 →
      (s.tb.lock = .locked → x.synced = true → (s.radioDoor (s.carrierDoor c.toNat)).link = .up → (s.radioDoor (s.carrierDoor c.toNat)).txStopped = false →
        s.carrierField c.toNat 0x0E 1 = 1 → exec (.psfchOccasion c) s = .next (s.sendFeedback c.toNat x.n))
      ∧ ((s.tb.lock ≠ .locked ∨ x.synced = false ∨ (s.radioDoor (s.carrierDoor c.toNat)).link ≠ .up
          ∨ (s.radioDoor (s.carrierDoor c.toNat)).txStopped = true ∨ s.carrierField c.toNat 0x0E 1 ≠ 1) → exec (.psfchOccasion c) s = .next (s.onCarrier c.toNat (fun y =>
          { y with feedback := y.feedback.filter (fun f => decide (x.n < f.slot)) }))))
    ∧ (∀ desc : Bytes, (s.carrier c.toNat).on = true → desc.length = 64 →
      let n := s.fullSlot c.toNat (fieldAt desc 8 4)
      (s.txInTime c.toNat n = true → s.carrierField c.toNat 0x0E 1 = 1 → fieldAt desc 4 1 = c.toNat → fieldAt desc 5 1 ≤ 1 → (∀ t ∈ (s.carrier c.toNat).txs, t.slot ≠ n) →
        exec (.txDescriptorLand c desc) s = .next (s.onCarrier c.toNat (fun x => { x with txs := x.txs ++ [{ slot := n, bytes := desc }] })))
      ∧ (s.txInTime c.toNat n = true → (∃ t ∈ (s.carrier c.toNat).txs, t.slot = n) →
        exec (.txDescriptorLand c desc) s = .next (s.txReport c.toNat desc 2))
      ∧ (s.txInTime c.toNat n = false → exec (.txDescriptorLand c desc) s = .next (s.txReport c.toNat desc 1)))
    ∧ ∀ crc b mustPass candidate active, (s.carrier c.toNat).verdict = 1 → (s.carrier c.toNat).candidate = some (crc, b) →
      (crc32c (s.bankBytes c.toNat b) = crc.toNat → mustPass = true → active ≤ candidate →
        exec (.validationComplete c mustPass candidate active) s = .next (s.onCarrier c.toNat (fun x => { x with verdict := 2, swapAfter := some s.now })))
      ∧ ((crc32c (s.bankBytes c.toNat b) ≠ crc.toNat ∨ mustPass = false ∨ candidate < active) →
        exec (.validationComplete c mustPass candidate active) s = .next
          ((s.onCarrier c.toNat (fun x => { x with verdict := 3, candidate := none })).radioCount c.toNat 21)))


/-! ## Memory and faults -/

/-- MEMORY_ACCESS, R43, R44, R361 and R362, at the address where it is served (an address that names the node's own id is local, R429): an
access to memory that the Shutters permit and that need not wait is served; one refused meets the reaction of R362; one that must wait
joins the waiting accesses (R336, R354, R359); one that leaves the memory, or is to a reserved address, is a decode error, by which an
engine's context is torn down; one to another node leaves by the fabric (R429); any other is an access to registers. A served write by the
island, an engine or an application core to the Reservoir leaves its bytes there and no other byte of memory changes; a served read there
answers with the stored bytes and no bad word (R337, R338), and leaves every byte as it was. A Shutter refusal, R362 and R363: SH_VIOL_CNT
counts it, the refusing region's counter counts it, and while SH_VIOL_SRC.VALID is clear the address and the source are captured; memory's
bytes stay. The model's choices in it: logs 35, 74, 98. -/
def Obligations.MemoryAccessesComplete : Prop :=
  (∀ (s : State) (x : Access), s.up = true →
    let y : Access := { x with addr := s.homeAddr x.addr }
    let part := s.partOf y.by_
    let d := s.shutter y.by_ part y.addr y.len y.write.isSome
    let fails := fun (t : State) =>
      ((∀ p src, y.by_ ≠ .engine p src) → t = s.busFault y.by_ y.addr)
      ∧ (∀ p src, y.by_ = .engine p src → y.ctx = none → t = s.busFault y.by_ y.addr)
      ∧ (∀ p src c, y.by_ = .engine p src → y.ctx = some c →
          t = (s.raiseCtx src.toNat 29 0 2 c.toNat (s.ctxOf c.toNat).part.toNat (granule y.addr)).tearCtx c.toNat)
    (s.isMemory y.addr = true → s.isMemory (y.addr + y.len - 1) = true →
      (d.1 = true → s.mustWait y.addr y.len = false → exec (.memoryAccess x) s = .next (s.serveMemory y))
      ∧ (d.1 = true → s.mustWait y.addr y.len = true →
        exec (.memoryAccess x) s = .next { s with mem := { s.mem with waiting := s.mem.waiting ++ [y] } })
      ∧ (d.1 = false → exec (.memoryAccess x) s = .next (s.refusedBus y.by_ part y.addr y.write.isSome d.2)))
    ∧ ((s.isMemory y.addr = true ∧ s.isMemory (y.addr + y.len - 1) = false ∨ s.placeOf y.addr = .reserved) →
        ∃ t, exec (.memoryAccess x) s = .next t ∧ fails t)
    ∧ (∀ node a bs, s.placeOf y.addr = .remote node a → y.write = some bs →
        exec (.memoryAccess x) s = .next (s.remoteWrite y.by_ part node a bs y.poisonIn))
    ∧ (∀ node a, s.placeOf y.addr = .remote node a → y.write = none → exec (.memoryAccess x) s = .next (s.remoteRead y.by_ part node a y.len))
    ∧ (s.isMemory y.addr = false → s.placeOf y.addr ≠ .reserved → (∀ node a, s.placeOf y.addr ≠ .remote node a) →
        exec (.memoryAccess x) s = .next (s.registerAccess y)))
  ∧ (∀ (s : State) (x : Access), (∀ n, x.by_ ≠ .core n) → resBase ≤ x.addr → x.addr + x.len ≤ resBase + 0x4000000 → 0 < x.len → x.upset = 0 →
    s.mem.synd = [] → x.poisonIn = false →
    (∀ bs, x.write = some bs → bs.length = x.len →
      (s.serveMemory x).mem.bytes x.addr x.len = bs
      ∧ ∀ a, (a < x.addr ∨ x.addr + x.len ≤ a) → (s.serveMemory x).mem.byte a = s.mem.byte a)
    ∧ (x.write = none →
      (s.serveMemory x).sent = s.sent ++ [.readData x.by_ x.addr (s.mem.bytes x.addr x.len)]
      ∧ ∀ a, (s.serveMemory x).mem.byte a = s.mem.byte a))
  ∧ (∀ (s : State) (by_ : Initiator) (part a : Nat) (write : Bool) (q : Option Nat), (∀ n, by_ ≠ .core n) →
    let t := s.refuse by_ part a write q
    t.mem.violCnt = s.mem.violCnt + 1 ∧ t.mem.data = s.mem.data ∧ t.mem.synd = s.mem.synd
    ∧ (s.mem.violSrc.getLsbD 32 = false → t.mem.violAddr = BitVec.ofNat 64 a
        ∧ t.mem.violSrc = violSrcWord (s.sourceId (initiatorSource by_)) 0 q write)
    ∧ (s.mem.violSrc.getLsbD 32 = true → t.mem.violAddr = s.mem.violAddr ∧ t.mem.violSrc = s.mem.violSrc)
    ∧ (∀ r, q = some r → (t.region r).refused = min (2 ^ 32 - 1) ((s.region r).refused + 1)))

/-- The upkeep of the Lake, R342 to R346: an idle bank closes its page; a refresh is placed, postponed up to 8 times, or forced; the
fourth alert of one command in a row withdraws the channel, an earlier one is replayed and reported; training succeeds with the stored
remap table, or its third failure marks the channel FAILED. The model's choices in it: log 77. -/
def Obligations.LakeUpkeepCompletes : Prop :=
  ∀ (s : State) (ch : BitVec 6), s.up = true →
    let l := s.lake ch.toNat
    (∀ bank : BitVec 4, exec (.pageIdleClose ch bank) s = .next (s.onLake ch.toNat (fun l => { l with openRow := sdel l.openRow bank.toNat })))
    ∧ (∀ bank : BitVec 4,
        exec (.refreshDue ch bank false) s = .next (s.onLake ch.toNat (fun l => { l with postponed := sdel l.postponed bank.toNat }))
        ∧ (sget 0 l.postponed bank.toNat < 8 → exec (.refreshDue ch bank true) s = .next (s.onLake ch.toNat (fun l =>
            { l with postponed := sset 0 l.postponed bank.toNat (sget 0 l.postponed bank.toNat + 1) })))
        ∧ (8 ≤ sget 0 l.postponed bank.toNat → exec (.refreshDue ch bank true) s = .next (s.onLake ch.toNat (fun l =>
            { l with counters := sinc l.counters 4 }))))
    ∧ (l.state < 2 → l.alerts < 3 → exec (.lakeAlert ch) s = .next
        ((((s.lakeCount ch.toNat 3).onLake ch.toNat (fun l =>
          { l with alerts := l.alerts + 1, retryBuf := l.retryBuf.map (fun e => (s.now, e.2)) })).logEvent (0x40 + ch.toNat) 1 .caReplay
          [ch.toNat]).lakeReport ch.toNat 3 1 0))
    ∧ (l.state < 2 → 3 ≤ l.alerts → exec (.lakeAlert ch) s = .next
        (((s.onLake ch.toNat (fun l => { l with state := 3, alerts := 0 })).logEvent (0x40 + ch.toNat) 3 .lpFail [ch.toNat]).lakeReport ch.toNat 4 3 0))
    ∧ (l.trained = false → l.state = 0 →
        exec (.lakeTrainingComplete ch true) s = .next (s.onLake ch.toNat (fun l =>
          { l with trained := true, remap := (s.flash.lkRetired.filter (fun e => e.1 == ch.toNat)).map (·.2) }))
        ∧ (l.attempts < 2 → exec (.lakeTrainingComplete ch false) s = .next (s.onLake ch.toNat (fun l => { l with attempts := l.attempts + 1 })))
        ∧ (2 ≤ l.attempts → exec (.lakeTrainingComplete ch false) s = .next
            ((s.onLake ch.toNat (fun l => { l with attempts := 3, state := 2 })).onBoot (fun b =>
              { b with lakeFailed := b.lakeFailed ||| (1#64 <<< ch.toNat) }))))

/-- Scrubbing and retirement, R350 to R355: a scrub read corrects a correctable word in place unless newer data has landed, poisons an
uncorrectable one unless newer data has landed, and counts both; the end of a retirement copy enters the unit's pair in the remap table
and in the flash, and the next unit begins. Initialisation and LPDDR training, R336, R357 and R359: the end of a zero-fill lets the
waiting accesses of its tier proceed; training sets LP_TOP from the installed capacity and, at a cold boot, the first 256 MiB as
initialised; a channel's third failure goes to RECOVERY; the zero-fill advances by a group of 512 bytes, one that an access waits for
first. The model's choices in it: logs 33, 60. -/
def Obligations.MemoryUpkeepCompletes : Prop :=
  (∀ (s : State), s.up = true →
    (∀ tier addr u newer, s.inTier tier addr = true →
      exec (.scrubRead tier addr u newer) s = .next (((s.onMem (fun m => m.upset (s.store addr / 4) u)).scrubWord addr newer).scrubPassEnd addr))
    ∧ (∀ a newer,
      (decodeSyndrome (sget 0 s.mem.synd (s.store a / 4)) = .clean → s.scrubWord a newer = s)
      ∧ (∀ f, decodeSyndrome (sget 0 s.mem.synd (s.store a / 4)) = .correct f →
          s.scrubWord a false = (s.onMem (fun m => m.fix (s.store a / 4))).reportCe a ∧ s.scrubWord a true = s.reportCe a)
      ∧ (decodeSyndrome (sget 0 s.mem.synd (s.store a / 4)) = .ue →
          s.scrubWord a false = (s.onMem (fun m => m.poisonWord (s.store a / 4))).scrubUe a ∧ s.scrubWord a true = s.scrubUe a)
      ∧ (decodeSyndrome (sget 0 s.mem.synd (s.store a / 4)) = .poison → s.scrubWord a newer = s.reportPoison a))
    ∧ ∀ (ch : BitVec 6) u, (s.lake ch.toNat).copying = some u →
        let r := (s.readMem (ch.toNat * 0x8000000 + u * 0x4000) 0x4000).1
        let k := (s.lake ch.toNat).remap.length
        ∃ t : State, exec (.retirementCopyComplete ch) s = .next t.serveWaiting
          ∧ t.flash.lkRetired = s.flash.lkRetired ++ [(ch.toNat, u, k)] ∧ (t.lake ch.toNat).remap = (s.lake ch.toNat).remap ++ [(u, k)]
          ∧ (t.lake ch.toNat).copying = (r.lake ch.toNat).waiting.head?)
  ∧ (∀ (s : State), s.up = true →
    exec (.memoryInitComplete false) s = .next (s.onMem (fun m => { m with pondReady := true })).serveWaiting
    ∧ exec (.memoryInitComplete true) s = .next (s.onMem (fun m => { m with reservoirReady := true })).serveWaiting
    ∧ (∀ c : BitVec 2, exec (.lpddrTrainingComplete 0 c) s = .next (s.onMem (fun m =>
        { m with
          lpInstalled := (c.toNat + 1) * 0x200000000, lpTop := lpBase + 4 * ((c.toNat + 1) * 0x200000000 / 4 / 640 * 512), lpSelfRefresh := false
          lpMark := if s.boot.wake = 0 ∨ m.lpMark = 0 then lpBase + 0x10000000 else m.lpMark })))
    ∧ (∀ (f : BitVec 4) c, f ≠ 0 → (∀ k, k < 4 → f.getLsbD k = true → s.mem.lpAttempts.getD k 0 < 2) → (∀ k, k < 4 → s.mem.lpAttempts.getD k 0 < 3) →
        exec (.lpddrTrainingComplete f c) s = .next (s.onMem (fun m =>
          { m with lpAttempts := (List.range 4).map (fun k => s.mem.lpAttempts.getD k 0 + (if f.getLsbD k then 1 else 0)) })))
    ∧ (∀ (f : BitVec 4) c, f ≠ 0 →
        let n := (List.range 4).map (fun k => s.mem.lpAttempts.getD k 0 + (if f.getLsbD k then 1 else 0))
        (∃ k, k < 4 ∧ 3 ≤ n.getD k 0) →
        exec (.lpddrTrainingComplete f c) s = .next (((s.onMem (fun m => { m with lpAttempts := n })).onBoot (fun b =>
          { b with lpFail := BitVec.ofNat 4 (listMask ((List.range 4).filter (fun k => 3 ≤ n.getD k 0))) })).toRecovery))
    ∧ (s.mem.lpMark < s.mem.lpTop →
        (∀ g, s.lpWanted = some g → exec .lpInitAdvance s = .next (s.onMem (fun m => { m with lpAhead := m.lpAhead ++ [g] })).serveWaiting)
        ∧ (s.lpWanted = none → exec .lpInitAdvance s = .next (s.onMem (fun m =>
            { m with lpMark := m.lpMark + 512, lpAhead := m.lpAhead.filter (· != m.lpMark / 512) })).serveWaiting)))

/-- The commands of the fault collector, R87, R401, R405, R408, R412 and R414 to R420: a unit's report sets a core's CC_ERR bit, enters
the collector and has its unit's reaction; waiting reports are promoted when their window ends; the island sets FAULT_ALT and clears
OVERFLOW; a pulse ends after 10 us; a pin's release clears ACTIVE; an admitted injection enters as the unit's report, any other as
INJECT_REFUSED; these registers are decode errors to other initiators. The safety island, R391 to R393: a TMR deviation resets one core
(class 1), another in that time is class 4; its reload ends it; a heartbeat missing for 25 us counts, the second in a row at class 4; a
watchdog that expires bars its pair at class 3. The model's choices in it: log 19. -/
def Obligations.FaultAndIslandCommands : Prop :=
  (∀ (s : State), s.aonUp = true →
    (∀ r : ReportIn, r.cls.toNat ≤ 4 → r.group.toNat < 36 →
      (s.coreOf r.origin = none → exec (.faultReport r) s = .next ((s.report r).unitReaction r))
      ∧ ∀ n, s.coreOf r.origin = some n → r.group.toNat < 4 → r.code.toNat < 15 →
        exec (.faultReport r) s = .next (((s.onCore n (·.setErr r.code.toNat)).report r).unitReaction r))
    ∧ exec .attributionTimeout s = .next s.promoteDue
    ∧ (∀ t, s.fc.altPulse = some t → t + 10000 ≤ s.now → exec .altPulseEnd s = .next (s.onFc (fun c => { c with altPulse := none })))
    ∧ (∀ h slot seq, exec (.fcClear (.app h) slot seq) s = .next (s.clearRecord 1 h.val slot.toNat seq.toNat)
        ∧ exec (.fcClear .island slot seq) s = .next (s.clearRecord 3 0 slot.toNat seq.toNat))
    ∧ (∀ by_ v, (∃ k, injectSource by_ = some k) → s.injectOk v = true →
        exec (.fcInject by_ v) s = .next ((s.reportWith (injectReport v) false).unitReaction (injectReport v)))
    ∧ (∀ by_ v k, injectSource by_ = some k → s.injectOk v = false →
        exec (.fcInject by_ v) s = .next (s.reportWith
          { origin := BitVec.ofNat 12 (s.sourceId srcFc), group := 35, code := 2, cls := 0, blame := none, ctx := 0, part := 0,
            detail := BitVec.ofNat 32 k } false))
    ∧ (∀ level, exec (.fcAltSw .island level) s = .next (s.onFc (fun c => { c with altSw := level })))
    ∧ exec (.overflowClear .island) s = .next (s.onFc (fun c => ({ c with overflow := false } : Collector).settle))
    ∧ (∀ by_, by_ ≠ .island → (∀ h, by_ ≠ .app h) → (∀ slot seq, exec (.fcClear by_ slot seq) s = .next (s.busFault by_ 0x2000020038))
        ∧ (∀ v, exec (.fcInject by_ v) s = .next (s.busFault by_ 0x2000020050)))
    ∧ (∀ by_, by_ ≠ .island → (∀ level, exec (.fcAltSw by_ level) s = .next (s.busFault by_ 0x2000020048))
        ∧ exec (.overflowClear by_) s = .next (s.busFault by_ 0x2000020008))
    ∧ ∀ origin group code, exec (.errorPinRelease origin group code) s = .next (s.onFc (fun c =>
        { c with slots := c.slots.map (fun kv =>
            if kv.2.origin == origin && kv.2.group == group && kv.2.code == code then (kv.1, { kv.2 with active := false }) else kv) })))
  ∧ (∀ (s : State), s.aonUp = true →
    (∀ k, s.isl.tmrOut = none → exec (.islandTmrDeviate k) s = .next ((s.onIsl (fun i => { i with tmrOut := some k })).raise srcIsland 27 0 1 k.val))
    ∧ (∀ k j, s.isl.tmrOut = some j → j ≠ k → exec (.islandTmrDeviate k) s = .next (s.raise srcIsland 27 1 4 k.val))
    ∧ (∀ k, s.isl.tmrOut = some k → exec (.islandTmrDeviate k) s = .next s)
    ∧ exec .islandReloadComplete s = .next (s.onIsl (fun i => { i with tmrOut := none }))
    ∧ (s.up = true → s.heartbeatLate = true →
        let t := s.onIsl (fun i => { i with
          lastHeartbeat := some ((i.lastHeartbeat.map (· + 250000)).getD s.thisFrame), hbMisses := i.hbMisses + 1, hbRun := i.hbRun + 1 })
        exec .heartbeatTimeout s = .next (if 1 ≤ s.isl.hbRun then t.raise srcSched 22 0 4 0 else t))
    ∧ ∀ (pair : Fin 6) t, s.up = true → s.isl.wdLast.getD pair.val none = some t → t + s.cfg 0x710003 * 1000000 + 2 ≤ s.now →
        exec (.watchdogExpiry pair) s = .next ((s.onIsl (fun i =>
          { i with wdLast := setAt i.wdLast pair.val none, wdBarred := setAt i.wdBarred pair.val true })).raise (0x80 + 2 * pair.val) 26 0 3 pair.val))

/-- A report without blame makes a primary, R404 to R409: when a slot is free its record enters the lowest, with the report's fields and
the collector's number; it is the last record of the log; its group's Latch bit is set; and the first primary since the Latch was clear,
one that finds none captured, is captured, a later one not (R406). The device reacts to a class, R401 and R403: class 3 in RUN goes to
DEGRADED; class 4 goes to SAFE, where releases and batches stop, every door stops transmitting, every core that holds work is preempted,
and FAULT_N is low. Clearing, R414 and R415: FC_CLEAR_RES says whether the record exists, may be cleared by its origin, has left its
window and is inactive, in that order; a cleared record leaves its slot, and every other result changes no slot. The model's choices in
it: logs 18, 20, 113. -/
def Obligations.FaultsAreCollectedAndCleared : Prop :=
  (∀ (s : State) (r : ReportIn) (active : Bool) (i : Nat), r.blame = none → r.group.toNat < 36 → s.fc.freeSlot = some i →
    s.fc.waiting = [] → r.cls.toNat ≤ 2 →
    let t := s.reportWith r active
    let p := s.primaryOf s.now s.now r false active
    sfind t.fc.slots i = some p ∧ t.fc.log.getLast? = some p ∧ t.fc.status.getLsbD r.group.toNat = true
    ∧ p.origin = r.origin ∧ p.code = r.code ∧ p.cls = r.cls ∧ p.group = r.group ∧ p.detail = r.detail ∧ p.time = s.now ∧ p.seq = s.fcSeq
    ∧ ((s.fc.status = 0 ∨ s.fc.firstId = 0) → t.fc.firstTime = s.now ∧ t.fc.firstId = firstIdWord i p)
    ∧ (s.fc.status ≠ 0 → s.fc.firstId ≠ 0 → t.fc.firstTime = s.fc.firstTime ∧ t.fc.firstId = s.fc.firstId)
    ∧ (∀ j, j ≠ i → sfind t.fc.slots j = sfind s.fc.slots j) ∧ t.dict.state = s.dict.state ∧ t.cores = s.cores)
  ∧ (∀ (s : State),
    (s.dict.state = .run → (s.react 3).dict.state = .degraded) ∧ (∀ c, c ≤ 2 → s.react c = s)
    ∧ (s.react 4).dict.state = .safe ∧ (s.react 4).faultNLow = true
    ∧ (s.dict.state ≠ .safe → (s.react 4).sched.stopped = true ∧ (s.react 4).spring.stopped = true
        ∧ (∀ d ∈ (s.react 4).radio.doors, d.txStopped = true)
        ∧ (∀ n, n < s.cores.length → (s.core n).busy = true → ((s.react 4).core n).preemptAt.isSome = true
            ∧ ((s.core n).preemptAt = none → ((s.react 4).core n).st ≠ .running))))
  ∧ (∀ (s : State) (origin who slot seq : Nat),
    (sfind s.fc.slots slot = none → s.clearResult origin slot seq = 1)
    ∧ (∀ r, sfind s.fc.slots slot = some r →
      (r.seq ≠ seq → s.clearResult origin slot seq = 1)
      ∧ (r.seq = seq → mayClear origin r.cls.toNat = false → s.clearResult origin slot seq = 2)
      ∧ (r.seq = seq → mayClear origin r.cls.toNat = true → s.now < r.made + 64 → s.clearResult origin slot seq = 3)
      ∧ (r.seq = seq → mayClear origin r.cls.toNat = true → r.made + 64 ≤ s.now → s.clearResult origin slot seq = if r.active then 4 else 0))
    ∧ (s.clearResult origin slot seq = 0 → sfind (s.clearRecord origin who slot seq).fc.slots slot = none)
    ∧ (s.clearResult origin slot seq ≠ 0 → (s.clearRecord origin who slot seq).fc.slots = s.fc.slots)
    ∧ sget 0 (s.clearRecord origin who slot seq).fc.clearRes (clearKey origin who) = s.clearResult origin slot seq)


/-! ## Time, monitors, power and temperature -/

/-- Clock and voltage monitors, R18, R19, R399, R400 and R509: a core's alarm withdraws it (its whole group), a generator's withdraws the
groups that it serves, an island's is of class 4 or 3, the timebase's own is class 4 and sets MON_ERR; a rail beyond 3 % is a WARN of
class 0, beyond 6 % class 4. WAKE_IN, R516: in standby it lowers STBY_REQ and is logged; before STBY_REQ has risen it is held; with no
standby under way it has no effect. The model's choices in it: logs 32, 73. -/
def Obligations.MonitorsAndWaking : Prop :=
  (∀ (s : State), s.aonUp = true →
    (∀ n, exec (.clockMonitorAlarm (.core n)) s = .next ((s.ccErr n.toNat eClkMon n.toNat).withdrawGroupOf n.toNat))
    ∧ (∀ g,
        let t := s.raise srcFc 9 0 3 g.toNat
        exec (.clockMonitorAlarm (.gen g)) s = .next ((t.groupsOnGen g.toNat).foldl (fun u i => (t.groupPhys i).foldl State.withdrawCore u)
          (t.onSched (fun x => { x with badGens := x.badGens ||| (1#16 <<< g.toNat) }))))
    ∧ (∀ src : BitVec 9, unitInGroup 10 src.toNat = true → 64 ≤ src.toNat → src.toNat ≠ srcTb → exec (.clockMonitorAlarm (.island src)) s = .next
        (s.raise src.toNat 10 0 (if src.toNat = srcSched ∨ src.toNat = srcFc then 4 else 3) src.toNat))
    ∧ exec (.clockMonitorAlarm (.island srcTb)) s = .next
        (((s.raise srcTb 10 0 4 srcTb).onTb (fun t => { t with monErr := true })).raise srcTb 24 0 4 0)
    ∧ ∀ rail : Fin 9, (s.up = true ∨ rail = 2 ∨ rail = 8) →
        exec (.voltageMonitorAlarm rail false) s = .next ((s.onPwr (fun p => { p with warn := sinc p.warn rail.val })).raise srcFc 30 0 0 rail.val)
        ∧ exec (.voltageMonitorAlarm rail true) s = .next ((s.onPwr (fun p => { p with out := sinc p.out rail.val })).raise srcFc 30 1 4 rail.val))
  ∧ (∀ (s : State) (island : Bool), s.aonUp = true →
    (s.pwr.state = .standby → s.pins.stbyReq = true → exec (.wakeIn island) s = .next
      ((s.onPins (fun p => { p with stbyReq := false })).logEvent srcIsland 0 .wake [if island then 1 else 0]))
    ∧ ((s.pwr.state ≠ .standby ∨ s.pins.stbyReq = false) → s.pwr.req.isSome = true → exec (.wakeIn island) s = .next
      ((s.onPwr (fun p => { p with wakeHeld := true })).logEvent srcIsland 0 .wakeHeld []))
    ∧ ((s.pwr.state ≠ .standby ∨ s.pins.stbyReq = false) → s.pwr.req = none → exec (.wakeIn island) s = .next s))

/-- The timebase, R30 to R33 and R546: only the source in force is measured; a measurement before the first RUN steps device time forward
once and locks; later ones lock within 1,000 ns, slew beyond, and a jump of more than 100 us while LOCKED is HOLDOVER; 1 s of silence
while LOCKED is HOLDOVER, 10 s of good measurements end it; a PPS edge is logged and used when PPS is the source. The model's choices in
it: log 31. -/
def Obligations.TimebaseCommandsComplete : Prop :=
  ∀ (s : State), s.aonUp = true →
    (∀ offset : Int, s.tb.src ≠ 3 → (s.tb.src = 2 → s.claimedWith 0x25 1 = true ∧ s.ppsUsed = true) →
        exec (.timebaseMeasurement offset) s = .next (s.measure offset))
    ∧ (∀ offset : Int, s.sourceHeard = false → exec (.timebaseMeasurement offset) s = .next s)
    ∧ (∀ offset : Int, s.tb.hasRun = false → s.tb.stepped = false → 0 ≤ offset → s.tb.now % 2 = 0 →
        (s.measure offset).tb.now = s.tb.now + offset.toNat / 2 * 2 ∧ (s.measure offset).tb.stepped = true ∧ (s.measure offset).tb.lock = .locked)
    ∧ (∀ offset : Int, (s.tb.hasRun = true ∨ s.tb.stepped = true ∨ offset < 0) →
        (s.measure offset).tb.now = s.tb.now ∧ (s.measure offset).tb.offset = saturate32 offset
        ∧ (s.tb.lock = .locked → 100000 < s.tb.jump offset → (s.measure offset).tb.lock = .holdover)
        ∧ (s.tb.lock ≠ .holdover → (s.tb.lock = .locked → s.tb.jump offset ≤ 100000) →
            (s.measure offset).tb.lock = if offset.natAbs ≤ 1000 then .locked else .slewing)
        ∧ (s.tb.lock = .holdover → (s.measure offset).tb.lock = .holdover))
    ∧ (∀ t, s.tb.lock = .locked → s.tb.lastHeard = some t → t + 1000000002 ≤ s.now →
        exec .sourceSilenceTimeout s = .next ((s.onTb (fun t => { t with steadySince := none })).setLock .holdover))
    ∧ (∀ t, s.tb.lock = .holdover → s.tb.steadySince = some t → t + 10000000000 ≤ s.now →
        (∃ h, s.tb.lastHeard = some h ∧ s.now ≤ h + 1000000000) → exec .holdoverExit s = .next (s.setLock .slewing))
    ∧ (s.claimedWith 0x25 1 = true →
        let u := (s.logEvent srcTb 0 .ppsIn [s.now]).onTb (fun t => { t with ppsSeen := true, lastPps := some t.now })
        exec .ppsInEdge s = .next (if s.ppsUsed then u.measure (ppsOffset s.now) else u))
    ∧ exec .refclkLoss s = .next (s.onTb (fun t => { t with refclk := false }))

/-- The balls that follow device time, R33, R37, R39, R391, R537 and R545: PPS_OUT rises at a whole second and falls 100 ms later; an
FSYNC edge is taken at its instant and its claimed balls are driven until its width has passed; a captured MFIO edge is logged with its
stamp; a tick of the run sends the heartbeat. The model's choices in it: logs 4, 76. -/
def Obligations.TimedBallsComplete : Prop :=
  ∀ (s : State),
    (s.aonUp = true → s.claimedWith 0x24 1 = true → s.now % 1000000000 = 0 → exec .ppsOutEdge s = .next (s.onPins (fun p => { p with ppsOut := true })))
    ∧ (s.aonUp = true → s.pins.ppsOut = true → 100000000 ≤ s.now % 1000000000 → exec .ppsOutFall s = .next (s.onPins (fun p => { p with ppsOut := false })))
    ∧ (s.up = true →
      (∀ n : BitVec 2, s.inFrames = true → s.now = s.thisFrame + s.tb.fsyncOffset.getD n.toNat 0 →
        exec (.fsyncEdge n) s = .next ((s.onTb (fun t => { t with fsyncEdge := setAt t.fsyncEdge n.toNat s.now })).driveFsync n.toNat true))
      ∧ (∀ n : BitVec 2, s.tb.fsyncEdge.getD n.toNat 0 + s.tb.fsyncWidth.getD n.toNat 0 ≤ s.now →
        exec (.fsyncPulseEnd n) s = .next (s.driveFsync n.toNat false))
      ∧ (∀ n b, (s.driveFsync n b).pins.fsync = (if s.claimedWith (0x20 + n) 1 then setAt s.pins.fsync n b else s.pins.fsync))
      ∧ (∀ k : BitVec 5, s.claimedWith k.toNat 2 = true → exec (.mfioEdgeCapture k) s = .next (s.logEvent srcTb 0 .edgeCapture [k.toNat, s.now]))
      ∧ (s.inFrames = true → s.atTickStart = true → exec .tickStart s = .next
          { s with
            isl := { s.isl with lastHeartbeat := some s.now, hbRun := 0 }
            sent := s.sent ++ [.heartbeat (s.tickAt s.now) (s.frameAt s.now) s.schedBuild] }))

/-- One evaluation of the cap, R518: an estimate above the effective cap raises the level by one, up to 8, and counts it; an estimate at
least 2 W below for 1 ms lowers it by one; any other leaves it; the application clock follows the level; at level 8 an estimate above is
an unmet cap. CAP_EVALUATE makes it with the corrected estimate every 10 us. POWER_CORRECTION, R517: every 1 ms the current readings are
taken and the correction renewed; its value is free (log 12); while the device does not hold, the answer ends a run of AVSBus failures
(R514). The model's choices in it: logs 12, 116. -/
def Obligations.PowerIsCapped : Prop :=
  ((∀ (p : Power) (now est cap : Nat), p.level ≤ 8 →
    let q := p.evaluate now est cap
    (cap * 1000 < est → q.level = min 8 (p.level + 1) ∧ (p.level < 8 → q.capEvents = p.capEvents + 1 ∧ q.appClock = p.level + 1 - 6))
    ∧ (est ≤ cap * 1000 → cap * 1000 < est + 2000 → q.level = p.level ∧ q.lowSince = none)
    ∧ (∀ t, est + 2000 ≤ cap * 1000 → p.lowSince = some t → t + 1000000 ≤ now → q.level = p.level - 1)
    ∧ (est + 2000 ≤ cap * 1000 → (∀ t, p.lowSince = some t → now < t + 1000000) → q.level = p.level)
    ∧ (q.unmet = true ↔ q.level = 8 ∧ cap * 1000 < est) ∧ q.estimate = est)
  ∧ ∀ (s : State) (e : Nat), s.up = true → s.now % 10000 = 0 →
      let est := s.pwr.corrected e
      let t := (s.chargeEnergy est).onPwr (fun p => p.evaluate s.now est s.effectiveCap)
      exec (.capEvaluate e) s = .next (if t.pwr.unmet && !s.pwr.unmet then t.logEvent srcIsland 0 .capUnmet [est, s.effectiveCap] else t))
  ∧ (∀ (s : State) (a b : Nat), s.up = true → s.now % 1000000 = 0 →
    ∃ t, exec (.powerCorrection a b) s = .next t ∧ t.pwr.current = [a, b] ∧ t.pwr.correction = (Config.freeWord s.fresh).toInt
      ∧ t = { s with fresh := s.fresh + 1, pwr := { s.pwr with
              current := [a, b], correction := t.pwr.correction, avsFails := if s.pwr.avs = 2 then s.pwr.avsFails else [0, 0] } })

/-- AVSBus, R512 to R514: a new temperature band's voltages are written, and hold once confirmed or when no rail rises; a confirmation
ends a run of failures, the third of which in a row holds the last confirmed target with a warning; the device controls again once both
rails answer. Temperature, R343, R522 and R523: a sample takes 40 die and 8 Lake readings and the highest working one; at 118 degC
throttling is at level 8; the thermal cap falls by 5 W every 1 ms while a sensor stands at 110 degC, never below the floor, and rises by 5
W every 10 ms once all stand at 105 degC or less. The model's choices in it: logs 6, 13, 116, 117. -/
def Obligations.VoltageAndTemperature : Prop :=
  (∀ (s : State), s.up = true →
    (∀ confirmed, s.bandDue = true →
      let b := nextBand s.pwr.band s.pwr.tjMax
      let t : State := { s with
        sent := s.sent ++ [.avs 0 (Config.avsVoltage 0 b), .avs 1 (Config.avsVoltage 1 b)]
        pwr := { s.pwr with avsFails := if confirmed = true ∧ s.pwr.avs ≠ 2 then [0, 0] else s.pwr.avsFails } }
      exec (.avsBandUpdate confirmed) s = .next (if confirmed || falling s.pwr.target (bandTarget b)
        then t.onPwr (fun p => { p with band := b, target := bandTarget b }) else t))
    ∧ (∀ rail : BitVec 1,
      let n := s.pwr.avsFails.getD rail.toNat 0 + 1
      (n ≠ 3 → exec (.avsTransactionFail rail) s = .next (s.onPwr (fun p => { p with avsFails := setAt p.avsFails rail.toNat n })))
      ∧ (n = 3 → exec (.avsTransactionFail rail) s = .next ((s.onPwr (fun p =>
          { p with avsFails := setAt p.avsFails rail.toNat 3, avs := 2, warn := sinc p.warn rail.toNat })).raise srcFc 30 0 0 rail.toNat)))
    ∧ (∀ rail : BitVec 1, exec (.avsRetry rail false) s = .next s)
    ∧ ∀ rail : BitVec 1, s.pwr.avs = 2 → exec (.avsRetry rail true) s = .next (s.onPwr (fun p =>
        { p with avsFails := setAt p.avsFails rail.toNat 0, avs := if (setAt p.avsFails rail.toNat 0).all (· < 3) then 1 else 2 })))
  ∧ (∀ (s : State), s.up = true →
    (∀ die lake : List Int, s.now % 100000 = 0 → die.length = 40 → lake.length = 8 →
      ∃ t, exec (.thermalSample die lake) s = .next t ∧ t.pwr.die = die ∧ t.pwr.lake = lake
        ∧ t.pwr.tjMax = (hottest t.pwr.failed die).getD s.pwr.tjMax ∧ t.pwr.tjPeak = max s.pwr.tjPeak t.pwr.tjMax
        ∧ ((∃ i, i < 40 ∧ i ∉ t.pwr.failed ∧ 118 * 16 ≤ die.getD i 0) → bit s.pwr.reported 1 = false → t.pwr.level = 8))
    ∧ (∀ c, s.pwr.thermalCap = some c → s.pwr.lastStep + 1000000 ≤ s.now → (sensorAt s.pwr.failed s.pwr.die 1760).isSome = true →
      exec .thermalCapStep s = .next (s.onPwr (fun p =>
        { p with thermalCap := some (max p.floor (c - 5)), lastStep := s.now, capEvents := p.capEvents + 1 })))
    ∧ (∀ c, s.pwr.thermalCap = some c → s.pwr.lastStep + 10000000 ≤ s.now → sensorAt s.pwr.failed s.pwr.die 1681 = none →
      exec .thermalCapStep s = .next (s.onPwr (fun p =>
        { p with thermalCap := if s.cfg kPwrCap ≤ c + 5 then none else some (c + 5), lastStep := s.now, capEvents := p.capEvents + 1 }))))


/-! ## The fabric, boot, security and the dictionary -/

/-- Training, R422 and R427: a trained link comes up with fresh numbers and credits, its peers are told and the routes computed anew; a
first failure, or one of a link that has never been up, leaves it training, and a second one in a row, or one during the test after
quarantine, quarantines it. Flits, R424 to R427, on a link that carries them: in order, the flit is counted, its ACK and credits are taken
and the next number is expected; out of order or with a bad CRC it is discarded with a NAK; one beyond its credits is discarded with a NAK
and counts towards quarantine; an IDLE flit gives its ACK and credits; a NAK is counted, and it and an unacknowledged flit past
FAB_RETRY_NS resend; 4 us without a valid flit take the link down. Quarantine, R427: after 10 s, while fewer than three returns are used
up, the link trains for its test flits; 1 ms of them without a failure return it to routing. The model's choices in it: log 52. -/
def Obligations.LinksAndFlits : Prop :=
  (∀ (s : State) (door : Fin 3), s.up = true →
    let d := door.val
    let l := s.link d
    (l.state = 0 ∨ l.state = 1 → l.testing = false → ∃ t : State, exec (.linkTrainComplete door true) s = .next (t.linksChanged none)
        ∧ t.fab.links = updAt s.fab.links d (fun x => { x.fresh with state := 2, trainFails := 0, heard := s.now })
        ∧ t.sent = s.sent ++ [.hello d (s.ownHello d)])
    ∧ (l.state = 0 → l.testing = false → exec (.linkTrainComplete door false) s = .next (s.onLink d (fun x => { x with trainFails := 0 })))
    ∧ (l.state = 1 → l.testing = false → l.trainFails = 0 → exec (.linkTrainComplete door false) s = .next
        (s.onLink d (fun x => { x with trainFails := x.trainFails + 1 })))
    ∧ (l.state = 1 → l.testing = true ∨ 1 ≤ l.trainFails → exec (.linkTrainComplete door false) s = .next (s.quarantine d))
    ∧ (l.state = 1 → l.testing = true → exec (.linkTrainComplete door true) s = .next (s.onLink d (fun x => { x with state := 3, quarAt := s.now }))))
  ∧ (∀ (s : State) (door : Fin 3) (f : Flit), s.linkLive door.val = true →
    let d := door.val
    let l := s.link d
    let acked := fun (u : State) => u.takeAck d f.ack f.crVc.toNat f.crHop.toNat f.crCnt.toNat
    (f.crcOk = true → f.lseq = l.rxSeq → f.credited = true → exec (.flitData door f) s = .next
        (acked (s.onLink d (fun x => { x.count 1 1 with rxSeq := x.rxSeq + 1, nakSent := false }))))
    ∧ (f.crcOk = true → f.lseq = l.rxSeq → f.credited = false → exec (.flitData door f) s = .next ((s.discardFlit d).replayEvent d))
    ∧ (f.crcOk = false → exec (.flitIdle door f) s = .next (s.onLink d (fun x => x.count 2 1)))
    ∧ (f.crcOk = false ∨ f.lseq ≠ l.rxSeq → exec (.flitData door f) s = .next ((s.onLink d (fun x => x.count 2 1)).discardFlit d))
    ∧ (f.crcOk = true → exec (.flitIdle door f) s = .next (acked (s.onLink d (fun x => x.count 1 1))))
    ∧ (∀ a, exec (.flitNak door a) s = .next (((s.onLink d (fun x => x.count 1 1)).takeAck d a 0 0 0).resendFrom d))
    ∧ (∀ e, l.retry.head? = some e → expired s.now (e.2 + s.cfg 0x160007) = true →
        exec (.fabRetryTimeout door) s = .next (s.resendFrom d))
    ∧ (l.heard + 4000 ≤ s.now → exec (.linkSilenceTimeout door) s = .next (s.linkDown d)))
  ∧ (∀ (s : State) (door : Fin 3), s.up = true → (s.link door.val).state = 3 →
    let d := door.val
    let l := s.link d
    (l.testing = false → l.quarAt + 10000000000 ≤ s.now → l.returns < 3 → exec (.quarantineExpiry door) s = .next
        (s.onLink d (fun x => { (x.fresh).count 4 1 with state := 1, testing := true })))
    ∧ (l.testing = true → l.quarAt + 1000000 ≤ s.now →
        exec (.quarantineTestEnd door true) s = .next (s.onLink d (fun x => { x with testing := false, quarAt := s.now }))
        ∧ ∃ t : State, exec (.quarantineTestEnd door false) s = .next (t.linksChanged none)
          ∧ t.link d = { l with state := 2, testing := false, returns := l.returns + 1, heard := s.now }))

/-- Transactions, R428 to R431: on a joined link each arrives with its row's OP; one for this node whose number is the next one is
delivered, well formed and within the throttle, by its OP: a WRITE and a READ are applied, a READ_RESP returns to its tag, a SIGNAL
counts, an ERROR fails the access it names; one up to 512 ahead waits for its turn, one further ahead is a violation, and one received
before counts as a duplicate; one for another node goes on by this node's route. Delivery, R429 to R431: a well-formed transaction within
the throttle has the effect of its OP; a malformed one is a violation and answered with ERROR; a request of a throttled source beyond its
allowance is counted and answered with THROTTLED (R441, R550). End-to-end acknowledgements, R430: E2E_ACK drops the copies it covers, and
held transactions issue as far as there is room; the timer acknowledges every node from which something was delivered. The model's choices
in it: logs 51, 53. -/
def Obligations.TransactionsComplete : Prop :=
  (∀ (s : State) (door : Fin 3) (t : Txn), s.doorTakes door.val = true →
    exec (.fabWrite door t) s = .next (s.fabArrive door 1 t) ∧ exec (.fabRead door t) s = .next (s.fabArrive door 2 t)
    ∧ exec (.readResp door t) s = .next (s.fabArrive door 3 t) ∧ exec (.fabSignal door t) s = .next (s.fabArrive door 4 t)
    ∧ exec (.fabError door t) s = .next (s.fabArrive door 5 t)
    ∧ (∀ op, t.dst = s.fab.nodeId → t.hops ≤ 3 →
        let vc := vcOf op
        let e := s.e2eOf t.src.toNat vc
        (t.e2e = e.expect → s.fabArrive door op t = (s.e2eDeliver door op t).e2eAhead (e.ahead.length + 1) door t.src.toNat vc)
        ∧ (t.e2e ≠ e.expect → (t.e2e - e.expect).toNat ≤ 512 → (∀ x ∈ e.ahead, x.e2e ≠ t.e2e) →
          s.fabArrive door op t = s.onE2e t.src.toNat vc (fun x => { x with ahead := x.ahead ++ [t] }))
        ∧ (512 < (t.e2e - e.expect).toNat → (t.e2e - e.expect).toNat ≤ 2 ^ 31 → s.fabArrive door op t = s.fabViolation door.val t)
        ∧ (2 ^ 31 < (t.e2e - e.expect).toNat → s.fabArrive door op t = s.onLink door.val (fun l => l.count 6 1)))
    ∧ (∀ op, t.dst ≠ s.fab.nodeId → t.hops < 3 → s.reachable t.dst.toNat = true →
        s.fabArrive door op t = s.linkSend (s.doorTo t.dst.toNat) { t with hops := t.hops + 1 } (vcOf op) (t.hops + 1)))
  ∧ (∀ (s : State) (door : Fin 3) (t : Txn),
    let key := (t.src.toNat, 0, 0)
    let s1 := s.onFab (fun x => { x with viols := violRequest key true x.viols })
    let free := violThrottled key s.fab.viols = false ∨ (violOf key s.fab.viols).admitted < s.cfg 0x16000A
    (malformed 1 t = false → free → s.fabDeliver door 1 t = s1.fabApplyWrite door t)
    ∧ (malformed 2 t = false → free → s.fabDeliver door 2 t = s1.fabApplyRead door t)
    ∧ (malformed 3 t = false → s.fabDeliver door 3 t = s.fabApplyResp door t)
    ∧ (malformed 4 t = false → free → s.fabDeliver door 4 t = s1.fabCount t)
    ∧ (malformed 5 t = false → s.fabDeliver door 5 t = s.fabFails t.srcId.toNat t.addr.toNat)
    ∧ (∀ op, op = 1 ∨ op = 2 ∨ op = 4 → malformed op t = false → ¬ free → s.fabDeliver door op t =
        ((s.onFab (fun x => { x with viols := violRequest key false x.viols })).onLink door.val (fun l => l.count 9 1)).answerError t 4)
    ∧ (∀ op, malformed op t = true → s.fabDeliver door op t = (s.fabViolation door.val t).answerError t 1))
  ∧ (∀ (s : State), s.up = true →
    (∀ (node : BitVec 3) (vc : BitVec 1) (num : Word),
      let s1 := s.onE2e node.toNat vc.toNat (fun e => { e with copies := e.copies.filter (fun t => serialAfter t.e2e num) })
      let s2 := State.issueHeld (s.e2eOf node.toNat vc.toNat).held.length s1 node.toNat vc.toNat
      exec (.e2eAck node vc num) s = .next (State.issueHeld (s2.e2eOf node.toNat (1 - vc.toNat)).held.length s2 node.toNat (1 - vc.toNat))
      ∧ ((s.e2eOf node.toNat vc.toNat).held = [] → (s.e2eOf node.toNat (1 - vc.toNat)).held = [] → exec (.e2eAck node vc num) s = .next s1))
    ∧ ∃ t : State, exec .e2eAckTimer s = .next t ∧ t.fab.e2e = s.fab.e2e.map (fun e => (e.1, { e.2 with since := 0 }))
      ∧ t.sent = s.sent ++ (s.fab.e2e.filter (fun e => e.2.expect != 0)).map (fun e => .e2eAck (e.1 / 2) (e.1 % 2) (e.2.expect - 1).toNat))

/-- Discovery, R432 to R435: the first HELLO of a link is kept, and with equal clocks the routes are computed anew; a twin isolates this
node; another frame makes the link a mismatch; the same HELLO again changes nothing, another one takes the link down; a new LINK_STATE
replaces the node's older one and is flooded on; 1 ms without a change, with every link state there, assigns the ids; past FAB_JOIN_MS the
missing nodes are lost. The model's choices in it: log 53. -/
def Obligations.DiscoveryCompletes : Prop :=
  ∀ (s : State), s.up = true →
    (∀ (door : Fin 3) (h : Hello), s.linkLive door.val = true → (s.link door.val).hello = none →
      let s1 := s.onLink door.val (fun l => { l with hello := some h, peerIdent := h.ident, peer := (h.node.map (·.toNat)).getD 0xFF })
      (s.isTwin h = false → h.frameTicks = s.cfg kFrameTicks → h.frameOrigin = s.frameOrigin → s.fab.state ≠ 3 →
          exec (.hello door h) s = .next (s1.linksChanged none))
      ∧ (s.isTwin h = true → ∃ t : State, exec (.hello door h) s = .next t ∧ t.fab.state = 3 ∧ t.fab.nodes = 1#8 <<< s.fab.nodeId.toNat)
      ∧ (s.isTwin h = false → h.frameTicks ≠ s.cfg kFrameTicks ∨ h.frameOrigin ≠ s.frameOrigin →
          ∃ t : State, exec (.hello door h) s = .next t ∧ (t.link door.val).state = 4))
    ∧ (∀ (door : Fin 3) (h old : Hello), s.linkLive door.val = true → (s.link door.val).hello = some old →
        exec (.hello door h) s = .next (if old = h then s else s.linkDown door.val))
    ∧ (∀ (door : Fin 3) (r : LinkStateRec), s.linkLive door.val = true → r.ident ≠ s.ident → s.fab.state ≠ 3 → s.fab.db.contains r = false →
        let s1 := (s.onFab (fun x =>
          { x with db := x.db.filter (fun q => q.ident != r.ident) ++ [r], lastChange := some s.now })).flood r (some door.val)
        exec (.linkState door r) s = .next (if r.strap ≠ 0 ∧ r.strap = s.boot.nodeStrap then s1.duplicate door.val r.strap else s1.recomputeRoutes none))
    ∧ (∀ t0, s.fab.lastChange = some t0 → s.fab.state ≠ 3 → s.statesComplete = true → t0 + 1000000 ≤ s.now →
        ∃ t : State, exec .discoveryEnd s = .next (t.recomputeRoutes none) ∧ t.fab.ids = s.assignIds ∧ t.fab.lastChange = none)
    ∧ (s.joinOver = true → exec .fabJoinTimeout s = .next s.loseMissing)

/-- Updates and security, R496, R497, R500, R503 and R504: the due epoch passes; a blown bit raises the anti-rollback counter by one, and
the write completes when its value is reached; a signed quote goes to its origin's entry and answers the oldest request; a nonce older
than 60 s is forgotten. The verification ring, R506: a job of 192 bytes that was not taken before lands; the next one in number order is
judged, its result written at its place, and counted; with no further job, or after 64 results, the MSI is sent. The model's choices in
it: logs 65, 67. -/
def Obligations.SecurityCommandsComplete : Prop :=
  (∀ (s : State), s.up = true →
    (s.epochDue = true → ∃ t : State, exec .epochPass s = .next t ∧ t.flash.act.passed = true ∧ t.flash.act.staged = s.flash.act.staged)
    ∧ (∀ ok, exec (.flashProgramDone ok) s = .next (s.flashDone ok))
    ∧ (∀ c tid v, s.sec.commit = some (c, tid, v) →
        ∃ t : State, exec .rollbackBitBlown s = .next t ∧ t.flash.rollback = s.flash.rollback + 1
          ∧ (s.flash.rollback + 1 < v → t.sec.commit = some (c, tid, v)) ∧ (v ≤ s.flash.rollback + 1 → t.sec.commit = none))
    ∧ (∀ j rest, s.sec.quoteQueue = j :: rest →
        exec .quoteSigned s = .next (((s.onSec (fun x =>
          { x with quoteQueue := rest, quotes := sput x.quotes j.client.origin.quoteSub (s.quote j) })).fresh1).finishTx j.client j.tid aOk))
    ∧ (∀ n t0, s.sec.nonce = some (n, t0) → t0 + 60000000000 < s.now → exec .dbgNonceExpiry s = .next (s.onSec (fun x => { x with nonce := none }))))
  ∧ (∀ (s : State), s.up = true →
    (∀ job : Bytes, job.length = 192 → serialAfter s.sec.jobNext (jobSeq job) = false → s.sec.landed.any (fun j => jobSeq j == jobSeq job) = false →
      exec (.secJobLand job) s = .next (s.onSec (fun x => { x with landed := x.landed ++ [job] })))
    ∧ ∀ j, s.sec.nextJob = some j →
        let s1 := (s.writeResult j).onSec (fun x =>
          { x with jobNext := x.jobNext + 1, landed := x.landed.filter (fun k => jobSeq k != jobSeq j), verifies := x.verifies + 1, invalid := if secResult j = 0 then x.invalid else x.invalid + 1, sinceMsi := x.sinceMsi + 1 })
        (s1.sec.nextJob.isSome = true → s1.sec.sinceMsi < 64 → exec .secJobComplete s = .next s1)
        ∧ (s1.sec.nextJob = none ∨ 64 ≤ s1.sec.sinceMsi → exec .secJobComplete s = .next
            ((s1.emit (.msi (s.secRing 16 8) (s.secRing 26 2))).onSec (fun x => { x with sinceMsi := 0 }))))

/-- Resets, R511: PORST_N low for 2 us, or a loss of VDD_AON, leaves everything at reset but the flash and the OTP (what the block has
logged and sent is the model's own record, log 2), and a shorter low level has no effect; the rise of PORST_N latches the straps and
begins the boot with the first slot; a warm reset keeps device time, the fault records and the straps and, unless the identity check or
the straps send it elsewhere, boots from stage 1. The slots and the boot exercise, R417, R487, R489 and R491: the slot under check is
judged, and a valid active slot boots and its exercise begins; the read-back, the latch within 200 ns and the clear pass the exercise,
which records it and enters CONFIG (in SAFE the device stays there), or fail it into SAFE. Sections and the transition, R451, R484, R492
and R493: the next section of its phase is used when its digest holds; a bad phase 1 section marks the slot BAD and is a warm reset, a bad
phase 2 one marks it BAD and is a class 2 fault; the transition, once no node is awaited and the missing ones are lost, enters RUN when
every check passes, else it is answered with the check's code. The model's choices in it: logs 5, 22, 69, 70, 79. -/
def Obligations.ResetAndBootComplete : Prop :=
  (∀ (s : State),
    exec .vddAonLoss s = .next s.heldReset
    ∧ (∀ n, s.pins.porstN = true → 2000 ≤ n → exec (.porstNFall n) s = .next s.heldReset)
    ∧ s.heldReset = { State.reset with flash := s.flash, events := s.events, sent := s.sent, fresh := s.fresh, pending := s.pending }
    ∧ (∀ n, n < 2000 ∨ s.pins.porstN = false → exec (.porstNFall n) s = .next s)
    ∧ (∀ b k, s.pins.porstN = false → exec (.porstNRise b k) s = .next ((s.onPins (fun p => { p with porstN := true })).beginBoot b k))
    ∧ (∀ b k, s.pins.porstN = true → exec (.porstNRise b k) s = .next s)
    ∧ (∀ b k, (s.beginBoot b k).boot.bootsel = b ∧ (s.beginBoot b k).boot.nodeStrap = k
        ∧ (s.beginBoot b k).flash.act.bootCount = s.flash.act.bootCount + 1
        ∧ (b ≠ 3 → s.flash.idCheckOk = true → (s.beginBoot b k).boot.stage = .romCheck s.flash.act.firstSlot false))
    ∧ (s.up = true → exec .warmReset s = .next s.warmReset)
    ∧ s.warmReset.tb.now = s.tb.now ∧ s.warmReset.boot.wake = 2
    ∧ s.warmReset.boot.bootsel = s.boot.bootsel ∧ s.warmReset.boot.nodeStrap = s.boot.nodeStrap
    ∧ (s.flash.idCheckOk = true → s.warmReset.fc.log = s.fc.log ∧ s.warmReset.fc.slots = s.fc.slots)
    ∧ (s.flash.idCheckOk = true → s.boot.bootsel ≠ 3 →
        s.warmReset.dict.state = .boot ∧ s.warmReset.boot.stage = .romCheck s.flash.act.firstSlot false))
  ∧ (∀ (s : State), s.up = true →
    (∀ slot second ok, s.boot.stage = .romCheck slot second → exec (.slotCheckComplete ok) s = .next (s.slotJudged slot second ok))
    ∧ (∀ second, s.flash.act.staged = none → s.flash.judge s.flash.act.active true = 0 →
        let t := s.slotJudged s.flash.act.active second true
        t.boot.slot = some s.flash.act.active ∧ t.boot.stage = .exercise ∧ t.fc.exercise = .release)
    ∧ (∀ high, s.exercising .release = true →
        exec (.exerciseReadback high) s = .next (s.onFc (fun c => { c with exerciseOk := c.exerciseOk && high && !s.faultNLow })))
    ∧ (∀ low ns, s.exercising .release = true → exec (.exerciseLatch low ns) s = .next
        (s.onFc (fun c => { c with exercise := .latch, exerciseOk := c.exerciseOk && low && decide (ns ≤ 200) })))
    ∧ (∀ high, s.exercising .latch = true →
        let s1 := s.onFc (fun c => { c with exercise := .done, altPulse := some s.now })
        (s.fc.exerciseOk = true → (high = true ∨ s1.faultNLow = true) → exec (.exerciseClear high) s = .next s1.exercisePassed)
        ∧ (s.fc.exerciseOk = false ∨ (high = false ∧ s1.faultNLow = false) → exec (.exerciseClear high) s = .next s1.exerciseFailed))
    ∧ (let u := (s.onFc (fun c => { c.ring s.exerciseRecord with exercised := true, fnExercise := 1 })).takeSeq srcFc
      (s.dict.state ≠ .safe → s.exercisePassed = u.enterConfig)
      ∧ (s.dict.state = .safe → s.exercisePassed = u.onBoot (fun b => { b with stage := .online })))
    ∧ s.exerciseFailed.dict.state = .safe ∧ s.exerciseFailed.fc.fnExercise = 2)
  ∧ (∀ (s : State), s.up = true →
    (∀ (i : BitVec 6) b, s.boot.slot = some b → s.dict.state = .config → s.nextSection 1 = some i.toNat →
      (s.flash.sectionOk b i.toNat = true → exec (.phase1SectionRead i) s = .next (s.useSection 4 b i.toNat).goOnStored)
      ∧ (s.flash.sectionOk b i.toNat = false → exec (.phase1SectionRead i) s = .next
          ((s.markBad b).warmReset.onBoot (fun x => { x with failSection := some i.toNat }))))
    ∧ (∀ (i : BitVec 6) b, s.boot.slot = some b → s.inRun = true → s.nextSection 2 = some i.toNat →
      (s.flash.sectionOk b i.toNat = true → exec (.phase2SectionRead i) s = .next (s.useSection 5 b i.toNat))
      ∧ (s.flash.sectionOk b i.toNat = false → exec (.phase2SectionRead i) s = .next
          (((s.onBoot (fun x => { x with sectionsBad := x.sectionsBad ++ [i.toNat] })).markBad b).raise srcFlash 21 0 2 i.toNat)))
    ∧ (∀ c tid, s.dict.transition = some (c, tid) → s.awaitsNodes = false →
        exec .runTransitionComplete s = .next ((if s.missingNodes = [] then s else s.loseMissing).finishTransition c tid)
        ∧ (s.dict.state = .config → ∀ code key, s.transitionFails = some (code, key) →
            s.finishTransition c tid = ((s.onDict (fun d => { d with transition := none })).onDict (fun d =>
              { d with stateFail := failWord code key })).finishTx c tid code)
        ∧ (s.dict.state = .config → s.transitionFails = none →
            s.finishTransition c tid = ((s.onDict (fun d => { d with transition := none })).enterRun).finishTx c tid aOk)))

/-- Frames, violation seconds and standby, R40, R216, R312, R515, R516 and R550: the first frame of the run starts the frames and each
later one counts; a second's end restarts the counts of all four kinds of origin and ends their throttles; the entry goes through the
sequence of R515, which ends with STBY_REQ high and the exercise input held; the release begins the boot with WAKE 1. The model's choices
in it: logs 58, 73, 115. -/
def Obligations.FramesAndStandbyComplete : Prop :=
  ∀ (s : State),
    (s.up = true → s.inRun = true → s.atFrameStart = true →
      (s.tb.framesOn = true → exec .frameStart s = .next (s.nextFrame.adoptRois (s.frameAt s.now)))
      ∧ (s.tb.framesOn = false → s.tb.runFrame0 ≤ s.frameAt s.now → exec .frameStart s = .next
          ((s.onTb (fun t => { t with framesOn := true, runFrame := 0 })).adoptRois (s.frameAt s.now))))
    ∧ (s.up = true → s.now % 1000000000 = 0 → 0 < s.now → 
      let k := s.now / 1000000000 - 1
      let t := s.endViolSeconds k
      exec .violationSecondEnd s = .next t
        ∧ t.spring.viols = violEnd (s.cfg 0x400002) k s.spring.viols ∧ t.radio.viols = violEnd (s.cfg 0x500003) k s.radio.viols
        ∧ t.fab.viols = violEnd (s.cfg 0x160009) k s.fab.viols ∧ t.dict.viols = violEnd (s.cfg 0x170004) k s.dict.viols)
    ∧ (∀ off, s.entryDue = some off → exec .standbyEntry s = .next (s.standbySequence off)
        ∧ (s.standbySequence off).pins.stbyReq = true ∧ (s.standbySequence off).pwr.req = none
        ∧ (s.standbySequence off).fc.exerciseHold = true)
    ∧ (∀ b k, s.aonUp = true → s.wakeReady = true → exec (.wakeRelease b k) s = .next
        (((s.resetDomains 1).onPins (fun p => { p with stbyReq := false })).beginBoot b k))

/-- KDP requests, R453 to R464: each that reaches the server has its effect at once; a RESPONSE ends the transaction that the device has
open at its node (R462), or is counted as a violation (R472); a CAN frame for another passes on (R457). Writes with a row of their own,
R33, R224, R242, R244, R282, R285, R393, R451, R468, R471, R497 to R504, R515 and R520: each is the WRITE of its entry, and DBG_CHALLENGE
its READ. The model's choices in it: logs 61, 84. -/
def Obligations.DictionaryRequestsComplete : Prop :=
  ((∀ (s : State) (q : Req), s.heard q = false → exec (.read q) s = .next (s.passOn q) ∧ (∀ v, exec (.write q v) s = .next (s.passOn q))
    ∧ (s.served q.client = true → ∀ f, q.can = some f → s.passOn q = { s with sent := s.sent ++ [.toNetwork (2 + q.client.who / 256) f.bytes] }))
  ∧ ∀ (s : State) (q : Req), s.heard q = true →
    exec (.read q) s = .next (s.read q) ∧ (∀ v, exec (.write q v) s = .next (s.write q v))
    ∧ (∀ p, exec (.openRead q p) s = .next (s.openRead q p.toNat)) ∧ (∀ n, exec (.openWrite q n) s = .next (s.openWrite q n.toNat))
    ∧ (∀ n v, exec (.seg q n v) s = .next (s.seg q n.toNat v)) ∧ (∀ c, exec (.end_ q c) s = .next (s.endTransfer q c))
    ∧ exec (.describe q) s = .next (s.describe q) ∧ exec (.abort q) s = .next (s.abortTransfer q)
    ∧ (s.awaits q.client = true → exec (.response q) s = .next ((s.peerMarginal q.client.who).peerDone q.client.who))
    ∧ (s.awaits q.client = false → exec (.response q) s = .next (s.kdpViolation q.client q.tid)))
  ∧ (∀ (s : State) (q : Req), s.heard q = true →
    let names := fun (k : Nat) => reqKey q = k
    let row := fun (k : Nat) => reqRow q = k
    (∀ v, names kGptpPort → exec (.gptpPort q v) s = .next (s.write q [v]))
    ∧ (∀ (p : Fin 6) v, names (0x710101 + p.val) → exec (.wdKick q p v) s = .next (s.write q (leBytes 2 v.toNat)))
    ∧ (∀ (b : BitVec 6) (k : Word), names (0x448000 + 256 * b.toNat) → exec (.batchNext q b k) s = .next (s.write q (leBytes 4 k.toNat)))
    ∧ (∀ v, names kCarrierOn → exec (.carrierOn q v) s = .next (s.write q [v]))
    ∧ (∀ (d : BitVec 1) v, names (0x503001 + d.toNat) → exec (.rfSpiXfer q d v) s = .next (s.write q v))
    ∧ (∀ (c : BitVec 2) (x : Word), names (0x531001 + c.toNat) → exec (.rxSubmit q c x) s = .next (s.write q (leBytes 4 x.toNat)))
    ∧ (∀ (c : BitVec 2) v, names (0x533001 + c.toNat) → exec (.rxRevert q c v) s = .next (s.write q [v]))
    ∧ (∀ v, names kStateReq → exec (.stateReq q v) s = .next (s.write q [v]))
    ∧ (∀ v, row 0x010000 → exec (.claim q v) s = .next (s.write q v))
    ∧ (∀ (n : BitVec 3) v, names (0x040000 + 256 * n.toNat) → exec (.timerWrite q n v) s = .next (s.write q v))
    ∧ (∀ v : Word64, names 0x910001 → exec (.actEpoch q v) s = .next (s.write q (leBytes 8 v.toNat)))
    ∧ (∀ v, names 0x912002 → exec (.rollbackCommit q v) s = .next (s.write q [v]))
    ∧ (∀ v, row 0x930001 → exec (.quoteReq q v) s = .next (s.write q v))
    ∧ (∀ v, row 0x931101 → exec (.mrExtend q v) s = .next (s.write q v))
    ∧ (names 0x940001 → exec (.dbgChallenge q) s = .next (s.read q)) ∧ (∀ v, names 0x940002 → exec (.dbgResponse q v) s = .next (s.write q v))
    ∧ (∀ v, names 0x9F0001 → exec (.recSlot q v) s = .next (s.write q [v]))
    ∧ (∀ v, names 0x9F0002 → exec (.recReboot q v) s = .next (s.write q [v]))
    ∧ (∀ v, names 0x803001 → exec (.pwrStateReq q v) s = .next (s.write q [v]))
    ∧ (∀ v : BitVec 16, names kPwrCap → exec (.pwrCap q v) s = .next (s.write q (leBytes 2 v.toNat))))

/-- What a read and an accepted write do, R453, R458, R461 and R474: an admitted read that passes its checks is answered with the value;
an accepted write is logged and committed and then answered, or answered later; a read that a check refuses is answered with the check's
code, one of an entry that no row holds with NO_ENTRY. A stored entry reads back as it was written, and every other entry reads as before,
R446 and R466. The model's choices in it: logs 61, 64, 66. -/
def Obligations.ReadsAndWritesAnswer : Prop :=
  (∀ (s : State) (q : Req) (v : Bytes) (e : Entry),
    let a := (s.admitReq q).1
    (s.admitReq q).2 = true → (findEntry (reqKey q) = none → s.read q = a.answer q aNoEntry []) ∧ (findEntry (reqKey q) = some e →
      (a.readVerdict q.client.origin (reqKey q) = 0 → (a.entryValue (reqKey q) e).length ≤ q.client.payload → e.first ≠ 0x940001 →
        e.first ≠ 0x802001 → s.read q = a.answer q aOk (a.entryValue (reqKey q) e))
      ∧ (a.readVerdict q.client.origin (reqKey q) ≠ 0 → s.read q = a.answer q (a.readVerdict q.client.origin (reqKey q)) [])
      ∧ (flashKey (reqKey q) = false → a.openVerdict q.client.origin (reqKey q) = 0 →
          (a.contentVerdict (Origin.code q.client.origin) (reqKey q) e v).code = 0 →
          a.actVerdict (Origin.code q.client.origin) q.client.logWho e v = 0 →
          let u := (((a.actEffect (Origin.code q.client.origin) q.client.logWho e v).logWrite q (Origin.code q.client.origin) (a.entryValue (reqKey q) e) v
            { code := aOk }).commitValue q.client (Origin.code q.client.origin) q.tid (reqKey q) e v)
          s.write q v = ((if a.respondsLate e v then u.defer q else u.answer q aOk []).afterResponse q aOk v))))
  ∧ (∀ (s : State) (key : Nat) (v : Bytes), (s.setEntry key v).entry key = v ∧ ∀ k, k ≠ key → (s.setEntry key v).entry k = s.entry k)

/-- What an accepted write commits, R33, R224, R282, R285, R393, R451, R471, R496, R497, R500, R502, R503 and R515: each entry that acts
has its effect, and an entry without one holds the value afterwards. The model's choices in it: logs 62, 67, 68. -/
def Obligations.CommitsHaveTheirEffect : Prop :=
  ∀ (s : State) (c : Client) (o : Nat) (tid : BitVec 16) (key : Nat) (e : Entry) (v : Bytes),
    let t := s.commitValue c o tid key e v
    let i := e.pos key
    let n := leNat v
    (e.first = 0x180001 → t.tb.src = n) ∧ (e.first = 0x448000 → t = s.assembleStore i (BitVec.ofNat 32 n))
    ∧ (e.first = 0x500002 → t = s.applyCarriers o c.logWho tid n)
    ∧ (e.first = 0x503001 → t = (s.setEntry (0x503001 + i) v).spiXfer i v)
    ∧ (e.first = 0x531001 → t = s.onCarrier i (fun x => { x with candidate := some (BitVec.ofNat 32 n, x.inactive), verdict := 1, swapAfter := none }))
    ∧ (e.first = 0x533001 → n = 1 → t = s.revertBank i)
    ∧ (e.first = 0x710101 → t.isl.wdValue = setAt s.isl.wdValue i (BitVec.ofNat 16 n) ∧ t.isl.wdLast = setAt s.isl.wdLast i (some s.now))
    ∧ (e.first = 0x803001 → t.pwr.req = some (n == 2)) ∧ (e.first = 0x000005 → t.dict.transition = some (c, tid))
    ∧ (e.first = 0x010000 → fieldAt v 0 2 ≠ 0xFFFF → sfind s.dict.claims i = none → sfind t.dict.claims i = some (s.claimRecord o v))
    ∧ (e.first = 0x010000 → fieldAt v 0 2 = 0xFFFF → sfind t.dict.claims i = none)
    ∧ (e.first = 0x040000 → (t.timer i).first = fieldAt v 0 8 ∧ (t.timer i).period = fieldAt v 8 4 ∧ (t.timer i).width = fieldAt v 12 4
        ∧ (t.timer i).ball = fieldAt v 26 2 ∧ (t.timer i).en = (fieldAt v 28 1 == 1))
    ∧ (e.first = 0x910001 → t.flash.act.epoch = n) ∧ (e.first = 0x912002 → n ≠ s.flash.rollback → t.sec.commit = some (c, tid, n))
    ∧ (e.first = 0x930001 → t.sec.quoteQueue = s.sec.quoteQueue ++
        [{ client := c, tid := tid, nonce := slice v 0 32, mask := BitVec.ofNat 8 (fieldAt v 32 1) }])
    ∧ (e.first = 0x931101 → t.boot.mrOf (fieldAt v 0 1) = sm3 (s.boot.mrOf (fieldAt v 0 1) ++ slice v 4 32))
    ∧ (e.first = 0x201000 → t.sched.table = some (parseSchedule v)) ∧ (e.first = 0x700001 → t.fc.threshold = n)
    ∧ (e.first = 0x700002 → t.fc.altClass = n) ∧ (e.first = 0x911000 → t = s.commitImage kStage v)
    ∧ (e.first = 0x9F0100 → t = s.commitImage kRecImage v)
    ∧ (e.first ∉ [0x180001, 0x201000, 0x448000, 0x500002, 0x503001, 0x531001, 0x533001, 0x710101, 0x700001, 0x700002, 0x803001, 0x000005,
        0x010000, 0x040000, 0x910001, 0x911000, 0x9F0100, 0x912002, 0x930001, 0x931101, 0x700003, 0x940002, 0x9F0002] → t = s.setEntry key v)

/-- Frames, expiries and timers of the dictionary, R461, R462, R464, R471 and R472: DW_WORD moves data; a flawed frame is a violation, and
a well-formed one with reserved fields or too long ends its transfer with PROTOCOL; an idle transfer ends with TIMEOUT; a stored response
older than 1 s is dropped; a due timer sends its MSI, drives its claimed ball for WIDTH, and goes on by PERIOD; the pulse's end lowers the
ball. Register writes, R12, and the change log, R475: a write of a register has its effect; each logged change takes the next number, and
the log keeps the newest 65,536 records. The model's choices in it: logs 63, 66, 74. -/
def Obligations.RegistersAndExpiries : Prop :=
  (∀ (s : State),
    (∀ (k : Fin 13) w, s.served (slotClient k.val) = true → exec (.dwWordAccess k w) s = .next (s.dwWord k.val w))
    ∧ (∀ c tid, s.served c = true → exec (.kdpFrameDiscard c tid .crcOrLength) s = .next (s.kdpViolation c tid)
        ∧ exec (.kdpFrameDiscard c tid .reserved) s = .next (s.breakTransfer c tid aProtocol)
        ∧ exec (.kdpFrameDiscard c tid .tooLong) s = .next (s.breakTransfer c tid aProtocol))
    ∧ (s.up = true →
      (∀ c tid, s.transferIdle c tid = true → exec (.kdpTransferExpiry c tid) s = .next (s.serverAbort c tid aTimeout))
      ∧ (∀ node : BitVec 3, s.peerLate node.toNat = true → exec (.kdpPeerTimeout node) s = .next
          ((s.peerDone node.toNat).emit (.abort { origin := .p, who := node.toNat, port := 0 } 0 aTimeout)))
      ∧ (∀ c tid, exec (.kdpDupExpiry c tid) s = .next (s.onDict (fun d =>
          { d with doneTx := d.doneTx.filter (fun x => !(x.client == c && x.tid == tid && decide (x.time + 1000000000 < s.now))) })))
      ∧ (∀ n : BitVec 3, s.timerDue n.toNat = true →
          let t := s.timer n.toNat
          let s1 := (s.emit (.msi t.msiAddr t.msiData)).onTimer n.toNat (fun x => { x with nextFire := x.after })
          (s.timerDrives n.toNat = false → exec (.timerFire n) s = .next s1)
          ∧ (s.timerDrives n.toNat = true → exec (.timerFire n) s = .next
              ((s1.driveMfio t.ball true).onTimer n.toNat (fun x => { x with pulseEnd := some (s.now + t.width) }))))
      ∧ (∀ n : BitVec 3, s.pulseDue n.toNat = true → exec (.timerPulseEnd n) s = .next
          ((s.driveMfio (s.timer n.toNat).ball false).onTimer n.toNat (fun x => { x with pulseEnd := none })))))
  ∧ (∀ (s : State),
    (∀ by_ addr v, s.up = true → s.isRegister addr = true → exec (.registerWrite by_ addr v) s = .next (s.regWrite by_ addr v))
    ∧ ∀ (at_ : Nat) (c : Change),
        let t := s.logChange at_ c
        t.dict.chHead = (s.dict.chHead + 1) % 2 ^ 48 ∧ t.dict.changes.getLast? = some { c with time := at_, chseq := s.dict.chHead }
        ∧ (s.dict.changes.length < 65536 → t.dict.changes = s.dict.changes ++ [{ c with time := at_, chseq := s.dict.chHead }])
        ∧ (s.dict.changes.length = 65536 → t.dict.changes = s.dict.changes.drop 1 ++ [{ c with time := at_, chseq := s.dict.chHead }]))
end

