-- ==== Sys2Proof/Laws/Kept.lean ====
section
/-! SUPPORT. What every operation keeps: the queue of commands, the records written and sent so far, and the invariant of each
unit. One lemma for each way to change one unit, and for folds. -/

-- One declaration at a time, so that few threads hold memory at once.
set_option Elab.async false

namespace Sys2Proof.Machine

theorem Flash.OtpLe.rfl' {a : Flash} : a.OtpLe a := ⟨le_refl _, ⟨rfl, rfl, rfl, rfl⟩, ⟨rfl, rfl, rfl⟩⟩

theorem Flash.OtpLe.trans {a b c : Flash} (h : a.OtpLe b) (k : b.OtpLe c) : a.OtpLe c :=
  ⟨le_trans h.rollback k.rollback,
    ⟨k.keys.1.trans h.keys.1, k.keys.2.1.trans h.keys.2.1, k.keys.2.2.1.trans h.keys.2.2.1, k.keys.2.2.2.trans h.keys.2.2.2⟩,
    ⟨k.fixed.1.trans h.fixed.1, k.fixed.2.1.trans h.fixed.2.1, k.fixed.2.2.trans h.fixed.2.2⟩⟩

/-- From s to t nothing was taken from the queue or from what is logged and sent, and each unit's invariant is kept. -/
structure Kept (s t : State) : Prop where
  queue : t.pending = s.pending
  events : s.events <+: t.events
  sent : s.sent <+: t.sent
  time : s.tb.Ok → t.tb.Ok
  pwr : s.pwr.Ok → t.pwr.Ok
  fc : s.fc.Ok → t.fc.Ok
  dict : s.dict.Ok → t.dict.Ok
  mem : s.mem.Ok → t.mem.Ok
  cores : s.cores.length = 64 → t.cores.length = 64
  otp : s.flash.OtpLe t.flash

theorem Kept.rfl' {s : State} : Kept s s := ⟨rfl, List.prefix_rfl, List.prefix_rfl, id, id, id, id, id, id, .rfl'⟩

theorem Kept.trans {s t u : State} (a : Kept s t) (b : Kept t u) : Kept s u :=
  ⟨b.queue.trans a.queue, a.events.trans b.events, a.sent.trans b.sent, b.time ∘ a.time, b.pwr ∘ a.pwr, b.fc ∘ a.fc,
    b.dict ∘ a.dict, b.mem ∘ a.mem, b.cores ∘ a.cores, a.otp.trans b.otp⟩

theorem Power.Ok.reset : Power.Ok {} := ⟨by decide, rfl, by decide⟩

variable {s t : State}

theorem Kept.onTb {f : Timebase → Timebase} (h : Kept s t) (hf : t.tb.Ok → (f t.tb).Ok) : Kept s (t.onTb f) :=
  h.trans ⟨rfl, List.prefix_rfl, List.prefix_rfl, hf, id, id, id, id, id, .rfl'⟩

theorem Kept.onPwr {f : Power → Power} (h : Kept s t) (hf : t.pwr.Ok → (f t.pwr).Ok) : Kept s (t.onPwr f) :=
  h.trans ⟨rfl, List.prefix_rfl, List.prefix_rfl, id, hf, id, id, id, id, .rfl'⟩

theorem Kept.onFc {f : Collector → Collector} (h : Kept s t) (hf : t.fc.Ok → (f t.fc).Ok) : Kept s (t.onFc f) :=
  h.trans ⟨rfl, List.prefix_rfl, List.prefix_rfl, id, id, hf, id, id, id, .rfl'⟩

theorem Kept.onDict {f : Dict → Dict} (h : Kept s t) (hf : t.dict.Ok → (f t.dict).Ok) : Kept s (t.onDict f) :=
  h.trans ⟨rfl, List.prefix_rfl, List.prefix_rfl, id, id, id, hf, id, id, .rfl'⟩

theorem Kept.onMem {f : Mem → Mem} (h : Kept s t) (hf : t.mem.Ok → (f t.mem).Ok) : Kept s (t.onMem f) :=
  h.trans ⟨rfl, List.prefix_rfl, List.prefix_rfl, id, id, id, id, hf, id, .rfl'⟩

theorem Kept.tbSame {f : Timebase → Timebase} (h : Kept s t) (e : (f t.tb).now = t.tb.now) : Kept s (t.onTb f) :=
  h.onTb (fun x => by unfold Timebase.Ok at *; rw [e]; exact x)

theorem Kept.pwrSame {f : Power → Power} (h : Kept s t) (e1 : (f t.pwr).level = t.pwr.level)
    (e2 : (f t.pwr).appClock = t.pwr.appClock) (e3 : (f t.pwr).unmet = t.pwr.unmet) : Kept s (t.onPwr f) :=
  h.onPwr (fun x => ⟨by rw [e1]; exact x.level, by rw [e1, e2]; exact x.clock, by rw [e1, e3]; exact x.unmet⟩)

theorem Kept.fcSame {f : Collector → Collector} (h : Kept s t) (e1 : (f t.fc).status = t.fc.status)
    (e2 : (f t.fc).slots = t.fc.slots) (e3 : (f t.fc).log = t.fc.log) : Kept s (t.onFc f) :=
  h.onFc (fun x => ⟨by rw [e1, e2]; exact x.latch, by rw [e3]; exact x.log⟩)

theorem Kept.dictSame {f : Dict → Dict} (h : Kept s t) (e : (f t.dict).changes = t.dict.changes) : Kept s (t.onDict f) :=
  h.onDict (fun x => by unfold Dict.Ok at *; rw [e]; exact x)

theorem Kept.memSame {f : Mem → Mem} (h : Kept s t) (e1 : (f t.mem).data = t.mem.data) (e2 : (f t.mem).synd = t.mem.synd) :
    Kept s (t.onMem f) :=
  h.onMem (fun x => by unfold Mem.Ok Mem.wf at *; rw [e1, e2]; exact x)

theorem Kept.onCore {n : Nat} {f : Core → Core} (h : Kept s t) : Kept s (t.onCore n f) :=
  h.trans ⟨rfl, List.prefix_rfl, List.prefix_rfl, id, id, id, id, id, fun x => by simpa [State.onCore, updAt] using x, .rfl'⟩

theorem Kept.onPins {f : Pins → Pins} (h : Kept s t) : Kept s (t.onPins f) :=
  h.trans ⟨rfl, List.prefix_rfl, List.prefix_rfl, id, id, id, id, id, id, .rfl'⟩

theorem Kept.onIsl {f : Island → Island} (h : Kept s t) : Kept s (t.onIsl f) :=
  h.trans ⟨rfl, List.prefix_rfl, List.prefix_rfl, id, id, id, id, id, id, .rfl'⟩

theorem Kept.onFlash {f : Flash → Flash} (h : Kept s t) (hf : t.flash.OtpLe (f t.flash)) : Kept s (t.onFlash f) :=
  h.trans ⟨rfl, List.prefix_rfl, List.prefix_rfl, id, id, id, id, id, id, hf⟩

theorem Kept.onBoot {f : Boot → Boot} (h : Kept s t) : Kept s (t.onBoot f) :=
  h.trans ⟨rfl, List.prefix_rfl, List.prefix_rfl, id, id, id, id, id, id, .rfl'⟩

theorem Kept.onSec {f : Security → Security} (h : Kept s t) : Kept s (t.onSec f) :=
  h.trans ⟨rfl, List.prefix_rfl, List.prefix_rfl, id, id, id, id, id, id, .rfl'⟩

theorem Kept.onSched {f : Sched → Sched} (h : Kept s t) : Kept s (t.onSched f) :=
  h.trans ⟨rfl, List.prefix_rfl, List.prefix_rfl, id, id, id, id, id, id, .rfl'⟩

theorem Kept.onCtx {f : Contexts → Contexts} (h : Kept s t) : Kept s (t.onCtx f) :=
  h.trans ⟨rfl, List.prefix_rfl, List.prefix_rfl, id, id, id, id, id, id, .rfl'⟩

theorem Kept.onSpring {f : Spring → Spring} (h : Kept s t) : Kept s (t.onSpring f) :=
  h.trans ⟨rfl, List.prefix_rfl, List.prefix_rfl, id, id, id, id, id, id, .rfl'⟩

theorem Kept.onRadio {f : Radio → Radio} (h : Kept s t) : Kept s (t.onRadio f) :=
  h.trans ⟨rfl, List.prefix_rfl, List.prefix_rfl, id, id, id, id, id, id, .rfl'⟩

theorem Kept.onFab {f : Fabric → Fabric} (h : Kept s t) : Kept s (t.onFab f) :=
  h.trans ⟨rfl, List.prefix_rfl, List.prefix_rfl, id, id, id, id, id, id, .rfl'⟩

theorem Kept.emit {e : Emission} (h : Kept s t) : Kept s (t.emit e) :=
  h.trans ⟨rfl, List.prefix_rfl, List.prefix_append .., id, id, id, id, id, id, .rfl'⟩

theorem Kept.fresh1 (h : Kept s t) : Kept s t.fresh1 := h.trans ⟨rfl, List.prefix_rfl, List.prefix_rfl, id, id, id, id, id, id, .rfl'⟩

theorem Kept.foldl {α : Type} {f : State → α → State} {l : List α} (h : Kept s t) (hf : ∀ u x, Kept s u → Kept s (f u x)) :
    Kept s (l.foldl f t) := by
  induction l generalizing t with
  | nil => exact h
  | cons x l ih => exact ih (hf t x h)

theorem Kept.foldlFst {α β : Type} {f : State × β → α → State × β} {l : List α} {x : State × β} (h : Kept s x.1)
    (hf : ∀ y a, Kept s y.1 → Kept s (f y a).1) : Kept s (l.foldl f x).1 := by
  induction l generalizing x with
  | nil => exact h
  | cons a l ih => exact ih (hf x a h)

theorem Kept.getD {o : Option State} {d : State} (hd : Kept s d) (ho : ∀ u, o = some u → Kept s u) : Kept s (o.getD d) := by
  cases o with
  | none => exact hd
  | some u => exact ho u rfl

theorem Kept.elim {α : Type} {o : Option α} {d : State} {f : α → State} (hd : Kept s d) (hf : ∀ a, Kept s (f a)) :
    Kept s (o.elim d f) := by
  cases o with
  | none => exact hd
  | some a => exact hf a

end Sys2Proof.Machine
end

