-- ==== Sys2Proof/Laws/Collector.lean ====
section
/-! SUPPORT. The Latch rule of R404 and the bound of the fault log under the collector's own operations. -/

-- One declaration at a time, so that few threads hold memory at once.
set_option Elab.async false

namespace Sys2Proof.Machine

theorem mem_sput {α : Type} {m : Sparse α} {i : Nat} {v : α} {kv : Nat × α} (h : kv ∈ sput m i v) : kv = (i, v) ∨ kv ∈ m := by
  induction m with
  | nil => exact .inl (by simpa [sput] using h)
  | cons p m ih =>
    obtain ⟨k, w⟩ := p
    unfold sput at h
    split at h
    · simpa using h
    · split at h
      · rcases List.mem_cons.1 h with h | h
        · exact .inl h
        · exact .inr (List.mem_cons_of_mem _ h)
      · rcases List.mem_cons.1 h with h | h
        · exact .inr (by simp [h])
        · exact (ih h).imp id (List.mem_cons_of_mem _)

theorem mem_sdel {α : Type} {m : Sparse α} {i : Nat} {kv : Nat × α} (h : kv ∈ sdel m i) : kv ∈ m := by
  induction m with
  | nil => exact h
  | cons p m ih =>
    unfold sdel at h
    split at h
    · exact List.mem_cons_of_mem _ (ih h)
    · rcases List.mem_cons.1 h with h | h
      · simp [h]
      · exact List.mem_cons_of_mem _ (ih h)

theorem sfind_mem {α : Type} {m : Sparse α} {i : Nat} {v : α} (h : sfind m i = some v) : (i, v) ∈ m := by
  induction m with
  | nil => cases h
  | cons p m ih =>
    unfold sfind at h
    split at h
    · rename_i e; cases h; simp [e]
    · exact List.mem_cons_of_mem _ (ih h)

theorem getLsbD_bit36 {g : Nat} (h : g < 36) : (1#36 <<< g).getLsbD g = true := by simp [h]

/-- The Latch bit of a group is among the held groups when a slot holds a record of the group. -/
theorem Collector.heldGroups_bit {c : Collector} {kv : Nat × FaultRec} (h : kv ∈ c.slots) (hg : kv.2.group.toNat < 36) :
    c.heldGroups.getLsbD kv.2.group.toNat = true := by
  have key : ∀ (l : List (BitVec 6)) (m : BitVec 36), (m.getLsbD kv.2.group.toNat = true ∨ kv.2.group ∈ l) →
      (l.foldl (fun m g => m ||| (1#36 <<< g.toNat)) m).getLsbD kv.2.group.toNat = true := by
    intro l
    induction l with
    | nil => intro m hm; rcases hm with hm | hm <;> simp_all
    | cons a l ih =>
      intro m hm
      refine ih _ ?_
      rcases hm with hm | hm
      · exact .inl (by simp [hm])
      · rcases List.mem_cons.1 hm with hm | hm
        · exact .inl (by simp [← hm, hg])
        · exact .inr hm
  refine key _ _ (.inr (List.mem_append_left _ (List.mem_flatten.2 ⟨kv.2.group :: kv.2.foldedGroups, ?_, by simp⟩)))
  exact List.mem_map.2 ⟨kv, h, rfl⟩

theorem Collector.Ok.settle {c : Collector} (h : c.Ok) : c.settle.Ok := by
  unfold Collector.settle
  dsimp only
  have hs : ∀ kv ∈ c.slots, kv.2.group.toNat < 36 →
      (if c.overflow then c.status else c.status &&& c.heldGroups).getLsbD kv.2.group.toNat = true := by
    intro kv hk hg
    split
    · exact h.latch kv hk hg
    · simp [h.latch kv hk hg, heldGroups_bit hk hg]
  generalize (if c.overflow then c.status else c.status &&& c.heldGroups) = st at hs ⊢
  split
  · rename_i e
    exact ⟨fun kv hk hg => by simpa [e] using hs kv hk hg, h.log⟩
  · exact ⟨hs, h.log⟩

theorem Collector.Ok.ring {c : Collector} (h : c.Ok) (r : FaultRec) : (c.ring r).Ok := by
  unfold Collector.ring
  constructor
  · dsimp only
    exact h.latch
  · simp only [List.length_drop, List.length_append, List.length_singleton]
    omega

/-- A record enters a slot as its Latch bit is set. -/
theorem Collector.Ok.put {c d : Collector} (h : c.Ok) {i : Nat} {r : FaultRec} (hs : d.slots = sput c.slots i r)
    (hl : d.log = c.log) (hb : d.status = c.status ||| (1#36 <<< r.group.toNat)) : d.Ok := by
  refine ⟨fun kv hk hg => ?_, by rw [hl]; exact h.log⟩
  rw [hs] at hk
  rw [hb]
  rcases mem_sput hk with e | hk
  · subst e; simp at hg ⊢; simp [hg]
  · simp [h.latch kv hk hg]

/-- A record changes in its slot and keeps its group. -/
theorem Collector.Ok.putSame {c d : Collector} (h : c.Ok) {i : Nat} {p r : FaultRec} (hp : sfind c.slots i = some p)
    (hs : d.slots = sput c.slots i r) (hg : r.group = p.group) (hl : d.log = c.log) (hb : d.status = c.status) : d.Ok := by
  refine ⟨fun kv hk hg' => ?_, by rw [hl]; exact h.log⟩
  rw [hs] at hk
  rw [hb]
  rcases mem_sput hk with e | hk
  · subst e
    have := h.latch _ (sfind_mem hp)
    simp only [hg] at hg' ⊢
    exact this hg'
  · exact h.latch kv hk hg'

/-- More Latch bits, and no other records. -/
theorem Collector.Ok.more {c d : Collector} (h : c.Ok) (hs : ∀ kv ∈ d.slots, ∃ kv' ∈ c.slots, kv'.2.group = kv.2.group)
    (hl : d.log = c.log) (hb : ∀ g, c.status.getLsbD g = true → d.status.getLsbD g = true) : d.Ok := by
  refine ⟨fun kv hk hg => ?_, by rw [hl]; exact h.log⟩
  obtain ⟨kv', hk', e⟩ := hs kv hk
  rw [← e] at hg ⊢
  exact hb _ (h.latch kv' hk' hg)

theorem Collector.Ok.pulse {c : Collector} (h : c.Ok) (r : FaultRec) : (c.pulse r).Ok := by
  unfold Collector.pulse
  split <;> exact ⟨h.latch, h.log⟩

/-- A new primary enters the collector. -/
theorem Collector.Ok.takePrimary {c : Collector} (h : c.Ok) (slot : Option Nat) (r : FaultRec) : (c.takePrimary slot r).Ok := by
  have hc : ∀ d : Collector, (d.capture slot r).slots = d.slots ∧ (d.capture slot r).log = d.log
      ∧ (d.capture slot r).status = d.status := by
    intro d; unfold Collector.capture; split <;> exact ⟨rfl, rfl, rfl⟩
  unfold Collector.takePrimary
  dsimp only
  refine Collector.Ok.pulse ?_ r
  have hr := h.ring r
  generalize c.ring r = d at hr ⊢
  cases slot with
  | none =>
    refine hr.more ?_ ?_ ?_
    · dsimp only; rw [(hc _).1]; exact fun kv hk => ⟨kv, hk, rfl⟩
    · dsimp only; rw [(hc _).2.1]; rfl
    · dsimp only; rw [(hc _).2.2]; intro g hg; rw [BitVec.getLsbD_or]; simp [Collector.store, hg]
  | some i =>
    refine hr.put (i := i) (r := r) ?_ ?_ ?_
    · dsimp only; rw [(hc _).1]; rfl
    · dsimp only; rw [(hc _).2.1]; rfl
    · dsimp only; rw [(hc _).2.2]; rfl

end Sys2Proof.Machine
end

