-- ==== Sys2Proof/Laws/State.lean ====
section
/-! SUPPORT. What each way to change one unit does to each field of the state: one lemma per field per update, and what it does to
the readings that depend on one unit only. -/

-- One declaration at a time, so that few threads hold memory at once.
set_option Elab.async false

namespace Sys2Proof.Machine

variable (s : State)

@[simp] theorem State.onTb_tb (f : Timebase → Timebase) : (s.onTb f).tb = f s.tb := rfl
@[simp] theorem State.onTb_pins (f : Timebase → Timebase) : (s.onTb f).pins = s.pins := rfl
@[simp] theorem State.onTb_fc (f : Timebase → Timebase) : (s.onTb f).fc = s.fc := rfl
@[simp] theorem State.onTb_isl (f : Timebase → Timebase) : (s.onTb f).isl = s.isl := rfl
@[simp] theorem State.onTb_flash (f : Timebase → Timebase) : (s.onTb f).flash = s.flash := rfl
@[simp] theorem State.onTb_boot (f : Timebase → Timebase) : (s.onTb f).boot = s.boot := rfl
@[simp] theorem State.onTb_sec (f : Timebase → Timebase) : (s.onTb f).sec = s.sec := rfl
@[simp] theorem State.onTb_dict (f : Timebase → Timebase) : (s.onTb f).dict = s.dict := rfl
@[simp] theorem State.onTb_cores (f : Timebase → Timebase) : (s.onTb f).cores = s.cores := rfl
@[simp] theorem State.onTb_sched (f : Timebase → Timebase) : (s.onTb f).sched = s.sched := rfl
@[simp] theorem State.onTb_ctx (f : Timebase → Timebase) : (s.onTb f).ctx = s.ctx := rfl
@[simp] theorem State.onTb_spring (f : Timebase → Timebase) : (s.onTb f).spring = s.spring := rfl
@[simp] theorem State.onTb_radio (f : Timebase → Timebase) : (s.onTb f).radio = s.radio := rfl
@[simp] theorem State.onTb_mem (f : Timebase → Timebase) : (s.onTb f).mem = s.mem := rfl
@[simp] theorem State.onTb_fab (f : Timebase → Timebase) : (s.onTb f).fab = s.fab := rfl
@[simp] theorem State.onTb_pwr (f : Timebase → Timebase) : (s.onTb f).pwr = s.pwr := rfl
@[simp] theorem State.onTb_evSeq (f : Timebase → Timebase) : (s.onTb f).evSeq = s.evSeq := rfl
@[simp] theorem State.onTb_events (f : Timebase → Timebase) : (s.onTb f).events = s.events := rfl
@[simp] theorem State.onTb_sent (f : Timebase → Timebase) : (s.onTb f).sent = s.sent := rfl
@[simp] theorem State.onTb_fresh (f : Timebase → Timebase) : (s.onTb f).fresh = s.fresh := rfl
@[simp] theorem State.onTb_pending (f : Timebase → Timebase) : (s.onTb f).pending = s.pending := rfl

@[simp] theorem State.onPins_tb (f : Pins → Pins) : (s.onPins f).tb = s.tb := rfl
@[simp] theorem State.onPins_pins (f : Pins → Pins) : (s.onPins f).pins = f s.pins := rfl
@[simp] theorem State.onPins_fc (f : Pins → Pins) : (s.onPins f).fc = s.fc := rfl
@[simp] theorem State.onPins_isl (f : Pins → Pins) : (s.onPins f).isl = s.isl := rfl
@[simp] theorem State.onPins_flash (f : Pins → Pins) : (s.onPins f).flash = s.flash := rfl
@[simp] theorem State.onPins_boot (f : Pins → Pins) : (s.onPins f).boot = s.boot := rfl
@[simp] theorem State.onPins_sec (f : Pins → Pins) : (s.onPins f).sec = s.sec := rfl
@[simp] theorem State.onPins_dict (f : Pins → Pins) : (s.onPins f).dict = s.dict := rfl
@[simp] theorem State.onPins_cores (f : Pins → Pins) : (s.onPins f).cores = s.cores := rfl
@[simp] theorem State.onPins_sched (f : Pins → Pins) : (s.onPins f).sched = s.sched := rfl
@[simp] theorem State.onPins_ctx (f : Pins → Pins) : (s.onPins f).ctx = s.ctx := rfl
@[simp] theorem State.onPins_spring (f : Pins → Pins) : (s.onPins f).spring = s.spring := rfl
@[simp] theorem State.onPins_radio (f : Pins → Pins) : (s.onPins f).radio = s.radio := rfl
@[simp] theorem State.onPins_mem (f : Pins → Pins) : (s.onPins f).mem = s.mem := rfl
@[simp] theorem State.onPins_fab (f : Pins → Pins) : (s.onPins f).fab = s.fab := rfl
@[simp] theorem State.onPins_pwr (f : Pins → Pins) : (s.onPins f).pwr = s.pwr := rfl
@[simp] theorem State.onPins_evSeq (f : Pins → Pins) : (s.onPins f).evSeq = s.evSeq := rfl
@[simp] theorem State.onPins_events (f : Pins → Pins) : (s.onPins f).events = s.events := rfl
@[simp] theorem State.onPins_sent (f : Pins → Pins) : (s.onPins f).sent = s.sent := rfl
@[simp] theorem State.onPins_fresh (f : Pins → Pins) : (s.onPins f).fresh = s.fresh := rfl
@[simp] theorem State.onPins_pending (f : Pins → Pins) : (s.onPins f).pending = s.pending := rfl

@[simp] theorem State.onFc_tb (f : Collector → Collector) : (s.onFc f).tb = s.tb := rfl
@[simp] theorem State.onFc_pins (f : Collector → Collector) : (s.onFc f).pins = s.pins := rfl
@[simp] theorem State.onFc_fc (f : Collector → Collector) : (s.onFc f).fc = f s.fc := rfl
@[simp] theorem State.onFc_isl (f : Collector → Collector) : (s.onFc f).isl = s.isl := rfl
@[simp] theorem State.onFc_flash (f : Collector → Collector) : (s.onFc f).flash = s.flash := rfl
@[simp] theorem State.onFc_boot (f : Collector → Collector) : (s.onFc f).boot = s.boot := rfl
@[simp] theorem State.onFc_sec (f : Collector → Collector) : (s.onFc f).sec = s.sec := rfl
@[simp] theorem State.onFc_dict (f : Collector → Collector) : (s.onFc f).dict = s.dict := rfl
@[simp] theorem State.onFc_cores (f : Collector → Collector) : (s.onFc f).cores = s.cores := rfl
@[simp] theorem State.onFc_sched (f : Collector → Collector) : (s.onFc f).sched = s.sched := rfl
@[simp] theorem State.onFc_ctx (f : Collector → Collector) : (s.onFc f).ctx = s.ctx := rfl
@[simp] theorem State.onFc_spring (f : Collector → Collector) : (s.onFc f).spring = s.spring := rfl
@[simp] theorem State.onFc_radio (f : Collector → Collector) : (s.onFc f).radio = s.radio := rfl
@[simp] theorem State.onFc_mem (f : Collector → Collector) : (s.onFc f).mem = s.mem := rfl
@[simp] theorem State.onFc_fab (f : Collector → Collector) : (s.onFc f).fab = s.fab := rfl
@[simp] theorem State.onFc_pwr (f : Collector → Collector) : (s.onFc f).pwr = s.pwr := rfl
@[simp] theorem State.onFc_evSeq (f : Collector → Collector) : (s.onFc f).evSeq = s.evSeq := rfl
@[simp] theorem State.onFc_events (f : Collector → Collector) : (s.onFc f).events = s.events := rfl
@[simp] theorem State.onFc_sent (f : Collector → Collector) : (s.onFc f).sent = s.sent := rfl
@[simp] theorem State.onFc_fresh (f : Collector → Collector) : (s.onFc f).fresh = s.fresh := rfl
@[simp] theorem State.onFc_pending (f : Collector → Collector) : (s.onFc f).pending = s.pending := rfl

@[simp] theorem State.onIsl_tb (f : Island → Island) : (s.onIsl f).tb = s.tb := rfl
@[simp] theorem State.onIsl_pins (f : Island → Island) : (s.onIsl f).pins = s.pins := rfl
@[simp] theorem State.onIsl_fc (f : Island → Island) : (s.onIsl f).fc = s.fc := rfl
@[simp] theorem State.onIsl_isl (f : Island → Island) : (s.onIsl f).isl = f s.isl := rfl
@[simp] theorem State.onIsl_flash (f : Island → Island) : (s.onIsl f).flash = s.flash := rfl
@[simp] theorem State.onIsl_boot (f : Island → Island) : (s.onIsl f).boot = s.boot := rfl
@[simp] theorem State.onIsl_sec (f : Island → Island) : (s.onIsl f).sec = s.sec := rfl
@[simp] theorem State.onIsl_dict (f : Island → Island) : (s.onIsl f).dict = s.dict := rfl
@[simp] theorem State.onIsl_cores (f : Island → Island) : (s.onIsl f).cores = s.cores := rfl
@[simp] theorem State.onIsl_sched (f : Island → Island) : (s.onIsl f).sched = s.sched := rfl
@[simp] theorem State.onIsl_ctx (f : Island → Island) : (s.onIsl f).ctx = s.ctx := rfl
@[simp] theorem State.onIsl_spring (f : Island → Island) : (s.onIsl f).spring = s.spring := rfl
@[simp] theorem State.onIsl_radio (f : Island → Island) : (s.onIsl f).radio = s.radio := rfl
@[simp] theorem State.onIsl_mem (f : Island → Island) : (s.onIsl f).mem = s.mem := rfl
@[simp] theorem State.onIsl_fab (f : Island → Island) : (s.onIsl f).fab = s.fab := rfl
@[simp] theorem State.onIsl_pwr (f : Island → Island) : (s.onIsl f).pwr = s.pwr := rfl
@[simp] theorem State.onIsl_evSeq (f : Island → Island) : (s.onIsl f).evSeq = s.evSeq := rfl
@[simp] theorem State.onIsl_events (f : Island → Island) : (s.onIsl f).events = s.events := rfl
@[simp] theorem State.onIsl_sent (f : Island → Island) : (s.onIsl f).sent = s.sent := rfl
@[simp] theorem State.onIsl_fresh (f : Island → Island) : (s.onIsl f).fresh = s.fresh := rfl
@[simp] theorem State.onIsl_pending (f : Island → Island) : (s.onIsl f).pending = s.pending := rfl

@[simp] theorem State.onFlash_tb (f : Flash → Flash) : (s.onFlash f).tb = s.tb := rfl
@[simp] theorem State.onFlash_pins (f : Flash → Flash) : (s.onFlash f).pins = s.pins := rfl
@[simp] theorem State.onFlash_fc (f : Flash → Flash) : (s.onFlash f).fc = s.fc := rfl
@[simp] theorem State.onFlash_isl (f : Flash → Flash) : (s.onFlash f).isl = s.isl := rfl
@[simp] theorem State.onFlash_flash (f : Flash → Flash) : (s.onFlash f).flash = f s.flash := rfl
@[simp] theorem State.onFlash_boot (f : Flash → Flash) : (s.onFlash f).boot = s.boot := rfl
@[simp] theorem State.onFlash_sec (f : Flash → Flash) : (s.onFlash f).sec = s.sec := rfl
@[simp] theorem State.onFlash_dict (f : Flash → Flash) : (s.onFlash f).dict = s.dict := rfl
@[simp] theorem State.onFlash_cores (f : Flash → Flash) : (s.onFlash f).cores = s.cores := rfl
@[simp] theorem State.onFlash_sched (f : Flash → Flash) : (s.onFlash f).sched = s.sched := rfl
@[simp] theorem State.onFlash_ctx (f : Flash → Flash) : (s.onFlash f).ctx = s.ctx := rfl
@[simp] theorem State.onFlash_spring (f : Flash → Flash) : (s.onFlash f).spring = s.spring := rfl
@[simp] theorem State.onFlash_radio (f : Flash → Flash) : (s.onFlash f).radio = s.radio := rfl
@[simp] theorem State.onFlash_mem (f : Flash → Flash) : (s.onFlash f).mem = s.mem := rfl
@[simp] theorem State.onFlash_fab (f : Flash → Flash) : (s.onFlash f).fab = s.fab := rfl
@[simp] theorem State.onFlash_pwr (f : Flash → Flash) : (s.onFlash f).pwr = s.pwr := rfl
@[simp] theorem State.onFlash_evSeq (f : Flash → Flash) : (s.onFlash f).evSeq = s.evSeq := rfl
@[simp] theorem State.onFlash_events (f : Flash → Flash) : (s.onFlash f).events = s.events := rfl
@[simp] theorem State.onFlash_sent (f : Flash → Flash) : (s.onFlash f).sent = s.sent := rfl
@[simp] theorem State.onFlash_fresh (f : Flash → Flash) : (s.onFlash f).fresh = s.fresh := rfl
@[simp] theorem State.onFlash_pending (f : Flash → Flash) : (s.onFlash f).pending = s.pending := rfl

@[simp] theorem State.onBoot_tb (f : Boot → Boot) : (s.onBoot f).tb = s.tb := rfl
@[simp] theorem State.onBoot_pins (f : Boot → Boot) : (s.onBoot f).pins = s.pins := rfl
@[simp] theorem State.onBoot_fc (f : Boot → Boot) : (s.onBoot f).fc = s.fc := rfl
@[simp] theorem State.onBoot_isl (f : Boot → Boot) : (s.onBoot f).isl = s.isl := rfl
@[simp] theorem State.onBoot_flash (f : Boot → Boot) : (s.onBoot f).flash = s.flash := rfl
@[simp] theorem State.onBoot_boot (f : Boot → Boot) : (s.onBoot f).boot = f s.boot := rfl
@[simp] theorem State.onBoot_sec (f : Boot → Boot) : (s.onBoot f).sec = s.sec := rfl
@[simp] theorem State.onBoot_dict (f : Boot → Boot) : (s.onBoot f).dict = s.dict := rfl
@[simp] theorem State.onBoot_cores (f : Boot → Boot) : (s.onBoot f).cores = s.cores := rfl
@[simp] theorem State.onBoot_sched (f : Boot → Boot) : (s.onBoot f).sched = s.sched := rfl
@[simp] theorem State.onBoot_ctx (f : Boot → Boot) : (s.onBoot f).ctx = s.ctx := rfl
@[simp] theorem State.onBoot_spring (f : Boot → Boot) : (s.onBoot f).spring = s.spring := rfl
@[simp] theorem State.onBoot_radio (f : Boot → Boot) : (s.onBoot f).radio = s.radio := rfl
@[simp] theorem State.onBoot_mem (f : Boot → Boot) : (s.onBoot f).mem = s.mem := rfl
@[simp] theorem State.onBoot_fab (f : Boot → Boot) : (s.onBoot f).fab = s.fab := rfl
@[simp] theorem State.onBoot_pwr (f : Boot → Boot) : (s.onBoot f).pwr = s.pwr := rfl
@[simp] theorem State.onBoot_evSeq (f : Boot → Boot) : (s.onBoot f).evSeq = s.evSeq := rfl
@[simp] theorem State.onBoot_events (f : Boot → Boot) : (s.onBoot f).events = s.events := rfl
@[simp] theorem State.onBoot_sent (f : Boot → Boot) : (s.onBoot f).sent = s.sent := rfl
@[simp] theorem State.onBoot_fresh (f : Boot → Boot) : (s.onBoot f).fresh = s.fresh := rfl
@[simp] theorem State.onBoot_pending (f : Boot → Boot) : (s.onBoot f).pending = s.pending := rfl

@[simp] theorem State.onSec_tb (f : Security → Security) : (s.onSec f).tb = s.tb := rfl
@[simp] theorem State.onSec_pins (f : Security → Security) : (s.onSec f).pins = s.pins := rfl
@[simp] theorem State.onSec_fc (f : Security → Security) : (s.onSec f).fc = s.fc := rfl
@[simp] theorem State.onSec_isl (f : Security → Security) : (s.onSec f).isl = s.isl := rfl
@[simp] theorem State.onSec_flash (f : Security → Security) : (s.onSec f).flash = s.flash := rfl
@[simp] theorem State.onSec_boot (f : Security → Security) : (s.onSec f).boot = s.boot := rfl
@[simp] theorem State.onSec_sec (f : Security → Security) : (s.onSec f).sec = f s.sec := rfl
@[simp] theorem State.onSec_dict (f : Security → Security) : (s.onSec f).dict = s.dict := rfl
@[simp] theorem State.onSec_cores (f : Security → Security) : (s.onSec f).cores = s.cores := rfl
@[simp] theorem State.onSec_sched (f : Security → Security) : (s.onSec f).sched = s.sched := rfl
@[simp] theorem State.onSec_ctx (f : Security → Security) : (s.onSec f).ctx = s.ctx := rfl
@[simp] theorem State.onSec_spring (f : Security → Security) : (s.onSec f).spring = s.spring := rfl
@[simp] theorem State.onSec_radio (f : Security → Security) : (s.onSec f).radio = s.radio := rfl
@[simp] theorem State.onSec_mem (f : Security → Security) : (s.onSec f).mem = s.mem := rfl
@[simp] theorem State.onSec_fab (f : Security → Security) : (s.onSec f).fab = s.fab := rfl
@[simp] theorem State.onSec_pwr (f : Security → Security) : (s.onSec f).pwr = s.pwr := rfl
@[simp] theorem State.onSec_evSeq (f : Security → Security) : (s.onSec f).evSeq = s.evSeq := rfl
@[simp] theorem State.onSec_events (f : Security → Security) : (s.onSec f).events = s.events := rfl
@[simp] theorem State.onSec_sent (f : Security → Security) : (s.onSec f).sent = s.sent := rfl
@[simp] theorem State.onSec_fresh (f : Security → Security) : (s.onSec f).fresh = s.fresh := rfl
@[simp] theorem State.onSec_pending (f : Security → Security) : (s.onSec f).pending = s.pending := rfl

@[simp] theorem State.onDict_tb (f : Dict → Dict) : (s.onDict f).tb = s.tb := rfl
@[simp] theorem State.onDict_pins (f : Dict → Dict) : (s.onDict f).pins = s.pins := rfl
@[simp] theorem State.onDict_fc (f : Dict → Dict) : (s.onDict f).fc = s.fc := rfl
@[simp] theorem State.onDict_isl (f : Dict → Dict) : (s.onDict f).isl = s.isl := rfl
@[simp] theorem State.onDict_flash (f : Dict → Dict) : (s.onDict f).flash = s.flash := rfl
@[simp] theorem State.onDict_boot (f : Dict → Dict) : (s.onDict f).boot = s.boot := rfl
@[simp] theorem State.onDict_sec (f : Dict → Dict) : (s.onDict f).sec = s.sec := rfl
@[simp] theorem State.onDict_dict (f : Dict → Dict) : (s.onDict f).dict = f s.dict := rfl
@[simp] theorem State.onDict_cores (f : Dict → Dict) : (s.onDict f).cores = s.cores := rfl
@[simp] theorem State.onDict_sched (f : Dict → Dict) : (s.onDict f).sched = s.sched := rfl
@[simp] theorem State.onDict_ctx (f : Dict → Dict) : (s.onDict f).ctx = s.ctx := rfl
@[simp] theorem State.onDict_spring (f : Dict → Dict) : (s.onDict f).spring = s.spring := rfl
@[simp] theorem State.onDict_radio (f : Dict → Dict) : (s.onDict f).radio = s.radio := rfl
@[simp] theorem State.onDict_mem (f : Dict → Dict) : (s.onDict f).mem = s.mem := rfl
@[simp] theorem State.onDict_fab (f : Dict → Dict) : (s.onDict f).fab = s.fab := rfl
@[simp] theorem State.onDict_pwr (f : Dict → Dict) : (s.onDict f).pwr = s.pwr := rfl
@[simp] theorem State.onDict_evSeq (f : Dict → Dict) : (s.onDict f).evSeq = s.evSeq := rfl
@[simp] theorem State.onDict_events (f : Dict → Dict) : (s.onDict f).events = s.events := rfl
@[simp] theorem State.onDict_sent (f : Dict → Dict) : (s.onDict f).sent = s.sent := rfl
@[simp] theorem State.onDict_fresh (f : Dict → Dict) : (s.onDict f).fresh = s.fresh := rfl
@[simp] theorem State.onDict_pending (f : Dict → Dict) : (s.onDict f).pending = s.pending := rfl

@[simp] theorem State.onSched_tb (f : Sched → Sched) : (s.onSched f).tb = s.tb := rfl
@[simp] theorem State.onSched_pins (f : Sched → Sched) : (s.onSched f).pins = s.pins := rfl
@[simp] theorem State.onSched_fc (f : Sched → Sched) : (s.onSched f).fc = s.fc := rfl
@[simp] theorem State.onSched_isl (f : Sched → Sched) : (s.onSched f).isl = s.isl := rfl
@[simp] theorem State.onSched_flash (f : Sched → Sched) : (s.onSched f).flash = s.flash := rfl
@[simp] theorem State.onSched_boot (f : Sched → Sched) : (s.onSched f).boot = s.boot := rfl
@[simp] theorem State.onSched_sec (f : Sched → Sched) : (s.onSched f).sec = s.sec := rfl
@[simp] theorem State.onSched_dict (f : Sched → Sched) : (s.onSched f).dict = s.dict := rfl
@[simp] theorem State.onSched_cores (f : Sched → Sched) : (s.onSched f).cores = s.cores := rfl
@[simp] theorem State.onSched_sched (f : Sched → Sched) : (s.onSched f).sched = f s.sched := rfl
@[simp] theorem State.onSched_ctx (f : Sched → Sched) : (s.onSched f).ctx = s.ctx := rfl
@[simp] theorem State.onSched_spring (f : Sched → Sched) : (s.onSched f).spring = s.spring := rfl
@[simp] theorem State.onSched_radio (f : Sched → Sched) : (s.onSched f).radio = s.radio := rfl
@[simp] theorem State.onSched_mem (f : Sched → Sched) : (s.onSched f).mem = s.mem := rfl
@[simp] theorem State.onSched_fab (f : Sched → Sched) : (s.onSched f).fab = s.fab := rfl
@[simp] theorem State.onSched_pwr (f : Sched → Sched) : (s.onSched f).pwr = s.pwr := rfl
@[simp] theorem State.onSched_evSeq (f : Sched → Sched) : (s.onSched f).evSeq = s.evSeq := rfl
@[simp] theorem State.onSched_events (f : Sched → Sched) : (s.onSched f).events = s.events := rfl
@[simp] theorem State.onSched_sent (f : Sched → Sched) : (s.onSched f).sent = s.sent := rfl
@[simp] theorem State.onSched_fresh (f : Sched → Sched) : (s.onSched f).fresh = s.fresh := rfl
@[simp] theorem State.onSched_pending (f : Sched → Sched) : (s.onSched f).pending = s.pending := rfl

@[simp] theorem State.onCtx_tb (f : Contexts → Contexts) : (s.onCtx f).tb = s.tb := rfl
@[simp] theorem State.onCtx_pins (f : Contexts → Contexts) : (s.onCtx f).pins = s.pins := rfl
@[simp] theorem State.onCtx_fc (f : Contexts → Contexts) : (s.onCtx f).fc = s.fc := rfl
@[simp] theorem State.onCtx_isl (f : Contexts → Contexts) : (s.onCtx f).isl = s.isl := rfl
@[simp] theorem State.onCtx_flash (f : Contexts → Contexts) : (s.onCtx f).flash = s.flash := rfl
@[simp] theorem State.onCtx_boot (f : Contexts → Contexts) : (s.onCtx f).boot = s.boot := rfl
@[simp] theorem State.onCtx_sec (f : Contexts → Contexts) : (s.onCtx f).sec = s.sec := rfl
@[simp] theorem State.onCtx_dict (f : Contexts → Contexts) : (s.onCtx f).dict = s.dict := rfl
@[simp] theorem State.onCtx_cores (f : Contexts → Contexts) : (s.onCtx f).cores = s.cores := rfl
@[simp] theorem State.onCtx_sched (f : Contexts → Contexts) : (s.onCtx f).sched = s.sched := rfl
@[simp] theorem State.onCtx_ctx (f : Contexts → Contexts) : (s.onCtx f).ctx = f s.ctx := rfl
@[simp] theorem State.onCtx_spring (f : Contexts → Contexts) : (s.onCtx f).spring = s.spring := rfl
@[simp] theorem State.onCtx_radio (f : Contexts → Contexts) : (s.onCtx f).radio = s.radio := rfl
@[simp] theorem State.onCtx_mem (f : Contexts → Contexts) : (s.onCtx f).mem = s.mem := rfl
@[simp] theorem State.onCtx_fab (f : Contexts → Contexts) : (s.onCtx f).fab = s.fab := rfl
@[simp] theorem State.onCtx_pwr (f : Contexts → Contexts) : (s.onCtx f).pwr = s.pwr := rfl
@[simp] theorem State.onCtx_evSeq (f : Contexts → Contexts) : (s.onCtx f).evSeq = s.evSeq := rfl
@[simp] theorem State.onCtx_events (f : Contexts → Contexts) : (s.onCtx f).events = s.events := rfl
@[simp] theorem State.onCtx_sent (f : Contexts → Contexts) : (s.onCtx f).sent = s.sent := rfl
@[simp] theorem State.onCtx_fresh (f : Contexts → Contexts) : (s.onCtx f).fresh = s.fresh := rfl
@[simp] theorem State.onCtx_pending (f : Contexts → Contexts) : (s.onCtx f).pending = s.pending := rfl

@[simp] theorem State.onSpring_tb (f : Spring → Spring) : (s.onSpring f).tb = s.tb := rfl
@[simp] theorem State.onSpring_pins (f : Spring → Spring) : (s.onSpring f).pins = s.pins := rfl
@[simp] theorem State.onSpring_fc (f : Spring → Spring) : (s.onSpring f).fc = s.fc := rfl
@[simp] theorem State.onSpring_isl (f : Spring → Spring) : (s.onSpring f).isl = s.isl := rfl
@[simp] theorem State.onSpring_flash (f : Spring → Spring) : (s.onSpring f).flash = s.flash := rfl
@[simp] theorem State.onSpring_boot (f : Spring → Spring) : (s.onSpring f).boot = s.boot := rfl
@[simp] theorem State.onSpring_sec (f : Spring → Spring) : (s.onSpring f).sec = s.sec := rfl
@[simp] theorem State.onSpring_dict (f : Spring → Spring) : (s.onSpring f).dict = s.dict := rfl
@[simp] theorem State.onSpring_cores (f : Spring → Spring) : (s.onSpring f).cores = s.cores := rfl
@[simp] theorem State.onSpring_sched (f : Spring → Spring) : (s.onSpring f).sched = s.sched := rfl
@[simp] theorem State.onSpring_ctx (f : Spring → Spring) : (s.onSpring f).ctx = s.ctx := rfl
@[simp] theorem State.onSpring_spring (f : Spring → Spring) : (s.onSpring f).spring = f s.spring := rfl
@[simp] theorem State.onSpring_radio (f : Spring → Spring) : (s.onSpring f).radio = s.radio := rfl
@[simp] theorem State.onSpring_mem (f : Spring → Spring) : (s.onSpring f).mem = s.mem := rfl
@[simp] theorem State.onSpring_fab (f : Spring → Spring) : (s.onSpring f).fab = s.fab := rfl
@[simp] theorem State.onSpring_pwr (f : Spring → Spring) : (s.onSpring f).pwr = s.pwr := rfl
@[simp] theorem State.onSpring_evSeq (f : Spring → Spring) : (s.onSpring f).evSeq = s.evSeq := rfl
@[simp] theorem State.onSpring_events (f : Spring → Spring) : (s.onSpring f).events = s.events := rfl
@[simp] theorem State.onSpring_sent (f : Spring → Spring) : (s.onSpring f).sent = s.sent := rfl
@[simp] theorem State.onSpring_fresh (f : Spring → Spring) : (s.onSpring f).fresh = s.fresh := rfl
@[simp] theorem State.onSpring_pending (f : Spring → Spring) : (s.onSpring f).pending = s.pending := rfl

@[simp] theorem State.onRadio_tb (f : Radio → Radio) : (s.onRadio f).tb = s.tb := rfl
@[simp] theorem State.onRadio_pins (f : Radio → Radio) : (s.onRadio f).pins = s.pins := rfl
@[simp] theorem State.onRadio_fc (f : Radio → Radio) : (s.onRadio f).fc = s.fc := rfl
@[simp] theorem State.onRadio_isl (f : Radio → Radio) : (s.onRadio f).isl = s.isl := rfl
@[simp] theorem State.onRadio_flash (f : Radio → Radio) : (s.onRadio f).flash = s.flash := rfl
@[simp] theorem State.onRadio_boot (f : Radio → Radio) : (s.onRadio f).boot = s.boot := rfl
@[simp] theorem State.onRadio_sec (f : Radio → Radio) : (s.onRadio f).sec = s.sec := rfl
@[simp] theorem State.onRadio_dict (f : Radio → Radio) : (s.onRadio f).dict = s.dict := rfl
@[simp] theorem State.onRadio_cores (f : Radio → Radio) : (s.onRadio f).cores = s.cores := rfl
@[simp] theorem State.onRadio_sched (f : Radio → Radio) : (s.onRadio f).sched = s.sched := rfl
@[simp] theorem State.onRadio_ctx (f : Radio → Radio) : (s.onRadio f).ctx = s.ctx := rfl
@[simp] theorem State.onRadio_spring (f : Radio → Radio) : (s.onRadio f).spring = s.spring := rfl
@[simp] theorem State.onRadio_radio (f : Radio → Radio) : (s.onRadio f).radio = f s.radio := rfl
@[simp] theorem State.onRadio_mem (f : Radio → Radio) : (s.onRadio f).mem = s.mem := rfl
@[simp] theorem State.onRadio_fab (f : Radio → Radio) : (s.onRadio f).fab = s.fab := rfl
@[simp] theorem State.onRadio_pwr (f : Radio → Radio) : (s.onRadio f).pwr = s.pwr := rfl
@[simp] theorem State.onRadio_evSeq (f : Radio → Radio) : (s.onRadio f).evSeq = s.evSeq := rfl
@[simp] theorem State.onRadio_events (f : Radio → Radio) : (s.onRadio f).events = s.events := rfl
@[simp] theorem State.onRadio_sent (f : Radio → Radio) : (s.onRadio f).sent = s.sent := rfl
@[simp] theorem State.onRadio_fresh (f : Radio → Radio) : (s.onRadio f).fresh = s.fresh := rfl
@[simp] theorem State.onRadio_pending (f : Radio → Radio) : (s.onRadio f).pending = s.pending := rfl

@[simp] theorem State.onMem_tb (f : Mem → Mem) : (s.onMem f).tb = s.tb := rfl
@[simp] theorem State.onMem_pins (f : Mem → Mem) : (s.onMem f).pins = s.pins := rfl
@[simp] theorem State.onMem_fc (f : Mem → Mem) : (s.onMem f).fc = s.fc := rfl
@[simp] theorem State.onMem_isl (f : Mem → Mem) : (s.onMem f).isl = s.isl := rfl
@[simp] theorem State.onMem_flash (f : Mem → Mem) : (s.onMem f).flash = s.flash := rfl
@[simp] theorem State.onMem_boot (f : Mem → Mem) : (s.onMem f).boot = s.boot := rfl
@[simp] theorem State.onMem_sec (f : Mem → Mem) : (s.onMem f).sec = s.sec := rfl
@[simp] theorem State.onMem_dict (f : Mem → Mem) : (s.onMem f).dict = s.dict := rfl
@[simp] theorem State.onMem_cores (f : Mem → Mem) : (s.onMem f).cores = s.cores := rfl
@[simp] theorem State.onMem_sched (f : Mem → Mem) : (s.onMem f).sched = s.sched := rfl
@[simp] theorem State.onMem_ctx (f : Mem → Mem) : (s.onMem f).ctx = s.ctx := rfl
@[simp] theorem State.onMem_spring (f : Mem → Mem) : (s.onMem f).spring = s.spring := rfl
@[simp] theorem State.onMem_radio (f : Mem → Mem) : (s.onMem f).radio = s.radio := rfl
@[simp] theorem State.onMem_mem (f : Mem → Mem) : (s.onMem f).mem = f s.mem := rfl
@[simp] theorem State.onMem_fab (f : Mem → Mem) : (s.onMem f).fab = s.fab := rfl
@[simp] theorem State.onMem_pwr (f : Mem → Mem) : (s.onMem f).pwr = s.pwr := rfl
@[simp] theorem State.onMem_evSeq (f : Mem → Mem) : (s.onMem f).evSeq = s.evSeq := rfl
@[simp] theorem State.onMem_events (f : Mem → Mem) : (s.onMem f).events = s.events := rfl
@[simp] theorem State.onMem_sent (f : Mem → Mem) : (s.onMem f).sent = s.sent := rfl
@[simp] theorem State.onMem_fresh (f : Mem → Mem) : (s.onMem f).fresh = s.fresh := rfl
@[simp] theorem State.onMem_pending (f : Mem → Mem) : (s.onMem f).pending = s.pending := rfl

@[simp] theorem State.onFab_tb (f : Fabric → Fabric) : (s.onFab f).tb = s.tb := rfl
@[simp] theorem State.onFab_pins (f : Fabric → Fabric) : (s.onFab f).pins = s.pins := rfl
@[simp] theorem State.onFab_fc (f : Fabric → Fabric) : (s.onFab f).fc = s.fc := rfl
@[simp] theorem State.onFab_isl (f : Fabric → Fabric) : (s.onFab f).isl = s.isl := rfl
@[simp] theorem State.onFab_flash (f : Fabric → Fabric) : (s.onFab f).flash = s.flash := rfl
@[simp] theorem State.onFab_boot (f : Fabric → Fabric) : (s.onFab f).boot = s.boot := rfl
@[simp] theorem State.onFab_sec (f : Fabric → Fabric) : (s.onFab f).sec = s.sec := rfl
@[simp] theorem State.onFab_dict (f : Fabric → Fabric) : (s.onFab f).dict = s.dict := rfl
@[simp] theorem State.onFab_cores (f : Fabric → Fabric) : (s.onFab f).cores = s.cores := rfl
@[simp] theorem State.onFab_sched (f : Fabric → Fabric) : (s.onFab f).sched = s.sched := rfl
@[simp] theorem State.onFab_ctx (f : Fabric → Fabric) : (s.onFab f).ctx = s.ctx := rfl
@[simp] theorem State.onFab_spring (f : Fabric → Fabric) : (s.onFab f).spring = s.spring := rfl
@[simp] theorem State.onFab_radio (f : Fabric → Fabric) : (s.onFab f).radio = s.radio := rfl
@[simp] theorem State.onFab_mem (f : Fabric → Fabric) : (s.onFab f).mem = s.mem := rfl
@[simp] theorem State.onFab_fab (f : Fabric → Fabric) : (s.onFab f).fab = f s.fab := rfl
@[simp] theorem State.onFab_pwr (f : Fabric → Fabric) : (s.onFab f).pwr = s.pwr := rfl
@[simp] theorem State.onFab_evSeq (f : Fabric → Fabric) : (s.onFab f).evSeq = s.evSeq := rfl
@[simp] theorem State.onFab_events (f : Fabric → Fabric) : (s.onFab f).events = s.events := rfl
@[simp] theorem State.onFab_sent (f : Fabric → Fabric) : (s.onFab f).sent = s.sent := rfl
@[simp] theorem State.onFab_fresh (f : Fabric → Fabric) : (s.onFab f).fresh = s.fresh := rfl
@[simp] theorem State.onFab_pending (f : Fabric → Fabric) : (s.onFab f).pending = s.pending := rfl

@[simp] theorem State.onPwr_tb (f : Power → Power) : (s.onPwr f).tb = s.tb := rfl
@[simp] theorem State.onPwr_pins (f : Power → Power) : (s.onPwr f).pins = s.pins := rfl
@[simp] theorem State.onPwr_fc (f : Power → Power) : (s.onPwr f).fc = s.fc := rfl
@[simp] theorem State.onPwr_isl (f : Power → Power) : (s.onPwr f).isl = s.isl := rfl
@[simp] theorem State.onPwr_flash (f : Power → Power) : (s.onPwr f).flash = s.flash := rfl
@[simp] theorem State.onPwr_boot (f : Power → Power) : (s.onPwr f).boot = s.boot := rfl
@[simp] theorem State.onPwr_sec (f : Power → Power) : (s.onPwr f).sec = s.sec := rfl
@[simp] theorem State.onPwr_dict (f : Power → Power) : (s.onPwr f).dict = s.dict := rfl
@[simp] theorem State.onPwr_cores (f : Power → Power) : (s.onPwr f).cores = s.cores := rfl
@[simp] theorem State.onPwr_sched (f : Power → Power) : (s.onPwr f).sched = s.sched := rfl
@[simp] theorem State.onPwr_ctx (f : Power → Power) : (s.onPwr f).ctx = s.ctx := rfl
@[simp] theorem State.onPwr_spring (f : Power → Power) : (s.onPwr f).spring = s.spring := rfl
@[simp] theorem State.onPwr_radio (f : Power → Power) : (s.onPwr f).radio = s.radio := rfl
@[simp] theorem State.onPwr_mem (f : Power → Power) : (s.onPwr f).mem = s.mem := rfl
@[simp] theorem State.onPwr_fab (f : Power → Power) : (s.onPwr f).fab = s.fab := rfl
@[simp] theorem State.onPwr_pwr (f : Power → Power) : (s.onPwr f).pwr = f s.pwr := rfl
@[simp] theorem State.onPwr_evSeq (f : Power → Power) : (s.onPwr f).evSeq = s.evSeq := rfl
@[simp] theorem State.onPwr_events (f : Power → Power) : (s.onPwr f).events = s.events := rfl
@[simp] theorem State.onPwr_sent (f : Power → Power) : (s.onPwr f).sent = s.sent := rfl
@[simp] theorem State.onPwr_fresh (f : Power → Power) : (s.onPwr f).fresh = s.fresh := rfl
@[simp] theorem State.onPwr_pending (f : Power → Power) : (s.onPwr f).pending = s.pending := rfl

@[simp] theorem State.onCore_tb (n : Nat) (f : Core → Core) : (s.onCore n f).tb = s.tb := rfl
@[simp] theorem State.onCore_pins (n : Nat) (f : Core → Core) : (s.onCore n f).pins = s.pins := rfl
@[simp] theorem State.onCore_fc (n : Nat) (f : Core → Core) : (s.onCore n f).fc = s.fc := rfl
@[simp] theorem State.onCore_isl (n : Nat) (f : Core → Core) : (s.onCore n f).isl = s.isl := rfl
@[simp] theorem State.onCore_flash (n : Nat) (f : Core → Core) : (s.onCore n f).flash = s.flash := rfl
@[simp] theorem State.onCore_boot (n : Nat) (f : Core → Core) : (s.onCore n f).boot = s.boot := rfl
@[simp] theorem State.onCore_sec (n : Nat) (f : Core → Core) : (s.onCore n f).sec = s.sec := rfl
@[simp] theorem State.onCore_dict (n : Nat) (f : Core → Core) : (s.onCore n f).dict = s.dict := rfl
@[simp] theorem State.onCore_cores (n : Nat) (f : Core → Core) : (s.onCore n f).cores = updAt s.cores n f := rfl
@[simp] theorem State.onCore_sched (n : Nat) (f : Core → Core) : (s.onCore n f).sched = s.sched := rfl
@[simp] theorem State.onCore_ctx (n : Nat) (f : Core → Core) : (s.onCore n f).ctx = s.ctx := rfl
@[simp] theorem State.onCore_spring (n : Nat) (f : Core → Core) : (s.onCore n f).spring = s.spring := rfl
@[simp] theorem State.onCore_radio (n : Nat) (f : Core → Core) : (s.onCore n f).radio = s.radio := rfl
@[simp] theorem State.onCore_mem (n : Nat) (f : Core → Core) : (s.onCore n f).mem = s.mem := rfl
@[simp] theorem State.onCore_fab (n : Nat) (f : Core → Core) : (s.onCore n f).fab = s.fab := rfl
@[simp] theorem State.onCore_pwr (n : Nat) (f : Core → Core) : (s.onCore n f).pwr = s.pwr := rfl
@[simp] theorem State.onCore_evSeq (n : Nat) (f : Core → Core) : (s.onCore n f).evSeq = s.evSeq := rfl
@[simp] theorem State.onCore_events (n : Nat) (f : Core → Core) : (s.onCore n f).events = s.events := rfl
@[simp] theorem State.onCore_sent (n : Nat) (f : Core → Core) : (s.onCore n f).sent = s.sent := rfl
@[simp] theorem State.onCore_fresh (n : Nat) (f : Core → Core) : (s.onCore n f).fresh = s.fresh := rfl
@[simp] theorem State.onCore_pending (n : Nat) (f : Core → Core) : (s.onCore n f).pending = s.pending := rfl

@[simp] theorem State.emit_tb (e : Emission) : (s.emit e).tb = s.tb := rfl
@[simp] theorem State.emit_pins (e : Emission) : (s.emit e).pins = s.pins := rfl
@[simp] theorem State.emit_fc (e : Emission) : (s.emit e).fc = s.fc := rfl
@[simp] theorem State.emit_isl (e : Emission) : (s.emit e).isl = s.isl := rfl
@[simp] theorem State.emit_flash (e : Emission) : (s.emit e).flash = s.flash := rfl
@[simp] theorem State.emit_boot (e : Emission) : (s.emit e).boot = s.boot := rfl
@[simp] theorem State.emit_sec (e : Emission) : (s.emit e).sec = s.sec := rfl
@[simp] theorem State.emit_dict (e : Emission) : (s.emit e).dict = s.dict := rfl
@[simp] theorem State.emit_cores (e : Emission) : (s.emit e).cores = s.cores := rfl
@[simp] theorem State.emit_sched (e : Emission) : (s.emit e).sched = s.sched := rfl
@[simp] theorem State.emit_ctx (e : Emission) : (s.emit e).ctx = s.ctx := rfl
@[simp] theorem State.emit_spring (e : Emission) : (s.emit e).spring = s.spring := rfl
@[simp] theorem State.emit_radio (e : Emission) : (s.emit e).radio = s.radio := rfl
@[simp] theorem State.emit_mem (e : Emission) : (s.emit e).mem = s.mem := rfl
@[simp] theorem State.emit_fab (e : Emission) : (s.emit e).fab = s.fab := rfl
@[simp] theorem State.emit_pwr (e : Emission) : (s.emit e).pwr = s.pwr := rfl
@[simp] theorem State.emit_evSeq (e : Emission) : (s.emit e).evSeq = s.evSeq := rfl
@[simp] theorem State.emit_events (e : Emission) : (s.emit e).events = s.events := rfl
@[simp] theorem State.emit_sent (e : Emission) : (s.emit e).sent = s.sent ++ [e] := rfl
@[simp] theorem State.emit_fresh (e : Emission) : (s.emit e).fresh = s.fresh := rfl
@[simp] theorem State.emit_pending (e : Emission) : (s.emit e).pending = s.pending := rfl

@[simp] theorem State.fresh1_tb : s.fresh1.tb = s.tb := rfl
@[simp] theorem State.fresh1_pins : s.fresh1.pins = s.pins := rfl
@[simp] theorem State.fresh1_fc : s.fresh1.fc = s.fc := rfl
@[simp] theorem State.fresh1_isl : s.fresh1.isl = s.isl := rfl
@[simp] theorem State.fresh1_flash : s.fresh1.flash = s.flash := rfl
@[simp] theorem State.fresh1_boot : s.fresh1.boot = s.boot := rfl
@[simp] theorem State.fresh1_sec : s.fresh1.sec = s.sec := rfl
@[simp] theorem State.fresh1_dict : s.fresh1.dict = s.dict := rfl
@[simp] theorem State.fresh1_cores : s.fresh1.cores = s.cores := rfl
@[simp] theorem State.fresh1_sched : s.fresh1.sched = s.sched := rfl
@[simp] theorem State.fresh1_ctx : s.fresh1.ctx = s.ctx := rfl
@[simp] theorem State.fresh1_spring : s.fresh1.spring = s.spring := rfl
@[simp] theorem State.fresh1_radio : s.fresh1.radio = s.radio := rfl
@[simp] theorem State.fresh1_mem : s.fresh1.mem = s.mem := rfl
@[simp] theorem State.fresh1_fab : s.fresh1.fab = s.fab := rfl
@[simp] theorem State.fresh1_pwr : s.fresh1.pwr = s.pwr := rfl
@[simp] theorem State.fresh1_evSeq : s.fresh1.evSeq = s.evSeq := rfl
@[simp] theorem State.fresh1_events : s.fresh1.events = s.events := rfl
@[simp] theorem State.fresh1_sent : s.fresh1.sent = s.sent := rfl
@[simp] theorem State.fresh1_fresh : s.fresh1.fresh = s.fresh + 1 := rfl
@[simp] theorem State.fresh1_pending : s.fresh1.pending = s.pending := rfl

@[simp] theorem State.takeSeq_tb (loc : Nat) : (s.takeSeq loc).tb = s.tb := rfl
@[simp] theorem State.takeSeq_pins (loc : Nat) : (s.takeSeq loc).pins = s.pins := rfl
@[simp] theorem State.takeSeq_fc (loc : Nat) : (s.takeSeq loc).fc = s.fc := rfl
@[simp] theorem State.takeSeq_isl (loc : Nat) : (s.takeSeq loc).isl = s.isl := rfl
@[simp] theorem State.takeSeq_flash (loc : Nat) : (s.takeSeq loc).flash = s.flash := rfl
@[simp] theorem State.takeSeq_boot (loc : Nat) : (s.takeSeq loc).boot = s.boot := rfl
@[simp] theorem State.takeSeq_sec (loc : Nat) : (s.takeSeq loc).sec = s.sec := rfl
@[simp] theorem State.takeSeq_dict (loc : Nat) : (s.takeSeq loc).dict = s.dict := rfl
@[simp] theorem State.takeSeq_cores (loc : Nat) : (s.takeSeq loc).cores = s.cores := rfl
@[simp] theorem State.takeSeq_sched (loc : Nat) : (s.takeSeq loc).sched = s.sched := rfl
@[simp] theorem State.takeSeq_ctx (loc : Nat) : (s.takeSeq loc).ctx = s.ctx := rfl
@[simp] theorem State.takeSeq_spring (loc : Nat) : (s.takeSeq loc).spring = s.spring := rfl
@[simp] theorem State.takeSeq_radio (loc : Nat) : (s.takeSeq loc).radio = s.radio := rfl
@[simp] theorem State.takeSeq_mem (loc : Nat) : (s.takeSeq loc).mem = s.mem := rfl
@[simp] theorem State.takeSeq_fab (loc : Nat) : (s.takeSeq loc).fab = s.fab := rfl
@[simp] theorem State.takeSeq_pwr (loc : Nat) : (s.takeSeq loc).pwr = s.pwr := rfl
@[simp] theorem State.takeSeq_evSeq (loc : Nat) : (s.takeSeq loc).evSeq = sset 0 s.evSeq loc ((sget 0 s.evSeq loc + 1) % 2 ^ 48) := rfl
@[simp] theorem State.takeSeq_events (loc : Nat) : (s.takeSeq loc).events = s.events := rfl
@[simp] theorem State.takeSeq_sent (loc : Nat) : (s.takeSeq loc).sent = s.sent := rfl
@[simp] theorem State.takeSeq_fresh (loc : Nat) : (s.takeSeq loc).fresh = s.fresh := rfl
@[simp] theorem State.takeSeq_pending (loc : Nat) : (s.takeSeq loc).pending = s.pending := rfl

@[simp] theorem State.logEvent_tb (loc cls : Nat) (what : What) (args : List Nat) :
    (s.logEvent loc cls what args).tb = s.tb := rfl
@[simp] theorem State.logEvent_pins (loc cls : Nat) (what : What) (args : List Nat) :
    (s.logEvent loc cls what args).pins = s.pins := rfl
@[simp] theorem State.logEvent_fc (loc cls : Nat) (what : What) (args : List Nat) :
    (s.logEvent loc cls what args).fc = s.fc := rfl
@[simp] theorem State.logEvent_isl (loc cls : Nat) (what : What) (args : List Nat) :
    (s.logEvent loc cls what args).isl = s.isl := rfl
@[simp] theorem State.logEvent_flash (loc cls : Nat) (what : What) (args : List Nat) :
    (s.logEvent loc cls what args).flash = s.flash := rfl
@[simp] theorem State.logEvent_boot (loc cls : Nat) (what : What) (args : List Nat) :
    (s.logEvent loc cls what args).boot = s.boot := rfl
@[simp] theorem State.logEvent_sec (loc cls : Nat) (what : What) (args : List Nat) :
    (s.logEvent loc cls what args).sec = s.sec := rfl
@[simp] theorem State.logEvent_dict (loc cls : Nat) (what : What) (args : List Nat) :
    (s.logEvent loc cls what args).dict = s.dict := rfl
@[simp] theorem State.logEvent_cores (loc cls : Nat) (what : What) (args : List Nat) :
    (s.logEvent loc cls what args).cores = s.cores := rfl
@[simp] theorem State.logEvent_sched (loc cls : Nat) (what : What) (args : List Nat) :
    (s.logEvent loc cls what args).sched = s.sched := rfl
@[simp] theorem State.logEvent_ctx (loc cls : Nat) (what : What) (args : List Nat) :
    (s.logEvent loc cls what args).ctx = s.ctx := rfl
@[simp] theorem State.logEvent_spring (loc cls : Nat) (what : What) (args : List Nat) :
    (s.logEvent loc cls what args).spring = s.spring := rfl
@[simp] theorem State.logEvent_radio (loc cls : Nat) (what : What) (args : List Nat) :
    (s.logEvent loc cls what args).radio = s.radio := rfl
@[simp] theorem State.logEvent_mem (loc cls : Nat) (what : What) (args : List Nat) :
    (s.logEvent loc cls what args).mem = s.mem := rfl
@[simp] theorem State.logEvent_fab (loc cls : Nat) (what : What) (args : List Nat) :
    (s.logEvent loc cls what args).fab = s.fab := rfl
@[simp] theorem State.logEvent_pwr (loc cls : Nat) (what : What) (args : List Nat) :
    (s.logEvent loc cls what args).pwr = s.pwr := rfl
@[simp] theorem State.logEvent_evSeq (loc cls : Nat) (what : What) (args : List Nat) :
    (s.logEvent loc cls what args).evSeq = sset 0 s.evSeq loc ((sget 0 s.evSeq loc + 1) % 2 ^ 48) := rfl
@[simp] theorem State.logEvent_events (loc cls : Nat) (what : What) (args : List Nat) :
    (s.logEvent loc cls what args).events = s.events ++ [⟨s.now, s.sourceId loc, sget 0 s.evSeq loc, cls, what, args⟩] := rfl
@[simp] theorem State.logEvent_sent (loc cls : Nat) (what : What) (args : List Nat) :
    (s.logEvent loc cls what args).sent = s.sent := rfl
@[simp] theorem State.logEvent_fresh (loc cls : Nat) (what : What) (args : List Nat) :
    (s.logEvent loc cls what args).fresh = s.fresh := rfl
@[simp] theorem State.logEvent_pending (loc cls : Nat) (what : What) (args : List Nat) :
    (s.logEvent loc cls what args).pending = s.pending := rfl

/-! ## One core -/

@[simp] theorem State.core_onCore_same (n : Nat) (f : Core → Core) (h : n < s.cores.length) :
    (s.onCore n f).core n = f (s.core n) := by
  simp [State.core, updAt, List.getD_eq_getElem?_getD, h]

@[simp] theorem State.core_onCore_other {n m : Nat} (f : Core → Core) (h : m ≠ n) : (s.onCore n f).core m = s.core m := by
  have h' : ¬ n = m := fun e => h e.symm
  simp [State.core, updAt, List.getD_eq_getElem?_getD, List.getElem?_modify, h']

theorem State.onCore_length (n : Nat) (f : Core → Core) : (s.onCore n f).cores.length = s.cores.length := by simp [updAt]

/-! ## Readings that one unit decides -/

@[simp] theorem State.now_onCore (n : Nat) (f : Core → Core) : (s.onCore n f).now = s.now := rfl
@[simp] theorem State.up_onCore (n : Nat) (f : Core → Core) : (s.onCore n f).up = s.up := rfl
@[simp] theorem State.cfg_onCore (n : Nat) (f : Core → Core) (k : Nat) : (s.onCore n f).cfg k = s.cfg k := rfl
@[simp] theorem State.logical_onCore (n : Nat) (f : Core → Core) (p : Nat) : (s.onCore n f).logical p = s.logical p := rfl
@[simp] theorem State.now_onFc (f : Collector → Collector) : (s.onFc f).now = s.now := rfl
@[simp] theorem State.up_onFc (f : Collector → Collector) : (s.onFc f).up = s.up := rfl
@[simp] theorem State.now_onMem (f : Mem → Mem) : (s.onMem f).now = s.now := rfl
@[simp] theorem State.up_onMem (f : Mem → Mem) : (s.onMem f).up = s.up := rfl
@[simp] theorem State.now_emit (e : Emission) : (s.emit e).now = s.now := rfl
@[simp] theorem State.core_emit (e : Emission) (n : Nat) : (s.emit e).core n = s.core n := rfl
@[simp] theorem State.core_onMem (f : Mem → Mem) (n : Nat) : (s.onMem f).core n = s.core n := rfl
@[simp] theorem State.core_onFc (f : Collector → Collector) (n : Nat) : (s.onFc f).core n = s.core n := rfl
@[simp] theorem State.core_onSched (f : Sched → Sched) (n : Nat) : (s.onSched f).core n = s.core n := rfl

end Sys2Proof.Machine
end

