-- ==== Sys2Proof/Laws/Frames.lean ====
section
/-! SUPPORT. Which fields of the state the shared operations leave as they were: one lemma per operation and field. -/

-- One declaration at a time, so that few threads hold memory at once.
set_option Elab.async false
-- One proof serves every lemma of this file.
set_option linter.unusedTactic false
set_option linter.unreachableTactic false
set_option linter.unnecessarySeqFocus false

namespace Sys2Proof.Machine

variable {α : Type}

@[simp] theorem foldl_tb {l : List α} {g : State → α → State} {s : State} (h : ∀ t x, (g t x).tb = t.tb) : (l.foldl g s).tb = s.tb := by
  induction l generalizing s with
  | nil => rfl
  | cons x l ih => rw [List.foldl_cons, ih, h]
@[simp] theorem foldl_pins {l : List α} {g : State → α → State} {s : State} (h : ∀ t x, (g t x).pins = t.pins) : (l.foldl g s).pins = s.pins := by
  induction l generalizing s with
  | nil => rfl
  | cons x l ih => rw [List.foldl_cons, ih, h]
@[simp] theorem foldl_fc {l : List α} {g : State → α → State} {s : State} (h : ∀ t x, (g t x).fc = t.fc) : (l.foldl g s).fc = s.fc := by
  induction l generalizing s with
  | nil => rfl
  | cons x l ih => rw [List.foldl_cons, ih, h]
@[simp] theorem foldl_isl {l : List α} {g : State → α → State} {s : State} (h : ∀ t x, (g t x).isl = t.isl) : (l.foldl g s).isl = s.isl := by
  induction l generalizing s with
  | nil => rfl
  | cons x l ih => rw [List.foldl_cons, ih, h]
@[simp] theorem foldl_flash {l : List α} {g : State → α → State} {s : State} (h : ∀ t x, (g t x).flash = t.flash) : (l.foldl g s).flash = s.flash := by
  induction l generalizing s with
  | nil => rfl
  | cons x l ih => rw [List.foldl_cons, ih, h]
@[simp] theorem foldl_boot {l : List α} {g : State → α → State} {s : State} (h : ∀ t x, (g t x).boot = t.boot) : (l.foldl g s).boot = s.boot := by
  induction l generalizing s with
  | nil => rfl
  | cons x l ih => rw [List.foldl_cons, ih, h]
@[simp] theorem foldl_sec {l : List α} {g : State → α → State} {s : State} (h : ∀ t x, (g t x).sec = t.sec) : (l.foldl g s).sec = s.sec := by
  induction l generalizing s with
  | nil => rfl
  | cons x l ih => rw [List.foldl_cons, ih, h]
@[simp] theorem foldl_dict {l : List α} {g : State → α → State} {s : State} (h : ∀ t x, (g t x).dict = t.dict) : (l.foldl g s).dict = s.dict := by
  induction l generalizing s with
  | nil => rfl
  | cons x l ih => rw [List.foldl_cons, ih, h]
@[simp] theorem foldl_cores {l : List α} {g : State → α → State} {s : State} (h : ∀ t x, (g t x).cores = t.cores) : (l.foldl g s).cores = s.cores := by
  induction l generalizing s with
  | nil => rfl
  | cons x l ih => rw [List.foldl_cons, ih, h]
@[simp] theorem foldl_sched {l : List α} {g : State → α → State} {s : State} (h : ∀ t x, (g t x).sched = t.sched) : (l.foldl g s).sched = s.sched := by
  induction l generalizing s with
  | nil => rfl
  | cons x l ih => rw [List.foldl_cons, ih, h]
@[simp] theorem foldl_ctx {l : List α} {g : State → α → State} {s : State} (h : ∀ t x, (g t x).ctx = t.ctx) : (l.foldl g s).ctx = s.ctx := by
  induction l generalizing s with
  | nil => rfl
  | cons x l ih => rw [List.foldl_cons, ih, h]
@[simp] theorem foldl_spring {l : List α} {g : State → α → State} {s : State} (h : ∀ t x, (g t x).spring = t.spring) : (l.foldl g s).spring = s.spring := by
  induction l generalizing s with
  | nil => rfl
  | cons x l ih => rw [List.foldl_cons, ih, h]
@[simp] theorem foldl_radio {l : List α} {g : State → α → State} {s : State} (h : ∀ t x, (g t x).radio = t.radio) : (l.foldl g s).radio = s.radio := by
  induction l generalizing s with
  | nil => rfl
  | cons x l ih => rw [List.foldl_cons, ih, h]
@[simp] theorem foldl_mem {l : List α} {g : State → α → State} {s : State} (h : ∀ t x, (g t x).mem = t.mem) : (l.foldl g s).mem = s.mem := by
  induction l generalizing s with
  | nil => rfl
  | cons x l ih => rw [List.foldl_cons, ih, h]
@[simp] theorem foldl_fab {l : List α} {g : State → α → State} {s : State} (h : ∀ t x, (g t x).fab = t.fab) : (l.foldl g s).fab = s.fab := by
  induction l generalizing s with
  | nil => rfl
  | cons x l ih => rw [List.foldl_cons, ih, h]
@[simp] theorem foldl_pwr {l : List α} {g : State → α → State} {s : State} (h : ∀ t x, (g t x).pwr = t.pwr) : (l.foldl g s).pwr = s.pwr := by
  induction l generalizing s with
  | nil => rfl
  | cons x l ih => rw [List.foldl_cons, ih, h]
@[simp] theorem foldl_evSeq {l : List α} {g : State → α → State} {s : State} (h : ∀ t x, (g t x).evSeq = t.evSeq) : (l.foldl g s).evSeq = s.evSeq := by
  induction l generalizing s with
  | nil => rfl
  | cons x l ih => rw [List.foldl_cons, ih, h]
@[simp] theorem foldl_events {l : List α} {g : State → α → State} {s : State} (h : ∀ t x, (g t x).events = t.events) : (l.foldl g s).events = s.events := by
  induction l generalizing s with
  | nil => rfl
  | cons x l ih => rw [List.foldl_cons, ih, h]
@[simp] theorem foldl_sent {l : List α} {g : State → α → State} {s : State} (h : ∀ t x, (g t x).sent = t.sent) : (l.foldl g s).sent = s.sent := by
  induction l generalizing s with
  | nil => rfl
  | cons x l ih => rw [List.foldl_cons, ih, h]
@[simp] theorem foldl_fresh {l : List α} {g : State → α → State} {s : State} (h : ∀ t x, (g t x).fresh = t.fresh) : (l.foldl g s).fresh = s.fresh := by
  induction l generalizing s with
  | nil => rfl
  | cons x l ih => rw [List.foldl_cons, ih, h]
@[simp] theorem foldl_pending {l : List α} {g : State → α → State} {s : State} (h : ∀ t x, (g t x).pending = t.pending) : (l.foldl g s).pending = s.pending := by
  induction l generalizing s with
  | nil => rfl
  | cons x l ih => rw [List.foldl_cons, ih, h]

variable (s : State)

@[simp] theorem State.setEntry_tb (x1 : Nat) (x2 : Bytes) : (State.setEntry s x1 x2).tb = s.tb := by unfold State.setEntry; (try dsimp only) <;> (repeat' split) <;> simp
@[simp] theorem State.setEntry_pins (x1 : Nat) (x2 : Bytes) : (State.setEntry s x1 x2).pins = s.pins := by unfold State.setEntry; (try dsimp only) <;> (repeat' split) <;> simp
@[simp] theorem State.setEntry_fc (x1 : Nat) (x2 : Bytes) : (State.setEntry s x1 x2).fc = s.fc := by unfold State.setEntry; (try dsimp only) <;> (repeat' split) <;> simp
@[simp] theorem State.setEntry_isl (x1 : Nat) (x2 : Bytes) : (State.setEntry s x1 x2).isl = s.isl := by unfold State.setEntry; (try dsimp only) <;> (repeat' split) <;> simp
@[simp] theorem State.setEntry_flash (x1 : Nat) (x2 : Bytes) : (State.setEntry s x1 x2).flash = s.flash := by unfold State.setEntry; (try dsimp only) <;> (repeat' split) <;> simp
@[simp] theorem State.setEntry_boot (x1 : Nat) (x2 : Bytes) : (State.setEntry s x1 x2).boot = s.boot := by unfold State.setEntry; (try dsimp only) <;> (repeat' split) <;> simp
@[simp] theorem State.setEntry_sec (x1 : Nat) (x2 : Bytes) : (State.setEntry s x1 x2).sec = s.sec := by unfold State.setEntry; (try dsimp only) <;> (repeat' split) <;> simp
@[simp] theorem State.setEntry_cores (x1 : Nat) (x2 : Bytes) : (State.setEntry s x1 x2).cores = s.cores := by unfold State.setEntry; (try dsimp only) <;> (repeat' split) <;> simp
@[simp] theorem State.setEntry_sched (x1 : Nat) (x2 : Bytes) : (State.setEntry s x1 x2).sched = s.sched := by unfold State.setEntry; (try dsimp only) <;> (repeat' split) <;> simp
@[simp] theorem State.setEntry_ctx (x1 : Nat) (x2 : Bytes) : (State.setEntry s x1 x2).ctx = s.ctx := by unfold State.setEntry; (try dsimp only) <;> (repeat' split) <;> simp
@[simp] theorem State.setEntry_spring (x1 : Nat) (x2 : Bytes) : (State.setEntry s x1 x2).spring = s.spring := by unfold State.setEntry; (try dsimp only) <;> (repeat' split) <;> simp
@[simp] theorem State.setEntry_radio (x1 : Nat) (x2 : Bytes) : (State.setEntry s x1 x2).radio = s.radio := by unfold State.setEntry; (try dsimp only) <;> (repeat' split) <;> simp
@[simp] theorem State.setEntry_mem (x1 : Nat) (x2 : Bytes) : (State.setEntry s x1 x2).mem = s.mem := by unfold State.setEntry; (try dsimp only) <;> (repeat' split) <;> simp
@[simp] theorem State.setEntry_fab (x1 : Nat) (x2 : Bytes) : (State.setEntry s x1 x2).fab = s.fab := by unfold State.setEntry; (try dsimp only) <;> (repeat' split) <;> simp
@[simp] theorem State.setEntry_pwr (x1 : Nat) (x2 : Bytes) : (State.setEntry s x1 x2).pwr = s.pwr := by unfold State.setEntry; (try dsimp only) <;> (repeat' split) <;> simp
@[simp] theorem State.setEntry_evSeq (x1 : Nat) (x2 : Bytes) : (State.setEntry s x1 x2).evSeq = s.evSeq := by unfold State.setEntry; (try dsimp only) <;> (repeat' split) <;> simp
@[simp] theorem State.setEntry_events (x1 : Nat) (x2 : Bytes) : (State.setEntry s x1 x2).events = s.events := by unfold State.setEntry; (try dsimp only) <;> (repeat' split) <;> simp
@[simp] theorem State.setEntry_sent (x1 : Nat) (x2 : Bytes) : (State.setEntry s x1 x2).sent = s.sent := by unfold State.setEntry; (try dsimp only) <;> (repeat' split) <;> simp
@[simp] theorem State.setEntry_fresh (x1 : Nat) (x2 : Bytes) : (State.setEntry s x1 x2).fresh = s.fresh := by unfold State.setEntry; (try dsimp only) <;> (repeat' split) <;> simp
@[simp] theorem State.setEntry_pending (x1 : Nat) (x2 : Bytes) : (State.setEntry s x1 x2).pending = s.pending := by unfold State.setEntry; (try dsimp only) <;> (repeat' split) <;> simp
@[simp] theorem State.logChange_tb (x1 : Nat) (x2 : Change) : (State.logChange s x1 x2).tb = s.tb := by unfold State.logChange; rw [State.onDict_tb]
@[simp] theorem State.logChange_pins (x1 : Nat) (x2 : Change) : (State.logChange s x1 x2).pins = s.pins := by unfold State.logChange; rw [State.onDict_pins]
@[simp] theorem State.logChange_fc (x1 : Nat) (x2 : Change) : (State.logChange s x1 x2).fc = s.fc := by unfold State.logChange; rw [State.onDict_fc]
@[simp] theorem State.logChange_isl (x1 : Nat) (x2 : Change) : (State.logChange s x1 x2).isl = s.isl := by unfold State.logChange; rw [State.onDict_isl]
@[simp] theorem State.logChange_flash (x1 : Nat) (x2 : Change) : (State.logChange s x1 x2).flash = s.flash := by unfold State.logChange; rw [State.onDict_flash]
@[simp] theorem State.logChange_boot (x1 : Nat) (x2 : Change) : (State.logChange s x1 x2).boot = s.boot := by unfold State.logChange; rw [State.onDict_boot]
@[simp] theorem State.logChange_sec (x1 : Nat) (x2 : Change) : (State.logChange s x1 x2).sec = s.sec := by unfold State.logChange; rw [State.onDict_sec]
@[simp] theorem State.logChange_cores (x1 : Nat) (x2 : Change) : (State.logChange s x1 x2).cores = s.cores := by unfold State.logChange; rw [State.onDict_cores]
@[simp] theorem State.logChange_sched (x1 : Nat) (x2 : Change) : (State.logChange s x1 x2).sched = s.sched := by unfold State.logChange; rw [State.onDict_sched]
@[simp] theorem State.logChange_ctx (x1 : Nat) (x2 : Change) : (State.logChange s x1 x2).ctx = s.ctx := by unfold State.logChange; rw [State.onDict_ctx]
@[simp] theorem State.logChange_spring (x1 : Nat) (x2 : Change) : (State.logChange s x1 x2).spring = s.spring := by unfold State.logChange; rw [State.onDict_spring]
@[simp] theorem State.logChange_radio (x1 : Nat) (x2 : Change) : (State.logChange s x1 x2).radio = s.radio := by unfold State.logChange; rw [State.onDict_radio]
@[simp] theorem State.logChange_mem (x1 : Nat) (x2 : Change) : (State.logChange s x1 x2).mem = s.mem := by unfold State.logChange; rw [State.onDict_mem]
@[simp] theorem State.logChange_fab (x1 : Nat) (x2 : Change) : (State.logChange s x1 x2).fab = s.fab := by unfold State.logChange; rw [State.onDict_fab]
@[simp] theorem State.logChange_pwr (x1 : Nat) (x2 : Change) : (State.logChange s x1 x2).pwr = s.pwr := by unfold State.logChange; rw [State.onDict_pwr]
@[simp] theorem State.logChange_evSeq (x1 : Nat) (x2 : Change) : (State.logChange s x1 x2).evSeq = s.evSeq := by unfold State.logChange; rw [State.onDict_evSeq]
@[simp] theorem State.logChange_events (x1 : Nat) (x2 : Change) : (State.logChange s x1 x2).events = s.events := by unfold State.logChange; rw [State.onDict_events]
@[simp] theorem State.logChange_sent (x1 : Nat) (x2 : Change) : (State.logChange s x1 x2).sent = s.sent := by unfold State.logChange; rw [State.onDict_sent]
@[simp] theorem State.logChange_fresh (x1 : Nat) (x2 : Change) : (State.logChange s x1 x2).fresh = s.fresh := by unfold State.logChange; rw [State.onDict_fresh]
@[simp] theorem State.logChange_pending (x1 : Nat) (x2 : Change) : (State.logChange s x1 x2).pending = s.pending := by unfold State.logChange; rw [State.onDict_pending]
@[simp] theorem State.setDevState_tb (x1 : DevState) : (State.setDevState s x1).tb = s.tb := by unfold State.setDevState; (try dsimp only) <;> (repeat' split) <;> simp
@[simp] theorem State.setDevState_pins (x1 : DevState) : (State.setDevState s x1).pins = s.pins := by unfold State.setDevState; (try dsimp only) <;> (repeat' split) <;> simp
@[simp] theorem State.setDevState_fc (x1 : DevState) : (State.setDevState s x1).fc = s.fc := by unfold State.setDevState; (try dsimp only) <;> (repeat' split) <;> simp
@[simp] theorem State.setDevState_isl (x1 : DevState) : (State.setDevState s x1).isl = s.isl := by unfold State.setDevState; (try dsimp only) <;> (repeat' split) <;> simp
@[simp] theorem State.setDevState_flash (x1 : DevState) : (State.setDevState s x1).flash = s.flash := by unfold State.setDevState; (try dsimp only) <;> (repeat' split) <;> simp
@[simp] theorem State.setDevState_boot (x1 : DevState) : (State.setDevState s x1).boot = s.boot := by unfold State.setDevState; (try dsimp only) <;> (repeat' split) <;> simp
@[simp] theorem State.setDevState_sec (x1 : DevState) : (State.setDevState s x1).sec = s.sec := by unfold State.setDevState; (try dsimp only) <;> (repeat' split) <;> simp
@[simp] theorem State.setDevState_cores (x1 : DevState) : (State.setDevState s x1).cores = s.cores := by unfold State.setDevState; (try dsimp only) <;> (repeat' split) <;> simp
@[simp] theorem State.setDevState_sched (x1 : DevState) : (State.setDevState s x1).sched = s.sched := by unfold State.setDevState; (try dsimp only) <;> (repeat' split) <;> simp
@[simp] theorem State.setDevState_ctx (x1 : DevState) : (State.setDevState s x1).ctx = s.ctx := by unfold State.setDevState; (try dsimp only) <;> (repeat' split) <;> simp
@[simp] theorem State.setDevState_spring (x1 : DevState) : (State.setDevState s x1).spring = s.spring := by unfold State.setDevState; (try dsimp only) <;> (repeat' split) <;> simp
@[simp] theorem State.setDevState_radio (x1 : DevState) : (State.setDevState s x1).radio = s.radio := by unfold State.setDevState; (try dsimp only) <;> (repeat' split) <;> simp
@[simp] theorem State.setDevState_mem (x1 : DevState) : (State.setDevState s x1).mem = s.mem := by unfold State.setDevState; (try dsimp only) <;> (repeat' split) <;> simp
@[simp] theorem State.setDevState_fab (x1 : DevState) : (State.setDevState s x1).fab = s.fab := by unfold State.setDevState; (try dsimp only) <;> (repeat' split) <;> simp
@[simp] theorem State.setDevState_pwr (x1 : DevState) : (State.setDevState s x1).pwr = s.pwr := by unfold State.setDevState; (try dsimp only) <;> (repeat' split) <;> simp
@[simp] theorem State.setDevState_evSeq (x1 : DevState) : (State.setDevState s x1).evSeq = s.evSeq := by unfold State.setDevState; (try dsimp only) <;> (repeat' split) <;> simp
@[simp] theorem State.setDevState_events (x1 : DevState) : (State.setDevState s x1).events = s.events := by unfold State.setDevState; (try dsimp only) <;> (repeat' split) <;> simp
@[simp] theorem State.setDevState_sent (x1 : DevState) : (State.setDevState s x1).sent = s.sent := by unfold State.setDevState; (try dsimp only) <;> (repeat' split) <;> simp
@[simp] theorem State.setDevState_fresh (x1 : DevState) : (State.setDevState s x1).fresh = s.fresh := by unfold State.setDevState; (try dsimp only) <;> (repeat' split) <;> simp
@[simp] theorem State.setDevState_pending (x1 : DevState) : (State.setDevState s x1).pending = s.pending := by unfold State.setDevState; (try dsimp only) <;> (repeat' split) <;> simp
@[simp] theorem State.fold_tb (x1 : Nat) (x2 : ReportIn) : (State.fold s x1 x2).tb = s.tb := by unfold State.fold; (try dsimp only) <;> (repeat' split) <;> simp
@[simp] theorem State.fold_pins (x1 : Nat) (x2 : ReportIn) : (State.fold s x1 x2).pins = s.pins := by unfold State.fold; (try dsimp only) <;> (repeat' split) <;> simp
@[simp] theorem State.fold_isl (x1 : Nat) (x2 : ReportIn) : (State.fold s x1 x2).isl = s.isl := by unfold State.fold; (try dsimp only) <;> (repeat' split) <;> simp
@[simp] theorem State.fold_flash (x1 : Nat) (x2 : ReportIn) : (State.fold s x1 x2).flash = s.flash := by unfold State.fold; (try dsimp only) <;> (repeat' split) <;> simp
@[simp] theorem State.fold_boot (x1 : Nat) (x2 : ReportIn) : (State.fold s x1 x2).boot = s.boot := by unfold State.fold; (try dsimp only) <;> (repeat' split) <;> simp
@[simp] theorem State.fold_sec (x1 : Nat) (x2 : ReportIn) : (State.fold s x1 x2).sec = s.sec := by unfold State.fold; (try dsimp only) <;> (repeat' split) <;> simp
@[simp] theorem State.fold_dict (x1 : Nat) (x2 : ReportIn) : (State.fold s x1 x2).dict = s.dict := by unfold State.fold; (try dsimp only) <;> (repeat' split) <;> simp
@[simp] theorem State.fold_cores (x1 : Nat) (x2 : ReportIn) : (State.fold s x1 x2).cores = s.cores := by unfold State.fold; (try dsimp only) <;> (repeat' split) <;> simp
@[simp] theorem State.fold_sched (x1 : Nat) (x2 : ReportIn) : (State.fold s x1 x2).sched = s.sched := by unfold State.fold; (try dsimp only) <;> (repeat' split) <;> simp
@[simp] theorem State.fold_ctx (x1 : Nat) (x2 : ReportIn) : (State.fold s x1 x2).ctx = s.ctx := by unfold State.fold; (try dsimp only) <;> (repeat' split) <;> simp
@[simp] theorem State.fold_spring (x1 : Nat) (x2 : ReportIn) : (State.fold s x1 x2).spring = s.spring := by unfold State.fold; (try dsimp only) <;> (repeat' split) <;> simp
@[simp] theorem State.fold_radio (x1 : Nat) (x2 : ReportIn) : (State.fold s x1 x2).radio = s.radio := by unfold State.fold; (try dsimp only) <;> (repeat' split) <;> simp
@[simp] theorem State.fold_mem (x1 : Nat) (x2 : ReportIn) : (State.fold s x1 x2).mem = s.mem := by unfold State.fold; (try dsimp only) <;> (repeat' split) <;> simp
@[simp] theorem State.fold_fab (x1 : Nat) (x2 : ReportIn) : (State.fold s x1 x2).fab = s.fab := by unfold State.fold; (try dsimp only) <;> (repeat' split) <;> simp
@[simp] theorem State.fold_pwr (x1 : Nat) (x2 : ReportIn) : (State.fold s x1 x2).pwr = s.pwr := by unfold State.fold; (try dsimp only) <;> (repeat' split) <;> simp
@[simp] theorem State.fold_events (x1 : Nat) (x2 : ReportIn) : (State.fold s x1 x2).events = s.events := by unfold State.fold; (try dsimp only) <;> (repeat' split) <;> simp
@[simp] theorem State.fold_sent (x1 : Nat) (x2 : ReportIn) : (State.fold s x1 x2).sent = s.sent := by unfold State.fold; (try dsimp only) <;> (repeat' split) <;> simp
@[simp] theorem State.fold_fresh (x1 : Nat) (x2 : ReportIn) : (State.fold s x1 x2).fresh = s.fresh := by unfold State.fold; (try dsimp only) <;> (repeat' split) <;> simp
@[simp] theorem State.fold_pending (x1 : Nat) (x2 : ReportIn) : (State.fold s x1 x2).pending = s.pending := by unfold State.fold; (try dsimp only) <;> (repeat' split) <;> simp
@[simp] theorem State.foldWaiting_tb (x0 x2 : Nat) (x3 : BitVec 12) : (State.foldWaiting x0 s x2 x3).tb = s.tb := by induction x0 generalizing s x3 with | zero => rfl | succ f ih => (unfold State.foldWaiting; split <;> simp [ih])
@[simp] theorem State.foldWaiting_pins (x0 x2 : Nat) (x3 : BitVec 12) : (State.foldWaiting x0 s x2 x3).pins = s.pins := by induction x0 generalizing s x3 with | zero => rfl | succ f ih => (unfold State.foldWaiting; split <;> simp [ih])
@[simp] theorem State.foldWaiting_isl (x0 x2 : Nat) (x3 : BitVec 12) : (State.foldWaiting x0 s x2 x3).isl = s.isl := by induction x0 generalizing s x3 with | zero => rfl | succ f ih => (unfold State.foldWaiting; split <;> simp [ih])
@[simp] theorem State.foldWaiting_flash (x0 x2 : Nat) (x3 : BitVec 12) : (State.foldWaiting x0 s x2 x3).flash = s.flash := by induction x0 generalizing s x3 with | zero => rfl | succ f ih => (unfold State.foldWaiting; split <;> simp [ih])
@[simp] theorem State.foldWaiting_boot (x0 x2 : Nat) (x3 : BitVec 12) : (State.foldWaiting x0 s x2 x3).boot = s.boot := by induction x0 generalizing s x3 with | zero => rfl | succ f ih => (unfold State.foldWaiting; split <;> simp [ih])
@[simp] theorem State.foldWaiting_sec (x0 x2 : Nat) (x3 : BitVec 12) : (State.foldWaiting x0 s x2 x3).sec = s.sec := by induction x0 generalizing s x3 with | zero => rfl | succ f ih => (unfold State.foldWaiting; split <;> simp [ih])
@[simp] theorem State.foldWaiting_dict (x0 x2 : Nat) (x3 : BitVec 12) : (State.foldWaiting x0 s x2 x3).dict = s.dict := by induction x0 generalizing s x3 with | zero => rfl | succ f ih => (unfold State.foldWaiting; split <;> simp [ih])
@[simp] theorem State.foldWaiting_cores (x0 x2 : Nat) (x3 : BitVec 12) : (State.foldWaiting x0 s x2 x3).cores = s.cores := by induction x0 generalizing s x3 with | zero => rfl | succ f ih => (unfold State.foldWaiting; split <;> simp [ih])
@[simp] theorem State.foldWaiting_sched (x0 x2 : Nat) (x3 : BitVec 12) : (State.foldWaiting x0 s x2 x3).sched = s.sched := by induction x0 generalizing s x3 with | zero => rfl | succ f ih => (unfold State.foldWaiting; split <;> simp [ih])
@[simp] theorem State.foldWaiting_ctx (x0 x2 : Nat) (x3 : BitVec 12) : (State.foldWaiting x0 s x2 x3).ctx = s.ctx := by induction x0 generalizing s x3 with | zero => rfl | succ f ih => (unfold State.foldWaiting; split <;> simp [ih])
@[simp] theorem State.foldWaiting_spring (x0 x2 : Nat) (x3 : BitVec 12) : (State.foldWaiting x0 s x2 x3).spring = s.spring := by induction x0 generalizing s x3 with | zero => rfl | succ f ih => (unfold State.foldWaiting; split <;> simp [ih])
@[simp] theorem State.foldWaiting_radio (x0 x2 : Nat) (x3 : BitVec 12) : (State.foldWaiting x0 s x2 x3).radio = s.radio := by induction x0 generalizing s x3 with | zero => rfl | succ f ih => (unfold State.foldWaiting; split <;> simp [ih])
@[simp] theorem State.foldWaiting_mem (x0 x2 : Nat) (x3 : BitVec 12) : (State.foldWaiting x0 s x2 x3).mem = s.mem := by induction x0 generalizing s x3 with | zero => rfl | succ f ih => (unfold State.foldWaiting; split <;> simp [ih])
@[simp] theorem State.foldWaiting_fab (x0 x2 : Nat) (x3 : BitVec 12) : (State.foldWaiting x0 s x2 x3).fab = s.fab := by induction x0 generalizing s x3 with | zero => rfl | succ f ih => (unfold State.foldWaiting; split <;> simp [ih])
@[simp] theorem State.foldWaiting_pwr (x0 x2 : Nat) (x3 : BitVec 12) : (State.foldWaiting x0 s x2 x3).pwr = s.pwr := by induction x0 generalizing s x3 with | zero => rfl | succ f ih => (unfold State.foldWaiting; split <;> simp [ih])
@[simp] theorem State.foldWaiting_events (x0 x2 : Nat) (x3 : BitVec 12) : (State.foldWaiting x0 s x2 x3).events = s.events := by induction x0 generalizing s x3 with | zero => rfl | succ f ih => (unfold State.foldWaiting; split <;> simp [ih])
@[simp] theorem State.foldWaiting_sent (x0 x2 : Nat) (x3 : BitVec 12) : (State.foldWaiting x0 s x2 x3).sent = s.sent := by induction x0 generalizing s x3 with | zero => rfl | succ f ih => (unfold State.foldWaiting; split <;> simp [ih])
@[simp] theorem State.foldWaiting_fresh (x0 x2 : Nat) (x3 : BitVec 12) : (State.foldWaiting x0 s x2 x3).fresh = s.fresh := by induction x0 generalizing s x3 with | zero => rfl | succ f ih => (unfold State.foldWaiting; split <;> simp [ih])
@[simp] theorem State.foldWaiting_pending (x0 x2 : Nat) (x3 : BitVec 12) : (State.foldWaiting x0 s x2 x3).pending = s.pending := by induction x0 generalizing s x3 with | zero => rfl | succ f ih => (unfold State.foldWaiting; split <;> simp [ih])
@[simp] theorem State.foldReport_tb (x1 : Nat) (x2 : ReportIn) : (State.foldReport s x1 x2).tb = s.tb := by unfold State.foldReport; (try dsimp only) <;> (repeat' split) <;> simp
@[simp] theorem State.foldReport_pins (x1 : Nat) (x2 : ReportIn) : (State.foldReport s x1 x2).pins = s.pins := by unfold State.foldReport; (try dsimp only) <;> (repeat' split) <;> simp
@[simp] theorem State.foldReport_isl (x1 : Nat) (x2 : ReportIn) : (State.foldReport s x1 x2).isl = s.isl := by unfold State.foldReport; (try dsimp only) <;> (repeat' split) <;> simp
@[simp] theorem State.foldReport_flash (x1 : Nat) (x2 : ReportIn) : (State.foldReport s x1 x2).flash = s.flash := by unfold State.foldReport; (try dsimp only) <;> (repeat' split) <;> simp
@[simp] theorem State.foldReport_boot (x1 : Nat) (x2 : ReportIn) : (State.foldReport s x1 x2).boot = s.boot := by unfold State.foldReport; (try dsimp only) <;> (repeat' split) <;> simp
@[simp] theorem State.foldReport_sec (x1 : Nat) (x2 : ReportIn) : (State.foldReport s x1 x2).sec = s.sec := by unfold State.foldReport; (try dsimp only) <;> (repeat' split) <;> simp
@[simp] theorem State.foldReport_dict (x1 : Nat) (x2 : ReportIn) : (State.foldReport s x1 x2).dict = s.dict := by unfold State.foldReport; (try dsimp only) <;> (repeat' split) <;> simp
@[simp] theorem State.foldReport_cores (x1 : Nat) (x2 : ReportIn) : (State.foldReport s x1 x2).cores = s.cores := by unfold State.foldReport; (try dsimp only) <;> (repeat' split) <;> simp
@[simp] theorem State.foldReport_sched (x1 : Nat) (x2 : ReportIn) : (State.foldReport s x1 x2).sched = s.sched := by unfold State.foldReport; (try dsimp only) <;> (repeat' split) <;> simp
@[simp] theorem State.foldReport_ctx (x1 : Nat) (x2 : ReportIn) : (State.foldReport s x1 x2).ctx = s.ctx := by unfold State.foldReport; (try dsimp only) <;> (repeat' split) <;> simp
@[simp] theorem State.foldReport_spring (x1 : Nat) (x2 : ReportIn) : (State.foldReport s x1 x2).spring = s.spring := by unfold State.foldReport; (try dsimp only) <;> (repeat' split) <;> simp
@[simp] theorem State.foldReport_radio (x1 : Nat) (x2 : ReportIn) : (State.foldReport s x1 x2).radio = s.radio := by unfold State.foldReport; (try dsimp only) <;> (repeat' split) <;> simp
@[simp] theorem State.foldReport_mem (x1 : Nat) (x2 : ReportIn) : (State.foldReport s x1 x2).mem = s.mem := by unfold State.foldReport; (try dsimp only) <;> (repeat' split) <;> simp
@[simp] theorem State.foldReport_fab (x1 : Nat) (x2 : ReportIn) : (State.foldReport s x1 x2).fab = s.fab := by unfold State.foldReport; (try dsimp only) <;> (repeat' split) <;> simp
@[simp] theorem State.foldReport_pwr (x1 : Nat) (x2 : ReportIn) : (State.foldReport s x1 x2).pwr = s.pwr := by unfold State.foldReport; (try dsimp only) <;> (repeat' split) <;> simp
@[simp] theorem State.foldReport_events (x1 : Nat) (x2 : ReportIn) : (State.foldReport s x1 x2).events = s.events := by unfold State.foldReport; (try dsimp only) <;> (repeat' split) <;> simp
@[simp] theorem State.foldReport_sent (x1 : Nat) (x2 : ReportIn) : (State.foldReport s x1 x2).sent = s.sent := by unfold State.foldReport; (try dsimp only) <;> (repeat' split) <;> simp
@[simp] theorem State.foldReport_fresh (x1 : Nat) (x2 : ReportIn) : (State.foldReport s x1 x2).fresh = s.fresh := by unfold State.foldReport; (try dsimp only) <;> (repeat' split) <;> simp
@[simp] theorem State.foldReport_pending (x1 : Nat) (x2 : ReportIn) : (State.foldReport s x1 x2).pending = s.pending := by unfold State.foldReport; (try dsimp only) <;> (repeat' split) <;> simp
@[simp] theorem State.makePrimary_tb (x1 : Nat) (x2 : Nat) (x3 : ReportIn) (x4 : Bool) (x5 : Bool) : (State.makePrimary s x1 x2 x3 x4 x5).tb = s.tb := by unfold State.makePrimary; (try dsimp only) <;> (repeat' split) <;> simp
@[simp] theorem State.makePrimary_pins (x1 : Nat) (x2 : Nat) (x3 : ReportIn) (x4 : Bool) (x5 : Bool) : (State.makePrimary s x1 x2 x3 x4 x5).pins = s.pins := by unfold State.makePrimary; (try dsimp only) <;> (repeat' split) <;> simp
@[simp] theorem State.makePrimary_isl (x1 : Nat) (x2 : Nat) (x3 : ReportIn) (x4 : Bool) (x5 : Bool) : (State.makePrimary s x1 x2 x3 x4 x5).isl = s.isl := by unfold State.makePrimary; (try dsimp only) <;> (repeat' split) <;> simp
@[simp] theorem State.makePrimary_flash (x1 : Nat) (x2 : Nat) (x3 : ReportIn) (x4 : Bool) (x5 : Bool) : (State.makePrimary s x1 x2 x3 x4 x5).flash = s.flash := by unfold State.makePrimary; (try dsimp only) <;> (repeat' split) <;> simp
@[simp] theorem State.makePrimary_boot (x1 : Nat) (x2 : Nat) (x3 : ReportIn) (x4 : Bool) (x5 : Bool) : (State.makePrimary s x1 x2 x3 x4 x5).boot = s.boot := by unfold State.makePrimary; (try dsimp only) <;> (repeat' split) <;> simp
@[simp] theorem State.makePrimary_sec (x1 : Nat) (x2 : Nat) (x3 : ReportIn) (x4 : Bool) (x5 : Bool) : (State.makePrimary s x1 x2 x3 x4 x5).sec = s.sec := by unfold State.makePrimary; (try dsimp only) <;> (repeat' split) <;> simp
@[simp] theorem State.makePrimary_dict (x1 : Nat) (x2 : Nat) (x3 : ReportIn) (x4 : Bool) (x5 : Bool) : (State.makePrimary s x1 x2 x3 x4 x5).dict = s.dict := by unfold State.makePrimary; (try dsimp only) <;> (repeat' split) <;> simp
@[simp] theorem State.makePrimary_cores (x1 : Nat) (x2 : Nat) (x3 : ReportIn) (x4 : Bool) (x5 : Bool) : (State.makePrimary s x1 x2 x3 x4 x5).cores = s.cores := by unfold State.makePrimary; (try dsimp only) <;> (repeat' split) <;> simp
@[simp] theorem State.makePrimary_sched (x1 : Nat) (x2 : Nat) (x3 : ReportIn) (x4 : Bool) (x5 : Bool) : (State.makePrimary s x1 x2 x3 x4 x5).sched = s.sched := by unfold State.makePrimary; (try dsimp only) <;> (repeat' split) <;> simp
@[simp] theorem State.makePrimary_ctx (x1 : Nat) (x2 : Nat) (x3 : ReportIn) (x4 : Bool) (x5 : Bool) : (State.makePrimary s x1 x2 x3 x4 x5).ctx = s.ctx := by unfold State.makePrimary; (try dsimp only) <;> (repeat' split) <;> simp
@[simp] theorem State.makePrimary_spring (x1 : Nat) (x2 : Nat) (x3 : ReportIn) (x4 : Bool) (x5 : Bool) : (State.makePrimary s x1 x2 x3 x4 x5).spring = s.spring := by unfold State.makePrimary; (try dsimp only) <;> (repeat' split) <;> simp
@[simp] theorem State.makePrimary_radio (x1 : Nat) (x2 : Nat) (x3 : ReportIn) (x4 : Bool) (x5 : Bool) : (State.makePrimary s x1 x2 x3 x4 x5).radio = s.radio := by unfold State.makePrimary; (try dsimp only) <;> (repeat' split) <;> simp
@[simp] theorem State.makePrimary_mem (x1 : Nat) (x2 : Nat) (x3 : ReportIn) (x4 : Bool) (x5 : Bool) : (State.makePrimary s x1 x2 x3 x4 x5).mem = s.mem := by unfold State.makePrimary; (try dsimp only) <;> (repeat' split) <;> simp
@[simp] theorem State.makePrimary_fab (x1 : Nat) (x2 : Nat) (x3 : ReportIn) (x4 : Bool) (x5 : Bool) : (State.makePrimary s x1 x2 x3 x4 x5).fab = s.fab := by unfold State.makePrimary; (try dsimp only) <;> (repeat' split) <;> simp
@[simp] theorem State.makePrimary_pwr (x1 : Nat) (x2 : Nat) (x3 : ReportIn) (x4 : Bool) (x5 : Bool) : (State.makePrimary s x1 x2 x3 x4 x5).pwr = s.pwr := by unfold State.makePrimary; (try dsimp only) <;> (repeat' split) <;> simp
@[simp] theorem State.makePrimary_events (x1 : Nat) (x2 : Nat) (x3 : ReportIn) (x4 : Bool) (x5 : Bool) : (State.makePrimary s x1 x2 x3 x4 x5).events = s.events := by unfold State.makePrimary; (try dsimp only) <;> (repeat' split) <;> simp
@[simp] theorem State.makePrimary_sent (x1 : Nat) (x2 : Nat) (x3 : ReportIn) (x4 : Bool) (x5 : Bool) : (State.makePrimary s x1 x2 x3 x4 x5).sent = s.sent := by unfold State.makePrimary; (try dsimp only) <;> (repeat' split) <;> simp
@[simp] theorem State.makePrimary_fresh (x1 : Nat) (x2 : Nat) (x3 : ReportIn) (x4 : Bool) (x5 : Bool) : (State.makePrimary s x1 x2 x3 x4 x5).fresh = s.fresh := by unfold State.makePrimary; (try dsimp only) <;> (repeat' split) <;> simp
@[simp] theorem State.makePrimary_pending (x1 : Nat) (x2 : Nat) (x3 : ReportIn) (x4 : Bool) (x5 : Bool) : (State.makePrimary s x1 x2 x3 x4 x5).pending = s.pending := by unfold State.makePrimary; (try dsimp only) <;> (repeat' split) <;> simp
@[simp] theorem State.enterSafe_tb  : (State.enterSafe s).tb = s.tb := by unfold State.enterSafe; (try dsimp only) <;> (repeat' split) <;> simp
@[simp] theorem State.enterSafe_pins  : (State.enterSafe s).pins = s.pins := by unfold State.enterSafe; (try dsimp only) <;> (repeat' split) <;> simp
@[simp] theorem State.enterSafe_fc  : (State.enterSafe s).fc = s.fc := by unfold State.enterSafe; (try dsimp only) <;> (repeat' split) <;> simp
@[simp] theorem State.enterSafe_isl  : (State.enterSafe s).isl = s.isl := by unfold State.enterSafe; (try dsimp only) <;> (repeat' split) <;> simp
@[simp] theorem State.enterSafe_flash  : (State.enterSafe s).flash = s.flash := by unfold State.enterSafe; (try dsimp only) <;> (repeat' split) <;> simp
@[simp] theorem State.enterSafe_boot  : (State.enterSafe s).boot = s.boot := by unfold State.enterSafe; (try dsimp only) <;> (repeat' split) <;> simp
@[simp] theorem State.enterSafe_sec  : (State.enterSafe s).sec = s.sec := by unfold State.enterSafe; (try dsimp only) <;> (repeat' split) <;> simp
@[simp] theorem State.enterSafe_ctx  : (State.enterSafe s).ctx = s.ctx := by unfold State.enterSafe; (try dsimp only) <;> (repeat' split) <;> simp
@[simp] theorem State.enterSafe_mem  : (State.enterSafe s).mem = s.mem := by unfold State.enterSafe; (try dsimp only) <;> (repeat' split) <;> simp
@[simp] theorem State.enterSafe_fab  : (State.enterSafe s).fab = s.fab := by unfold State.enterSafe; (try dsimp only) <;> (repeat' split) <;> simp
@[simp] theorem State.enterSafe_pwr  : (State.enterSafe s).pwr = s.pwr := by unfold State.enterSafe; (try dsimp only) <;> (repeat' split) <;> simp
@[simp] theorem State.enterSafe_evSeq  : (State.enterSafe s).evSeq = s.evSeq := by unfold State.enterSafe; (try dsimp only) <;> (repeat' split) <;> simp
@[simp] theorem State.enterSafe_events  : (State.enterSafe s).events = s.events := by unfold State.enterSafe; (try dsimp only) <;> (repeat' split) <;> simp
@[simp] theorem State.enterSafe_sent  : (State.enterSafe s).sent = s.sent := by unfold State.enterSafe; (try dsimp only) <;> (repeat' split) <;> simp
@[simp] theorem State.enterSafe_fresh  : (State.enterSafe s).fresh = s.fresh := by unfold State.enterSafe; (try dsimp only) <;> (repeat' split) <;> simp
@[simp] theorem State.enterSafe_pending  : (State.enterSafe s).pending = s.pending := by unfold State.enterSafe; (try dsimp only) <;> (repeat' split) <;> simp
@[simp] theorem State.react_tb (x1 : Nat) : (State.react s x1).tb = s.tb := by unfold State.react; (try dsimp only) <;> (repeat' split) <;> simp
@[simp] theorem State.react_pins (x1 : Nat) : (State.react s x1).pins = s.pins := by unfold State.react; (try dsimp only) <;> (repeat' split) <;> simp
@[simp] theorem State.react_fc (x1 : Nat) : (State.react s x1).fc = s.fc := by unfold State.react; (try dsimp only) <;> (repeat' split) <;> simp
@[simp] theorem State.react_isl (x1 : Nat) : (State.react s x1).isl = s.isl := by unfold State.react; (try dsimp only) <;> (repeat' split) <;> simp
@[simp] theorem State.react_flash (x1 : Nat) : (State.react s x1).flash = s.flash := by unfold State.react; (try dsimp only) <;> (repeat' split) <;> simp
@[simp] theorem State.react_boot (x1 : Nat) : (State.react s x1).boot = s.boot := by unfold State.react; (try dsimp only) <;> (repeat' split) <;> simp
@[simp] theorem State.react_sec (x1 : Nat) : (State.react s x1).sec = s.sec := by unfold State.react; (try dsimp only) <;> (repeat' split) <;> simp
@[simp] theorem State.react_ctx (x1 : Nat) : (State.react s x1).ctx = s.ctx := by unfold State.react; (try dsimp only) <;> (repeat' split) <;> simp
@[simp] theorem State.react_mem (x1 : Nat) : (State.react s x1).mem = s.mem := by unfold State.react; (try dsimp only) <;> (repeat' split) <;> simp
@[simp] theorem State.react_fab (x1 : Nat) : (State.react s x1).fab = s.fab := by unfold State.react; (try dsimp only) <;> (repeat' split) <;> simp
@[simp] theorem State.react_pwr (x1 : Nat) : (State.react s x1).pwr = s.pwr := by unfold State.react; (try dsimp only) <;> (repeat' split) <;> simp
@[simp] theorem State.react_evSeq (x1 : Nat) : (State.react s x1).evSeq = s.evSeq := by unfold State.react; (try dsimp only) <;> (repeat' split) <;> simp
@[simp] theorem State.react_events (x1 : Nat) : (State.react s x1).events = s.events := by unfold State.react; (try dsimp only) <;> (repeat' split) <;> simp
@[simp] theorem State.react_sent (x1 : Nat) : (State.react s x1).sent = s.sent := by unfold State.react; (try dsimp only) <;> (repeat' split) <;> simp
@[simp] theorem State.react_fresh (x1 : Nat) : (State.react s x1).fresh = s.fresh := by unfold State.react; (try dsimp only) <;> (repeat' split) <;> simp
@[simp] theorem State.react_pending (x1 : Nat) : (State.react s x1).pending = s.pending := by unfold State.react; (try dsimp only) <;> (repeat' split) <;> simp
@[simp] theorem State.reportWith_tb (x1 : ReportIn) (x2 : Bool) : (State.reportWith s x1 x2).tb = s.tb := by unfold State.reportWith; (try dsimp only) <;> (repeat' split) <;> simp
@[simp] theorem State.reportWith_pins (x1 : ReportIn) (x2 : Bool) : (State.reportWith s x1 x2).pins = s.pins := by unfold State.reportWith; (try dsimp only) <;> (repeat' split) <;> simp
@[simp] theorem State.reportWith_isl (x1 : ReportIn) (x2 : Bool) : (State.reportWith s x1 x2).isl = s.isl := by unfold State.reportWith; (try dsimp only) <;> (repeat' split) <;> simp
@[simp] theorem State.reportWith_flash (x1 : ReportIn) (x2 : Bool) : (State.reportWith s x1 x2).flash = s.flash := by unfold State.reportWith; (try dsimp only) <;> (repeat' split) <;> simp
@[simp] theorem State.reportWith_boot (x1 : ReportIn) (x2 : Bool) : (State.reportWith s x1 x2).boot = s.boot := by unfold State.reportWith; (try dsimp only) <;> (repeat' split) <;> simp
@[simp] theorem State.reportWith_sec (x1 : ReportIn) (x2 : Bool) : (State.reportWith s x1 x2).sec = s.sec := by unfold State.reportWith; (try dsimp only) <;> (repeat' split) <;> simp
@[simp] theorem State.reportWith_ctx (x1 : ReportIn) (x2 : Bool) : (State.reportWith s x1 x2).ctx = s.ctx := by unfold State.reportWith; (try dsimp only) <;> (repeat' split) <;> simp
@[simp] theorem State.reportWith_mem (x1 : ReportIn) (x2 : Bool) : (State.reportWith s x1 x2).mem = s.mem := by unfold State.reportWith; (try dsimp only) <;> (repeat' split) <;> simp
@[simp] theorem State.reportWith_fab (x1 : ReportIn) (x2 : Bool) : (State.reportWith s x1 x2).fab = s.fab := by unfold State.reportWith; (try dsimp only) <;> (repeat' split) <;> simp
@[simp] theorem State.reportWith_pwr (x1 : ReportIn) (x2 : Bool) : (State.reportWith s x1 x2).pwr = s.pwr := by unfold State.reportWith; (try dsimp only) <;> (repeat' split) <;> simp
@[simp] theorem State.reportWith_events (x1 : ReportIn) (x2 : Bool) : (State.reportWith s x1 x2).events = s.events := by unfold State.reportWith; (try dsimp only) <;> (repeat' split) <;> simp
@[simp] theorem State.reportWith_sent (x1 : ReportIn) (x2 : Bool) : (State.reportWith s x1 x2).sent = s.sent := by unfold State.reportWith; (try dsimp only) <;> (repeat' split) <;> simp
@[simp] theorem State.reportWith_fresh (x1 : ReportIn) (x2 : Bool) : (State.reportWith s x1 x2).fresh = s.fresh := by unfold State.reportWith; (try dsimp only) <;> (repeat' split) <;> simp
@[simp] theorem State.reportWith_pending (x1 : ReportIn) (x2 : Bool) : (State.reportWith s x1 x2).pending = s.pending := by unfold State.reportWith; (try dsimp only) <;> (repeat' split) <;> simp
@[simp] theorem State.report_tb (x1 : ReportIn) : (State.report s x1).tb = s.tb := by unfold State.report; (try dsimp only) <;> (repeat' split) <;> simp
@[simp] theorem State.report_pins (x1 : ReportIn) : (State.report s x1).pins = s.pins := by unfold State.report; (try dsimp only) <;> (repeat' split) <;> simp
@[simp] theorem State.report_isl (x1 : ReportIn) : (State.report s x1).isl = s.isl := by unfold State.report; (try dsimp only) <;> (repeat' split) <;> simp
@[simp] theorem State.report_flash (x1 : ReportIn) : (State.report s x1).flash = s.flash := by unfold State.report; (try dsimp only) <;> (repeat' split) <;> simp
@[simp] theorem State.report_boot (x1 : ReportIn) : (State.report s x1).boot = s.boot := by unfold State.report; (try dsimp only) <;> (repeat' split) <;> simp
@[simp] theorem State.report_sec (x1 : ReportIn) : (State.report s x1).sec = s.sec := by unfold State.report; (try dsimp only) <;> (repeat' split) <;> simp
@[simp] theorem State.report_ctx (x1 : ReportIn) : (State.report s x1).ctx = s.ctx := by unfold State.report; (try dsimp only) <;> (repeat' split) <;> simp
@[simp] theorem State.report_mem (x1 : ReportIn) : (State.report s x1).mem = s.mem := by unfold State.report; (try dsimp only) <;> (repeat' split) <;> simp
@[simp] theorem State.report_fab (x1 : ReportIn) : (State.report s x1).fab = s.fab := by unfold State.report; (try dsimp only) <;> (repeat' split) <;> simp
@[simp] theorem State.report_pwr (x1 : ReportIn) : (State.report s x1).pwr = s.pwr := by unfold State.report; (try dsimp only) <;> (repeat' split) <;> simp
@[simp] theorem State.report_events (x1 : ReportIn) : (State.report s x1).events = s.events := by unfold State.report; (try dsimp only) <;> (repeat' split) <;> simp
@[simp] theorem State.report_sent (x1 : ReportIn) : (State.report s x1).sent = s.sent := by unfold State.report; (try dsimp only) <;> (repeat' split) <;> simp
@[simp] theorem State.report_fresh (x1 : ReportIn) : (State.report s x1).fresh = s.fresh := by unfold State.report; (try dsimp only) <;> (repeat' split) <;> simp
@[simp] theorem State.report_pending (x1 : ReportIn) : (State.report s x1).pending = s.pending := by unfold State.report; (try dsimp only) <;> (repeat' split) <;> simp
@[simp] theorem State.raise_tb (x1 : Nat) (x2 : Nat) (x3 : Nat) (x4 : Nat) (x5 : Nat) : (State.raise s x1 x2 x3 x4 x5).tb = s.tb := by unfold State.raise; (try dsimp only) <;> (repeat' split) <;> simp
@[simp] theorem State.raise_pins (x1 : Nat) (x2 : Nat) (x3 : Nat) (x4 : Nat) (x5 : Nat) : (State.raise s x1 x2 x3 x4 x5).pins = s.pins := by unfold State.raise; (try dsimp only) <;> (repeat' split) <;> simp
@[simp] theorem State.raise_isl (x1 : Nat) (x2 : Nat) (x3 : Nat) (x4 : Nat) (x5 : Nat) : (State.raise s x1 x2 x3 x4 x5).isl = s.isl := by unfold State.raise; (try dsimp only) <;> (repeat' split) <;> simp
@[simp] theorem State.raise_flash (x1 : Nat) (x2 : Nat) (x3 : Nat) (x4 : Nat) (x5 : Nat) : (State.raise s x1 x2 x3 x4 x5).flash = s.flash := by unfold State.raise; (try dsimp only) <;> (repeat' split) <;> simp
@[simp] theorem State.raise_boot (x1 : Nat) (x2 : Nat) (x3 : Nat) (x4 : Nat) (x5 : Nat) : (State.raise s x1 x2 x3 x4 x5).boot = s.boot := by unfold State.raise; (try dsimp only) <;> (repeat' split) <;> simp
@[simp] theorem State.raise_sec (x1 : Nat) (x2 : Nat) (x3 : Nat) (x4 : Nat) (x5 : Nat) : (State.raise s x1 x2 x3 x4 x5).sec = s.sec := by unfold State.raise; (try dsimp only) <;> (repeat' split) <;> simp
@[simp] theorem State.raise_ctx (x1 : Nat) (x2 : Nat) (x3 : Nat) (x4 : Nat) (x5 : Nat) : (State.raise s x1 x2 x3 x4 x5).ctx = s.ctx := by unfold State.raise; (try dsimp only) <;> (repeat' split) <;> simp
@[simp] theorem State.raise_mem (x1 : Nat) (x2 : Nat) (x3 : Nat) (x4 : Nat) (x5 : Nat) : (State.raise s x1 x2 x3 x4 x5).mem = s.mem := by unfold State.raise; (try dsimp only) <;> (repeat' split) <;> simp
@[simp] theorem State.raise_fab (x1 : Nat) (x2 : Nat) (x3 : Nat) (x4 : Nat) (x5 : Nat) : (State.raise s x1 x2 x3 x4 x5).fab = s.fab := by unfold State.raise; (try dsimp only) <;> (repeat' split) <;> simp
@[simp] theorem State.raise_pwr (x1 : Nat) (x2 : Nat) (x3 : Nat) (x4 : Nat) (x5 : Nat) : (State.raise s x1 x2 x3 x4 x5).pwr = s.pwr := by unfold State.raise; (try dsimp only) <;> (repeat' split) <;> simp
@[simp] theorem State.raise_events (x1 : Nat) (x2 : Nat) (x3 : Nat) (x4 : Nat) (x5 : Nat) : (State.raise s x1 x2 x3 x4 x5).events = s.events := by unfold State.raise; (try dsimp only) <;> (repeat' split) <;> simp
@[simp] theorem State.raise_sent (x1 : Nat) (x2 : Nat) (x3 : Nat) (x4 : Nat) (x5 : Nat) : (State.raise s x1 x2 x3 x4 x5).sent = s.sent := by unfold State.raise; (try dsimp only) <;> (repeat' split) <;> simp
@[simp] theorem State.raise_fresh (x1 : Nat) (x2 : Nat) (x3 : Nat) (x4 : Nat) (x5 : Nat) : (State.raise s x1 x2 x3 x4 x5).fresh = s.fresh := by unfold State.raise; (try dsimp only) <;> (repeat' split) <;> simp
@[simp] theorem State.raise_pending (x1 : Nat) (x2 : Nat) (x3 : Nat) (x4 : Nat) (x5 : Nat) : (State.raise s x1 x2 x3 x4 x5).pending = s.pending := by unfold State.raise; (try dsimp only) <;> (repeat' split) <;> simp
@[simp] theorem State.raiseCtx_tb (x1 : Nat) (x2 : Nat) (x3 : Nat) (x4 : Nat) (x5 : Nat) (x6 : Nat) (x7 : Nat) : (State.raiseCtx s x1 x2 x3 x4 x5 x6 x7).tb = s.tb := by unfold State.raiseCtx; (try dsimp only) <;> (repeat' split) <;> simp
@[simp] theorem State.raiseCtx_pins (x1 : Nat) (x2 : Nat) (x3 : Nat) (x4 : Nat) (x5 : Nat) (x6 : Nat) (x7 : Nat) : (State.raiseCtx s x1 x2 x3 x4 x5 x6 x7).pins = s.pins := by unfold State.raiseCtx; (try dsimp only) <;> (repeat' split) <;> simp
@[simp] theorem State.raiseCtx_isl (x1 : Nat) (x2 : Nat) (x3 : Nat) (x4 : Nat) (x5 : Nat) (x6 : Nat) (x7 : Nat) : (State.raiseCtx s x1 x2 x3 x4 x5 x6 x7).isl = s.isl := by unfold State.raiseCtx; (try dsimp only) <;> (repeat' split) <;> simp
@[simp] theorem State.raiseCtx_flash (x1 : Nat) (x2 : Nat) (x3 : Nat) (x4 : Nat) (x5 : Nat) (x6 : Nat) (x7 : Nat) : (State.raiseCtx s x1 x2 x3 x4 x5 x6 x7).flash = s.flash := by unfold State.raiseCtx; (try dsimp only) <;> (repeat' split) <;> simp
@[simp] theorem State.raiseCtx_boot (x1 : Nat) (x2 : Nat) (x3 : Nat) (x4 : Nat) (x5 : Nat) (x6 : Nat) (x7 : Nat) : (State.raiseCtx s x1 x2 x3 x4 x5 x6 x7).boot = s.boot := by unfold State.raiseCtx; (try dsimp only) <;> (repeat' split) <;> simp
@[simp] theorem State.raiseCtx_sec (x1 : Nat) (x2 : Nat) (x3 : Nat) (x4 : Nat) (x5 : Nat) (x6 : Nat) (x7 : Nat) : (State.raiseCtx s x1 x2 x3 x4 x5 x6 x7).sec = s.sec := by unfold State.raiseCtx; (try dsimp only) <;> (repeat' split) <;> simp
@[simp] theorem State.raiseCtx_ctx (x1 : Nat) (x2 : Nat) (x3 : Nat) (x4 : Nat) (x5 : Nat) (x6 : Nat) (x7 : Nat) : (State.raiseCtx s x1 x2 x3 x4 x5 x6 x7).ctx = s.ctx := by unfold State.raiseCtx; (try dsimp only) <;> (repeat' split) <;> simp
@[simp] theorem State.raiseCtx_mem (x1 : Nat) (x2 : Nat) (x3 : Nat) (x4 : Nat) (x5 : Nat) (x6 : Nat) (x7 : Nat) : (State.raiseCtx s x1 x2 x3 x4 x5 x6 x7).mem = s.mem := by unfold State.raiseCtx; (try dsimp only) <;> (repeat' split) <;> simp
@[simp] theorem State.raiseCtx_fab (x1 : Nat) (x2 : Nat) (x3 : Nat) (x4 : Nat) (x5 : Nat) (x6 : Nat) (x7 : Nat) : (State.raiseCtx s x1 x2 x3 x4 x5 x6 x7).fab = s.fab := by unfold State.raiseCtx; (try dsimp only) <;> (repeat' split) <;> simp
@[simp] theorem State.raiseCtx_pwr (x1 : Nat) (x2 : Nat) (x3 : Nat) (x4 : Nat) (x5 : Nat) (x6 : Nat) (x7 : Nat) : (State.raiseCtx s x1 x2 x3 x4 x5 x6 x7).pwr = s.pwr := by unfold State.raiseCtx; (try dsimp only) <;> (repeat' split) <;> simp
@[simp] theorem State.raiseCtx_events (x1 : Nat) (x2 : Nat) (x3 : Nat) (x4 : Nat) (x5 : Nat) (x6 : Nat) (x7 : Nat) : (State.raiseCtx s x1 x2 x3 x4 x5 x6 x7).events = s.events := by unfold State.raiseCtx; (try dsimp only) <;> (repeat' split) <;> simp
@[simp] theorem State.raiseCtx_sent (x1 : Nat) (x2 : Nat) (x3 : Nat) (x4 : Nat) (x5 : Nat) (x6 : Nat) (x7 : Nat) : (State.raiseCtx s x1 x2 x3 x4 x5 x6 x7).sent = s.sent := by unfold State.raiseCtx; (try dsimp only) <;> (repeat' split) <;> simp
@[simp] theorem State.raiseCtx_fresh (x1 : Nat) (x2 : Nat) (x3 : Nat) (x4 : Nat) (x5 : Nat) (x6 : Nat) (x7 : Nat) : (State.raiseCtx s x1 x2 x3 x4 x5 x6 x7).fresh = s.fresh := by unfold State.raiseCtx; (try dsimp only) <;> (repeat' split) <;> simp
@[simp] theorem State.raiseCtx_pending (x1 : Nat) (x2 : Nat) (x3 : Nat) (x4 : Nat) (x5 : Nat) (x6 : Nat) (x7 : Nat) : (State.raiseCtx s x1 x2 x3 x4 x5 x6 x7).pending = s.pending := by unfold State.raiseCtx; (try dsimp only) <;> (repeat' split) <;> simp
@[simp] theorem State.ccErrWith_tb (x1 : Nat) (x2 : Nat) (x3 : Nat) (x4 : Option (BitVec 12)) (x5 : Nat) (x6 : Nat) (x7 : Nat) : (State.ccErrWith s x1 x2 x3 x4 x5 x6 x7).tb = s.tb := by unfold State.ccErrWith; (try dsimp only) <;> (repeat' split) <;> simp
@[simp] theorem State.ccErrWith_pins (x1 : Nat) (x2 : Nat) (x3 : Nat) (x4 : Option (BitVec 12)) (x5 : Nat) (x6 : Nat) (x7 : Nat) : (State.ccErrWith s x1 x2 x3 x4 x5 x6 x7).pins = s.pins := by unfold State.ccErrWith; (try dsimp only) <;> (repeat' split) <;> simp
@[simp] theorem State.ccErrWith_isl (x1 : Nat) (x2 : Nat) (x3 : Nat) (x4 : Option (BitVec 12)) (x5 : Nat) (x6 : Nat) (x7 : Nat) : (State.ccErrWith s x1 x2 x3 x4 x5 x6 x7).isl = s.isl := by unfold State.ccErrWith; (try dsimp only) <;> (repeat' split) <;> simp
@[simp] theorem State.ccErrWith_flash (x1 : Nat) (x2 : Nat) (x3 : Nat) (x4 : Option (BitVec 12)) (x5 : Nat) (x6 : Nat) (x7 : Nat) : (State.ccErrWith s x1 x2 x3 x4 x5 x6 x7).flash = s.flash := by unfold State.ccErrWith; (try dsimp only) <;> (repeat' split) <;> simp
@[simp] theorem State.ccErrWith_boot (x1 : Nat) (x2 : Nat) (x3 : Nat) (x4 : Option (BitVec 12)) (x5 : Nat) (x6 : Nat) (x7 : Nat) : (State.ccErrWith s x1 x2 x3 x4 x5 x6 x7).boot = s.boot := by unfold State.ccErrWith; (try dsimp only) <;> (repeat' split) <;> simp
@[simp] theorem State.ccErrWith_sec (x1 : Nat) (x2 : Nat) (x3 : Nat) (x4 : Option (BitVec 12)) (x5 : Nat) (x6 : Nat) (x7 : Nat) : (State.ccErrWith s x1 x2 x3 x4 x5 x6 x7).sec = s.sec := by unfold State.ccErrWith; (try dsimp only) <;> (repeat' split) <;> simp
@[simp] theorem State.ccErrWith_ctx (x1 : Nat) (x2 : Nat) (x3 : Nat) (x4 : Option (BitVec 12)) (x5 : Nat) (x6 : Nat) (x7 : Nat) : (State.ccErrWith s x1 x2 x3 x4 x5 x6 x7).ctx = s.ctx := by unfold State.ccErrWith; (try dsimp only) <;> (repeat' split) <;> simp
@[simp] theorem State.ccErrWith_mem (x1 : Nat) (x2 : Nat) (x3 : Nat) (x4 : Option (BitVec 12)) (x5 : Nat) (x6 : Nat) (x7 : Nat) : (State.ccErrWith s x1 x2 x3 x4 x5 x6 x7).mem = s.mem := by unfold State.ccErrWith; (try dsimp only) <;> (repeat' split) <;> simp
@[simp] theorem State.ccErrWith_fab (x1 : Nat) (x2 : Nat) (x3 : Nat) (x4 : Option (BitVec 12)) (x5 : Nat) (x6 : Nat) (x7 : Nat) : (State.ccErrWith s x1 x2 x3 x4 x5 x6 x7).fab = s.fab := by unfold State.ccErrWith; (try dsimp only) <;> (repeat' split) <;> simp
@[simp] theorem State.ccErrWith_pwr (x1 : Nat) (x2 : Nat) (x3 : Nat) (x4 : Option (BitVec 12)) (x5 : Nat) (x6 : Nat) (x7 : Nat) : (State.ccErrWith s x1 x2 x3 x4 x5 x6 x7).pwr = s.pwr := by unfold State.ccErrWith; (try dsimp only) <;> (repeat' split) <;> simp
@[simp] theorem State.ccErrWith_events (x1 : Nat) (x2 : Nat) (x3 : Nat) (x4 : Option (BitVec 12)) (x5 : Nat) (x6 : Nat) (x7 : Nat) : (State.ccErrWith s x1 x2 x3 x4 x5 x6 x7).events = s.events := by unfold State.ccErrWith; (try dsimp only) <;> (repeat' split) <;> simp
@[simp] theorem State.ccErrWith_sent (x1 : Nat) (x2 : Nat) (x3 : Nat) (x4 : Option (BitVec 12)) (x5 : Nat) (x6 : Nat) (x7 : Nat) : (State.ccErrWith s x1 x2 x3 x4 x5 x6 x7).sent = s.sent := by unfold State.ccErrWith; (try dsimp only) <;> (repeat' split) <;> simp
@[simp] theorem State.ccErrWith_fresh (x1 : Nat) (x2 : Nat) (x3 : Nat) (x4 : Option (BitVec 12)) (x5 : Nat) (x6 : Nat) (x7 : Nat) : (State.ccErrWith s x1 x2 x3 x4 x5 x6 x7).fresh = s.fresh := by unfold State.ccErrWith; (try dsimp only) <;> (repeat' split) <;> simp
@[simp] theorem State.ccErrWith_pending (x1 : Nat) (x2 : Nat) (x3 : Nat) (x4 : Option (BitVec 12)) (x5 : Nat) (x6 : Nat) (x7 : Nat) : (State.ccErrWith s x1 x2 x3 x4 x5 x6 x7).pending = s.pending := by unfold State.ccErrWith; (try dsimp only) <;> (repeat' split) <;> simp
@[simp] theorem State.ccErr_tb (x1 : Nat) (x2 : Nat) (x3 : Nat) : (State.ccErr s x1 x2 x3).tb = s.tb := by unfold State.ccErr; (try dsimp only) <;> (repeat' split) <;> simp
@[simp] theorem State.ccErr_pins (x1 : Nat) (x2 : Nat) (x3 : Nat) : (State.ccErr s x1 x2 x3).pins = s.pins := by unfold State.ccErr; (try dsimp only) <;> (repeat' split) <;> simp
@[simp] theorem State.ccErr_isl (x1 : Nat) (x2 : Nat) (x3 : Nat) : (State.ccErr s x1 x2 x3).isl = s.isl := by unfold State.ccErr; (try dsimp only) <;> (repeat' split) <;> simp
@[simp] theorem State.ccErr_flash (x1 : Nat) (x2 : Nat) (x3 : Nat) : (State.ccErr s x1 x2 x3).flash = s.flash := by unfold State.ccErr; (try dsimp only) <;> (repeat' split) <;> simp
@[simp] theorem State.ccErr_boot (x1 : Nat) (x2 : Nat) (x3 : Nat) : (State.ccErr s x1 x2 x3).boot = s.boot := by unfold State.ccErr; (try dsimp only) <;> (repeat' split) <;> simp
@[simp] theorem State.ccErr_sec (x1 : Nat) (x2 : Nat) (x3 : Nat) : (State.ccErr s x1 x2 x3).sec = s.sec := by unfold State.ccErr; (try dsimp only) <;> (repeat' split) <;> simp
@[simp] theorem State.ccErr_ctx (x1 : Nat) (x2 : Nat) (x3 : Nat) : (State.ccErr s x1 x2 x3).ctx = s.ctx := by unfold State.ccErr; (try dsimp only) <;> (repeat' split) <;> simp
@[simp] theorem State.ccErr_mem (x1 : Nat) (x2 : Nat) (x3 : Nat) : (State.ccErr s x1 x2 x3).mem = s.mem := by unfold State.ccErr; (try dsimp only) <;> (repeat' split) <;> simp
@[simp] theorem State.ccErr_fab (x1 : Nat) (x2 : Nat) (x3 : Nat) : (State.ccErr s x1 x2 x3).fab = s.fab := by unfold State.ccErr; (try dsimp only) <;> (repeat' split) <;> simp
@[simp] theorem State.ccErr_pwr (x1 : Nat) (x2 : Nat) (x3 : Nat) : (State.ccErr s x1 x2 x3).pwr = s.pwr := by unfold State.ccErr; (try dsimp only) <;> (repeat' split) <;> simp
@[simp] theorem State.ccErr_events (x1 : Nat) (x2 : Nat) (x3 : Nat) : (State.ccErr s x1 x2 x3).events = s.events := by unfold State.ccErr; (try dsimp only) <;> (repeat' split) <;> simp
@[simp] theorem State.ccErr_sent (x1 : Nat) (x2 : Nat) (x3 : Nat) : (State.ccErr s x1 x2 x3).sent = s.sent := by unfold State.ccErr; (try dsimp only) <;> (repeat' split) <;> simp
@[simp] theorem State.ccErr_fresh (x1 : Nat) (x2 : Nat) (x3 : Nat) : (State.ccErr s x1 x2 x3).fresh = s.fresh := by unfold State.ccErr; (try dsimp only) <;> (repeat' split) <;> simp
@[simp] theorem State.ccErr_pending (x1 : Nat) (x2 : Nat) (x3 : Nat) : (State.ccErr s x1 x2 x3).pending = s.pending := by unfold State.ccErr; (try dsimp only) <;> (repeat' split) <;> simp
@[simp] theorem State.onLake_tb (x1 : Nat) (x2 : LakeCh → LakeCh) : (State.onLake s x1 x2).tb = s.tb := by unfold State.onLake; (try dsimp only) <;> (repeat' split) <;> simp
@[simp] theorem State.onLake_pins (x1 : Nat) (x2 : LakeCh → LakeCh) : (State.onLake s x1 x2).pins = s.pins := by unfold State.onLake; (try dsimp only) <;> (repeat' split) <;> simp
@[simp] theorem State.onLake_fc (x1 : Nat) (x2 : LakeCh → LakeCh) : (State.onLake s x1 x2).fc = s.fc := by unfold State.onLake; (try dsimp only) <;> (repeat' split) <;> simp
@[simp] theorem State.onLake_isl (x1 : Nat) (x2 : LakeCh → LakeCh) : (State.onLake s x1 x2).isl = s.isl := by unfold State.onLake; (try dsimp only) <;> (repeat' split) <;> simp
@[simp] theorem State.onLake_flash (x1 : Nat) (x2 : LakeCh → LakeCh) : (State.onLake s x1 x2).flash = s.flash := by unfold State.onLake; (try dsimp only) <;> (repeat' split) <;> simp
@[simp] theorem State.onLake_boot (x1 : Nat) (x2 : LakeCh → LakeCh) : (State.onLake s x1 x2).boot = s.boot := by unfold State.onLake; (try dsimp only) <;> (repeat' split) <;> simp
@[simp] theorem State.onLake_sec (x1 : Nat) (x2 : LakeCh → LakeCh) : (State.onLake s x1 x2).sec = s.sec := by unfold State.onLake; (try dsimp only) <;> (repeat' split) <;> simp
@[simp] theorem State.onLake_dict (x1 : Nat) (x2 : LakeCh → LakeCh) : (State.onLake s x1 x2).dict = s.dict := by unfold State.onLake; (try dsimp only) <;> (repeat' split) <;> simp
@[simp] theorem State.onLake_cores (x1 : Nat) (x2 : LakeCh → LakeCh) : (State.onLake s x1 x2).cores = s.cores := by unfold State.onLake; (try dsimp only) <;> (repeat' split) <;> simp
@[simp] theorem State.onLake_sched (x1 : Nat) (x2 : LakeCh → LakeCh) : (State.onLake s x1 x2).sched = s.sched := by unfold State.onLake; (try dsimp only) <;> (repeat' split) <;> simp
@[simp] theorem State.onLake_ctx (x1 : Nat) (x2 : LakeCh → LakeCh) : (State.onLake s x1 x2).ctx = s.ctx := by unfold State.onLake; (try dsimp only) <;> (repeat' split) <;> simp
@[simp] theorem State.onLake_spring (x1 : Nat) (x2 : LakeCh → LakeCh) : (State.onLake s x1 x2).spring = s.spring := by unfold State.onLake; (try dsimp only) <;> (repeat' split) <;> simp
@[simp] theorem State.onLake_radio (x1 : Nat) (x2 : LakeCh → LakeCh) : (State.onLake s x1 x2).radio = s.radio := by unfold State.onLake; (try dsimp only) <;> (repeat' split) <;> simp
@[simp] theorem State.onLake_fab (x1 : Nat) (x2 : LakeCh → LakeCh) : (State.onLake s x1 x2).fab = s.fab := by unfold State.onLake; (try dsimp only) <;> (repeat' split) <;> simp
@[simp] theorem State.onLake_pwr (x1 : Nat) (x2 : LakeCh → LakeCh) : (State.onLake s x1 x2).pwr = s.pwr := by unfold State.onLake; (try dsimp only) <;> (repeat' split) <;> simp
@[simp] theorem State.onLake_evSeq (x1 : Nat) (x2 : LakeCh → LakeCh) : (State.onLake s x1 x2).evSeq = s.evSeq := by unfold State.onLake; (try dsimp only) <;> (repeat' split) <;> simp
@[simp] theorem State.onLake_events (x1 : Nat) (x2 : LakeCh → LakeCh) : (State.onLake s x1 x2).events = s.events := by unfold State.onLake; (try dsimp only) <;> (repeat' split) <;> simp
@[simp] theorem State.onLake_sent (x1 : Nat) (x2 : LakeCh → LakeCh) : (State.onLake s x1 x2).sent = s.sent := by unfold State.onLake; (try dsimp only) <;> (repeat' split) <;> simp
@[simp] theorem State.onLake_fresh (x1 : Nat) (x2 : LakeCh → LakeCh) : (State.onLake s x1 x2).fresh = s.fresh := by unfold State.onLake; (try dsimp only) <;> (repeat' split) <;> simp
@[simp] theorem State.onLake_pending (x1 : Nat) (x2 : LakeCh → LakeCh) : (State.onLake s x1 x2).pending = s.pending := by unfold State.onLake; (try dsimp only) <;> (repeat' split) <;> simp
@[simp] theorem State.lakeCount_tb (x1 : Nat) (x2 : Nat) : (State.lakeCount s x1 x2).tb = s.tb := by unfold State.lakeCount; (try dsimp only) <;> (repeat' split) <;> simp
@[simp] theorem State.lakeCount_pins (x1 : Nat) (x2 : Nat) : (State.lakeCount s x1 x2).pins = s.pins := by unfold State.lakeCount; (try dsimp only) <;> (repeat' split) <;> simp
@[simp] theorem State.lakeCount_fc (x1 : Nat) (x2 : Nat) : (State.lakeCount s x1 x2).fc = s.fc := by unfold State.lakeCount; (try dsimp only) <;> (repeat' split) <;> simp
@[simp] theorem State.lakeCount_isl (x1 : Nat) (x2 : Nat) : (State.lakeCount s x1 x2).isl = s.isl := by unfold State.lakeCount; (try dsimp only) <;> (repeat' split) <;> simp
@[simp] theorem State.lakeCount_flash (x1 : Nat) (x2 : Nat) : (State.lakeCount s x1 x2).flash = s.flash := by unfold State.lakeCount; (try dsimp only) <;> (repeat' split) <;> simp
@[simp] theorem State.lakeCount_boot (x1 : Nat) (x2 : Nat) : (State.lakeCount s x1 x2).boot = s.boot := by unfold State.lakeCount; (try dsimp only) <;> (repeat' split) <;> simp
@[simp] theorem State.lakeCount_sec (x1 : Nat) (x2 : Nat) : (State.lakeCount s x1 x2).sec = s.sec := by unfold State.lakeCount; (try dsimp only) <;> (repeat' split) <;> simp
@[simp] theorem State.lakeCount_dict (x1 : Nat) (x2 : Nat) : (State.lakeCount s x1 x2).dict = s.dict := by unfold State.lakeCount; (try dsimp only) <;> (repeat' split) <;> simp
@[simp] theorem State.lakeCount_cores (x1 : Nat) (x2 : Nat) : (State.lakeCount s x1 x2).cores = s.cores := by unfold State.lakeCount; (try dsimp only) <;> (repeat' split) <;> simp
@[simp] theorem State.lakeCount_sched (x1 : Nat) (x2 : Nat) : (State.lakeCount s x1 x2).sched = s.sched := by unfold State.lakeCount; (try dsimp only) <;> (repeat' split) <;> simp
@[simp] theorem State.lakeCount_ctx (x1 : Nat) (x2 : Nat) : (State.lakeCount s x1 x2).ctx = s.ctx := by unfold State.lakeCount; (try dsimp only) <;> (repeat' split) <;> simp
@[simp] theorem State.lakeCount_spring (x1 : Nat) (x2 : Nat) : (State.lakeCount s x1 x2).spring = s.spring := by unfold State.lakeCount; (try dsimp only) <;> (repeat' split) <;> simp
@[simp] theorem State.lakeCount_radio (x1 : Nat) (x2 : Nat) : (State.lakeCount s x1 x2).radio = s.radio := by unfold State.lakeCount; (try dsimp only) <;> (repeat' split) <;> simp
@[simp] theorem State.lakeCount_fab (x1 : Nat) (x2 : Nat) : (State.lakeCount s x1 x2).fab = s.fab := by unfold State.lakeCount; (try dsimp only) <;> (repeat' split) <;> simp
@[simp] theorem State.lakeCount_pwr (x1 : Nat) (x2 : Nat) : (State.lakeCount s x1 x2).pwr = s.pwr := by unfold State.lakeCount; (try dsimp only) <;> (repeat' split) <;> simp
@[simp] theorem State.lakeCount_evSeq (x1 : Nat) (x2 : Nat) : (State.lakeCount s x1 x2).evSeq = s.evSeq := by unfold State.lakeCount; (try dsimp only) <;> (repeat' split) <;> simp
@[simp] theorem State.lakeCount_events (x1 : Nat) (x2 : Nat) : (State.lakeCount s x1 x2).events = s.events := by unfold State.lakeCount; (try dsimp only) <;> (repeat' split) <;> simp
@[simp] theorem State.lakeCount_sent (x1 : Nat) (x2 : Nat) : (State.lakeCount s x1 x2).sent = s.sent := by unfold State.lakeCount; (try dsimp only) <;> (repeat' split) <;> simp
@[simp] theorem State.lakeCount_fresh (x1 : Nat) (x2 : Nat) : (State.lakeCount s x1 x2).fresh = s.fresh := by unfold State.lakeCount; (try dsimp only) <;> (repeat' split) <;> simp
@[simp] theorem State.lakeCount_pending (x1 : Nat) (x2 : Nat) : (State.lakeCount s x1 x2).pending = s.pending := by unfold State.lakeCount; (try dsimp only) <;> (repeat' split) <;> simp
@[simp] theorem State.lakeReport_tb (x1 : Nat) (x2 : Nat) (x3 : Nat) (x4 : Nat) : (State.lakeReport s x1 x2 x3 x4).tb = s.tb := by unfold State.lakeReport; (try dsimp only) <;> (repeat' split) <;> simp
@[simp] theorem State.lakeReport_pins (x1 : Nat) (x2 : Nat) (x3 : Nat) (x4 : Nat) : (State.lakeReport s x1 x2 x3 x4).pins = s.pins := by unfold State.lakeReport; (try dsimp only) <;> (repeat' split) <;> simp
@[simp] theorem State.lakeReport_isl (x1 : Nat) (x2 : Nat) (x3 : Nat) (x4 : Nat) : (State.lakeReport s x1 x2 x3 x4).isl = s.isl := by unfold State.lakeReport; (try dsimp only) <;> (repeat' split) <;> simp
@[simp] theorem State.lakeReport_flash (x1 : Nat) (x2 : Nat) (x3 : Nat) (x4 : Nat) : (State.lakeReport s x1 x2 x3 x4).flash = s.flash := by unfold State.lakeReport; (try dsimp only) <;> (repeat' split) <;> simp
@[simp] theorem State.lakeReport_boot (x1 : Nat) (x2 : Nat) (x3 : Nat) (x4 : Nat) : (State.lakeReport s x1 x2 x3 x4).boot = s.boot := by unfold State.lakeReport; (try dsimp only) <;> (repeat' split) <;> simp
@[simp] theorem State.lakeReport_sec (x1 : Nat) (x2 : Nat) (x3 : Nat) (x4 : Nat) : (State.lakeReport s x1 x2 x3 x4).sec = s.sec := by unfold State.lakeReport; (try dsimp only) <;> (repeat' split) <;> simp
@[simp] theorem State.lakeReport_ctx (x1 : Nat) (x2 : Nat) (x3 : Nat) (x4 : Nat) : (State.lakeReport s x1 x2 x3 x4).ctx = s.ctx := by unfold State.lakeReport; (try dsimp only) <;> (repeat' split) <;> simp
@[simp] theorem State.lakeReport_mem (x1 : Nat) (x2 : Nat) (x3 : Nat) (x4 : Nat) : (State.lakeReport s x1 x2 x3 x4).mem = s.mem := by unfold State.lakeReport; (try dsimp only) <;> (repeat' split) <;> simp
@[simp] theorem State.lakeReport_fab (x1 : Nat) (x2 : Nat) (x3 : Nat) (x4 : Nat) : (State.lakeReport s x1 x2 x3 x4).fab = s.fab := by unfold State.lakeReport; (try dsimp only) <;> (repeat' split) <;> simp
@[simp] theorem State.lakeReport_pwr (x1 : Nat) (x2 : Nat) (x3 : Nat) (x4 : Nat) : (State.lakeReport s x1 x2 x3 x4).pwr = s.pwr := by unfold State.lakeReport; (try dsimp only) <;> (repeat' split) <;> simp
@[simp] theorem State.lakeReport_events (x1 : Nat) (x2 : Nat) (x3 : Nat) (x4 : Nat) : (State.lakeReport s x1 x2 x3 x4).events = s.events := by unfold State.lakeReport; (try dsimp only) <;> (repeat' split) <;> simp
@[simp] theorem State.lakeReport_sent (x1 : Nat) (x2 : Nat) (x3 : Nat) (x4 : Nat) : (State.lakeReport s x1 x2 x3 x4).sent = s.sent := by unfold State.lakeReport; (try dsimp only) <;> (repeat' split) <;> simp
@[simp] theorem State.lakeReport_fresh (x1 : Nat) (x2 : Nat) (x3 : Nat) (x4 : Nat) : (State.lakeReport s x1 x2 x3 x4).fresh = s.fresh := by unfold State.lakeReport; (try dsimp only) <;> (repeat' split) <;> simp
@[simp] theorem State.lakeReport_pending (x1 : Nat) (x2 : Nat) (x3 : Nat) (x4 : Nat) : (State.lakeReport s x1 x2 x3 x4).pending = s.pending := by unfold State.lakeReport; (try dsimp only) <;> (repeat' split) <;> simp
@[simp] theorem State.retireUnit_tb (x1 : Nat) (x2 : Nat) : (State.retireUnit s x1 x2).tb = s.tb := by unfold State.retireUnit; (try dsimp only) <;> (repeat' split) <;> simp
@[simp] theorem State.retireUnit_pins (x1 : Nat) (x2 : Nat) : (State.retireUnit s x1 x2).pins = s.pins := by unfold State.retireUnit; (try dsimp only) <;> (repeat' split) <;> simp
@[simp] theorem State.retireUnit_isl (x1 : Nat) (x2 : Nat) : (State.retireUnit s x1 x2).isl = s.isl := by unfold State.retireUnit; (try dsimp only) <;> (repeat' split) <;> simp
@[simp] theorem State.retireUnit_flash (x1 : Nat) (x2 : Nat) : (State.retireUnit s x1 x2).flash = s.flash := by unfold State.retireUnit; (try dsimp only) <;> (repeat' split) <;> simp
@[simp] theorem State.retireUnit_boot (x1 : Nat) (x2 : Nat) : (State.retireUnit s x1 x2).boot = s.boot := by unfold State.retireUnit; (try dsimp only) <;> (repeat' split) <;> simp
@[simp] theorem State.retireUnit_sec (x1 : Nat) (x2 : Nat) : (State.retireUnit s x1 x2).sec = s.sec := by unfold State.retireUnit; (try dsimp only) <;> (repeat' split) <;> simp
@[simp] theorem State.retireUnit_ctx (x1 : Nat) (x2 : Nat) : (State.retireUnit s x1 x2).ctx = s.ctx := by unfold State.retireUnit; (try dsimp only) <;> (repeat' split) <;> simp
@[simp] theorem State.retireUnit_fab (x1 : Nat) (x2 : Nat) : (State.retireUnit s x1 x2).fab = s.fab := by unfold State.retireUnit; (try dsimp only) <;> (repeat' split) <;> simp
@[simp] theorem State.retireUnit_pwr (x1 : Nat) (x2 : Nat) : (State.retireUnit s x1 x2).pwr = s.pwr := by unfold State.retireUnit; (try dsimp only) <;> (repeat' split) <;> simp
@[simp] theorem State.retireUnit_events (x1 : Nat) (x2 : Nat) : (State.retireUnit s x1 x2).events = s.events := by unfold State.retireUnit; (try dsimp only) <;> (repeat' split) <;> simp
@[simp] theorem State.retireUnit_sent (x1 : Nat) (x2 : Nat) : (State.retireUnit s x1 x2).sent = s.sent := by unfold State.retireUnit; (try dsimp only) <;> (repeat' split) <;> simp
@[simp] theorem State.retireUnit_fresh (x1 : Nat) (x2 : Nat) : (State.retireUnit s x1 x2).fresh = s.fresh := by unfold State.retireUnit; (try dsimp only) <;> (repeat' split) <;> simp
@[simp] theorem State.retireUnit_pending (x1 : Nat) (x2 : Nat) : (State.retireUnit s x1 x2).pending = s.pending := by unfold State.retireUnit; (try dsimp only) <;> (repeat' split) <;> simp
@[simp] theorem State.lakeCe_tb (x1 : Nat) (x2 : Nat) (x3 : Nat) : (State.lakeCe s x1 x2 x3).tb = s.tb := by unfold State.lakeCe; (try dsimp only) <;> (repeat' split) <;> simp
@[simp] theorem State.lakeCe_pins (x1 : Nat) (x2 : Nat) (x3 : Nat) : (State.lakeCe s x1 x2 x3).pins = s.pins := by unfold State.lakeCe; (try dsimp only) <;> (repeat' split) <;> simp
@[simp] theorem State.lakeCe_isl (x1 : Nat) (x2 : Nat) (x3 : Nat) : (State.lakeCe s x1 x2 x3).isl = s.isl := by unfold State.lakeCe; (try dsimp only) <;> (repeat' split) <;> simp
@[simp] theorem State.lakeCe_flash (x1 : Nat) (x2 : Nat) (x3 : Nat) : (State.lakeCe s x1 x2 x3).flash = s.flash := by unfold State.lakeCe; (try dsimp only) <;> (repeat' split) <;> simp
@[simp] theorem State.lakeCe_boot (x1 : Nat) (x2 : Nat) (x3 : Nat) : (State.lakeCe s x1 x2 x3).boot = s.boot := by unfold State.lakeCe; (try dsimp only) <;> (repeat' split) <;> simp
@[simp] theorem State.lakeCe_sec (x1 : Nat) (x2 : Nat) (x3 : Nat) : (State.lakeCe s x1 x2 x3).sec = s.sec := by unfold State.lakeCe; (try dsimp only) <;> (repeat' split) <;> simp
@[simp] theorem State.lakeCe_ctx (x1 : Nat) (x2 : Nat) (x3 : Nat) : (State.lakeCe s x1 x2 x3).ctx = s.ctx := by unfold State.lakeCe; (try dsimp only) <;> (repeat' split) <;> simp
@[simp] theorem State.lakeCe_fab (x1 : Nat) (x2 : Nat) (x3 : Nat) : (State.lakeCe s x1 x2 x3).fab = s.fab := by unfold State.lakeCe; (try dsimp only) <;> (repeat' split) <;> simp
@[simp] theorem State.lakeCe_pwr (x1 : Nat) (x2 : Nat) (x3 : Nat) : (State.lakeCe s x1 x2 x3).pwr = s.pwr := by unfold State.lakeCe; (try dsimp only) <;> (repeat' split) <;> simp
@[simp] theorem State.lakeCe_events (x1 : Nat) (x2 : Nat) (x3 : Nat) : (State.lakeCe s x1 x2 x3).events = s.events := by unfold State.lakeCe; (try dsimp only) <;> (repeat' split) <;> simp
@[simp] theorem State.lakeCe_sent (x1 : Nat) (x2 : Nat) (x3 : Nat) : (State.lakeCe s x1 x2 x3).sent = s.sent := by unfold State.lakeCe; (try dsimp only) <;> (repeat' split) <;> simp
@[simp] theorem State.lakeCe_fresh (x1 : Nat) (x2 : Nat) (x3 : Nat) : (State.lakeCe s x1 x2 x3).fresh = s.fresh := by unfold State.lakeCe; (try dsimp only) <;> (repeat' split) <;> simp
@[simp] theorem State.lakeCe_pending (x1 : Nat) (x2 : Nat) (x3 : Nat) : (State.lakeCe s x1 x2 x3).pending = s.pending := by unfold State.lakeCe; (try dsimp only) <;> (repeat' split) <;> simp
@[simp] theorem State.reportCe_tb (x1 : Nat) : (State.reportCe s x1).tb = s.tb := by unfold State.reportCe; (try dsimp only) <;> (repeat' split) <;> simp
@[simp] theorem State.reportCe_pins (x1 : Nat) : (State.reportCe s x1).pins = s.pins := by unfold State.reportCe; (try dsimp only) <;> (repeat' split) <;> simp
@[simp] theorem State.reportCe_isl (x1 : Nat) : (State.reportCe s x1).isl = s.isl := by unfold State.reportCe; (try dsimp only) <;> (repeat' split) <;> simp
@[simp] theorem State.reportCe_flash (x1 : Nat) : (State.reportCe s x1).flash = s.flash := by unfold State.reportCe; (try dsimp only) <;> (repeat' split) <;> simp
@[simp] theorem State.reportCe_boot (x1 : Nat) : (State.reportCe s x1).boot = s.boot := by unfold State.reportCe; (try dsimp only) <;> (repeat' split) <;> simp
@[simp] theorem State.reportCe_sec (x1 : Nat) : (State.reportCe s x1).sec = s.sec := by unfold State.reportCe; (try dsimp only) <;> (repeat' split) <;> simp
@[simp] theorem State.reportCe_ctx (x1 : Nat) : (State.reportCe s x1).ctx = s.ctx := by unfold State.reportCe; (try dsimp only) <;> (repeat' split) <;> simp
@[simp] theorem State.reportCe_fab (x1 : Nat) : (State.reportCe s x1).fab = s.fab := by unfold State.reportCe; (try dsimp only) <;> (repeat' split) <;> simp
@[simp] theorem State.reportCe_pwr (x1 : Nat) : (State.reportCe s x1).pwr = s.pwr := by unfold State.reportCe; (try dsimp only) <;> (repeat' split) <;> simp
@[simp] theorem State.reportCe_events (x1 : Nat) : (State.reportCe s x1).events = s.events := by unfold State.reportCe; (try dsimp only) <;> (repeat' split) <;> simp
@[simp] theorem State.reportCe_sent (x1 : Nat) : (State.reportCe s x1).sent = s.sent := by unfold State.reportCe; (try dsimp only) <;> (repeat' split) <;> simp
@[simp] theorem State.reportCe_fresh (x1 : Nat) : (State.reportCe s x1).fresh = s.fresh := by unfold State.reportCe; (try dsimp only) <;> (repeat' split) <;> simp
@[simp] theorem State.reportCe_pending (x1 : Nat) : (State.reportCe s x1).pending = s.pending := by unfold State.reportCe; (try dsimp only) <;> (repeat' split) <;> simp
@[simp] theorem State.reportUe_tb (x1 : Nat) : (State.reportUe s x1).tb = s.tb := by unfold State.reportUe; (try dsimp only) <;> (repeat' split) <;> simp
@[simp] theorem State.reportUe_pins (x1 : Nat) : (State.reportUe s x1).pins = s.pins := by unfold State.reportUe; (try dsimp only) <;> (repeat' split) <;> simp
@[simp] theorem State.reportUe_isl (x1 : Nat) : (State.reportUe s x1).isl = s.isl := by unfold State.reportUe; (try dsimp only) <;> (repeat' split) <;> simp
@[simp] theorem State.reportUe_flash (x1 : Nat) : (State.reportUe s x1).flash = s.flash := by unfold State.reportUe; (try dsimp only) <;> (repeat' split) <;> simp
@[simp] theorem State.reportUe_boot (x1 : Nat) : (State.reportUe s x1).boot = s.boot := by unfold State.reportUe; (try dsimp only) <;> (repeat' split) <;> simp
@[simp] theorem State.reportUe_sec (x1 : Nat) : (State.reportUe s x1).sec = s.sec := by unfold State.reportUe; (try dsimp only) <;> (repeat' split) <;> simp
@[simp] theorem State.reportUe_ctx (x1 : Nat) : (State.reportUe s x1).ctx = s.ctx := by unfold State.reportUe; (try dsimp only) <;> (repeat' split) <;> simp
@[simp] theorem State.reportUe_fab (x1 : Nat) : (State.reportUe s x1).fab = s.fab := by unfold State.reportUe; (try dsimp only) <;> (repeat' split) <;> simp
@[simp] theorem State.reportUe_pwr (x1 : Nat) : (State.reportUe s x1).pwr = s.pwr := by unfold State.reportUe; (try dsimp only) <;> (repeat' split) <;> simp
@[simp] theorem State.reportUe_events (x1 : Nat) : (State.reportUe s x1).events = s.events := by unfold State.reportUe; (try dsimp only) <;> (repeat' split) <;> simp
@[simp] theorem State.reportUe_sent (x1 : Nat) : (State.reportUe s x1).sent = s.sent := by unfold State.reportUe; (try dsimp only) <;> (repeat' split) <;> simp
@[simp] theorem State.reportUe_fresh (x1 : Nat) : (State.reportUe s x1).fresh = s.fresh := by unfold State.reportUe; (try dsimp only) <;> (repeat' split) <;> simp
@[simp] theorem State.reportUe_pending (x1 : Nat) : (State.reportUe s x1).pending = s.pending := by unfold State.reportUe; (try dsimp only) <;> (repeat' split) <;> simp
@[simp] theorem State.reportPoison_tb (x1 : Nat) : (State.reportPoison s x1).tb = s.tb := by unfold State.reportPoison; (try dsimp only) <;> (repeat' split) <;> simp
@[simp] theorem State.reportPoison_pins (x1 : Nat) : (State.reportPoison s x1).pins = s.pins := by unfold State.reportPoison; (try dsimp only) <;> (repeat' split) <;> simp
@[simp] theorem State.reportPoison_isl (x1 : Nat) : (State.reportPoison s x1).isl = s.isl := by unfold State.reportPoison; (try dsimp only) <;> (repeat' split) <;> simp
@[simp] theorem State.reportPoison_flash (x1 : Nat) : (State.reportPoison s x1).flash = s.flash := by unfold State.reportPoison; (try dsimp only) <;> (repeat' split) <;> simp
@[simp] theorem State.reportPoison_boot (x1 : Nat) : (State.reportPoison s x1).boot = s.boot := by unfold State.reportPoison; (try dsimp only) <;> (repeat' split) <;> simp
@[simp] theorem State.reportPoison_sec (x1 : Nat) : (State.reportPoison s x1).sec = s.sec := by unfold State.reportPoison; (try dsimp only) <;> (repeat' split) <;> simp
@[simp] theorem State.reportPoison_ctx (x1 : Nat) : (State.reportPoison s x1).ctx = s.ctx := by unfold State.reportPoison; (try dsimp only) <;> (repeat' split) <;> simp
@[simp] theorem State.reportPoison_fab (x1 : Nat) : (State.reportPoison s x1).fab = s.fab := by unfold State.reportPoison; (try dsimp only) <;> (repeat' split) <;> simp
@[simp] theorem State.reportPoison_pwr (x1 : Nat) : (State.reportPoison s x1).pwr = s.pwr := by unfold State.reportPoison; (try dsimp only) <;> (repeat' split) <;> simp
@[simp] theorem State.reportPoison_events (x1 : Nat) : (State.reportPoison s x1).events = s.events := by unfold State.reportPoison; (try dsimp only) <;> (repeat' split) <;> simp
@[simp] theorem State.reportPoison_sent (x1 : Nat) : (State.reportPoison s x1).sent = s.sent := by unfold State.reportPoison; (try dsimp only) <;> (repeat' split) <;> simp
@[simp] theorem State.reportPoison_fresh (x1 : Nat) : (State.reportPoison s x1).fresh = s.fresh := by unfold State.reportPoison; (try dsimp only) <;> (repeat' split) <;> simp
@[simp] theorem State.reportPoison_pending (x1 : Nat) : (State.reportPoison s x1).pending = s.pending := by unfold State.reportPoison; (try dsimp only) <;> (repeat' split) <;> simp
@[simp] theorem State.onGroup_tb (x1 : Nat) (x2 : GroupRt → GroupRt) : (State.onGroup s x1 x2).tb = s.tb := by unfold State.onGroup; (try dsimp only) <;> (repeat' split) <;> simp
@[simp] theorem State.onGroup_pins (x1 : Nat) (x2 : GroupRt → GroupRt) : (State.onGroup s x1 x2).pins = s.pins := by unfold State.onGroup; (try dsimp only) <;> (repeat' split) <;> simp
@[simp] theorem State.onGroup_fc (x1 : Nat) (x2 : GroupRt → GroupRt) : (State.onGroup s x1 x2).fc = s.fc := by unfold State.onGroup; (try dsimp only) <;> (repeat' split) <;> simp
@[simp] theorem State.onGroup_isl (x1 : Nat) (x2 : GroupRt → GroupRt) : (State.onGroup s x1 x2).isl = s.isl := by unfold State.onGroup; (try dsimp only) <;> (repeat' split) <;> simp
@[simp] theorem State.onGroup_flash (x1 : Nat) (x2 : GroupRt → GroupRt) : (State.onGroup s x1 x2).flash = s.flash := by unfold State.onGroup; (try dsimp only) <;> (repeat' split) <;> simp
@[simp] theorem State.onGroup_boot (x1 : Nat) (x2 : GroupRt → GroupRt) : (State.onGroup s x1 x2).boot = s.boot := by unfold State.onGroup; (try dsimp only) <;> (repeat' split) <;> simp
@[simp] theorem State.onGroup_sec (x1 : Nat) (x2 : GroupRt → GroupRt) : (State.onGroup s x1 x2).sec = s.sec := by unfold State.onGroup; (try dsimp only) <;> (repeat' split) <;> simp
@[simp] theorem State.onGroup_dict (x1 : Nat) (x2 : GroupRt → GroupRt) : (State.onGroup s x1 x2).dict = s.dict := by unfold State.onGroup; (try dsimp only) <;> (repeat' split) <;> simp
@[simp] theorem State.onGroup_cores (x1 : Nat) (x2 : GroupRt → GroupRt) : (State.onGroup s x1 x2).cores = s.cores := by unfold State.onGroup; (try dsimp only) <;> (repeat' split) <;> simp
@[simp] theorem State.onGroup_ctx (x1 : Nat) (x2 : GroupRt → GroupRt) : (State.onGroup s x1 x2).ctx = s.ctx := by unfold State.onGroup; (try dsimp only) <;> (repeat' split) <;> simp
@[simp] theorem State.onGroup_spring (x1 : Nat) (x2 : GroupRt → GroupRt) : (State.onGroup s x1 x2).spring = s.spring := by unfold State.onGroup; (try dsimp only) <;> (repeat' split) <;> simp
@[simp] theorem State.onGroup_radio (x1 : Nat) (x2 : GroupRt → GroupRt) : (State.onGroup s x1 x2).radio = s.radio := by unfold State.onGroup; (try dsimp only) <;> (repeat' split) <;> simp
@[simp] theorem State.onGroup_mem (x1 : Nat) (x2 : GroupRt → GroupRt) : (State.onGroup s x1 x2).mem = s.mem := by unfold State.onGroup; (try dsimp only) <;> (repeat' split) <;> simp
@[simp] theorem State.onGroup_fab (x1 : Nat) (x2 : GroupRt → GroupRt) : (State.onGroup s x1 x2).fab = s.fab := by unfold State.onGroup; (try dsimp only) <;> (repeat' split) <;> simp
@[simp] theorem State.onGroup_pwr (x1 : Nat) (x2 : GroupRt → GroupRt) : (State.onGroup s x1 x2).pwr = s.pwr := by unfold State.onGroup; (try dsimp only) <;> (repeat' split) <;> simp
@[simp] theorem State.onGroup_evSeq (x1 : Nat) (x2 : GroupRt → GroupRt) : (State.onGroup s x1 x2).evSeq = s.evSeq := by unfold State.onGroup; (try dsimp only) <;> (repeat' split) <;> simp
@[simp] theorem State.onGroup_events (x1 : Nat) (x2 : GroupRt → GroupRt) : (State.onGroup s x1 x2).events = s.events := by unfold State.onGroup; (try dsimp only) <;> (repeat' split) <;> simp
@[simp] theorem State.onGroup_sent (x1 : Nat) (x2 : GroupRt → GroupRt) : (State.onGroup s x1 x2).sent = s.sent := by unfold State.onGroup; (try dsimp only) <;> (repeat' split) <;> simp
@[simp] theorem State.onGroup_fresh (x1 : Nat) (x2 : GroupRt → GroupRt) : (State.onGroup s x1 x2).fresh = s.fresh := by unfold State.onGroup; (try dsimp only) <;> (repeat' split) <;> simp
@[simp] theorem State.onGroup_pending (x1 : Nat) (x2 : GroupRt → GroupRt) : (State.onGroup s x1 x2).pending = s.pending := by unfold State.onGroup; (try dsimp only) <;> (repeat' split) <;> simp
@[simp] theorem State.onWindow_tb (x1 : Nat) (x2 : Window → Window) : (State.onWindow s x1 x2).tb = s.tb := by unfold State.onWindow; (try dsimp only) <;> (repeat' split) <;> simp
@[simp] theorem State.onWindow_pins (x1 : Nat) (x2 : Window → Window) : (State.onWindow s x1 x2).pins = s.pins := by unfold State.onWindow; (try dsimp only) <;> (repeat' split) <;> simp
@[simp] theorem State.onWindow_fc (x1 : Nat) (x2 : Window → Window) : (State.onWindow s x1 x2).fc = s.fc := by unfold State.onWindow; (try dsimp only) <;> (repeat' split) <;> simp
@[simp] theorem State.onWindow_isl (x1 : Nat) (x2 : Window → Window) : (State.onWindow s x1 x2).isl = s.isl := by unfold State.onWindow; (try dsimp only) <;> (repeat' split) <;> simp
@[simp] theorem State.onWindow_flash (x1 : Nat) (x2 : Window → Window) : (State.onWindow s x1 x2).flash = s.flash := by unfold State.onWindow; (try dsimp only) <;> (repeat' split) <;> simp
@[simp] theorem State.onWindow_boot (x1 : Nat) (x2 : Window → Window) : (State.onWindow s x1 x2).boot = s.boot := by unfold State.onWindow; (try dsimp only) <;> (repeat' split) <;> simp
@[simp] theorem State.onWindow_sec (x1 : Nat) (x2 : Window → Window) : (State.onWindow s x1 x2).sec = s.sec := by unfold State.onWindow; (try dsimp only) <;> (repeat' split) <;> simp
@[simp] theorem State.onWindow_dict (x1 : Nat) (x2 : Window → Window) : (State.onWindow s x1 x2).dict = s.dict := by unfold State.onWindow; (try dsimp only) <;> (repeat' split) <;> simp
@[simp] theorem State.onWindow_cores (x1 : Nat) (x2 : Window → Window) : (State.onWindow s x1 x2).cores = s.cores := by unfold State.onWindow; (try dsimp only) <;> (repeat' split) <;> simp
@[simp] theorem State.onWindow_ctx (x1 : Nat) (x2 : Window → Window) : (State.onWindow s x1 x2).ctx = s.ctx := by unfold State.onWindow; (try dsimp only) <;> (repeat' split) <;> simp
@[simp] theorem State.onWindow_spring (x1 : Nat) (x2 : Window → Window) : (State.onWindow s x1 x2).spring = s.spring := by unfold State.onWindow; (try dsimp only) <;> (repeat' split) <;> simp
@[simp] theorem State.onWindow_radio (x1 : Nat) (x2 : Window → Window) : (State.onWindow s x1 x2).radio = s.radio := by unfold State.onWindow; (try dsimp only) <;> (repeat' split) <;> simp
@[simp] theorem State.onWindow_mem (x1 : Nat) (x2 : Window → Window) : (State.onWindow s x1 x2).mem = s.mem := by unfold State.onWindow; (try dsimp only) <;> (repeat' split) <;> simp
@[simp] theorem State.onWindow_fab (x1 : Nat) (x2 : Window → Window) : (State.onWindow s x1 x2).fab = s.fab := by unfold State.onWindow; (try dsimp only) <;> (repeat' split) <;> simp
@[simp] theorem State.onWindow_pwr (x1 : Nat) (x2 : Window → Window) : (State.onWindow s x1 x2).pwr = s.pwr := by unfold State.onWindow; (try dsimp only) <;> (repeat' split) <;> simp
@[simp] theorem State.onWindow_evSeq (x1 : Nat) (x2 : Window → Window) : (State.onWindow s x1 x2).evSeq = s.evSeq := by unfold State.onWindow; (try dsimp only) <;> (repeat' split) <;> simp
@[simp] theorem State.onWindow_events (x1 : Nat) (x2 : Window → Window) : (State.onWindow s x1 x2).events = s.events := by unfold State.onWindow; (try dsimp only) <;> (repeat' split) <;> simp
@[simp] theorem State.onWindow_sent (x1 : Nat) (x2 : Window → Window) : (State.onWindow s x1 x2).sent = s.sent := by unfold State.onWindow; (try dsimp only) <;> (repeat' split) <;> simp
@[simp] theorem State.onWindow_fresh (x1 : Nat) (x2 : Window → Window) : (State.onWindow s x1 x2).fresh = s.fresh := by unfold State.onWindow; (try dsimp only) <;> (repeat' split) <;> simp
@[simp] theorem State.onWindow_pending (x1 : Nat) (x2 : Window → Window) : (State.onWindow s x1 x2).pending = s.pending := by unfold State.onWindow; (try dsimp only) <;> (repeat' split) <;> simp
@[simp] theorem State.onCtxEntry_tb (x1 : Nat) (x2 : Ctx → Ctx) : (State.onCtxEntry s x1 x2).tb = s.tb := by unfold State.onCtxEntry; (try dsimp only) <;> (repeat' split) <;> simp
@[simp] theorem State.onCtxEntry_pins (x1 : Nat) (x2 : Ctx → Ctx) : (State.onCtxEntry s x1 x2).pins = s.pins := by unfold State.onCtxEntry; (try dsimp only) <;> (repeat' split) <;> simp
@[simp] theorem State.onCtxEntry_fc (x1 : Nat) (x2 : Ctx → Ctx) : (State.onCtxEntry s x1 x2).fc = s.fc := by unfold State.onCtxEntry; (try dsimp only) <;> (repeat' split) <;> simp
@[simp] theorem State.onCtxEntry_isl (x1 : Nat) (x2 : Ctx → Ctx) : (State.onCtxEntry s x1 x2).isl = s.isl := by unfold State.onCtxEntry; (try dsimp only) <;> (repeat' split) <;> simp
@[simp] theorem State.onCtxEntry_flash (x1 : Nat) (x2 : Ctx → Ctx) : (State.onCtxEntry s x1 x2).flash = s.flash := by unfold State.onCtxEntry; (try dsimp only) <;> (repeat' split) <;> simp
@[simp] theorem State.onCtxEntry_boot (x1 : Nat) (x2 : Ctx → Ctx) : (State.onCtxEntry s x1 x2).boot = s.boot := by unfold State.onCtxEntry; (try dsimp only) <;> (repeat' split) <;> simp
@[simp] theorem State.onCtxEntry_sec (x1 : Nat) (x2 : Ctx → Ctx) : (State.onCtxEntry s x1 x2).sec = s.sec := by unfold State.onCtxEntry; (try dsimp only) <;> (repeat' split) <;> simp
@[simp] theorem State.onCtxEntry_dict (x1 : Nat) (x2 : Ctx → Ctx) : (State.onCtxEntry s x1 x2).dict = s.dict := by unfold State.onCtxEntry; (try dsimp only) <;> (repeat' split) <;> simp
@[simp] theorem State.onCtxEntry_cores (x1 : Nat) (x2 : Ctx → Ctx) : (State.onCtxEntry s x1 x2).cores = s.cores := by unfold State.onCtxEntry; (try dsimp only) <;> (repeat' split) <;> simp
@[simp] theorem State.onCtxEntry_sched (x1 : Nat) (x2 : Ctx → Ctx) : (State.onCtxEntry s x1 x2).sched = s.sched := by unfold State.onCtxEntry; (try dsimp only) <;> (repeat' split) <;> simp
@[simp] theorem State.onCtxEntry_spring (x1 : Nat) (x2 : Ctx → Ctx) : (State.onCtxEntry s x1 x2).spring = s.spring := by unfold State.onCtxEntry; (try dsimp only) <;> (repeat' split) <;> simp
@[simp] theorem State.onCtxEntry_radio (x1 : Nat) (x2 : Ctx → Ctx) : (State.onCtxEntry s x1 x2).radio = s.radio := by unfold State.onCtxEntry; (try dsimp only) <;> (repeat' split) <;> simp
@[simp] theorem State.onCtxEntry_mem (x1 : Nat) (x2 : Ctx → Ctx) : (State.onCtxEntry s x1 x2).mem = s.mem := by unfold State.onCtxEntry; (try dsimp only) <;> (repeat' split) <;> simp
@[simp] theorem State.onCtxEntry_fab (x1 : Nat) (x2 : Ctx → Ctx) : (State.onCtxEntry s x1 x2).fab = s.fab := by unfold State.onCtxEntry; (try dsimp only) <;> (repeat' split) <;> simp
@[simp] theorem State.onCtxEntry_pwr (x1 : Nat) (x2 : Ctx → Ctx) : (State.onCtxEntry s x1 x2).pwr = s.pwr := by unfold State.onCtxEntry; (try dsimp only) <;> (repeat' split) <;> simp
@[simp] theorem State.onCtxEntry_evSeq (x1 : Nat) (x2 : Ctx → Ctx) : (State.onCtxEntry s x1 x2).evSeq = s.evSeq := by unfold State.onCtxEntry; (try dsimp only) <;> (repeat' split) <;> simp
@[simp] theorem State.onCtxEntry_events (x1 : Nat) (x2 : Ctx → Ctx) : (State.onCtxEntry s x1 x2).events = s.events := by unfold State.onCtxEntry; (try dsimp only) <;> (repeat' split) <;> simp
@[simp] theorem State.onCtxEntry_sent (x1 : Nat) (x2 : Ctx → Ctx) : (State.onCtxEntry s x1 x2).sent = s.sent := by unfold State.onCtxEntry; (try dsimp only) <;> (repeat' split) <;> simp
@[simp] theorem State.onCtxEntry_fresh (x1 : Nat) (x2 : Ctx → Ctx) : (State.onCtxEntry s x1 x2).fresh = s.fresh := by unfold State.onCtxEntry; (try dsimp only) <;> (repeat' split) <;> simp
@[simp] theorem State.onCtxEntry_pending (x1 : Nat) (x2 : Ctx → Ctx) : (State.onCtxEntry s x1 x2).pending = s.pending := by unfold State.onCtxEntry; (try dsimp only) <;> (repeat' split) <;> simp
@[simp] theorem State.resumeCore_tb (x1 : Nat) (x2 : BitVec 16) (x3 : Bytes) : (State.resumeCore s x1 x2 x3).tb = s.tb := by unfold State.resumeCore; (try dsimp only) <;> (repeat' split) <;> simp
@[simp] theorem State.resumeCore_pins (x1 : Nat) (x2 : BitVec 16) (x3 : Bytes) : (State.resumeCore s x1 x2 x3).pins = s.pins := by unfold State.resumeCore; (try dsimp only) <;> (repeat' split) <;> simp
@[simp] theorem State.resumeCore_fc (x1 : Nat) (x2 : BitVec 16) (x3 : Bytes) : (State.resumeCore s x1 x2 x3).fc = s.fc := by unfold State.resumeCore; (try dsimp only) <;> (repeat' split) <;> simp
@[simp] theorem State.resumeCore_isl (x1 : Nat) (x2 : BitVec 16) (x3 : Bytes) : (State.resumeCore s x1 x2 x3).isl = s.isl := by unfold State.resumeCore; (try dsimp only) <;> (repeat' split) <;> simp
@[simp] theorem State.resumeCore_flash (x1 : Nat) (x2 : BitVec 16) (x3 : Bytes) : (State.resumeCore s x1 x2 x3).flash = s.flash := by unfold State.resumeCore; (try dsimp only) <;> (repeat' split) <;> simp
@[simp] theorem State.resumeCore_boot (x1 : Nat) (x2 : BitVec 16) (x3 : Bytes) : (State.resumeCore s x1 x2 x3).boot = s.boot := by unfold State.resumeCore; (try dsimp only) <;> (repeat' split) <;> simp
@[simp] theorem State.resumeCore_sec (x1 : Nat) (x2 : BitVec 16) (x3 : Bytes) : (State.resumeCore s x1 x2 x3).sec = s.sec := by unfold State.resumeCore; (try dsimp only) <;> (repeat' split) <;> simp
@[simp] theorem State.resumeCore_dict (x1 : Nat) (x2 : BitVec 16) (x3 : Bytes) : (State.resumeCore s x1 x2 x3).dict = s.dict := by unfold State.resumeCore; (try dsimp only) <;> (repeat' split) <;> simp
@[simp] theorem State.resumeCore_ctx (x1 : Nat) (x2 : BitVec 16) (x3 : Bytes) : (State.resumeCore s x1 x2 x3).ctx = s.ctx := by unfold State.resumeCore; (try dsimp only) <;> (repeat' split) <;> simp
@[simp] theorem State.resumeCore_spring (x1 : Nat) (x2 : BitVec 16) (x3 : Bytes) : (State.resumeCore s x1 x2 x3).spring = s.spring := by unfold State.resumeCore; (try dsimp only) <;> (repeat' split) <;> simp
@[simp] theorem State.resumeCore_radio (x1 : Nat) (x2 : BitVec 16) (x3 : Bytes) : (State.resumeCore s x1 x2 x3).radio = s.radio := by unfold State.resumeCore; (try dsimp only) <;> (repeat' split) <;> simp
@[simp] theorem State.resumeCore_mem (x1 : Nat) (x2 : BitVec 16) (x3 : Bytes) : (State.resumeCore s x1 x2 x3).mem = s.mem := by unfold State.resumeCore; (try dsimp only) <;> (repeat' split) <;> simp
@[simp] theorem State.resumeCore_fab (x1 : Nat) (x2 : BitVec 16) (x3 : Bytes) : (State.resumeCore s x1 x2 x3).fab = s.fab := by unfold State.resumeCore; (try dsimp only) <;> (repeat' split) <;> simp
@[simp] theorem State.resumeCore_pwr (x1 : Nat) (x2 : BitVec 16) (x3 : Bytes) : (State.resumeCore s x1 x2 x3).pwr = s.pwr := by unfold State.resumeCore; (try dsimp only) <;> (repeat' split) <;> simp
@[simp] theorem State.resumeCore_evSeq (x1 : Nat) (x2 : BitVec 16) (x3 : Bytes) : (State.resumeCore s x1 x2 x3).evSeq = s.evSeq := by unfold State.resumeCore; (try dsimp only) <;> (repeat' split) <;> simp
@[simp] theorem State.resumeCore_events (x1 : Nat) (x2 : BitVec 16) (x3 : Bytes) : (State.resumeCore s x1 x2 x3).events = s.events := by unfold State.resumeCore; (try dsimp only) <;> (repeat' split) <;> simp
@[simp] theorem State.resumeCore_sent (x1 : Nat) (x2 : BitVec 16) (x3 : Bytes) : (State.resumeCore s x1 x2 x3).sent = s.sent := by unfold State.resumeCore; (try dsimp only) <;> (repeat' split) <;> simp
@[simp] theorem State.resumeCore_fresh (x1 : Nat) (x2 : BitVec 16) (x3 : Bytes) : (State.resumeCore s x1 x2 x3).fresh = s.fresh := by unfold State.resumeCore; (try dsimp only) <;> (repeat' split) <;> simp
@[simp] theorem State.resumeCore_pending (x1 : Nat) (x2 : BitVec 16) (x3 : Bytes) : (State.resumeCore s x1 x2 x3).pending = s.pending := by unfold State.resumeCore; (try dsimp only) <;> (repeat' split) <;> simp
@[simp] theorem State.discardSaved_tb (x1 : Nat) (x2 : BitVec 16) : (State.discardSaved s x1 x2).tb = s.tb := by unfold State.discardSaved; (try dsimp only) <;> (repeat' split) <;> simp
@[simp] theorem State.discardSaved_pins (x1 : Nat) (x2 : BitVec 16) : (State.discardSaved s x1 x2).pins = s.pins := by unfold State.discardSaved; (try dsimp only) <;> (repeat' split) <;> simp
@[simp] theorem State.discardSaved_fc (x1 : Nat) (x2 : BitVec 16) : (State.discardSaved s x1 x2).fc = s.fc := by unfold State.discardSaved; (try dsimp only) <;> (repeat' split) <;> simp
@[simp] theorem State.discardSaved_isl (x1 : Nat) (x2 : BitVec 16) : (State.discardSaved s x1 x2).isl = s.isl := by unfold State.discardSaved; (try dsimp only) <;> (repeat' split) <;> simp
@[simp] theorem State.discardSaved_flash (x1 : Nat) (x2 : BitVec 16) : (State.discardSaved s x1 x2).flash = s.flash := by unfold State.discardSaved; (try dsimp only) <;> (repeat' split) <;> simp
@[simp] theorem State.discardSaved_boot (x1 : Nat) (x2 : BitVec 16) : (State.discardSaved s x1 x2).boot = s.boot := by unfold State.discardSaved; (try dsimp only) <;> (repeat' split) <;> simp
@[simp] theorem State.discardSaved_sec (x1 : Nat) (x2 : BitVec 16) : (State.discardSaved s x1 x2).sec = s.sec := by unfold State.discardSaved; (try dsimp only) <;> (repeat' split) <;> simp
@[simp] theorem State.discardSaved_dict (x1 : Nat) (x2 : BitVec 16) : (State.discardSaved s x1 x2).dict = s.dict := by unfold State.discardSaved; (try dsimp only) <;> (repeat' split) <;> simp
@[simp] theorem State.discardSaved_sched (x1 : Nat) (x2 : BitVec 16) : (State.discardSaved s x1 x2).sched = s.sched := by unfold State.discardSaved; (try dsimp only) <;> (repeat' split) <;> simp
@[simp] theorem State.discardSaved_ctx (x1 : Nat) (x2 : BitVec 16) : (State.discardSaved s x1 x2).ctx = s.ctx := by unfold State.discardSaved; (try dsimp only) <;> (repeat' split) <;> simp
@[simp] theorem State.discardSaved_spring (x1 : Nat) (x2 : BitVec 16) : (State.discardSaved s x1 x2).spring = s.spring := by unfold State.discardSaved; (try dsimp only) <;> (repeat' split) <;> simp
@[simp] theorem State.discardSaved_radio (x1 : Nat) (x2 : BitVec 16) : (State.discardSaved s x1 x2).radio = s.radio := by unfold State.discardSaved; (try dsimp only) <;> (repeat' split) <;> simp
@[simp] theorem State.discardSaved_mem (x1 : Nat) (x2 : BitVec 16) : (State.discardSaved s x1 x2).mem = s.mem := by unfold State.discardSaved; (try dsimp only) <;> (repeat' split) <;> simp
@[simp] theorem State.discardSaved_fab (x1 : Nat) (x2 : BitVec 16) : (State.discardSaved s x1 x2).fab = s.fab := by unfold State.discardSaved; (try dsimp only) <;> (repeat' split) <;> simp
@[simp] theorem State.discardSaved_pwr (x1 : Nat) (x2 : BitVec 16) : (State.discardSaved s x1 x2).pwr = s.pwr := by unfold State.discardSaved; (try dsimp only) <;> (repeat' split) <;> simp
@[simp] theorem State.discardSaved_evSeq (x1 : Nat) (x2 : BitVec 16) : (State.discardSaved s x1 x2).evSeq = s.evSeq := by unfold State.discardSaved; (try dsimp only) <;> (repeat' split) <;> simp
@[simp] theorem State.discardSaved_events (x1 : Nat) (x2 : BitVec 16) : (State.discardSaved s x1 x2).events = s.events := by unfold State.discardSaved; (try dsimp only) <;> (repeat' split) <;> simp
@[simp] theorem State.discardSaved_sent (x1 : Nat) (x2 : BitVec 16) : (State.discardSaved s x1 x2).sent = s.sent := by unfold State.discardSaved; (try dsimp only) <;> (repeat' split) <;> simp
@[simp] theorem State.discardSaved_fresh (x1 : Nat) (x2 : BitVec 16) : (State.discardSaved s x1 x2).fresh = s.fresh := by unfold State.discardSaved; (try dsimp only) <;> (repeat' split) <;> simp
@[simp] theorem State.discardSaved_pending (x1 : Nat) (x2 : BitVec 16) : (State.discardSaved s x1 x2).pending = s.pending := by unfold State.discardSaved; (try dsimp only) <;> (repeat' split) <;> simp
@[simp] theorem State.preemptCore_tb (x1 : Nat) : (State.preemptCore s x1).tb = s.tb := by unfold State.preemptCore; (try dsimp only) <;> (repeat' split) <;> simp
@[simp] theorem State.preemptCore_pins (x1 : Nat) : (State.preemptCore s x1).pins = s.pins := by unfold State.preemptCore; (try dsimp only) <;> (repeat' split) <;> simp
@[simp] theorem State.preemptCore_fc (x1 : Nat) : (State.preemptCore s x1).fc = s.fc := by unfold State.preemptCore; (try dsimp only) <;> (repeat' split) <;> simp
@[simp] theorem State.preemptCore_isl (x1 : Nat) : (State.preemptCore s x1).isl = s.isl := by unfold State.preemptCore; (try dsimp only) <;> (repeat' split) <;> simp
@[simp] theorem State.preemptCore_flash (x1 : Nat) : (State.preemptCore s x1).flash = s.flash := by unfold State.preemptCore; (try dsimp only) <;> (repeat' split) <;> simp
@[simp] theorem State.preemptCore_boot (x1 : Nat) : (State.preemptCore s x1).boot = s.boot := by unfold State.preemptCore; (try dsimp only) <;> (repeat' split) <;> simp
@[simp] theorem State.preemptCore_sec (x1 : Nat) : (State.preemptCore s x1).sec = s.sec := by unfold State.preemptCore; (try dsimp only) <;> (repeat' split) <;> simp
@[simp] theorem State.preemptCore_dict (x1 : Nat) : (State.preemptCore s x1).dict = s.dict := by unfold State.preemptCore; (try dsimp only) <;> (repeat' split) <;> simp
@[simp] theorem State.preemptCore_sched (x1 : Nat) : (State.preemptCore s x1).sched = s.sched := by unfold State.preemptCore; (try dsimp only) <;> (repeat' split) <;> simp
@[simp] theorem State.preemptCore_ctx (x1 : Nat) : (State.preemptCore s x1).ctx = s.ctx := by unfold State.preemptCore; (try dsimp only) <;> (repeat' split) <;> simp
@[simp] theorem State.preemptCore_spring (x1 : Nat) : (State.preemptCore s x1).spring = s.spring := by unfold State.preemptCore; (try dsimp only) <;> (repeat' split) <;> simp
@[simp] theorem State.preemptCore_radio (x1 : Nat) : (State.preemptCore s x1).radio = s.radio := by unfold State.preemptCore; (try dsimp only) <;> (repeat' split) <;> simp
@[simp] theorem State.preemptCore_mem (x1 : Nat) : (State.preemptCore s x1).mem = s.mem := by unfold State.preemptCore; (try dsimp only) <;> (repeat' split) <;> simp
@[simp] theorem State.preemptCore_fab (x1 : Nat) : (State.preemptCore s x1).fab = s.fab := by unfold State.preemptCore; (try dsimp only) <;> (repeat' split) <;> simp
@[simp] theorem State.preemptCore_pwr (x1 : Nat) : (State.preemptCore s x1).pwr = s.pwr := by unfold State.preemptCore; (try dsimp only) <;> (repeat' split) <;> simp
@[simp] theorem State.preemptCore_evSeq (x1 : Nat) : (State.preemptCore s x1).evSeq = s.evSeq := by unfold State.preemptCore; (try dsimp only) <;> (repeat' split) <;> simp
@[simp] theorem State.preemptCore_events (x1 : Nat) : (State.preemptCore s x1).events = s.events := by unfold State.preemptCore; (try dsimp only) <;> (repeat' split) <;> simp
@[simp] theorem State.preemptCore_sent (x1 : Nat) : (State.preemptCore s x1).sent = s.sent := by unfold State.preemptCore; (try dsimp only) <;> (repeat' split) <;> simp
@[simp] theorem State.preemptCore_fresh (x1 : Nat) : (State.preemptCore s x1).fresh = s.fresh := by unfold State.preemptCore; (try dsimp only) <;> (repeat' split) <;> simp
@[simp] theorem State.preemptCore_pending (x1 : Nat) : (State.preemptCore s x1).pending = s.pending := by unfold State.preemptCore; (try dsimp only) <;> (repeat' split) <;> simp
@[simp] theorem State.writeAct_tb (x1 : ActRecord → ActRecord) : (State.writeAct s x1).tb = s.tb := by unfold State.writeAct; (try dsimp only) <;> (repeat' split) <;> simp
@[simp] theorem State.writeAct_pins (x1 : ActRecord → ActRecord) : (State.writeAct s x1).pins = s.pins := by unfold State.writeAct; (try dsimp only) <;> (repeat' split) <;> simp
@[simp] theorem State.writeAct_fc (x1 : ActRecord → ActRecord) : (State.writeAct s x1).fc = s.fc := by unfold State.writeAct; (try dsimp only) <;> (repeat' split) <;> simp
@[simp] theorem State.writeAct_isl (x1 : ActRecord → ActRecord) : (State.writeAct s x1).isl = s.isl := by unfold State.writeAct; (try dsimp only) <;> (repeat' split) <;> simp
@[simp] theorem State.writeAct_boot (x1 : ActRecord → ActRecord) : (State.writeAct s x1).boot = s.boot := by unfold State.writeAct; (try dsimp only) <;> (repeat' split) <;> simp
@[simp] theorem State.writeAct_sec (x1 : ActRecord → ActRecord) : (State.writeAct s x1).sec = s.sec := by unfold State.writeAct; (try dsimp only) <;> (repeat' split) <;> simp
@[simp] theorem State.writeAct_dict (x1 : ActRecord → ActRecord) : (State.writeAct s x1).dict = s.dict := by unfold State.writeAct; (try dsimp only) <;> (repeat' split) <;> simp
@[simp] theorem State.writeAct_cores (x1 : ActRecord → ActRecord) : (State.writeAct s x1).cores = s.cores := by unfold State.writeAct; (try dsimp only) <;> (repeat' split) <;> simp
@[simp] theorem State.writeAct_sched (x1 : ActRecord → ActRecord) : (State.writeAct s x1).sched = s.sched := by unfold State.writeAct; (try dsimp only) <;> (repeat' split) <;> simp
@[simp] theorem State.writeAct_ctx (x1 : ActRecord → ActRecord) : (State.writeAct s x1).ctx = s.ctx := by unfold State.writeAct; (try dsimp only) <;> (repeat' split) <;> simp
@[simp] theorem State.writeAct_spring (x1 : ActRecord → ActRecord) : (State.writeAct s x1).spring = s.spring := by unfold State.writeAct; (try dsimp only) <;> (repeat' split) <;> simp
@[simp] theorem State.writeAct_radio (x1 : ActRecord → ActRecord) : (State.writeAct s x1).radio = s.radio := by unfold State.writeAct; (try dsimp only) <;> (repeat' split) <;> simp
@[simp] theorem State.writeAct_mem (x1 : ActRecord → ActRecord) : (State.writeAct s x1).mem = s.mem := by unfold State.writeAct; (try dsimp only) <;> (repeat' split) <;> simp
@[simp] theorem State.writeAct_fab (x1 : ActRecord → ActRecord) : (State.writeAct s x1).fab = s.fab := by unfold State.writeAct; (try dsimp only) <;> (repeat' split) <;> simp
@[simp] theorem State.writeAct_pwr (x1 : ActRecord → ActRecord) : (State.writeAct s x1).pwr = s.pwr := by unfold State.writeAct; (try dsimp only) <;> (repeat' split) <;> simp
@[simp] theorem State.writeAct_evSeq (x1 : ActRecord → ActRecord) : (State.writeAct s x1).evSeq = s.evSeq := by unfold State.writeAct; (try dsimp only) <;> (repeat' split) <;> simp
@[simp] theorem State.writeAct_events (x1 : ActRecord → ActRecord) : (State.writeAct s x1).events = s.events := by unfold State.writeAct; (try dsimp only) <;> (repeat' split) <;> simp
@[simp] theorem State.writeAct_sent (x1 : ActRecord → ActRecord) : (State.writeAct s x1).sent = s.sent := by unfold State.writeAct; (try dsimp only) <;> (repeat' split) <;> simp
@[simp] theorem State.writeAct_fresh (x1 : ActRecord → ActRecord) : (State.writeAct s x1).fresh = s.fresh := by unfold State.writeAct; (try dsimp only) <;> (repeat' split) <;> simp
@[simp] theorem State.writeAct_pending (x1 : ActRecord → ActRecord) : (State.writeAct s x1).pending = s.pending := by unfold State.writeAct; (try dsimp only) <;> (repeat' split) <;> simp
@[simp] theorem State.resetDomains_isl (x1 : Nat) : (State.resetDomains s x1).isl = s.isl := by unfold State.resetDomains; (try dsimp only) <;> (repeat' split) <;> simp
@[simp] theorem State.resetDomains_flash (x1 : Nat) : (State.resetDomains s x1).flash = s.flash := by unfold State.resetDomains; (try dsimp only) <;> (repeat' split) <;> simp
@[simp] theorem State.resetDomains_events (x1 : Nat) : (State.resetDomains s x1).events = s.events := by unfold State.resetDomains; (try dsimp only) <;> (repeat' split) <;> simp
@[simp] theorem State.resetDomains_sent (x1 : Nat) : (State.resetDomains s x1).sent = s.sent := by unfold State.resetDomains; (try dsimp only) <;> (repeat' split) <;> simp
@[simp] theorem State.resetDomains_fresh (x1 : Nat) : (State.resetDomains s x1).fresh = s.fresh := by unfold State.resetDomains; (try dsimp only) <;> (repeat' split) <;> simp
@[simp] theorem State.resetDomains_pending (x1 : Nat) : (State.resetDomains s x1).pending = s.pending := by unfold State.resetDomains; (try dsimp only) <;> (repeat' split) <;> simp
@[simp] theorem State.toRecovery_tb  : (State.toRecovery s).tb = s.tb := by unfold State.toRecovery; (try dsimp only) <;> (repeat' split) <;> simp
@[simp] theorem State.toRecovery_pins  : (State.toRecovery s).pins = s.pins := by unfold State.toRecovery; (try dsimp only) <;> (repeat' split) <;> simp
@[simp] theorem State.toRecovery_fc  : (State.toRecovery s).fc = s.fc := by unfold State.toRecovery; (try dsimp only) <;> (repeat' split) <;> simp
@[simp] theorem State.toRecovery_isl  : (State.toRecovery s).isl = s.isl := by unfold State.toRecovery; (try dsimp only) <;> (repeat' split) <;> simp
@[simp] theorem State.toRecovery_flash  : (State.toRecovery s).flash = s.flash := by unfold State.toRecovery; (try dsimp only) <;> (repeat' split) <;> simp
@[simp] theorem State.toRecovery_sec  : (State.toRecovery s).sec = s.sec := by unfold State.toRecovery; (try dsimp only) <;> (repeat' split) <;> simp
@[simp] theorem State.toRecovery_cores  : (State.toRecovery s).cores = s.cores := by unfold State.toRecovery; (try dsimp only) <;> (repeat' split) <;> simp
@[simp] theorem State.toRecovery_sched  : (State.toRecovery s).sched = s.sched := by unfold State.toRecovery; (try dsimp only) <;> (repeat' split) <;> simp
@[simp] theorem State.toRecovery_ctx  : (State.toRecovery s).ctx = s.ctx := by unfold State.toRecovery; (try dsimp only) <;> (repeat' split) <;> simp
@[simp] theorem State.toRecovery_spring  : (State.toRecovery s).spring = s.spring := by unfold State.toRecovery; (try dsimp only) <;> (repeat' split) <;> simp
@[simp] theorem State.toRecovery_radio  : (State.toRecovery s).radio = s.radio := by unfold State.toRecovery; (try dsimp only) <;> (repeat' split) <;> simp
@[simp] theorem State.toRecovery_mem  : (State.toRecovery s).mem = s.mem := by unfold State.toRecovery; (try dsimp only) <;> (repeat' split) <;> simp
@[simp] theorem State.toRecovery_fab  : (State.toRecovery s).fab = s.fab := by unfold State.toRecovery; (try dsimp only) <;> (repeat' split) <;> simp
@[simp] theorem State.toRecovery_pwr  : (State.toRecovery s).pwr = s.pwr := by unfold State.toRecovery; (try dsimp only) <;> (repeat' split) <;> simp
@[simp] theorem State.toRecovery_evSeq  : (State.toRecovery s).evSeq = s.evSeq := by unfold State.toRecovery; (try dsimp only) <;> (repeat' split) <;> simp
@[simp] theorem State.toRecovery_events  : (State.toRecovery s).events = s.events := by unfold State.toRecovery; (try dsimp only) <;> (repeat' split) <;> simp
@[simp] theorem State.toRecovery_sent  : (State.toRecovery s).sent = s.sent := by unfold State.toRecovery; (try dsimp only) <;> (repeat' split) <;> simp
@[simp] theorem State.toRecovery_fresh  : (State.toRecovery s).fresh = s.fresh := by unfold State.toRecovery; (try dsimp only) <;> (repeat' split) <;> simp
@[simp] theorem State.toRecovery_pending  : (State.toRecovery s).pending = s.pending := by unfold State.toRecovery; (try dsimp only) <;> (repeat' split) <;> simp
@[simp] theorem State.beginBoot_tb (x1 : BitVec 3) (x2 : BitVec 3) : (State.beginBoot s x1 x2).tb = s.tb := by unfold State.beginBoot; (try dsimp only) <;> (repeat' split) <;> simp
@[simp] theorem State.beginBoot_pins (x1 : BitVec 3) (x2 : BitVec 3) : (State.beginBoot s x1 x2).pins = s.pins := by unfold State.beginBoot; (try dsimp only) <;> (repeat' split) <;> simp
@[simp] theorem State.beginBoot_sec (x1 : BitVec 3) (x2 : BitVec 3) : (State.beginBoot s x1 x2).sec = s.sec := by unfold State.beginBoot; (try dsimp only) <;> (repeat' split) <;> simp
@[simp] theorem State.beginBoot_ctx (x1 : BitVec 3) (x2 : BitVec 3) : (State.beginBoot s x1 x2).ctx = s.ctx := by unfold State.beginBoot; (try dsimp only) <;> (repeat' split) <;> simp
@[simp] theorem State.beginBoot_mem (x1 : BitVec 3) (x2 : BitVec 3) : (State.beginBoot s x1 x2).mem = s.mem := by unfold State.beginBoot; (try dsimp only) <;> (repeat' split) <;> simp
@[simp] theorem State.beginBoot_pwr (x1 : BitVec 3) (x2 : BitVec 3) : (State.beginBoot s x1 x2).pwr = s.pwr := by unfold State.beginBoot; (try dsimp only) <;> (repeat' split) <;> simp
@[simp] theorem State.beginBoot_events (x1 : BitVec 3) (x2 : BitVec 3) : (State.beginBoot s x1 x2).events = s.events := by unfold State.beginBoot; (try dsimp only) <;> (repeat' split) <;> simp
@[simp] theorem State.beginBoot_sent (x1 : BitVec 3) (x2 : BitVec 3) : (State.beginBoot s x1 x2).sent = s.sent := by unfold State.beginBoot; (try dsimp only) <;> (repeat' split) <;> simp
@[simp] theorem State.beginBoot_fresh (x1 : BitVec 3) (x2 : BitVec 3) : (State.beginBoot s x1 x2).fresh = s.fresh := by unfold State.beginBoot; (try dsimp only) <;> (repeat' split) <;> simp
@[simp] theorem State.beginBoot_pending (x1 : BitVec 3) (x2 : BitVec 3) : (State.beginBoot s x1 x2).pending = s.pending := by unfold State.beginBoot; (try dsimp only) <;> (repeat' split) <;> simp
@[simp] theorem State.warmReset_events  : (State.warmReset s).events = s.events := by unfold State.warmReset; (try dsimp only) <;> (repeat' split) <;> simp
@[simp] theorem State.warmReset_sent  : (State.warmReset s).sent = s.sent := by unfold State.warmReset; (try dsimp only) <;> (repeat' split) <;> simp
@[simp] theorem State.warmReset_fresh  : (State.warmReset s).fresh = s.fresh := by unfold State.warmReset; (try dsimp only) <;> (repeat' split) <;> simp
@[simp] theorem State.warmReset_pending  : (State.warmReset s).pending = s.pending := by unfold State.warmReset; (try dsimp only) <;> (repeat' split) <;> simp
@[simp] theorem State.setLock_pins (x1 : LockState) : (State.setLock s x1).pins = s.pins := by unfold State.setLock; (try dsimp only) <;> (repeat' split) <;> simp
@[simp] theorem State.setLock_fc (x1 : LockState) : (State.setLock s x1).fc = s.fc := by unfold State.setLock; (try dsimp only) <;> (repeat' split) <;> simp
@[simp] theorem State.setLock_isl (x1 : LockState) : (State.setLock s x1).isl = s.isl := by unfold State.setLock; (try dsimp only) <;> (repeat' split) <;> simp
@[simp] theorem State.setLock_flash (x1 : LockState) : (State.setLock s x1).flash = s.flash := by unfold State.setLock; (try dsimp only) <;> (repeat' split) <;> simp
@[simp] theorem State.setLock_boot (x1 : LockState) : (State.setLock s x1).boot = s.boot := by unfold State.setLock; (try dsimp only) <;> (repeat' split) <;> simp
@[simp] theorem State.setLock_sec (x1 : LockState) : (State.setLock s x1).sec = s.sec := by unfold State.setLock; (try dsimp only) <;> (repeat' split) <;> simp
@[simp] theorem State.setLock_dict (x1 : LockState) : (State.setLock s x1).dict = s.dict := by unfold State.setLock; (try dsimp only) <;> (repeat' split) <;> simp
@[simp] theorem State.setLock_cores (x1 : LockState) : (State.setLock s x1).cores = s.cores := by unfold State.setLock; (try dsimp only) <;> (repeat' split) <;> simp
@[simp] theorem State.setLock_sched (x1 : LockState) : (State.setLock s x1).sched = s.sched := by unfold State.setLock; (try dsimp only) <;> (repeat' split) <;> simp
@[simp] theorem State.setLock_ctx (x1 : LockState) : (State.setLock s x1).ctx = s.ctx := by unfold State.setLock; (try dsimp only) <;> (repeat' split) <;> simp
@[simp] theorem State.setLock_spring (x1 : LockState) : (State.setLock s x1).spring = s.spring := by unfold State.setLock; (try dsimp only) <;> (repeat' split) <;> simp
@[simp] theorem State.setLock_radio (x1 : LockState) : (State.setLock s x1).radio = s.radio := by unfold State.setLock; (try dsimp only) <;> (repeat' split) <;> simp
@[simp] theorem State.setLock_mem (x1 : LockState) : (State.setLock s x1).mem = s.mem := by unfold State.setLock; (try dsimp only) <;> (repeat' split) <;> simp
@[simp] theorem State.setLock_fab (x1 : LockState) : (State.setLock s x1).fab = s.fab := by unfold State.setLock; (try dsimp only) <;> (repeat' split) <;> simp
@[simp] theorem State.setLock_pwr (x1 : LockState) : (State.setLock s x1).pwr = s.pwr := by unfold State.setLock; (try dsimp only) <;> (repeat' split) <;> simp
@[simp] theorem State.setLock_sent (x1 : LockState) : (State.setLock s x1).sent = s.sent := by unfold State.setLock; (try dsimp only) <;> (repeat' split) <;> simp
@[simp] theorem State.setLock_fresh (x1 : LockState) : (State.setLock s x1).fresh = s.fresh := by unfold State.setLock; (try dsimp only) <;> (repeat' split) <;> simp
@[simp] theorem State.setLock_pending (x1 : LockState) : (State.setLock s x1).pending = s.pending := by unfold State.setLock; (try dsimp only) <;> (repeat' split) <;> simp
@[simp] theorem State.summary_tb (x1 : Viol) : (State.summary s x1).tb = s.tb := by unfold State.summary; (try dsimp only) <;> (repeat' split) <;> simp
@[simp] theorem State.summary_pins (x1 : Viol) : (State.summary s x1).pins = s.pins := by unfold State.summary; (try dsimp only) <;> (repeat' split) <;> simp
@[simp] theorem State.summary_fc (x1 : Viol) : (State.summary s x1).fc = s.fc := by unfold State.summary; (try dsimp only) <;> (repeat' split) <;> simp
@[simp] theorem State.summary_isl (x1 : Viol) : (State.summary s x1).isl = s.isl := by unfold State.summary; (try dsimp only) <;> (repeat' split) <;> simp
@[simp] theorem State.summary_flash (x1 : Viol) : (State.summary s x1).flash = s.flash := by unfold State.summary; (try dsimp only) <;> (repeat' split) <;> simp
@[simp] theorem State.summary_boot (x1 : Viol) : (State.summary s x1).boot = s.boot := by unfold State.summary; (try dsimp only) <;> (repeat' split) <;> simp
@[simp] theorem State.summary_sec (x1 : Viol) : (State.summary s x1).sec = s.sec := by unfold State.summary; (try dsimp only) <;> (repeat' split) <;> simp
@[simp] theorem State.summary_cores (x1 : Viol) : (State.summary s x1).cores = s.cores := by unfold State.summary; (try dsimp only) <;> (repeat' split) <;> simp
@[simp] theorem State.summary_sched (x1 : Viol) : (State.summary s x1).sched = s.sched := by unfold State.summary; (try dsimp only) <;> (repeat' split) <;> simp
@[simp] theorem State.summary_ctx (x1 : Viol) : (State.summary s x1).ctx = s.ctx := by unfold State.summary; (try dsimp only) <;> (repeat' split) <;> simp
@[simp] theorem State.summary_spring (x1 : Viol) : (State.summary s x1).spring = s.spring := by unfold State.summary; (try dsimp only) <;> (repeat' split) <;> simp
@[simp] theorem State.summary_radio (x1 : Viol) : (State.summary s x1).radio = s.radio := by unfold State.summary; (try dsimp only) <;> (repeat' split) <;> simp
@[simp] theorem State.summary_mem (x1 : Viol) : (State.summary s x1).mem = s.mem := by unfold State.summary; (try dsimp only) <;> (repeat' split) <;> simp
@[simp] theorem State.summary_fab (x1 : Viol) : (State.summary s x1).fab = s.fab := by unfold State.summary; (try dsimp only) <;> (repeat' split) <;> simp
@[simp] theorem State.summary_pwr (x1 : Viol) : (State.summary s x1).pwr = s.pwr := by unfold State.summary; (try dsimp only) <;> (repeat' split) <;> simp
@[simp] theorem State.summary_evSeq (x1 : Viol) : (State.summary s x1).evSeq = s.evSeq := by unfold State.summary; (try dsimp only) <;> (repeat' split) <;> simp
@[simp] theorem State.summary_events (x1 : Viol) : (State.summary s x1).events = s.events := by unfold State.summary; (try dsimp only) <;> (repeat' split) <;> simp
@[simp] theorem State.summary_sent (x1 : Viol) : (State.summary s x1).sent = s.sent := by unfold State.summary; (try dsimp only) <;> (repeat' split) <;> simp
@[simp] theorem State.summary_fresh (x1 : Viol) : (State.summary s x1).fresh = s.fresh := by unfold State.summary; (try dsimp only) <;> (repeat' split) <;> simp
@[simp] theorem State.summary_pending (x1 : Viol) : (State.summary s x1).pending = s.pending := by unfold State.summary; (try dsimp only) <;> (repeat' split) <;> simp
@[simp] theorem State.violSummary_tb (x0 : Nat) (x2 : Viol) : (State.violSummary x0 s x2).tb = s.tb := by unfold State.violSummary; (try dsimp only) <;> (repeat' split) <;> simp
@[simp] theorem State.violSummary_pins (x0 : Nat) (x2 : Viol) : (State.violSummary x0 s x2).pins = s.pins := by unfold State.violSummary; (try dsimp only) <;> (repeat' split) <;> simp
@[simp] theorem State.violSummary_fc (x0 : Nat) (x2 : Viol) : (State.violSummary x0 s x2).fc = s.fc := by unfold State.violSummary; (try dsimp only) <;> (repeat' split) <;> simp
@[simp] theorem State.violSummary_isl (x0 : Nat) (x2 : Viol) : (State.violSummary x0 s x2).isl = s.isl := by unfold State.violSummary; (try dsimp only) <;> (repeat' split) <;> simp
@[simp] theorem State.violSummary_flash (x0 : Nat) (x2 : Viol) : (State.violSummary x0 s x2).flash = s.flash := by unfold State.violSummary; (try dsimp only) <;> (repeat' split) <;> simp
@[simp] theorem State.violSummary_boot (x0 : Nat) (x2 : Viol) : (State.violSummary x0 s x2).boot = s.boot := by unfold State.violSummary; (try dsimp only) <;> (repeat' split) <;> simp
@[simp] theorem State.violSummary_sec (x0 : Nat) (x2 : Viol) : (State.violSummary x0 s x2).sec = s.sec := by unfold State.violSummary; (try dsimp only) <;> (repeat' split) <;> simp
@[simp] theorem State.violSummary_dict (x0 : Nat) (x2 : Viol) : (State.violSummary x0 s x2).dict = s.dict := by unfold State.violSummary; (try dsimp only) <;> (repeat' split) <;> simp
@[simp] theorem State.violSummary_cores (x0 : Nat) (x2 : Viol) : (State.violSummary x0 s x2).cores = s.cores := by unfold State.violSummary; (try dsimp only) <;> (repeat' split) <;> simp
@[simp] theorem State.violSummary_sched (x0 : Nat) (x2 : Viol) : (State.violSummary x0 s x2).sched = s.sched := by unfold State.violSummary; (try dsimp only) <;> (repeat' split) <;> simp
@[simp] theorem State.violSummary_ctx (x0 : Nat) (x2 : Viol) : (State.violSummary x0 s x2).ctx = s.ctx := by unfold State.violSummary; (try dsimp only) <;> (repeat' split) <;> simp
@[simp] theorem State.violSummary_spring (x0 : Nat) (x2 : Viol) : (State.violSummary x0 s x2).spring = s.spring := by unfold State.violSummary; (try dsimp only) <;> (repeat' split) <;> simp
@[simp] theorem State.violSummary_radio (x0 : Nat) (x2 : Viol) : (State.violSummary x0 s x2).radio = s.radio := by unfold State.violSummary; (try dsimp only) <;> (repeat' split) <;> simp
@[simp] theorem State.violSummary_mem (x0 : Nat) (x2 : Viol) : (State.violSummary x0 s x2).mem = s.mem := by unfold State.violSummary; (try dsimp only) <;> (repeat' split) <;> simp
@[simp] theorem State.violSummary_fab (x0 : Nat) (x2 : Viol) : (State.violSummary x0 s x2).fab = s.fab := by unfold State.violSummary; (try dsimp only) <;> (repeat' split) <;> simp
@[simp] theorem State.violSummary_pwr (x0 : Nat) (x2 : Viol) : (State.violSummary x0 s x2).pwr = s.pwr := by unfold State.violSummary; (try dsimp only) <;> (repeat' split) <;> simp
@[simp] theorem State.violSummary_sent (x0 : Nat) (x2 : Viol) : (State.violSummary x0 s x2).sent = s.sent := by unfold State.violSummary; (try dsimp only) <;> (repeat' split) <;> simp
@[simp] theorem State.violSummary_fresh (x0 : Nat) (x2 : Viol) : (State.violSummary x0 s x2).fresh = s.fresh := by unfold State.violSummary; (try dsimp only) <;> (repeat' split) <;> simp
@[simp] theorem State.violSummary_pending (x0 : Nat) (x2 : Viol) : (State.violSummary x0 s x2).pending = s.pending := by unfold State.violSummary; (try dsimp only) <;> (repeat' split) <;> simp
@[simp] theorem State.endViolSeconds_tb (x1 : Nat) : (State.endViolSeconds s x1).tb = s.tb := by unfold State.endViolSeconds; (try dsimp only) <;> (repeat' split) <;> simp
@[simp] theorem State.endViolSeconds_pins (x1 : Nat) : (State.endViolSeconds s x1).pins = s.pins := by unfold State.endViolSeconds; (try dsimp only) <;> (repeat' split) <;> simp
@[simp] theorem State.endViolSeconds_fc (x1 : Nat) : (State.endViolSeconds s x1).fc = s.fc := by unfold State.endViolSeconds; (try dsimp only) <;> (repeat' split) <;> simp
@[simp] theorem State.endViolSeconds_isl (x1 : Nat) : (State.endViolSeconds s x1).isl = s.isl := by unfold State.endViolSeconds; (try dsimp only) <;> (repeat' split) <;> simp
@[simp] theorem State.endViolSeconds_flash (x1 : Nat) : (State.endViolSeconds s x1).flash = s.flash := by unfold State.endViolSeconds; (try dsimp only) <;> (repeat' split) <;> simp
@[simp] theorem State.endViolSeconds_boot (x1 : Nat) : (State.endViolSeconds s x1).boot = s.boot := by unfold State.endViolSeconds; (try dsimp only) <;> (repeat' split) <;> simp
@[simp] theorem State.endViolSeconds_sec (x1 : Nat) : (State.endViolSeconds s x1).sec = s.sec := by unfold State.endViolSeconds; (try dsimp only) <;> (repeat' split) <;> simp
@[simp] theorem State.endViolSeconds_cores (x1 : Nat) : (State.endViolSeconds s x1).cores = s.cores := by unfold State.endViolSeconds; (try dsimp only) <;> (repeat' split) <;> simp
@[simp] theorem State.endViolSeconds_sched (x1 : Nat) : (State.endViolSeconds s x1).sched = s.sched := by unfold State.endViolSeconds; (try dsimp only) <;> (repeat' split) <;> simp
@[simp] theorem State.endViolSeconds_ctx (x1 : Nat) : (State.endViolSeconds s x1).ctx = s.ctx := by unfold State.endViolSeconds; (try dsimp only) <;> (repeat' split) <;> simp
@[simp] theorem State.endViolSeconds_mem (x1 : Nat) : (State.endViolSeconds s x1).mem = s.mem := by unfold State.endViolSeconds; (try dsimp only) <;> (repeat' split) <;> simp
@[simp] theorem State.endViolSeconds_pwr (x1 : Nat) : (State.endViolSeconds s x1).pwr = s.pwr := by unfold State.endViolSeconds; (try dsimp only) <;> (repeat' split) <;> simp
@[simp] theorem State.endViolSeconds_sent (x1 : Nat) : (State.endViolSeconds s x1).sent = s.sent := by unfold State.endViolSeconds; (try dsimp only) <;> (repeat' split) <;> simp
@[simp] theorem State.endViolSeconds_fresh (x1 : Nat) : (State.endViolSeconds s x1).fresh = s.fresh := by unfold State.endViolSeconds; (try dsimp only) <;> (repeat' split) <;> simp
@[simp] theorem State.endViolSeconds_pending (x1 : Nat) : (State.endViolSeconds s x1).pending = s.pending := by unfold State.endViolSeconds; (try dsimp only) <;> (repeat' split) <;> simp
@[simp] theorem State.driveFsync_tb (x1 : Nat) (x2 : Bool) : (State.driveFsync s x1 x2).tb = s.tb := by unfold State.driveFsync; (try dsimp only) <;> (repeat' split) <;> simp
@[simp] theorem State.driveFsync_fc (x1 : Nat) (x2 : Bool) : (State.driveFsync s x1 x2).fc = s.fc := by unfold State.driveFsync; (try dsimp only) <;> (repeat' split) <;> simp
@[simp] theorem State.driveFsync_isl (x1 : Nat) (x2 : Bool) : (State.driveFsync s x1 x2).isl = s.isl := by unfold State.driveFsync; (try dsimp only) <;> (repeat' split) <;> simp
@[simp] theorem State.driveFsync_flash (x1 : Nat) (x2 : Bool) : (State.driveFsync s x1 x2).flash = s.flash := by unfold State.driveFsync; (try dsimp only) <;> (repeat' split) <;> simp
@[simp] theorem State.driveFsync_boot (x1 : Nat) (x2 : Bool) : (State.driveFsync s x1 x2).boot = s.boot := by unfold State.driveFsync; (try dsimp only) <;> (repeat' split) <;> simp
@[simp] theorem State.driveFsync_sec (x1 : Nat) (x2 : Bool) : (State.driveFsync s x1 x2).sec = s.sec := by unfold State.driveFsync; (try dsimp only) <;> (repeat' split) <;> simp
@[simp] theorem State.driveFsync_dict (x1 : Nat) (x2 : Bool) : (State.driveFsync s x1 x2).dict = s.dict := by unfold State.driveFsync; (try dsimp only) <;> (repeat' split) <;> simp
@[simp] theorem State.driveFsync_cores (x1 : Nat) (x2 : Bool) : (State.driveFsync s x1 x2).cores = s.cores := by unfold State.driveFsync; (try dsimp only) <;> (repeat' split) <;> simp
@[simp] theorem State.driveFsync_sched (x1 : Nat) (x2 : Bool) : (State.driveFsync s x1 x2).sched = s.sched := by unfold State.driveFsync; (try dsimp only) <;> (repeat' split) <;> simp
@[simp] theorem State.driveFsync_ctx (x1 : Nat) (x2 : Bool) : (State.driveFsync s x1 x2).ctx = s.ctx := by unfold State.driveFsync; (try dsimp only) <;> (repeat' split) <;> simp
@[simp] theorem State.driveFsync_spring (x1 : Nat) (x2 : Bool) : (State.driveFsync s x1 x2).spring = s.spring := by unfold State.driveFsync; (try dsimp only) <;> (repeat' split) <;> simp
@[simp] theorem State.driveFsync_radio (x1 : Nat) (x2 : Bool) : (State.driveFsync s x1 x2).radio = s.radio := by unfold State.driveFsync; (try dsimp only) <;> (repeat' split) <;> simp
@[simp] theorem State.driveFsync_mem (x1 : Nat) (x2 : Bool) : (State.driveFsync s x1 x2).mem = s.mem := by unfold State.driveFsync; (try dsimp only) <;> (repeat' split) <;> simp
@[simp] theorem State.driveFsync_fab (x1 : Nat) (x2 : Bool) : (State.driveFsync s x1 x2).fab = s.fab := by unfold State.driveFsync; (try dsimp only) <;> (repeat' split) <;> simp
@[simp] theorem State.driveFsync_pwr (x1 : Nat) (x2 : Bool) : (State.driveFsync s x1 x2).pwr = s.pwr := by unfold State.driveFsync; (try dsimp only) <;> (repeat' split) <;> simp
@[simp] theorem State.driveFsync_evSeq (x1 : Nat) (x2 : Bool) : (State.driveFsync s x1 x2).evSeq = s.evSeq := by unfold State.driveFsync; (try dsimp only) <;> (repeat' split) <;> simp
@[simp] theorem State.driveFsync_events (x1 : Nat) (x2 : Bool) : (State.driveFsync s x1 x2).events = s.events := by unfold State.driveFsync; (try dsimp only) <;> (repeat' split) <;> simp
@[simp] theorem State.driveFsync_sent (x1 : Nat) (x2 : Bool) : (State.driveFsync s x1 x2).sent = s.sent := by unfold State.driveFsync; (try dsimp only) <;> (repeat' split) <;> simp
@[simp] theorem State.driveFsync_fresh (x1 : Nat) (x2 : Bool) : (State.driveFsync s x1 x2).fresh = s.fresh := by unfold State.driveFsync; (try dsimp only) <;> (repeat' split) <;> simp
@[simp] theorem State.driveFsync_pending (x1 : Nat) (x2 : Bool) : (State.driveFsync s x1 x2).pending = s.pending := by unfold State.driveFsync; (try dsimp only) <;> (repeat' split) <;> simp
@[simp] theorem State.watchdogFault_tb (x1 : Nat) : (State.watchdogFault s x1).tb = s.tb := by unfold State.watchdogFault; (try dsimp only) <;> (repeat' split) <;> simp
@[simp] theorem State.watchdogFault_pins (x1 : Nat) : (State.watchdogFault s x1).pins = s.pins := by unfold State.watchdogFault; (try dsimp only) <;> (repeat' split) <;> simp
@[simp] theorem State.watchdogFault_flash (x1 : Nat) : (State.watchdogFault s x1).flash = s.flash := by unfold State.watchdogFault; (try dsimp only) <;> (repeat' split) <;> simp
@[simp] theorem State.watchdogFault_boot (x1 : Nat) : (State.watchdogFault s x1).boot = s.boot := by unfold State.watchdogFault; (try dsimp only) <;> (repeat' split) <;> simp
@[simp] theorem State.watchdogFault_sec (x1 : Nat) : (State.watchdogFault s x1).sec = s.sec := by unfold State.watchdogFault; (try dsimp only) <;> (repeat' split) <;> simp
@[simp] theorem State.watchdogFault_ctx (x1 : Nat) : (State.watchdogFault s x1).ctx = s.ctx := by unfold State.watchdogFault; (try dsimp only) <;> (repeat' split) <;> simp
@[simp] theorem State.watchdogFault_mem (x1 : Nat) : (State.watchdogFault s x1).mem = s.mem := by unfold State.watchdogFault; (try dsimp only) <;> (repeat' split) <;> simp
@[simp] theorem State.watchdogFault_fab (x1 : Nat) : (State.watchdogFault s x1).fab = s.fab := by unfold State.watchdogFault; (try dsimp only) <;> (repeat' split) <;> simp
@[simp] theorem State.watchdogFault_pwr (x1 : Nat) : (State.watchdogFault s x1).pwr = s.pwr := by unfold State.watchdogFault; (try dsimp only) <;> (repeat' split) <;> simp
@[simp] theorem State.watchdogFault_events (x1 : Nat) : (State.watchdogFault s x1).events = s.events := by unfold State.watchdogFault; (try dsimp only) <;> (repeat' split) <;> simp
@[simp] theorem State.watchdogFault_sent (x1 : Nat) : (State.watchdogFault s x1).sent = s.sent := by unfold State.watchdogFault; (try dsimp only) <;> (repeat' split) <;> simp
@[simp] theorem State.watchdogFault_fresh (x1 : Nat) : (State.watchdogFault s x1).fresh = s.fresh := by unfold State.watchdogFault; (try dsimp only) <;> (repeat' split) <;> simp
@[simp] theorem State.watchdogFault_pending (x1 : Nat) : (State.watchdogFault s x1).pending = s.pending := by unfold State.watchdogFault; (try dsimp only) <;> (repeat' split) <;> simp
@[simp] theorem State.onLink_tb (x1 : Nat) (x2 : FabLink → FabLink) : (State.onLink s x1 x2).tb = s.tb := by unfold State.onLink; (try dsimp only) <;> (repeat' split) <;> simp
@[simp] theorem State.onLink_pins (x1 : Nat) (x2 : FabLink → FabLink) : (State.onLink s x1 x2).pins = s.pins := by unfold State.onLink; (try dsimp only) <;> (repeat' split) <;> simp
@[simp] theorem State.onLink_fc (x1 : Nat) (x2 : FabLink → FabLink) : (State.onLink s x1 x2).fc = s.fc := by unfold State.onLink; (try dsimp only) <;> (repeat' split) <;> simp
@[simp] theorem State.onLink_isl (x1 : Nat) (x2 : FabLink → FabLink) : (State.onLink s x1 x2).isl = s.isl := by unfold State.onLink; (try dsimp only) <;> (repeat' split) <;> simp
@[simp] theorem State.onLink_flash (x1 : Nat) (x2 : FabLink → FabLink) : (State.onLink s x1 x2).flash = s.flash := by unfold State.onLink; (try dsimp only) <;> (repeat' split) <;> simp
@[simp] theorem State.onLink_boot (x1 : Nat) (x2 : FabLink → FabLink) : (State.onLink s x1 x2).boot = s.boot := by unfold State.onLink; (try dsimp only) <;> (repeat' split) <;> simp
@[simp] theorem State.onLink_sec (x1 : Nat) (x2 : FabLink → FabLink) : (State.onLink s x1 x2).sec = s.sec := by unfold State.onLink; (try dsimp only) <;> (repeat' split) <;> simp
@[simp] theorem State.onLink_dict (x1 : Nat) (x2 : FabLink → FabLink) : (State.onLink s x1 x2).dict = s.dict := by unfold State.onLink; (try dsimp only) <;> (repeat' split) <;> simp
@[simp] theorem State.onLink_cores (x1 : Nat) (x2 : FabLink → FabLink) : (State.onLink s x1 x2).cores = s.cores := by unfold State.onLink; (try dsimp only) <;> (repeat' split) <;> simp
@[simp] theorem State.onLink_sched (x1 : Nat) (x2 : FabLink → FabLink) : (State.onLink s x1 x2).sched = s.sched := by unfold State.onLink; (try dsimp only) <;> (repeat' split) <;> simp
@[simp] theorem State.onLink_ctx (x1 : Nat) (x2 : FabLink → FabLink) : (State.onLink s x1 x2).ctx = s.ctx := by unfold State.onLink; (try dsimp only) <;> (repeat' split) <;> simp
@[simp] theorem State.onLink_spring (x1 : Nat) (x2 : FabLink → FabLink) : (State.onLink s x1 x2).spring = s.spring := by unfold State.onLink; (try dsimp only) <;> (repeat' split) <;> simp
@[simp] theorem State.onLink_radio (x1 : Nat) (x2 : FabLink → FabLink) : (State.onLink s x1 x2).radio = s.radio := by unfold State.onLink; (try dsimp only) <;> (repeat' split) <;> simp
@[simp] theorem State.onLink_mem (x1 : Nat) (x2 : FabLink → FabLink) : (State.onLink s x1 x2).mem = s.mem := by unfold State.onLink; (try dsimp only) <;> (repeat' split) <;> simp
@[simp] theorem State.onLink_pwr (x1 : Nat) (x2 : FabLink → FabLink) : (State.onLink s x1 x2).pwr = s.pwr := by unfold State.onLink; (try dsimp only) <;> (repeat' split) <;> simp
@[simp] theorem State.onLink_evSeq (x1 : Nat) (x2 : FabLink → FabLink) : (State.onLink s x1 x2).evSeq = s.evSeq := by unfold State.onLink; (try dsimp only) <;> (repeat' split) <;> simp
@[simp] theorem State.onLink_events (x1 : Nat) (x2 : FabLink → FabLink) : (State.onLink s x1 x2).events = s.events := by unfold State.onLink; (try dsimp only) <;> (repeat' split) <;> simp
@[simp] theorem State.onLink_sent (x1 : Nat) (x2 : FabLink → FabLink) : (State.onLink s x1 x2).sent = s.sent := by unfold State.onLink; (try dsimp only) <;> (repeat' split) <;> simp
@[simp] theorem State.onLink_fresh (x1 : Nat) (x2 : FabLink → FabLink) : (State.onLink s x1 x2).fresh = s.fresh := by unfold State.onLink; (try dsimp only) <;> (repeat' split) <;> simp
@[simp] theorem State.onLink_pending (x1 : Nat) (x2 : FabLink → FabLink) : (State.onLink s x1 x2).pending = s.pending := by unfold State.onLink; (try dsimp only) <;> (repeat' split) <;> simp
@[simp] theorem State.onE2e_tb (x1 : Nat) (x2 : Nat) (x3 : E2E → E2E) : (State.onE2e s x1 x2 x3).tb = s.tb := by unfold State.onE2e; (try dsimp only) <;> (repeat' split) <;> simp
@[simp] theorem State.onE2e_pins (x1 : Nat) (x2 : Nat) (x3 : E2E → E2E) : (State.onE2e s x1 x2 x3).pins = s.pins := by unfold State.onE2e; (try dsimp only) <;> (repeat' split) <;> simp
@[simp] theorem State.onE2e_fc (x1 : Nat) (x2 : Nat) (x3 : E2E → E2E) : (State.onE2e s x1 x2 x3).fc = s.fc := by unfold State.onE2e; (try dsimp only) <;> (repeat' split) <;> simp
@[simp] theorem State.onE2e_isl (x1 : Nat) (x2 : Nat) (x3 : E2E → E2E) : (State.onE2e s x1 x2 x3).isl = s.isl := by unfold State.onE2e; (try dsimp only) <;> (repeat' split) <;> simp
@[simp] theorem State.onE2e_flash (x1 : Nat) (x2 : Nat) (x3 : E2E → E2E) : (State.onE2e s x1 x2 x3).flash = s.flash := by unfold State.onE2e; (try dsimp only) <;> (repeat' split) <;> simp
@[simp] theorem State.onE2e_boot (x1 : Nat) (x2 : Nat) (x3 : E2E → E2E) : (State.onE2e s x1 x2 x3).boot = s.boot := by unfold State.onE2e; (try dsimp only) <;> (repeat' split) <;> simp
@[simp] theorem State.onE2e_sec (x1 : Nat) (x2 : Nat) (x3 : E2E → E2E) : (State.onE2e s x1 x2 x3).sec = s.sec := by unfold State.onE2e; (try dsimp only) <;> (repeat' split) <;> simp
@[simp] theorem State.onE2e_dict (x1 : Nat) (x2 : Nat) (x3 : E2E → E2E) : (State.onE2e s x1 x2 x3).dict = s.dict := by unfold State.onE2e; (try dsimp only) <;> (repeat' split) <;> simp
@[simp] theorem State.onE2e_cores (x1 : Nat) (x2 : Nat) (x3 : E2E → E2E) : (State.onE2e s x1 x2 x3).cores = s.cores := by unfold State.onE2e; (try dsimp only) <;> (repeat' split) <;> simp
@[simp] theorem State.onE2e_sched (x1 : Nat) (x2 : Nat) (x3 : E2E → E2E) : (State.onE2e s x1 x2 x3).sched = s.sched := by unfold State.onE2e; (try dsimp only) <;> (repeat' split) <;> simp
@[simp] theorem State.onE2e_ctx (x1 : Nat) (x2 : Nat) (x3 : E2E → E2E) : (State.onE2e s x1 x2 x3).ctx = s.ctx := by unfold State.onE2e; (try dsimp only) <;> (repeat' split) <;> simp
@[simp] theorem State.onE2e_spring (x1 : Nat) (x2 : Nat) (x3 : E2E → E2E) : (State.onE2e s x1 x2 x3).spring = s.spring := by unfold State.onE2e; (try dsimp only) <;> (repeat' split) <;> simp
@[simp] theorem State.onE2e_radio (x1 : Nat) (x2 : Nat) (x3 : E2E → E2E) : (State.onE2e s x1 x2 x3).radio = s.radio := by unfold State.onE2e; (try dsimp only) <;> (repeat' split) <;> simp
@[simp] theorem State.onE2e_mem (x1 : Nat) (x2 : Nat) (x3 : E2E → E2E) : (State.onE2e s x1 x2 x3).mem = s.mem := by unfold State.onE2e; (try dsimp only) <;> (repeat' split) <;> simp
@[simp] theorem State.onE2e_pwr (x1 : Nat) (x2 : Nat) (x3 : E2E → E2E) : (State.onE2e s x1 x2 x3).pwr = s.pwr := by unfold State.onE2e; (try dsimp only) <;> (repeat' split) <;> simp
@[simp] theorem State.onE2e_evSeq (x1 : Nat) (x2 : Nat) (x3 : E2E → E2E) : (State.onE2e s x1 x2 x3).evSeq = s.evSeq := by unfold State.onE2e; (try dsimp only) <;> (repeat' split) <;> simp
@[simp] theorem State.onE2e_events (x1 : Nat) (x2 : Nat) (x3 : E2E → E2E) : (State.onE2e s x1 x2 x3).events = s.events := by unfold State.onE2e; (try dsimp only) <;> (repeat' split) <;> simp
@[simp] theorem State.onE2e_sent (x1 : Nat) (x2 : Nat) (x3 : E2E → E2E) : (State.onE2e s x1 x2 x3).sent = s.sent := by unfold State.onE2e; (try dsimp only) <;> (repeat' split) <;> simp
@[simp] theorem State.onE2e_fresh (x1 : Nat) (x2 : Nat) (x3 : E2E → E2E) : (State.onE2e s x1 x2 x3).fresh = s.fresh := by unfold State.onE2e; (try dsimp only) <;> (repeat' split) <;> simp
@[simp] theorem State.onE2e_pending (x1 : Nat) (x2 : Nat) (x3 : E2E → E2E) : (State.onE2e s x1 x2 x3).pending = s.pending := by unfold State.onE2e; (try dsimp only) <;> (repeat' split) <;> simp
@[simp] theorem State.onStream_tb (x1 : Nat) (x2 : StreamRt → StreamRt) : (State.onStream s x1 x2).tb = s.tb := by unfold State.onStream; (try dsimp only) <;> (repeat' split) <;> simp
@[simp] theorem State.onStream_pins (x1 : Nat) (x2 : StreamRt → StreamRt) : (State.onStream s x1 x2).pins = s.pins := by unfold State.onStream; (try dsimp only) <;> (repeat' split) <;> simp
@[simp] theorem State.onStream_fc (x1 : Nat) (x2 : StreamRt → StreamRt) : (State.onStream s x1 x2).fc = s.fc := by unfold State.onStream; (try dsimp only) <;> (repeat' split) <;> simp
@[simp] theorem State.onStream_isl (x1 : Nat) (x2 : StreamRt → StreamRt) : (State.onStream s x1 x2).isl = s.isl := by unfold State.onStream; (try dsimp only) <;> (repeat' split) <;> simp
@[simp] theorem State.onStream_flash (x1 : Nat) (x2 : StreamRt → StreamRt) : (State.onStream s x1 x2).flash = s.flash := by unfold State.onStream; (try dsimp only) <;> (repeat' split) <;> simp
@[simp] theorem State.onStream_boot (x1 : Nat) (x2 : StreamRt → StreamRt) : (State.onStream s x1 x2).boot = s.boot := by unfold State.onStream; (try dsimp only) <;> (repeat' split) <;> simp
@[simp] theorem State.onStream_sec (x1 : Nat) (x2 : StreamRt → StreamRt) : (State.onStream s x1 x2).sec = s.sec := by unfold State.onStream; (try dsimp only) <;> (repeat' split) <;> simp
@[simp] theorem State.onStream_dict (x1 : Nat) (x2 : StreamRt → StreamRt) : (State.onStream s x1 x2).dict = s.dict := by unfold State.onStream; (try dsimp only) <;> (repeat' split) <;> simp
@[simp] theorem State.onStream_cores (x1 : Nat) (x2 : StreamRt → StreamRt) : (State.onStream s x1 x2).cores = s.cores := by unfold State.onStream; (try dsimp only) <;> (repeat' split) <;> simp
@[simp] theorem State.onStream_sched (x1 : Nat) (x2 : StreamRt → StreamRt) : (State.onStream s x1 x2).sched = s.sched := by unfold State.onStream; (try dsimp only) <;> (repeat' split) <;> simp
@[simp] theorem State.onStream_ctx (x1 : Nat) (x2 : StreamRt → StreamRt) : (State.onStream s x1 x2).ctx = s.ctx := by unfold State.onStream; (try dsimp only) <;> (repeat' split) <;> simp
@[simp] theorem State.onStream_radio (x1 : Nat) (x2 : StreamRt → StreamRt) : (State.onStream s x1 x2).radio = s.radio := by unfold State.onStream; (try dsimp only) <;> (repeat' split) <;> simp
@[simp] theorem State.onStream_mem (x1 : Nat) (x2 : StreamRt → StreamRt) : (State.onStream s x1 x2).mem = s.mem := by unfold State.onStream; (try dsimp only) <;> (repeat' split) <;> simp
@[simp] theorem State.onStream_fab (x1 : Nat) (x2 : StreamRt → StreamRt) : (State.onStream s x1 x2).fab = s.fab := by unfold State.onStream; (try dsimp only) <;> (repeat' split) <;> simp
@[simp] theorem State.onStream_pwr (x1 : Nat) (x2 : StreamRt → StreamRt) : (State.onStream s x1 x2).pwr = s.pwr := by unfold State.onStream; (try dsimp only) <;> (repeat' split) <;> simp
@[simp] theorem State.onStream_evSeq (x1 : Nat) (x2 : StreamRt → StreamRt) : (State.onStream s x1 x2).evSeq = s.evSeq := by unfold State.onStream; (try dsimp only) <;> (repeat' split) <;> simp
@[simp] theorem State.onStream_events (x1 : Nat) (x2 : StreamRt → StreamRt) : (State.onStream s x1 x2).events = s.events := by unfold State.onStream; (try dsimp only) <;> (repeat' split) <;> simp
@[simp] theorem State.onStream_sent (x1 : Nat) (x2 : StreamRt → StreamRt) : (State.onStream s x1 x2).sent = s.sent := by unfold State.onStream; (try dsimp only) <;> (repeat' split) <;> simp
@[simp] theorem State.onStream_fresh (x1 : Nat) (x2 : StreamRt → StreamRt) : (State.onStream s x1 x2).fresh = s.fresh := by unfold State.onStream; (try dsimp only) <;> (repeat' split) <;> simp
@[simp] theorem State.onStream_pending (x1 : Nat) (x2 : StreamRt → StreamRt) : (State.onStream s x1 x2).pending = s.pending := by unfold State.onStream; (try dsimp only) <;> (repeat' split) <;> simp
@[simp] theorem State.onBatch_tb (x1 : Nat) (x2 : BatchRt → BatchRt) : (State.onBatch s x1 x2).tb = s.tb := by unfold State.onBatch; (try dsimp only) <;> (repeat' split) <;> simp
@[simp] theorem State.onBatch_pins (x1 : Nat) (x2 : BatchRt → BatchRt) : (State.onBatch s x1 x2).pins = s.pins := by unfold State.onBatch; (try dsimp only) <;> (repeat' split) <;> simp
@[simp] theorem State.onBatch_fc (x1 : Nat) (x2 : BatchRt → BatchRt) : (State.onBatch s x1 x2).fc = s.fc := by unfold State.onBatch; (try dsimp only) <;> (repeat' split) <;> simp
@[simp] theorem State.onBatch_isl (x1 : Nat) (x2 : BatchRt → BatchRt) : (State.onBatch s x1 x2).isl = s.isl := by unfold State.onBatch; (try dsimp only) <;> (repeat' split) <;> simp
@[simp] theorem State.onBatch_flash (x1 : Nat) (x2 : BatchRt → BatchRt) : (State.onBatch s x1 x2).flash = s.flash := by unfold State.onBatch; (try dsimp only) <;> (repeat' split) <;> simp
@[simp] theorem State.onBatch_boot (x1 : Nat) (x2 : BatchRt → BatchRt) : (State.onBatch s x1 x2).boot = s.boot := by unfold State.onBatch; (try dsimp only) <;> (repeat' split) <;> simp
@[simp] theorem State.onBatch_sec (x1 : Nat) (x2 : BatchRt → BatchRt) : (State.onBatch s x1 x2).sec = s.sec := by unfold State.onBatch; (try dsimp only) <;> (repeat' split) <;> simp
@[simp] theorem State.onBatch_dict (x1 : Nat) (x2 : BatchRt → BatchRt) : (State.onBatch s x1 x2).dict = s.dict := by unfold State.onBatch; (try dsimp only) <;> (repeat' split) <;> simp
@[simp] theorem State.onBatch_cores (x1 : Nat) (x2 : BatchRt → BatchRt) : (State.onBatch s x1 x2).cores = s.cores := by unfold State.onBatch; (try dsimp only) <;> (repeat' split) <;> simp
@[simp] theorem State.onBatch_sched (x1 : Nat) (x2 : BatchRt → BatchRt) : (State.onBatch s x1 x2).sched = s.sched := by unfold State.onBatch; (try dsimp only) <;> (repeat' split) <;> simp
@[simp] theorem State.onBatch_ctx (x1 : Nat) (x2 : BatchRt → BatchRt) : (State.onBatch s x1 x2).ctx = s.ctx := by unfold State.onBatch; (try dsimp only) <;> (repeat' split) <;> simp
@[simp] theorem State.onBatch_radio (x1 : Nat) (x2 : BatchRt → BatchRt) : (State.onBatch s x1 x2).radio = s.radio := by unfold State.onBatch; (try dsimp only) <;> (repeat' split) <;> simp
@[simp] theorem State.onBatch_mem (x1 : Nat) (x2 : BatchRt → BatchRt) : (State.onBatch s x1 x2).mem = s.mem := by unfold State.onBatch; (try dsimp only) <;> (repeat' split) <;> simp
@[simp] theorem State.onBatch_fab (x1 : Nat) (x2 : BatchRt → BatchRt) : (State.onBatch s x1 x2).fab = s.fab := by unfold State.onBatch; (try dsimp only) <;> (repeat' split) <;> simp
@[simp] theorem State.onBatch_pwr (x1 : Nat) (x2 : BatchRt → BatchRt) : (State.onBatch s x1 x2).pwr = s.pwr := by unfold State.onBatch; (try dsimp only) <;> (repeat' split) <;> simp
@[simp] theorem State.onBatch_evSeq (x1 : Nat) (x2 : BatchRt → BatchRt) : (State.onBatch s x1 x2).evSeq = s.evSeq := by unfold State.onBatch; (try dsimp only) <;> (repeat' split) <;> simp
@[simp] theorem State.onBatch_events (x1 : Nat) (x2 : BatchRt → BatchRt) : (State.onBatch s x1 x2).events = s.events := by unfold State.onBatch; (try dsimp only) <;> (repeat' split) <;> simp
@[simp] theorem State.onBatch_sent (x1 : Nat) (x2 : BatchRt → BatchRt) : (State.onBatch s x1 x2).sent = s.sent := by unfold State.onBatch; (try dsimp only) <;> (repeat' split) <;> simp
@[simp] theorem State.onBatch_fresh (x1 : Nat) (x2 : BatchRt → BatchRt) : (State.onBatch s x1 x2).fresh = s.fresh := by unfold State.onBatch; (try dsimp only) <;> (repeat' split) <;> simp
@[simp] theorem State.onBatch_pending (x1 : Nat) (x2 : BatchRt → BatchRt) : (State.onBatch s x1 x2).pending = s.pending := by unfold State.onBatch; (try dsimp only) <;> (repeat' split) <;> simp
@[simp] theorem State.onCarrier_tb (x1 : Nat) (x2 : Carrier → Carrier) : (State.onCarrier s x1 x2).tb = s.tb := by unfold State.onCarrier; (try dsimp only) <;> (repeat' split) <;> simp
@[simp] theorem State.onCarrier_pins (x1 : Nat) (x2 : Carrier → Carrier) : (State.onCarrier s x1 x2).pins = s.pins := by unfold State.onCarrier; (try dsimp only) <;> (repeat' split) <;> simp
@[simp] theorem State.onCarrier_fc (x1 : Nat) (x2 : Carrier → Carrier) : (State.onCarrier s x1 x2).fc = s.fc := by unfold State.onCarrier; (try dsimp only) <;> (repeat' split) <;> simp
@[simp] theorem State.onCarrier_isl (x1 : Nat) (x2 : Carrier → Carrier) : (State.onCarrier s x1 x2).isl = s.isl := by unfold State.onCarrier; (try dsimp only) <;> (repeat' split) <;> simp
@[simp] theorem State.onCarrier_flash (x1 : Nat) (x2 : Carrier → Carrier) : (State.onCarrier s x1 x2).flash = s.flash := by unfold State.onCarrier; (try dsimp only) <;> (repeat' split) <;> simp
@[simp] theorem State.onCarrier_boot (x1 : Nat) (x2 : Carrier → Carrier) : (State.onCarrier s x1 x2).boot = s.boot := by unfold State.onCarrier; (try dsimp only) <;> (repeat' split) <;> simp
@[simp] theorem State.onCarrier_sec (x1 : Nat) (x2 : Carrier → Carrier) : (State.onCarrier s x1 x2).sec = s.sec := by unfold State.onCarrier; (try dsimp only) <;> (repeat' split) <;> simp
@[simp] theorem State.onCarrier_dict (x1 : Nat) (x2 : Carrier → Carrier) : (State.onCarrier s x1 x2).dict = s.dict := by unfold State.onCarrier; (try dsimp only) <;> (repeat' split) <;> simp
@[simp] theorem State.onCarrier_cores (x1 : Nat) (x2 : Carrier → Carrier) : (State.onCarrier s x1 x2).cores = s.cores := by unfold State.onCarrier; (try dsimp only) <;> (repeat' split) <;> simp
@[simp] theorem State.onCarrier_sched (x1 : Nat) (x2 : Carrier → Carrier) : (State.onCarrier s x1 x2).sched = s.sched := by unfold State.onCarrier; (try dsimp only) <;> (repeat' split) <;> simp
@[simp] theorem State.onCarrier_ctx (x1 : Nat) (x2 : Carrier → Carrier) : (State.onCarrier s x1 x2).ctx = s.ctx := by unfold State.onCarrier; (try dsimp only) <;> (repeat' split) <;> simp
@[simp] theorem State.onCarrier_spring (x1 : Nat) (x2 : Carrier → Carrier) : (State.onCarrier s x1 x2).spring = s.spring := by unfold State.onCarrier; (try dsimp only) <;> (repeat' split) <;> simp
@[simp] theorem State.onCarrier_mem (x1 : Nat) (x2 : Carrier → Carrier) : (State.onCarrier s x1 x2).mem = s.mem := by unfold State.onCarrier; (try dsimp only) <;> (repeat' split) <;> simp
@[simp] theorem State.onCarrier_fab (x1 : Nat) (x2 : Carrier → Carrier) : (State.onCarrier s x1 x2).fab = s.fab := by unfold State.onCarrier; (try dsimp only) <;> (repeat' split) <;> simp
@[simp] theorem State.onCarrier_pwr (x1 : Nat) (x2 : Carrier → Carrier) : (State.onCarrier s x1 x2).pwr = s.pwr := by unfold State.onCarrier; (try dsimp only) <;> (repeat' split) <;> simp
@[simp] theorem State.onCarrier_evSeq (x1 : Nat) (x2 : Carrier → Carrier) : (State.onCarrier s x1 x2).evSeq = s.evSeq := by unfold State.onCarrier; (try dsimp only) <;> (repeat' split) <;> simp
@[simp] theorem State.onCarrier_events (x1 : Nat) (x2 : Carrier → Carrier) : (State.onCarrier s x1 x2).events = s.events := by unfold State.onCarrier; (try dsimp only) <;> (repeat' split) <;> simp
@[simp] theorem State.onCarrier_sent (x1 : Nat) (x2 : Carrier → Carrier) : (State.onCarrier s x1 x2).sent = s.sent := by unfold State.onCarrier; (try dsimp only) <;> (repeat' split) <;> simp
@[simp] theorem State.onCarrier_fresh (x1 : Nat) (x2 : Carrier → Carrier) : (State.onCarrier s x1 x2).fresh = s.fresh := by unfold State.onCarrier; (try dsimp only) <;> (repeat' split) <;> simp
@[simp] theorem State.onCarrier_pending (x1 : Nat) (x2 : Carrier → Carrier) : (State.onCarrier s x1 x2).pending = s.pending := by unfold State.onCarrier; (try dsimp only) <;> (repeat' split) <;> simp
@[simp] theorem State.onRadioDoor_tb (x1 : Nat) (x2 : RadioDoor → RadioDoor) : (State.onRadioDoor s x1 x2).tb = s.tb := by unfold State.onRadioDoor; (try dsimp only) <;> (repeat' split) <;> simp
@[simp] theorem State.onRadioDoor_pins (x1 : Nat) (x2 : RadioDoor → RadioDoor) : (State.onRadioDoor s x1 x2).pins = s.pins := by unfold State.onRadioDoor; (try dsimp only) <;> (repeat' split) <;> simp
@[simp] theorem State.onRadioDoor_fc (x1 : Nat) (x2 : RadioDoor → RadioDoor) : (State.onRadioDoor s x1 x2).fc = s.fc := by unfold State.onRadioDoor; (try dsimp only) <;> (repeat' split) <;> simp
@[simp] theorem State.onRadioDoor_isl (x1 : Nat) (x2 : RadioDoor → RadioDoor) : (State.onRadioDoor s x1 x2).isl = s.isl := by unfold State.onRadioDoor; (try dsimp only) <;> (repeat' split) <;> simp
@[simp] theorem State.onRadioDoor_flash (x1 : Nat) (x2 : RadioDoor → RadioDoor) : (State.onRadioDoor s x1 x2).flash = s.flash := by unfold State.onRadioDoor; (try dsimp only) <;> (repeat' split) <;> simp
@[simp] theorem State.onRadioDoor_boot (x1 : Nat) (x2 : RadioDoor → RadioDoor) : (State.onRadioDoor s x1 x2).boot = s.boot := by unfold State.onRadioDoor; (try dsimp only) <;> (repeat' split) <;> simp
@[simp] theorem State.onRadioDoor_sec (x1 : Nat) (x2 : RadioDoor → RadioDoor) : (State.onRadioDoor s x1 x2).sec = s.sec := by unfold State.onRadioDoor; (try dsimp only) <;> (repeat' split) <;> simp
@[simp] theorem State.onRadioDoor_dict (x1 : Nat) (x2 : RadioDoor → RadioDoor) : (State.onRadioDoor s x1 x2).dict = s.dict := by unfold State.onRadioDoor; (try dsimp only) <;> (repeat' split) <;> simp
@[simp] theorem State.onRadioDoor_cores (x1 : Nat) (x2 : RadioDoor → RadioDoor) : (State.onRadioDoor s x1 x2).cores = s.cores := by unfold State.onRadioDoor; (try dsimp only) <;> (repeat' split) <;> simp
@[simp] theorem State.onRadioDoor_sched (x1 : Nat) (x2 : RadioDoor → RadioDoor) : (State.onRadioDoor s x1 x2).sched = s.sched := by unfold State.onRadioDoor; (try dsimp only) <;> (repeat' split) <;> simp
@[simp] theorem State.onRadioDoor_ctx (x1 : Nat) (x2 : RadioDoor → RadioDoor) : (State.onRadioDoor s x1 x2).ctx = s.ctx := by unfold State.onRadioDoor; (try dsimp only) <;> (repeat' split) <;> simp
@[simp] theorem State.onRadioDoor_spring (x1 : Nat) (x2 : RadioDoor → RadioDoor) : (State.onRadioDoor s x1 x2).spring = s.spring := by unfold State.onRadioDoor; (try dsimp only) <;> (repeat' split) <;> simp
@[simp] theorem State.onRadioDoor_mem (x1 : Nat) (x2 : RadioDoor → RadioDoor) : (State.onRadioDoor s x1 x2).mem = s.mem := by unfold State.onRadioDoor; (try dsimp only) <;> (repeat' split) <;> simp
@[simp] theorem State.onRadioDoor_fab (x1 : Nat) (x2 : RadioDoor → RadioDoor) : (State.onRadioDoor s x1 x2).fab = s.fab := by unfold State.onRadioDoor; (try dsimp only) <;> (repeat' split) <;> simp
@[simp] theorem State.onRadioDoor_pwr (x1 : Nat) (x2 : RadioDoor → RadioDoor) : (State.onRadioDoor s x1 x2).pwr = s.pwr := by unfold State.onRadioDoor; (try dsimp only) <;> (repeat' split) <;> simp
@[simp] theorem State.onRadioDoor_evSeq (x1 : Nat) (x2 : RadioDoor → RadioDoor) : (State.onRadioDoor s x1 x2).evSeq = s.evSeq := by unfold State.onRadioDoor; (try dsimp only) <;> (repeat' split) <;> simp
@[simp] theorem State.onRadioDoor_events (x1 : Nat) (x2 : RadioDoor → RadioDoor) : (State.onRadioDoor s x1 x2).events = s.events := by unfold State.onRadioDoor; (try dsimp only) <;> (repeat' split) <;> simp
@[simp] theorem State.onRadioDoor_sent (x1 : Nat) (x2 : RadioDoor → RadioDoor) : (State.onRadioDoor s x1 x2).sent = s.sent := by unfold State.onRadioDoor; (try dsimp only) <;> (repeat' split) <;> simp
@[simp] theorem State.onRadioDoor_fresh (x1 : Nat) (x2 : RadioDoor → RadioDoor) : (State.onRadioDoor s x1 x2).fresh = s.fresh := by unfold State.onRadioDoor; (try dsimp only) <;> (repeat' split) <;> simp
@[simp] theorem State.onRadioDoor_pending (x1 : Nat) (x2 : RadioDoor → RadioDoor) : (State.onRadioDoor s x1 x2).pending = s.pending := by unfold State.onRadioDoor; (try dsimp only) <;> (repeat' split) <;> simp
@[simp] theorem State.onDwSlot_tb (x1 : Nat) (x2 : DwSlot → DwSlot) : (State.onDwSlot s x1 x2).tb = s.tb := by unfold State.onDwSlot; (try dsimp only) <;> (repeat' split) <;> simp
@[simp] theorem State.onDwSlot_pins (x1 : Nat) (x2 : DwSlot → DwSlot) : (State.onDwSlot s x1 x2).pins = s.pins := by unfold State.onDwSlot; (try dsimp only) <;> (repeat' split) <;> simp
@[simp] theorem State.onDwSlot_fc (x1 : Nat) (x2 : DwSlot → DwSlot) : (State.onDwSlot s x1 x2).fc = s.fc := by unfold State.onDwSlot; (try dsimp only) <;> (repeat' split) <;> simp
@[simp] theorem State.onDwSlot_isl (x1 : Nat) (x2 : DwSlot → DwSlot) : (State.onDwSlot s x1 x2).isl = s.isl := by unfold State.onDwSlot; (try dsimp only) <;> (repeat' split) <;> simp
@[simp] theorem State.onDwSlot_flash (x1 : Nat) (x2 : DwSlot → DwSlot) : (State.onDwSlot s x1 x2).flash = s.flash := by unfold State.onDwSlot; (try dsimp only) <;> (repeat' split) <;> simp
@[simp] theorem State.onDwSlot_boot (x1 : Nat) (x2 : DwSlot → DwSlot) : (State.onDwSlot s x1 x2).boot = s.boot := by unfold State.onDwSlot; (try dsimp only) <;> (repeat' split) <;> simp
@[simp] theorem State.onDwSlot_sec (x1 : Nat) (x2 : DwSlot → DwSlot) : (State.onDwSlot s x1 x2).sec = s.sec := by unfold State.onDwSlot; (try dsimp only) <;> (repeat' split) <;> simp
@[simp] theorem State.onDwSlot_cores (x1 : Nat) (x2 : DwSlot → DwSlot) : (State.onDwSlot s x1 x2).cores = s.cores := by unfold State.onDwSlot; (try dsimp only) <;> (repeat' split) <;> simp
@[simp] theorem State.onDwSlot_sched (x1 : Nat) (x2 : DwSlot → DwSlot) : (State.onDwSlot s x1 x2).sched = s.sched := by unfold State.onDwSlot; (try dsimp only) <;> (repeat' split) <;> simp
@[simp] theorem State.onDwSlot_ctx (x1 : Nat) (x2 : DwSlot → DwSlot) : (State.onDwSlot s x1 x2).ctx = s.ctx := by unfold State.onDwSlot; (try dsimp only) <;> (repeat' split) <;> simp
@[simp] theorem State.onDwSlot_spring (x1 : Nat) (x2 : DwSlot → DwSlot) : (State.onDwSlot s x1 x2).spring = s.spring := by unfold State.onDwSlot; (try dsimp only) <;> (repeat' split) <;> simp
@[simp] theorem State.onDwSlot_radio (x1 : Nat) (x2 : DwSlot → DwSlot) : (State.onDwSlot s x1 x2).radio = s.radio := by unfold State.onDwSlot; (try dsimp only) <;> (repeat' split) <;> simp
@[simp] theorem State.onDwSlot_mem (x1 : Nat) (x2 : DwSlot → DwSlot) : (State.onDwSlot s x1 x2).mem = s.mem := by unfold State.onDwSlot; (try dsimp only) <;> (repeat' split) <;> simp
@[simp] theorem State.onDwSlot_fab (x1 : Nat) (x2 : DwSlot → DwSlot) : (State.onDwSlot s x1 x2).fab = s.fab := by unfold State.onDwSlot; (try dsimp only) <;> (repeat' split) <;> simp
@[simp] theorem State.onDwSlot_pwr (x1 : Nat) (x2 : DwSlot → DwSlot) : (State.onDwSlot s x1 x2).pwr = s.pwr := by unfold State.onDwSlot; (try dsimp only) <;> (repeat' split) <;> simp
@[simp] theorem State.onDwSlot_evSeq (x1 : Nat) (x2 : DwSlot → DwSlot) : (State.onDwSlot s x1 x2).evSeq = s.evSeq := by unfold State.onDwSlot; (try dsimp only) <;> (repeat' split) <;> simp
@[simp] theorem State.onDwSlot_events (x1 : Nat) (x2 : DwSlot → DwSlot) : (State.onDwSlot s x1 x2).events = s.events := by unfold State.onDwSlot; (try dsimp only) <;> (repeat' split) <;> simp
@[simp] theorem State.onDwSlot_sent (x1 : Nat) (x2 : DwSlot → DwSlot) : (State.onDwSlot s x1 x2).sent = s.sent := by unfold State.onDwSlot; (try dsimp only) <;> (repeat' split) <;> simp
@[simp] theorem State.onDwSlot_fresh (x1 : Nat) (x2 : DwSlot → DwSlot) : (State.onDwSlot s x1 x2).fresh = s.fresh := by unfold State.onDwSlot; (try dsimp only) <;> (repeat' split) <;> simp
@[simp] theorem State.onDwSlot_pending (x1 : Nat) (x2 : DwSlot → DwSlot) : (State.onDwSlot s x1 x2).pending = s.pending := by unfold State.onDwSlot; (try dsimp only) <;> (repeat' split) <;> simp
@[simp] theorem State.slotDone_tb (x1 : Client) (x2 : Nat) : (State.slotDone s x1 x2).tb = s.tb := by unfold State.slotDone; (try dsimp only) <;> (repeat' split) <;> simp
@[simp] theorem State.slotDone_pins (x1 : Client) (x2 : Nat) : (State.slotDone s x1 x2).pins = s.pins := by unfold State.slotDone; (try dsimp only) <;> (repeat' split) <;> simp
@[simp] theorem State.slotDone_fc (x1 : Client) (x2 : Nat) : (State.slotDone s x1 x2).fc = s.fc := by unfold State.slotDone; (try dsimp only) <;> (repeat' split) <;> simp
@[simp] theorem State.slotDone_isl (x1 : Client) (x2 : Nat) : (State.slotDone s x1 x2).isl = s.isl := by unfold State.slotDone; (try dsimp only) <;> (repeat' split) <;> simp
@[simp] theorem State.slotDone_flash (x1 : Client) (x2 : Nat) : (State.slotDone s x1 x2).flash = s.flash := by unfold State.slotDone; (try dsimp only) <;> (repeat' split) <;> simp
@[simp] theorem State.slotDone_boot (x1 : Client) (x2 : Nat) : (State.slotDone s x1 x2).boot = s.boot := by unfold State.slotDone; (try dsimp only) <;> (repeat' split) <;> simp
@[simp] theorem State.slotDone_sec (x1 : Client) (x2 : Nat) : (State.slotDone s x1 x2).sec = s.sec := by unfold State.slotDone; (try dsimp only) <;> (repeat' split) <;> simp
@[simp] theorem State.slotDone_cores (x1 : Client) (x2 : Nat) : (State.slotDone s x1 x2).cores = s.cores := by unfold State.slotDone; (try dsimp only) <;> (repeat' split) <;> simp
@[simp] theorem State.slotDone_sched (x1 : Client) (x2 : Nat) : (State.slotDone s x1 x2).sched = s.sched := by unfold State.slotDone; (try dsimp only) <;> (repeat' split) <;> simp
@[simp] theorem State.slotDone_ctx (x1 : Client) (x2 : Nat) : (State.slotDone s x1 x2).ctx = s.ctx := by unfold State.slotDone; (try dsimp only) <;> (repeat' split) <;> simp
@[simp] theorem State.slotDone_spring (x1 : Client) (x2 : Nat) : (State.slotDone s x1 x2).spring = s.spring := by unfold State.slotDone; (try dsimp only) <;> (repeat' split) <;> simp
@[simp] theorem State.slotDone_radio (x1 : Client) (x2 : Nat) : (State.slotDone s x1 x2).radio = s.radio := by unfold State.slotDone; (try dsimp only) <;> (repeat' split) <;> simp
@[simp] theorem State.slotDone_mem (x1 : Client) (x2 : Nat) : (State.slotDone s x1 x2).mem = s.mem := by unfold State.slotDone; (try dsimp only) <;> (repeat' split) <;> simp
@[simp] theorem State.slotDone_fab (x1 : Client) (x2 : Nat) : (State.slotDone s x1 x2).fab = s.fab := by unfold State.slotDone; (try dsimp only) <;> (repeat' split) <;> simp
@[simp] theorem State.slotDone_pwr (x1 : Client) (x2 : Nat) : (State.slotDone s x1 x2).pwr = s.pwr := by unfold State.slotDone; (try dsimp only) <;> (repeat' split) <;> simp
@[simp] theorem State.slotDone_evSeq (x1 : Client) (x2 : Nat) : (State.slotDone s x1 x2).evSeq = s.evSeq := by unfold State.slotDone; (try dsimp only) <;> (repeat' split) <;> simp
@[simp] theorem State.slotDone_events (x1 : Client) (x2 : Nat) : (State.slotDone s x1 x2).events = s.events := by unfold State.slotDone; (try dsimp only) <;> (repeat' split) <;> simp
@[simp] theorem State.slotDone_sent (x1 : Client) (x2 : Nat) : (State.slotDone s x1 x2).sent = s.sent := by unfold State.slotDone; (try dsimp only) <;> (repeat' split) <;> simp
@[simp] theorem State.slotDone_fresh (x1 : Client) (x2 : Nat) : (State.slotDone s x1 x2).fresh = s.fresh := by unfold State.slotDone; (try dsimp only) <;> (repeat' split) <;> simp
@[simp] theorem State.slotDone_pending (x1 : Client) (x2 : Nat) : (State.slotDone s x1 x2).pending = s.pending := by unfold State.slotDone; (try dsimp only) <;> (repeat' split) <;> simp
@[simp] theorem State.answer_tb (x1 : Req) (x2 : Nat) (x3 : Bytes) : (State.answer s x1 x2 x3).tb = s.tb := by unfold State.answer; (try dsimp only) <;> (repeat' split) <;> simp
@[simp] theorem State.answer_pins (x1 : Req) (x2 : Nat) (x3 : Bytes) : (State.answer s x1 x2 x3).pins = s.pins := by unfold State.answer; (try dsimp only) <;> (repeat' split) <;> simp
@[simp] theorem State.answer_fc (x1 : Req) (x2 : Nat) (x3 : Bytes) : (State.answer s x1 x2 x3).fc = s.fc := by unfold State.answer; (try dsimp only) <;> (repeat' split) <;> simp
@[simp] theorem State.answer_isl (x1 : Req) (x2 : Nat) (x3 : Bytes) : (State.answer s x1 x2 x3).isl = s.isl := by unfold State.answer; (try dsimp only) <;> (repeat' split) <;> simp
@[simp] theorem State.answer_flash (x1 : Req) (x2 : Nat) (x3 : Bytes) : (State.answer s x1 x2 x3).flash = s.flash := by unfold State.answer; (try dsimp only) <;> (repeat' split) <;> simp
@[simp] theorem State.answer_boot (x1 : Req) (x2 : Nat) (x3 : Bytes) : (State.answer s x1 x2 x3).boot = s.boot := by unfold State.answer; (try dsimp only) <;> (repeat' split) <;> simp
@[simp] theorem State.answer_sec (x1 : Req) (x2 : Nat) (x3 : Bytes) : (State.answer s x1 x2 x3).sec = s.sec := by unfold State.answer; (try dsimp only) <;> (repeat' split) <;> simp
@[simp] theorem State.answer_cores (x1 : Req) (x2 : Nat) (x3 : Bytes) : (State.answer s x1 x2 x3).cores = s.cores := by unfold State.answer; (try dsimp only) <;> (repeat' split) <;> simp
@[simp] theorem State.answer_sched (x1 : Req) (x2 : Nat) (x3 : Bytes) : (State.answer s x1 x2 x3).sched = s.sched := by unfold State.answer; (try dsimp only) <;> (repeat' split) <;> simp
@[simp] theorem State.answer_ctx (x1 : Req) (x2 : Nat) (x3 : Bytes) : (State.answer s x1 x2 x3).ctx = s.ctx := by unfold State.answer; (try dsimp only) <;> (repeat' split) <;> simp
@[simp] theorem State.answer_spring (x1 : Req) (x2 : Nat) (x3 : Bytes) : (State.answer s x1 x2 x3).spring = s.spring := by unfold State.answer; (try dsimp only) <;> (repeat' split) <;> simp
@[simp] theorem State.answer_radio (x1 : Req) (x2 : Nat) (x3 : Bytes) : (State.answer s x1 x2 x3).radio = s.radio := by unfold State.answer; (try dsimp only) <;> (repeat' split) <;> simp
@[simp] theorem State.answer_mem (x1 : Req) (x2 : Nat) (x3 : Bytes) : (State.answer s x1 x2 x3).mem = s.mem := by unfold State.answer; (try dsimp only) <;> (repeat' split) <;> simp
@[simp] theorem State.answer_fab (x1 : Req) (x2 : Nat) (x3 : Bytes) : (State.answer s x1 x2 x3).fab = s.fab := by unfold State.answer; (try dsimp only) <;> (repeat' split) <;> simp
@[simp] theorem State.answer_pwr (x1 : Req) (x2 : Nat) (x3 : Bytes) : (State.answer s x1 x2 x3).pwr = s.pwr := by unfold State.answer; (try dsimp only) <;> (repeat' split) <;> simp
@[simp] theorem State.answer_evSeq (x1 : Req) (x2 : Nat) (x3 : Bytes) : (State.answer s x1 x2 x3).evSeq = s.evSeq := by unfold State.answer; (try dsimp only) <;> (repeat' split) <;> simp
@[simp] theorem State.answer_events (x1 : Req) (x2 : Nat) (x3 : Bytes) : (State.answer s x1 x2 x3).events = s.events := by unfold State.answer; (try dsimp only) <;> (repeat' split) <;> simp
@[simp] theorem State.answer_fresh (x1 : Req) (x2 : Nat) (x3 : Bytes) : (State.answer s x1 x2 x3).fresh = s.fresh := by unfold State.answer; (try dsimp only) <;> (repeat' split) <;> simp
@[simp] theorem State.answer_pending (x1 : Req) (x2 : Nat) (x3 : Bytes) : (State.answer s x1 x2 x3).pending = s.pending := by unfold State.answer; (try dsimp only) <;> (repeat' split) <;> simp
@[simp] theorem State.defer_tb (x1 : Req) : (State.defer s x1).tb = s.tb := by unfold State.defer; (try dsimp only) <;> (repeat' split) <;> simp
@[simp] theorem State.defer_pins (x1 : Req) : (State.defer s x1).pins = s.pins := by unfold State.defer; (try dsimp only) <;> (repeat' split) <;> simp
@[simp] theorem State.defer_fc (x1 : Req) : (State.defer s x1).fc = s.fc := by unfold State.defer; (try dsimp only) <;> (repeat' split) <;> simp
@[simp] theorem State.defer_isl (x1 : Req) : (State.defer s x1).isl = s.isl := by unfold State.defer; (try dsimp only) <;> (repeat' split) <;> simp
@[simp] theorem State.defer_flash (x1 : Req) : (State.defer s x1).flash = s.flash := by unfold State.defer; (try dsimp only) <;> (repeat' split) <;> simp
@[simp] theorem State.defer_boot (x1 : Req) : (State.defer s x1).boot = s.boot := by unfold State.defer; (try dsimp only) <;> (repeat' split) <;> simp
@[simp] theorem State.defer_sec (x1 : Req) : (State.defer s x1).sec = s.sec := by unfold State.defer; (try dsimp only) <;> (repeat' split) <;> simp
@[simp] theorem State.defer_cores (x1 : Req) : (State.defer s x1).cores = s.cores := by unfold State.defer; (try dsimp only) <;> (repeat' split) <;> simp
@[simp] theorem State.defer_sched (x1 : Req) : (State.defer s x1).sched = s.sched := by unfold State.defer; (try dsimp only) <;> (repeat' split) <;> simp
@[simp] theorem State.defer_ctx (x1 : Req) : (State.defer s x1).ctx = s.ctx := by unfold State.defer; (try dsimp only) <;> (repeat' split) <;> simp
@[simp] theorem State.defer_spring (x1 : Req) : (State.defer s x1).spring = s.spring := by unfold State.defer; (try dsimp only) <;> (repeat' split) <;> simp
@[simp] theorem State.defer_radio (x1 : Req) : (State.defer s x1).radio = s.radio := by unfold State.defer; (try dsimp only) <;> (repeat' split) <;> simp
@[simp] theorem State.defer_mem (x1 : Req) : (State.defer s x1).mem = s.mem := by unfold State.defer; (try dsimp only) <;> (repeat' split) <;> simp
@[simp] theorem State.defer_fab (x1 : Req) : (State.defer s x1).fab = s.fab := by unfold State.defer; (try dsimp only) <;> (repeat' split) <;> simp
@[simp] theorem State.defer_pwr (x1 : Req) : (State.defer s x1).pwr = s.pwr := by unfold State.defer; (try dsimp only) <;> (repeat' split) <;> simp
@[simp] theorem State.defer_evSeq (x1 : Req) : (State.defer s x1).evSeq = s.evSeq := by unfold State.defer; (try dsimp only) <;> (repeat' split) <;> simp
@[simp] theorem State.defer_events (x1 : Req) : (State.defer s x1).events = s.events := by unfold State.defer; (try dsimp only) <;> (repeat' split) <;> simp
@[simp] theorem State.defer_sent (x1 : Req) : (State.defer s x1).sent = s.sent := by unfold State.defer; (try dsimp only) <;> (repeat' split) <;> simp
@[simp] theorem State.defer_fresh (x1 : Req) : (State.defer s x1).fresh = s.fresh := by unfold State.defer; (try dsimp only) <;> (repeat' split) <;> simp
@[simp] theorem State.defer_pending (x1 : Req) : (State.defer s x1).pending = s.pending := by unfold State.defer; (try dsimp only) <;> (repeat' split) <;> simp
@[simp] theorem State.finishTx_tb (x1 : Client) (x2 : BitVec 16) (x3 : Nat) : (State.finishTx s x1 x2 x3).tb = s.tb := by unfold State.finishTx; (try dsimp only) <;> (repeat' split) <;> simp
@[simp] theorem State.finishTx_pins (x1 : Client) (x2 : BitVec 16) (x3 : Nat) : (State.finishTx s x1 x2 x3).pins = s.pins := by unfold State.finishTx; (try dsimp only) <;> (repeat' split) <;> simp
@[simp] theorem State.finishTx_fc (x1 : Client) (x2 : BitVec 16) (x3 : Nat) : (State.finishTx s x1 x2 x3).fc = s.fc := by unfold State.finishTx; (try dsimp only) <;> (repeat' split) <;> simp
@[simp] theorem State.finishTx_isl (x1 : Client) (x2 : BitVec 16) (x3 : Nat) : (State.finishTx s x1 x2 x3).isl = s.isl := by unfold State.finishTx; (try dsimp only) <;> (repeat' split) <;> simp
@[simp] theorem State.finishTx_flash (x1 : Client) (x2 : BitVec 16) (x3 : Nat) : (State.finishTx s x1 x2 x3).flash = s.flash := by unfold State.finishTx; (try dsimp only) <;> (repeat' split) <;> simp
@[simp] theorem State.finishTx_boot (x1 : Client) (x2 : BitVec 16) (x3 : Nat) : (State.finishTx s x1 x2 x3).boot = s.boot := by unfold State.finishTx; (try dsimp only) <;> (repeat' split) <;> simp
@[simp] theorem State.finishTx_sec (x1 : Client) (x2 : BitVec 16) (x3 : Nat) : (State.finishTx s x1 x2 x3).sec = s.sec := by unfold State.finishTx; (try dsimp only) <;> (repeat' split) <;> simp
@[simp] theorem State.finishTx_cores (x1 : Client) (x2 : BitVec 16) (x3 : Nat) : (State.finishTx s x1 x2 x3).cores = s.cores := by unfold State.finishTx; (try dsimp only) <;> (repeat' split) <;> simp
@[simp] theorem State.finishTx_sched (x1 : Client) (x2 : BitVec 16) (x3 : Nat) : (State.finishTx s x1 x2 x3).sched = s.sched := by unfold State.finishTx; (try dsimp only) <;> (repeat' split) <;> simp
@[simp] theorem State.finishTx_ctx (x1 : Client) (x2 : BitVec 16) (x3 : Nat) : (State.finishTx s x1 x2 x3).ctx = s.ctx := by unfold State.finishTx; (try dsimp only) <;> (repeat' split) <;> simp
@[simp] theorem State.finishTx_spring (x1 : Client) (x2 : BitVec 16) (x3 : Nat) : (State.finishTx s x1 x2 x3).spring = s.spring := by unfold State.finishTx; (try dsimp only) <;> (repeat' split) <;> simp
@[simp] theorem State.finishTx_radio (x1 : Client) (x2 : BitVec 16) (x3 : Nat) : (State.finishTx s x1 x2 x3).radio = s.radio := by unfold State.finishTx; (try dsimp only) <;> (repeat' split) <;> simp
@[simp] theorem State.finishTx_mem (x1 : Client) (x2 : BitVec 16) (x3 : Nat) : (State.finishTx s x1 x2 x3).mem = s.mem := by unfold State.finishTx; (try dsimp only) <;> (repeat' split) <;> simp
@[simp] theorem State.finishTx_fab (x1 : Client) (x2 : BitVec 16) (x3 : Nat) : (State.finishTx s x1 x2 x3).fab = s.fab := by unfold State.finishTx; (try dsimp only) <;> (repeat' split) <;> simp
@[simp] theorem State.finishTx_pwr (x1 : Client) (x2 : BitVec 16) (x3 : Nat) : (State.finishTx s x1 x2 x3).pwr = s.pwr := by unfold State.finishTx; (try dsimp only) <;> (repeat' split) <;> simp
@[simp] theorem State.finishTx_evSeq (x1 : Client) (x2 : BitVec 16) (x3 : Nat) : (State.finishTx s x1 x2 x3).evSeq = s.evSeq := by unfold State.finishTx; (try dsimp only) <;> (repeat' split) <;> simp
@[simp] theorem State.finishTx_events (x1 : Client) (x2 : BitVec 16) (x3 : Nat) : (State.finishTx s x1 x2 x3).events = s.events := by unfold State.finishTx; (try dsimp only) <;> (repeat' split) <;> simp
@[simp] theorem State.finishTx_fresh (x1 : Client) (x2 : BitVec 16) (x3 : Nat) : (State.finishTx s x1 x2 x3).fresh = s.fresh := by unfold State.finishTx; (try dsimp only) <;> (repeat' split) <;> simp
@[simp] theorem State.finishTx_pending (x1 : Client) (x2 : BitVec 16) (x3 : Nat) : (State.finishTx s x1 x2 x3).pending = s.pending := by unfold State.finishTx; (try dsimp only) <;> (repeat' split) <;> simp
@[simp] theorem State.onTransfer_tb (x1 : Client) (x2 : BitVec 16) (x3 : Transfer → Transfer) : (State.onTransfer s x1 x2 x3).tb = s.tb := by unfold State.onTransfer; (try dsimp only) <;> (repeat' split) <;> simp
@[simp] theorem State.onTransfer_pins (x1 : Client) (x2 : BitVec 16) (x3 : Transfer → Transfer) : (State.onTransfer s x1 x2 x3).pins = s.pins := by unfold State.onTransfer; (try dsimp only) <;> (repeat' split) <;> simp
@[simp] theorem State.onTransfer_fc (x1 : Client) (x2 : BitVec 16) (x3 : Transfer → Transfer) : (State.onTransfer s x1 x2 x3).fc = s.fc := by unfold State.onTransfer; (try dsimp only) <;> (repeat' split) <;> simp
@[simp] theorem State.onTransfer_isl (x1 : Client) (x2 : BitVec 16) (x3 : Transfer → Transfer) : (State.onTransfer s x1 x2 x3).isl = s.isl := by unfold State.onTransfer; (try dsimp only) <;> (repeat' split) <;> simp
@[simp] theorem State.onTransfer_flash (x1 : Client) (x2 : BitVec 16) (x3 : Transfer → Transfer) : (State.onTransfer s x1 x2 x3).flash = s.flash := by unfold State.onTransfer; (try dsimp only) <;> (repeat' split) <;> simp
@[simp] theorem State.onTransfer_boot (x1 : Client) (x2 : BitVec 16) (x3 : Transfer → Transfer) : (State.onTransfer s x1 x2 x3).boot = s.boot := by unfold State.onTransfer; (try dsimp only) <;> (repeat' split) <;> simp
@[simp] theorem State.onTransfer_sec (x1 : Client) (x2 : BitVec 16) (x3 : Transfer → Transfer) : (State.onTransfer s x1 x2 x3).sec = s.sec := by unfold State.onTransfer; (try dsimp only) <;> (repeat' split) <;> simp
@[simp] theorem State.onTransfer_cores (x1 : Client) (x2 : BitVec 16) (x3 : Transfer → Transfer) : (State.onTransfer s x1 x2 x3).cores = s.cores := by unfold State.onTransfer; (try dsimp only) <;> (repeat' split) <;> simp
@[simp] theorem State.onTransfer_sched (x1 : Client) (x2 : BitVec 16) (x3 : Transfer → Transfer) : (State.onTransfer s x1 x2 x3).sched = s.sched := by unfold State.onTransfer; (try dsimp only) <;> (repeat' split) <;> simp
@[simp] theorem State.onTransfer_ctx (x1 : Client) (x2 : BitVec 16) (x3 : Transfer → Transfer) : (State.onTransfer s x1 x2 x3).ctx = s.ctx := by unfold State.onTransfer; (try dsimp only) <;> (repeat' split) <;> simp
@[simp] theorem State.onTransfer_spring (x1 : Client) (x2 : BitVec 16) (x3 : Transfer → Transfer) : (State.onTransfer s x1 x2 x3).spring = s.spring := by unfold State.onTransfer; (try dsimp only) <;> (repeat' split) <;> simp
@[simp] theorem State.onTransfer_radio (x1 : Client) (x2 : BitVec 16) (x3 : Transfer → Transfer) : (State.onTransfer s x1 x2 x3).radio = s.radio := by unfold State.onTransfer; (try dsimp only) <;> (repeat' split) <;> simp
@[simp] theorem State.onTransfer_mem (x1 : Client) (x2 : BitVec 16) (x3 : Transfer → Transfer) : (State.onTransfer s x1 x2 x3).mem = s.mem := by unfold State.onTransfer; (try dsimp only) <;> (repeat' split) <;> simp
@[simp] theorem State.onTransfer_fab (x1 : Client) (x2 : BitVec 16) (x3 : Transfer → Transfer) : (State.onTransfer s x1 x2 x3).fab = s.fab := by unfold State.onTransfer; (try dsimp only) <;> (repeat' split) <;> simp
@[simp] theorem State.onTransfer_pwr (x1 : Client) (x2 : BitVec 16) (x3 : Transfer → Transfer) : (State.onTransfer s x1 x2 x3).pwr = s.pwr := by unfold State.onTransfer; (try dsimp only) <;> (repeat' split) <;> simp
@[simp] theorem State.onTransfer_evSeq (x1 : Client) (x2 : BitVec 16) (x3 : Transfer → Transfer) : (State.onTransfer s x1 x2 x3).evSeq = s.evSeq := by unfold State.onTransfer; (try dsimp only) <;> (repeat' split) <;> simp
@[simp] theorem State.onTransfer_events (x1 : Client) (x2 : BitVec 16) (x3 : Transfer → Transfer) : (State.onTransfer s x1 x2 x3).events = s.events := by unfold State.onTransfer; (try dsimp only) <;> (repeat' split) <;> simp
@[simp] theorem State.onTransfer_sent (x1 : Client) (x2 : BitVec 16) (x3 : Transfer → Transfer) : (State.onTransfer s x1 x2 x3).sent = s.sent := by unfold State.onTransfer; (try dsimp only) <;> (repeat' split) <;> simp
@[simp] theorem State.onTransfer_fresh (x1 : Client) (x2 : BitVec 16) (x3 : Transfer → Transfer) : (State.onTransfer s x1 x2 x3).fresh = s.fresh := by unfold State.onTransfer; (try dsimp only) <;> (repeat' split) <;> simp
@[simp] theorem State.onTransfer_pending (x1 : Client) (x2 : BitVec 16) (x3 : Transfer → Transfer) : (State.onTransfer s x1 x2 x3).pending = s.pending := by unfold State.onTransfer; (try dsimp only) <;> (repeat' split) <;> simp
@[simp] theorem State.dropTransfer_tb (x1 : Client) (x2 : BitVec 16) : (State.dropTransfer s x1 x2).tb = s.tb := by unfold State.dropTransfer; (try dsimp only) <;> (repeat' split) <;> simp
@[simp] theorem State.dropTransfer_pins (x1 : Client) (x2 : BitVec 16) : (State.dropTransfer s x1 x2).pins = s.pins := by unfold State.dropTransfer; (try dsimp only) <;> (repeat' split) <;> simp
@[simp] theorem State.dropTransfer_fc (x1 : Client) (x2 : BitVec 16) : (State.dropTransfer s x1 x2).fc = s.fc := by unfold State.dropTransfer; (try dsimp only) <;> (repeat' split) <;> simp
@[simp] theorem State.dropTransfer_isl (x1 : Client) (x2 : BitVec 16) : (State.dropTransfer s x1 x2).isl = s.isl := by unfold State.dropTransfer; (try dsimp only) <;> (repeat' split) <;> simp
@[simp] theorem State.dropTransfer_flash (x1 : Client) (x2 : BitVec 16) : (State.dropTransfer s x1 x2).flash = s.flash := by unfold State.dropTransfer; (try dsimp only) <;> (repeat' split) <;> simp
@[simp] theorem State.dropTransfer_boot (x1 : Client) (x2 : BitVec 16) : (State.dropTransfer s x1 x2).boot = s.boot := by unfold State.dropTransfer; (try dsimp only) <;> (repeat' split) <;> simp
@[simp] theorem State.dropTransfer_sec (x1 : Client) (x2 : BitVec 16) : (State.dropTransfer s x1 x2).sec = s.sec := by unfold State.dropTransfer; (try dsimp only) <;> (repeat' split) <;> simp
@[simp] theorem State.dropTransfer_cores (x1 : Client) (x2 : BitVec 16) : (State.dropTransfer s x1 x2).cores = s.cores := by unfold State.dropTransfer; (try dsimp only) <;> (repeat' split) <;> simp
@[simp] theorem State.dropTransfer_sched (x1 : Client) (x2 : BitVec 16) : (State.dropTransfer s x1 x2).sched = s.sched := by unfold State.dropTransfer; (try dsimp only) <;> (repeat' split) <;> simp
@[simp] theorem State.dropTransfer_ctx (x1 : Client) (x2 : BitVec 16) : (State.dropTransfer s x1 x2).ctx = s.ctx := by unfold State.dropTransfer; (try dsimp only) <;> (repeat' split) <;> simp
@[simp] theorem State.dropTransfer_spring (x1 : Client) (x2 : BitVec 16) : (State.dropTransfer s x1 x2).spring = s.spring := by unfold State.dropTransfer; (try dsimp only) <;> (repeat' split) <;> simp
@[simp] theorem State.dropTransfer_radio (x1 : Client) (x2 : BitVec 16) : (State.dropTransfer s x1 x2).radio = s.radio := by unfold State.dropTransfer; (try dsimp only) <;> (repeat' split) <;> simp
@[simp] theorem State.dropTransfer_mem (x1 : Client) (x2 : BitVec 16) : (State.dropTransfer s x1 x2).mem = s.mem := by unfold State.dropTransfer; (try dsimp only) <;> (repeat' split) <;> simp
@[simp] theorem State.dropTransfer_fab (x1 : Client) (x2 : BitVec 16) : (State.dropTransfer s x1 x2).fab = s.fab := by unfold State.dropTransfer; (try dsimp only) <;> (repeat' split) <;> simp
@[simp] theorem State.dropTransfer_pwr (x1 : Client) (x2 : BitVec 16) : (State.dropTransfer s x1 x2).pwr = s.pwr := by unfold State.dropTransfer; (try dsimp only) <;> (repeat' split) <;> simp
@[simp] theorem State.dropTransfer_evSeq (x1 : Client) (x2 : BitVec 16) : (State.dropTransfer s x1 x2).evSeq = s.evSeq := by unfold State.dropTransfer; (try dsimp only) <;> (repeat' split) <;> simp
@[simp] theorem State.dropTransfer_events (x1 : Client) (x2 : BitVec 16) : (State.dropTransfer s x1 x2).events = s.events := by unfold State.dropTransfer; (try dsimp only) <;> (repeat' split) <;> simp
@[simp] theorem State.dropTransfer_sent (x1 : Client) (x2 : BitVec 16) : (State.dropTransfer s x1 x2).sent = s.sent := by unfold State.dropTransfer; (try dsimp only) <;> (repeat' split) <;> simp
@[simp] theorem State.dropTransfer_fresh (x1 : Client) (x2 : BitVec 16) : (State.dropTransfer s x1 x2).fresh = s.fresh := by unfold State.dropTransfer; (try dsimp only) <;> (repeat' split) <;> simp
@[simp] theorem State.dropTransfer_pending (x1 : Client) (x2 : BitVec 16) : (State.dropTransfer s x1 x2).pending = s.pending := by unfold State.dropTransfer; (try dsimp only) <;> (repeat' split) <;> simp
@[simp] theorem State.serverAbort_tb (x1 : Client) (x2 : BitVec 16) (x3 : Nat) : (State.serverAbort s x1 x2 x3).tb = s.tb := by unfold State.serverAbort; (try dsimp only) <;> (repeat' split) <;> simp
@[simp] theorem State.serverAbort_pins (x1 : Client) (x2 : BitVec 16) (x3 : Nat) : (State.serverAbort s x1 x2 x3).pins = s.pins := by unfold State.serverAbort; (try dsimp only) <;> (repeat' split) <;> simp
@[simp] theorem State.serverAbort_fc (x1 : Client) (x2 : BitVec 16) (x3 : Nat) : (State.serverAbort s x1 x2 x3).fc = s.fc := by unfold State.serverAbort; (try dsimp only) <;> (repeat' split) <;> simp
@[simp] theorem State.serverAbort_isl (x1 : Client) (x2 : BitVec 16) (x3 : Nat) : (State.serverAbort s x1 x2 x3).isl = s.isl := by unfold State.serverAbort; (try dsimp only) <;> (repeat' split) <;> simp
@[simp] theorem State.serverAbort_flash (x1 : Client) (x2 : BitVec 16) (x3 : Nat) : (State.serverAbort s x1 x2 x3).flash = s.flash := by unfold State.serverAbort; (try dsimp only) <;> (repeat' split) <;> simp
@[simp] theorem State.serverAbort_boot (x1 : Client) (x2 : BitVec 16) (x3 : Nat) : (State.serverAbort s x1 x2 x3).boot = s.boot := by unfold State.serverAbort; (try dsimp only) <;> (repeat' split) <;> simp
@[simp] theorem State.serverAbort_sec (x1 : Client) (x2 : BitVec 16) (x3 : Nat) : (State.serverAbort s x1 x2 x3).sec = s.sec := by unfold State.serverAbort; (try dsimp only) <;> (repeat' split) <;> simp
@[simp] theorem State.serverAbort_cores (x1 : Client) (x2 : BitVec 16) (x3 : Nat) : (State.serverAbort s x1 x2 x3).cores = s.cores := by unfold State.serverAbort; (try dsimp only) <;> (repeat' split) <;> simp
@[simp] theorem State.serverAbort_sched (x1 : Client) (x2 : BitVec 16) (x3 : Nat) : (State.serverAbort s x1 x2 x3).sched = s.sched := by unfold State.serverAbort; (try dsimp only) <;> (repeat' split) <;> simp
@[simp] theorem State.serverAbort_ctx (x1 : Client) (x2 : BitVec 16) (x3 : Nat) : (State.serverAbort s x1 x2 x3).ctx = s.ctx := by unfold State.serverAbort; (try dsimp only) <;> (repeat' split) <;> simp
@[simp] theorem State.serverAbort_spring (x1 : Client) (x2 : BitVec 16) (x3 : Nat) : (State.serverAbort s x1 x2 x3).spring = s.spring := by unfold State.serverAbort; (try dsimp only) <;> (repeat' split) <;> simp
@[simp] theorem State.serverAbort_radio (x1 : Client) (x2 : BitVec 16) (x3 : Nat) : (State.serverAbort s x1 x2 x3).radio = s.radio := by unfold State.serverAbort; (try dsimp only) <;> (repeat' split) <;> simp
@[simp] theorem State.serverAbort_mem (x1 : Client) (x2 : BitVec 16) (x3 : Nat) : (State.serverAbort s x1 x2 x3).mem = s.mem := by unfold State.serverAbort; (try dsimp only) <;> (repeat' split) <;> simp
@[simp] theorem State.serverAbort_fab (x1 : Client) (x2 : BitVec 16) (x3 : Nat) : (State.serverAbort s x1 x2 x3).fab = s.fab := by unfold State.serverAbort; (try dsimp only) <;> (repeat' split) <;> simp
@[simp] theorem State.serverAbort_pwr (x1 : Client) (x2 : BitVec 16) (x3 : Nat) : (State.serverAbort s x1 x2 x3).pwr = s.pwr := by unfold State.serverAbort; (try dsimp only) <;> (repeat' split) <;> simp
@[simp] theorem State.serverAbort_evSeq (x1 : Client) (x2 : BitVec 16) (x3 : Nat) : (State.serverAbort s x1 x2 x3).evSeq = s.evSeq := by unfold State.serverAbort; (try dsimp only) <;> (repeat' split) <;> simp
@[simp] theorem State.serverAbort_events (x1 : Client) (x2 : BitVec 16) (x3 : Nat) : (State.serverAbort s x1 x2 x3).events = s.events := by unfold State.serverAbort; (try dsimp only) <;> (repeat' split) <;> simp
@[simp] theorem State.serverAbort_fresh (x1 : Client) (x2 : BitVec 16) (x3 : Nat) : (State.serverAbort s x1 x2 x3).fresh = s.fresh := by unfold State.serverAbort; (try dsimp only) <;> (repeat' split) <;> simp
@[simp] theorem State.serverAbort_pending (x1 : Client) (x2 : BitVec 16) (x3 : Nat) : (State.serverAbort s x1 x2 x3).pending = s.pending := by unfold State.serverAbort; (try dsimp only) <;> (repeat' split) <;> simp
@[simp] theorem State.kdpViolation_tb (x1 : Client) (x2 : BitVec 16) : (State.kdpViolation s x1 x2).tb = s.tb := by unfold State.kdpViolation; (try dsimp only) <;> (repeat' split) <;> simp
@[simp] theorem State.kdpViolation_pins (x1 : Client) (x2 : BitVec 16) : (State.kdpViolation s x1 x2).pins = s.pins := by unfold State.kdpViolation; (try dsimp only) <;> (repeat' split) <;> simp
@[simp] theorem State.kdpViolation_fc (x1 : Client) (x2 : BitVec 16) : (State.kdpViolation s x1 x2).fc = s.fc := by unfold State.kdpViolation; (try dsimp only) <;> (repeat' split) <;> simp
@[simp] theorem State.kdpViolation_isl (x1 : Client) (x2 : BitVec 16) : (State.kdpViolation s x1 x2).isl = s.isl := by unfold State.kdpViolation; (try dsimp only) <;> (repeat' split) <;> simp
@[simp] theorem State.kdpViolation_flash (x1 : Client) (x2 : BitVec 16) : (State.kdpViolation s x1 x2).flash = s.flash := by unfold State.kdpViolation; (try dsimp only) <;> (repeat' split) <;> simp
@[simp] theorem State.kdpViolation_boot (x1 : Client) (x2 : BitVec 16) : (State.kdpViolation s x1 x2).boot = s.boot := by unfold State.kdpViolation; (try dsimp only) <;> (repeat' split) <;> simp
@[simp] theorem State.kdpViolation_sec (x1 : Client) (x2 : BitVec 16) : (State.kdpViolation s x1 x2).sec = s.sec := by unfold State.kdpViolation; (try dsimp only) <;> (repeat' split) <;> simp
@[simp] theorem State.kdpViolation_cores (x1 : Client) (x2 : BitVec 16) : (State.kdpViolation s x1 x2).cores = s.cores := by unfold State.kdpViolation; (try dsimp only) <;> (repeat' split) <;> simp
@[simp] theorem State.kdpViolation_sched (x1 : Client) (x2 : BitVec 16) : (State.kdpViolation s x1 x2).sched = s.sched := by unfold State.kdpViolation; (try dsimp only) <;> (repeat' split) <;> simp
@[simp] theorem State.kdpViolation_ctx (x1 : Client) (x2 : BitVec 16) : (State.kdpViolation s x1 x2).ctx = s.ctx := by unfold State.kdpViolation; (try dsimp only) <;> (repeat' split) <;> simp
@[simp] theorem State.kdpViolation_spring (x1 : Client) (x2 : BitVec 16) : (State.kdpViolation s x1 x2).spring = s.spring := by unfold State.kdpViolation; (try dsimp only) <;> (repeat' split) <;> simp
@[simp] theorem State.kdpViolation_radio (x1 : Client) (x2 : BitVec 16) : (State.kdpViolation s x1 x2).radio = s.radio := by unfold State.kdpViolation; (try dsimp only) <;> (repeat' split) <;> simp
@[simp] theorem State.kdpViolation_mem (x1 : Client) (x2 : BitVec 16) : (State.kdpViolation s x1 x2).mem = s.mem := by unfold State.kdpViolation; (try dsimp only) <;> (repeat' split) <;> simp
@[simp] theorem State.kdpViolation_fab (x1 : Client) (x2 : BitVec 16) : (State.kdpViolation s x1 x2).fab = s.fab := by unfold State.kdpViolation; (try dsimp only) <;> (repeat' split) <;> simp
@[simp] theorem State.kdpViolation_pwr (x1 : Client) (x2 : BitVec 16) : (State.kdpViolation s x1 x2).pwr = s.pwr := by unfold State.kdpViolation; (try dsimp only) <;> (repeat' split) <;> simp
@[simp] theorem State.kdpViolation_sent (x1 : Client) (x2 : BitVec 16) : (State.kdpViolation s x1 x2).sent = s.sent := by unfold State.kdpViolation; (try dsimp only) <;> (repeat' split) <;> simp
@[simp] theorem State.kdpViolation_fresh (x1 : Client) (x2 : BitVec 16) : (State.kdpViolation s x1 x2).fresh = s.fresh := by unfold State.kdpViolation; (try dsimp only) <;> (repeat' split) <;> simp
@[simp] theorem State.kdpViolation_pending (x1 : Client) (x2 : BitVec 16) : (State.kdpViolation s x1 x2).pending = s.pending := by unfold State.kdpViolation; (try dsimp only) <;> (repeat' split) <;> simp
@[simp] theorem State.dropBall_tb (x1 : Nat) : (State.dropBall s x1).tb = s.tb := by unfold State.dropBall; (try dsimp only) <;> (repeat' split) <;> simp
@[simp] theorem State.dropBall_fc (x1 : Nat) : (State.dropBall s x1).fc = s.fc := by unfold State.dropBall; (try dsimp only) <;> (repeat' split) <;> simp
@[simp] theorem State.dropBall_isl (x1 : Nat) : (State.dropBall s x1).isl = s.isl := by unfold State.dropBall; (try dsimp only) <;> (repeat' split) <;> simp
@[simp] theorem State.dropBall_flash (x1 : Nat) : (State.dropBall s x1).flash = s.flash := by unfold State.dropBall; (try dsimp only) <;> (repeat' split) <;> simp
@[simp] theorem State.dropBall_boot (x1 : Nat) : (State.dropBall s x1).boot = s.boot := by unfold State.dropBall; (try dsimp only) <;> (repeat' split) <;> simp
@[simp] theorem State.dropBall_sec (x1 : Nat) : (State.dropBall s x1).sec = s.sec := by unfold State.dropBall; (try dsimp only) <;> (repeat' split) <;> simp
@[simp] theorem State.dropBall_cores (x1 : Nat) : (State.dropBall s x1).cores = s.cores := by unfold State.dropBall; (try dsimp only) <;> (repeat' split) <;> simp
@[simp] theorem State.dropBall_sched (x1 : Nat) : (State.dropBall s x1).sched = s.sched := by unfold State.dropBall; (try dsimp only) <;> (repeat' split) <;> simp
@[simp] theorem State.dropBall_ctx (x1 : Nat) : (State.dropBall s x1).ctx = s.ctx := by unfold State.dropBall; (try dsimp only) <;> (repeat' split) <;> simp
@[simp] theorem State.dropBall_spring (x1 : Nat) : (State.dropBall s x1).spring = s.spring := by unfold State.dropBall; (try dsimp only) <;> (repeat' split) <;> simp
@[simp] theorem State.dropBall_radio (x1 : Nat) : (State.dropBall s x1).radio = s.radio := by unfold State.dropBall; (try dsimp only) <;> (repeat' split) <;> simp
@[simp] theorem State.dropBall_mem (x1 : Nat) : (State.dropBall s x1).mem = s.mem := by unfold State.dropBall; (try dsimp only) <;> (repeat' split) <;> simp
@[simp] theorem State.dropBall_fab (x1 : Nat) : (State.dropBall s x1).fab = s.fab := by unfold State.dropBall; (try dsimp only) <;> (repeat' split) <;> simp
@[simp] theorem State.dropBall_pwr (x1 : Nat) : (State.dropBall s x1).pwr = s.pwr := by unfold State.dropBall; (try dsimp only) <;> (repeat' split) <;> simp
@[simp] theorem State.dropBall_evSeq (x1 : Nat) : (State.dropBall s x1).evSeq = s.evSeq := by unfold State.dropBall; (try dsimp only) <;> (repeat' split) <;> simp
@[simp] theorem State.dropBall_events (x1 : Nat) : (State.dropBall s x1).events = s.events := by unfold State.dropBall; (try dsimp only) <;> (repeat' split) <;> simp
@[simp] theorem State.dropBall_sent (x1 : Nat) : (State.dropBall s x1).sent = s.sent := by unfold State.dropBall; (try dsimp only) <;> (repeat' split) <;> simp
@[simp] theorem State.dropBall_fresh (x1 : Nat) : (State.dropBall s x1).fresh = s.fresh := by unfold State.dropBall; (try dsimp only) <;> (repeat' split) <;> simp
@[simp] theorem State.dropBall_pending (x1 : Nat) : (State.dropBall s x1).pending = s.pending := by unfold State.dropBall; (try dsimp only) <;> (repeat' split) <;> simp
@[simp] theorem State.logClaim_tb (x1 : Nat) (x2 : Nat) (x3 : Nat) (x4 : BitVec 16) (x5 : Nat) (x6 : Claim) (x7 : Claim) (x8 : Nat) (x9 : Nat) : (State.logClaim s x1 x2 x3 x4 x5 x6 x7 x8 x9).tb = s.tb := by unfold State.logClaim; (try dsimp only) <;> (repeat' split) <;> simp
@[simp] theorem State.logClaim_pins (x1 : Nat) (x2 : Nat) (x3 : Nat) (x4 : BitVec 16) (x5 : Nat) (x6 : Claim) (x7 : Claim) (x8 : Nat) (x9 : Nat) : (State.logClaim s x1 x2 x3 x4 x5 x6 x7 x8 x9).pins = s.pins := by unfold State.logClaim; (try dsimp only) <;> (repeat' split) <;> simp
@[simp] theorem State.logClaim_fc (x1 : Nat) (x2 : Nat) (x3 : Nat) (x4 : BitVec 16) (x5 : Nat) (x6 : Claim) (x7 : Claim) (x8 : Nat) (x9 : Nat) : (State.logClaim s x1 x2 x3 x4 x5 x6 x7 x8 x9).fc = s.fc := by unfold State.logClaim; (try dsimp only) <;> (repeat' split) <;> simp
@[simp] theorem State.logClaim_isl (x1 : Nat) (x2 : Nat) (x3 : Nat) (x4 : BitVec 16) (x5 : Nat) (x6 : Claim) (x7 : Claim) (x8 : Nat) (x9 : Nat) : (State.logClaim s x1 x2 x3 x4 x5 x6 x7 x8 x9).isl = s.isl := by unfold State.logClaim; (try dsimp only) <;> (repeat' split) <;> simp
@[simp] theorem State.logClaim_flash (x1 : Nat) (x2 : Nat) (x3 : Nat) (x4 : BitVec 16) (x5 : Nat) (x6 : Claim) (x7 : Claim) (x8 : Nat) (x9 : Nat) : (State.logClaim s x1 x2 x3 x4 x5 x6 x7 x8 x9).flash = s.flash := by unfold State.logClaim; (try dsimp only) <;> (repeat' split) <;> simp
@[simp] theorem State.logClaim_boot (x1 : Nat) (x2 : Nat) (x3 : Nat) (x4 : BitVec 16) (x5 : Nat) (x6 : Claim) (x7 : Claim) (x8 : Nat) (x9 : Nat) : (State.logClaim s x1 x2 x3 x4 x5 x6 x7 x8 x9).boot = s.boot := by unfold State.logClaim; (try dsimp only) <;> (repeat' split) <;> simp
@[simp] theorem State.logClaim_sec (x1 : Nat) (x2 : Nat) (x3 : Nat) (x4 : BitVec 16) (x5 : Nat) (x6 : Claim) (x7 : Claim) (x8 : Nat) (x9 : Nat) : (State.logClaim s x1 x2 x3 x4 x5 x6 x7 x8 x9).sec = s.sec := by unfold State.logClaim; (try dsimp only) <;> (repeat' split) <;> simp
@[simp] theorem State.logClaim_cores (x1 : Nat) (x2 : Nat) (x3 : Nat) (x4 : BitVec 16) (x5 : Nat) (x6 : Claim) (x7 : Claim) (x8 : Nat) (x9 : Nat) : (State.logClaim s x1 x2 x3 x4 x5 x6 x7 x8 x9).cores = s.cores := by unfold State.logClaim; (try dsimp only) <;> (repeat' split) <;> simp
@[simp] theorem State.logClaim_sched (x1 : Nat) (x2 : Nat) (x3 : Nat) (x4 : BitVec 16) (x5 : Nat) (x6 : Claim) (x7 : Claim) (x8 : Nat) (x9 : Nat) : (State.logClaim s x1 x2 x3 x4 x5 x6 x7 x8 x9).sched = s.sched := by unfold State.logClaim; (try dsimp only) <;> (repeat' split) <;> simp
@[simp] theorem State.logClaim_ctx (x1 : Nat) (x2 : Nat) (x3 : Nat) (x4 : BitVec 16) (x5 : Nat) (x6 : Claim) (x7 : Claim) (x8 : Nat) (x9 : Nat) : (State.logClaim s x1 x2 x3 x4 x5 x6 x7 x8 x9).ctx = s.ctx := by unfold State.logClaim; (try dsimp only) <;> (repeat' split) <;> simp
@[simp] theorem State.logClaim_spring (x1 : Nat) (x2 : Nat) (x3 : Nat) (x4 : BitVec 16) (x5 : Nat) (x6 : Claim) (x7 : Claim) (x8 : Nat) (x9 : Nat) : (State.logClaim s x1 x2 x3 x4 x5 x6 x7 x8 x9).spring = s.spring := by unfold State.logClaim; (try dsimp only) <;> (repeat' split) <;> simp
@[simp] theorem State.logClaim_radio (x1 : Nat) (x2 : Nat) (x3 : Nat) (x4 : BitVec 16) (x5 : Nat) (x6 : Claim) (x7 : Claim) (x8 : Nat) (x9 : Nat) : (State.logClaim s x1 x2 x3 x4 x5 x6 x7 x8 x9).radio = s.radio := by unfold State.logClaim; (try dsimp only) <;> (repeat' split) <;> simp
@[simp] theorem State.logClaim_mem (x1 : Nat) (x2 : Nat) (x3 : Nat) (x4 : BitVec 16) (x5 : Nat) (x6 : Claim) (x7 : Claim) (x8 : Nat) (x9 : Nat) : (State.logClaim s x1 x2 x3 x4 x5 x6 x7 x8 x9).mem = s.mem := by unfold State.logClaim; (try dsimp only) <;> (repeat' split) <;> simp
@[simp] theorem State.logClaim_fab (x1 : Nat) (x2 : Nat) (x3 : Nat) (x4 : BitVec 16) (x5 : Nat) (x6 : Claim) (x7 : Claim) (x8 : Nat) (x9 : Nat) : (State.logClaim s x1 x2 x3 x4 x5 x6 x7 x8 x9).fab = s.fab := by unfold State.logClaim; (try dsimp only) <;> (repeat' split) <;> simp
@[simp] theorem State.logClaim_pwr (x1 : Nat) (x2 : Nat) (x3 : Nat) (x4 : BitVec 16) (x5 : Nat) (x6 : Claim) (x7 : Claim) (x8 : Nat) (x9 : Nat) : (State.logClaim s x1 x2 x3 x4 x5 x6 x7 x8 x9).pwr = s.pwr := by unfold State.logClaim; (try dsimp only) <;> (repeat' split) <;> simp
@[simp] theorem State.logClaim_evSeq (x1 : Nat) (x2 : Nat) (x3 : Nat) (x4 : BitVec 16) (x5 : Nat) (x6 : Claim) (x7 : Claim) (x8 : Nat) (x9 : Nat) : (State.logClaim s x1 x2 x3 x4 x5 x6 x7 x8 x9).evSeq = s.evSeq := by unfold State.logClaim; (try dsimp only) <;> (repeat' split) <;> simp
@[simp] theorem State.logClaim_events (x1 : Nat) (x2 : Nat) (x3 : Nat) (x4 : BitVec 16) (x5 : Nat) (x6 : Claim) (x7 : Claim) (x8 : Nat) (x9 : Nat) : (State.logClaim s x1 x2 x3 x4 x5 x6 x7 x8 x9).events = s.events := by unfold State.logClaim; (try dsimp only) <;> (repeat' split) <;> simp
@[simp] theorem State.logClaim_sent (x1 : Nat) (x2 : Nat) (x3 : Nat) (x4 : BitVec 16) (x5 : Nat) (x6 : Claim) (x7 : Claim) (x8 : Nat) (x9 : Nat) : (State.logClaim s x1 x2 x3 x4 x5 x6 x7 x8 x9).sent = s.sent := by unfold State.logClaim; (try dsimp only) <;> (repeat' split) <;> simp
@[simp] theorem State.logClaim_fresh (x1 : Nat) (x2 : Nat) (x3 : Nat) (x4 : BitVec 16) (x5 : Nat) (x6 : Claim) (x7 : Claim) (x8 : Nat) (x9 : Nat) : (State.logClaim s x1 x2 x3 x4 x5 x6 x7 x8 x9).fresh = s.fresh := by unfold State.logClaim; (try dsimp only) <;> (repeat' split) <;> simp
@[simp] theorem State.logClaim_pending (x1 : Nat) (x2 : Nat) (x3 : Nat) (x4 : BitVec 16) (x5 : Nat) (x6 : Claim) (x7 : Claim) (x8 : Nat) (x9 : Nat) : (State.logClaim s x1 x2 x3 x4 x5 x6 x7 x8 x9).pending = s.pending := by unfold State.logClaim; (try dsimp only) <;> (repeat' split) <;> simp
@[simp] theorem State.onTimer_tb (x1 : Nat) (x2 : Timer → Timer) : (State.onTimer s x1 x2).tb = s.tb := by unfold State.onTimer; (try dsimp only) <;> (repeat' split) <;> simp
@[simp] theorem State.onTimer_pins (x1 : Nat) (x2 : Timer → Timer) : (State.onTimer s x1 x2).pins = s.pins := by unfold State.onTimer; (try dsimp only) <;> (repeat' split) <;> simp
@[simp] theorem State.onTimer_fc (x1 : Nat) (x2 : Timer → Timer) : (State.onTimer s x1 x2).fc = s.fc := by unfold State.onTimer; (try dsimp only) <;> (repeat' split) <;> simp
@[simp] theorem State.onTimer_isl (x1 : Nat) (x2 : Timer → Timer) : (State.onTimer s x1 x2).isl = s.isl := by unfold State.onTimer; (try dsimp only) <;> (repeat' split) <;> simp
@[simp] theorem State.onTimer_flash (x1 : Nat) (x2 : Timer → Timer) : (State.onTimer s x1 x2).flash = s.flash := by unfold State.onTimer; (try dsimp only) <;> (repeat' split) <;> simp
@[simp] theorem State.onTimer_boot (x1 : Nat) (x2 : Timer → Timer) : (State.onTimer s x1 x2).boot = s.boot := by unfold State.onTimer; (try dsimp only) <;> (repeat' split) <;> simp
@[simp] theorem State.onTimer_sec (x1 : Nat) (x2 : Timer → Timer) : (State.onTimer s x1 x2).sec = s.sec := by unfold State.onTimer; (try dsimp only) <;> (repeat' split) <;> simp
@[simp] theorem State.onTimer_cores (x1 : Nat) (x2 : Timer → Timer) : (State.onTimer s x1 x2).cores = s.cores := by unfold State.onTimer; (try dsimp only) <;> (repeat' split) <;> simp
@[simp] theorem State.onTimer_sched (x1 : Nat) (x2 : Timer → Timer) : (State.onTimer s x1 x2).sched = s.sched := by unfold State.onTimer; (try dsimp only) <;> (repeat' split) <;> simp
@[simp] theorem State.onTimer_ctx (x1 : Nat) (x2 : Timer → Timer) : (State.onTimer s x1 x2).ctx = s.ctx := by unfold State.onTimer; (try dsimp only) <;> (repeat' split) <;> simp
@[simp] theorem State.onTimer_spring (x1 : Nat) (x2 : Timer → Timer) : (State.onTimer s x1 x2).spring = s.spring := by unfold State.onTimer; (try dsimp only) <;> (repeat' split) <;> simp
@[simp] theorem State.onTimer_radio (x1 : Nat) (x2 : Timer → Timer) : (State.onTimer s x1 x2).radio = s.radio := by unfold State.onTimer; (try dsimp only) <;> (repeat' split) <;> simp
@[simp] theorem State.onTimer_mem (x1 : Nat) (x2 : Timer → Timer) : (State.onTimer s x1 x2).mem = s.mem := by unfold State.onTimer; (try dsimp only) <;> (repeat' split) <;> simp
@[simp] theorem State.onTimer_fab (x1 : Nat) (x2 : Timer → Timer) : (State.onTimer s x1 x2).fab = s.fab := by unfold State.onTimer; (try dsimp only) <;> (repeat' split) <;> simp
@[simp] theorem State.onTimer_pwr (x1 : Nat) (x2 : Timer → Timer) : (State.onTimer s x1 x2).pwr = s.pwr := by unfold State.onTimer; (try dsimp only) <;> (repeat' split) <;> simp
@[simp] theorem State.onTimer_evSeq (x1 : Nat) (x2 : Timer → Timer) : (State.onTimer s x1 x2).evSeq = s.evSeq := by unfold State.onTimer; (try dsimp only) <;> (repeat' split) <;> simp
@[simp] theorem State.onTimer_events (x1 : Nat) (x2 : Timer → Timer) : (State.onTimer s x1 x2).events = s.events := by unfold State.onTimer; (try dsimp only) <;> (repeat' split) <;> simp
@[simp] theorem State.onTimer_sent (x1 : Nat) (x2 : Timer → Timer) : (State.onTimer s x1 x2).sent = s.sent := by unfold State.onTimer; (try dsimp only) <;> (repeat' split) <;> simp
@[simp] theorem State.onTimer_fresh (x1 : Nat) (x2 : Timer → Timer) : (State.onTimer s x1 x2).fresh = s.fresh := by unfold State.onTimer; (try dsimp only) <;> (repeat' split) <;> simp
@[simp] theorem State.onTimer_pending (x1 : Nat) (x2 : Timer → Timer) : (State.onTimer s x1 x2).pending = s.pending := by unfold State.onTimer; (try dsimp only) <;> (repeat' split) <;> simp
@[simp] theorem State.passEpoch_tb  : (State.passEpoch s).tb = s.tb := by unfold State.passEpoch; (try dsimp only) <;> (repeat' split) <;> simp
@[simp] theorem State.passEpoch_pins  : (State.passEpoch s).pins = s.pins := by unfold State.passEpoch; (try dsimp only) <;> (repeat' split) <;> simp
@[simp] theorem State.passEpoch_fc  : (State.passEpoch s).fc = s.fc := by unfold State.passEpoch; (try dsimp only) <;> (repeat' split) <;> simp
@[simp] theorem State.passEpoch_isl  : (State.passEpoch s).isl = s.isl := by unfold State.passEpoch; (try dsimp only) <;> (repeat' split) <;> simp
@[simp] theorem State.passEpoch_boot  : (State.passEpoch s).boot = s.boot := by unfold State.passEpoch; (try dsimp only) <;> (repeat' split) <;> simp
@[simp] theorem State.passEpoch_sec  : (State.passEpoch s).sec = s.sec := by unfold State.passEpoch; (try dsimp only) <;> (repeat' split) <;> simp
@[simp] theorem State.passEpoch_cores  : (State.passEpoch s).cores = s.cores := by unfold State.passEpoch; (try dsimp only) <;> (repeat' split) <;> simp
@[simp] theorem State.passEpoch_sched  : (State.passEpoch s).sched = s.sched := by unfold State.passEpoch; (try dsimp only) <;> (repeat' split) <;> simp
@[simp] theorem State.passEpoch_ctx  : (State.passEpoch s).ctx = s.ctx := by unfold State.passEpoch; (try dsimp only) <;> (repeat' split) <;> simp
@[simp] theorem State.passEpoch_spring  : (State.passEpoch s).spring = s.spring := by unfold State.passEpoch; (try dsimp only) <;> (repeat' split) <;> simp
@[simp] theorem State.passEpoch_radio  : (State.passEpoch s).radio = s.radio := by unfold State.passEpoch; (try dsimp only) <;> (repeat' split) <;> simp
@[simp] theorem State.passEpoch_mem  : (State.passEpoch s).mem = s.mem := by unfold State.passEpoch; (try dsimp only) <;> (repeat' split) <;> simp
@[simp] theorem State.passEpoch_fab  : (State.passEpoch s).fab = s.fab := by unfold State.passEpoch; (try dsimp only) <;> (repeat' split) <;> simp
@[simp] theorem State.passEpoch_pwr  : (State.passEpoch s).pwr = s.pwr := by unfold State.passEpoch; (try dsimp only) <;> (repeat' split) <;> simp
@[simp] theorem State.passEpoch_evSeq  : (State.passEpoch s).evSeq = s.evSeq := by unfold State.passEpoch; (try dsimp only) <;> (repeat' split) <;> simp
@[simp] theorem State.passEpoch_events  : (State.passEpoch s).events = s.events := by unfold State.passEpoch; (try dsimp only) <;> (repeat' split) <;> simp
@[simp] theorem State.passEpoch_sent  : (State.passEpoch s).sent = s.sent := by unfold State.passEpoch; (try dsimp only) <;> (repeat' split) <;> simp
@[simp] theorem State.passEpoch_fresh  : (State.passEpoch s).fresh = s.fresh := by unfold State.passEpoch; (try dsimp only) <;> (repeat' split) <;> simp
@[simp] theorem State.passEpoch_pending  : (State.passEpoch s).pending = s.pending := by unfold State.passEpoch; (try dsimp only) <;> (repeat' split) <;> simp
@[simp] theorem State.logWrite_tb (x1 : Req) (x2 : Nat) (x3 : Bytes) (x4 : Bytes) (x5 : Verdict) : (State.logWrite s x1 x2 x3 x4 x5).tb = s.tb := by unfold State.logWrite; (try dsimp only) <;> (repeat' split) <;> simp
@[simp] theorem State.logWrite_pins (x1 : Req) (x2 : Nat) (x3 : Bytes) (x4 : Bytes) (x5 : Verdict) : (State.logWrite s x1 x2 x3 x4 x5).pins = s.pins := by unfold State.logWrite; (try dsimp only) <;> (repeat' split) <;> simp
@[simp] theorem State.logWrite_fc (x1 : Req) (x2 : Nat) (x3 : Bytes) (x4 : Bytes) (x5 : Verdict) : (State.logWrite s x1 x2 x3 x4 x5).fc = s.fc := by unfold State.logWrite; (try dsimp only) <;> (repeat' split) <;> simp
@[simp] theorem State.logWrite_isl (x1 : Req) (x2 : Nat) (x3 : Bytes) (x4 : Bytes) (x5 : Verdict) : (State.logWrite s x1 x2 x3 x4 x5).isl = s.isl := by unfold State.logWrite; (try dsimp only) <;> (repeat' split) <;> simp
@[simp] theorem State.logWrite_flash (x1 : Req) (x2 : Nat) (x3 : Bytes) (x4 : Bytes) (x5 : Verdict) : (State.logWrite s x1 x2 x3 x4 x5).flash = s.flash := by unfold State.logWrite; (try dsimp only) <;> (repeat' split) <;> simp
@[simp] theorem State.logWrite_boot (x1 : Req) (x2 : Nat) (x3 : Bytes) (x4 : Bytes) (x5 : Verdict) : (State.logWrite s x1 x2 x3 x4 x5).boot = s.boot := by unfold State.logWrite; (try dsimp only) <;> (repeat' split) <;> simp
@[simp] theorem State.logWrite_sec (x1 : Req) (x2 : Nat) (x3 : Bytes) (x4 : Bytes) (x5 : Verdict) : (State.logWrite s x1 x2 x3 x4 x5).sec = s.sec := by unfold State.logWrite; (try dsimp only) <;> (repeat' split) <;> simp
@[simp] theorem State.logWrite_cores (x1 : Req) (x2 : Nat) (x3 : Bytes) (x4 : Bytes) (x5 : Verdict) : (State.logWrite s x1 x2 x3 x4 x5).cores = s.cores := by unfold State.logWrite; (try dsimp only) <;> (repeat' split) <;> simp
@[simp] theorem State.logWrite_sched (x1 : Req) (x2 : Nat) (x3 : Bytes) (x4 : Bytes) (x5 : Verdict) : (State.logWrite s x1 x2 x3 x4 x5).sched = s.sched := by unfold State.logWrite; (try dsimp only) <;> (repeat' split) <;> simp
@[simp] theorem State.logWrite_ctx (x1 : Req) (x2 : Nat) (x3 : Bytes) (x4 : Bytes) (x5 : Verdict) : (State.logWrite s x1 x2 x3 x4 x5).ctx = s.ctx := by unfold State.logWrite; (try dsimp only) <;> (repeat' split) <;> simp
@[simp] theorem State.logWrite_spring (x1 : Req) (x2 : Nat) (x3 : Bytes) (x4 : Bytes) (x5 : Verdict) : (State.logWrite s x1 x2 x3 x4 x5).spring = s.spring := by unfold State.logWrite; (try dsimp only) <;> (repeat' split) <;> simp
@[simp] theorem State.logWrite_radio (x1 : Req) (x2 : Nat) (x3 : Bytes) (x4 : Bytes) (x5 : Verdict) : (State.logWrite s x1 x2 x3 x4 x5).radio = s.radio := by unfold State.logWrite; (try dsimp only) <;> (repeat' split) <;> simp
@[simp] theorem State.logWrite_mem (x1 : Req) (x2 : Nat) (x3 : Bytes) (x4 : Bytes) (x5 : Verdict) : (State.logWrite s x1 x2 x3 x4 x5).mem = s.mem := by unfold State.logWrite; (try dsimp only) <;> (repeat' split) <;> simp
@[simp] theorem State.logWrite_fab (x1 : Req) (x2 : Nat) (x3 : Bytes) (x4 : Bytes) (x5 : Verdict) : (State.logWrite s x1 x2 x3 x4 x5).fab = s.fab := by unfold State.logWrite; (try dsimp only) <;> (repeat' split) <;> simp
@[simp] theorem State.logWrite_pwr (x1 : Req) (x2 : Nat) (x3 : Bytes) (x4 : Bytes) (x5 : Verdict) : (State.logWrite s x1 x2 x3 x4 x5).pwr = s.pwr := by unfold State.logWrite; (try dsimp only) <;> (repeat' split) <;> simp
@[simp] theorem State.logWrite_evSeq (x1 : Req) (x2 : Nat) (x3 : Bytes) (x4 : Bytes) (x5 : Verdict) : (State.logWrite s x1 x2 x3 x4 x5).evSeq = s.evSeq := by unfold State.logWrite; (try dsimp only) <;> (repeat' split) <;> simp
@[simp] theorem State.logWrite_events (x1 : Req) (x2 : Nat) (x3 : Bytes) (x4 : Bytes) (x5 : Verdict) : (State.logWrite s x1 x2 x3 x4 x5).events = s.events := by unfold State.logWrite; (try dsimp only) <;> (repeat' split) <;> simp
@[simp] theorem State.logWrite_sent (x1 : Req) (x2 : Nat) (x3 : Bytes) (x4 : Bytes) (x5 : Verdict) : (State.logWrite s x1 x2 x3 x4 x5).sent = s.sent := by unfold State.logWrite; (try dsimp only) <;> (repeat' split) <;> simp
@[simp] theorem State.logWrite_fresh (x1 : Req) (x2 : Nat) (x3 : Bytes) (x4 : Bytes) (x5 : Verdict) : (State.logWrite s x1 x2 x3 x4 x5).fresh = s.fresh := by unfold State.logWrite; (try dsimp only) <;> (repeat' split) <;> simp
@[simp] theorem State.logWrite_pending (x1 : Req) (x2 : Nat) (x3 : Bytes) (x4 : Bytes) (x5 : Verdict) : (State.logWrite s x1 x2 x3 x4 x5).pending = s.pending := by unfold State.logWrite; (try dsimp only) <;> (repeat' split) <;> simp
@[simp] theorem State.logRefusedPin_tb (x1 : Req) (x2 : Nat) (x3 : Entry) (x4 : Bytes) (x5 : Verdict) : (State.logRefusedPin s x1 x2 x3 x4 x5).tb = s.tb := by unfold State.logRefusedPin; (try dsimp only) <;> (repeat' split) <;> simp
@[simp] theorem State.logRefusedPin_pins (x1 : Req) (x2 : Nat) (x3 : Entry) (x4 : Bytes) (x5 : Verdict) : (State.logRefusedPin s x1 x2 x3 x4 x5).pins = s.pins := by unfold State.logRefusedPin; (try dsimp only) <;> (repeat' split) <;> simp
@[simp] theorem State.logRefusedPin_fc (x1 : Req) (x2 : Nat) (x3 : Entry) (x4 : Bytes) (x5 : Verdict) : (State.logRefusedPin s x1 x2 x3 x4 x5).fc = s.fc := by unfold State.logRefusedPin; (try dsimp only) <;> (repeat' split) <;> simp
@[simp] theorem State.logRefusedPin_isl (x1 : Req) (x2 : Nat) (x3 : Entry) (x4 : Bytes) (x5 : Verdict) : (State.logRefusedPin s x1 x2 x3 x4 x5).isl = s.isl := by unfold State.logRefusedPin; (try dsimp only) <;> (repeat' split) <;> simp
@[simp] theorem State.logRefusedPin_flash (x1 : Req) (x2 : Nat) (x3 : Entry) (x4 : Bytes) (x5 : Verdict) : (State.logRefusedPin s x1 x2 x3 x4 x5).flash = s.flash := by unfold State.logRefusedPin; (try dsimp only) <;> (repeat' split) <;> simp
@[simp] theorem State.logRefusedPin_boot (x1 : Req) (x2 : Nat) (x3 : Entry) (x4 : Bytes) (x5 : Verdict) : (State.logRefusedPin s x1 x2 x3 x4 x5).boot = s.boot := by unfold State.logRefusedPin; (try dsimp only) <;> (repeat' split) <;> simp
@[simp] theorem State.logRefusedPin_sec (x1 : Req) (x2 : Nat) (x3 : Entry) (x4 : Bytes) (x5 : Verdict) : (State.logRefusedPin s x1 x2 x3 x4 x5).sec = s.sec := by unfold State.logRefusedPin; (try dsimp only) <;> (repeat' split) <;> simp
@[simp] theorem State.logRefusedPin_cores (x1 : Req) (x2 : Nat) (x3 : Entry) (x4 : Bytes) (x5 : Verdict) : (State.logRefusedPin s x1 x2 x3 x4 x5).cores = s.cores := by unfold State.logRefusedPin; (try dsimp only) <;> (repeat' split) <;> simp
@[simp] theorem State.logRefusedPin_sched (x1 : Req) (x2 : Nat) (x3 : Entry) (x4 : Bytes) (x5 : Verdict) : (State.logRefusedPin s x1 x2 x3 x4 x5).sched = s.sched := by unfold State.logRefusedPin; (try dsimp only) <;> (repeat' split) <;> simp
@[simp] theorem State.logRefusedPin_ctx (x1 : Req) (x2 : Nat) (x3 : Entry) (x4 : Bytes) (x5 : Verdict) : (State.logRefusedPin s x1 x2 x3 x4 x5).ctx = s.ctx := by unfold State.logRefusedPin; (try dsimp only) <;> (repeat' split) <;> simp
@[simp] theorem State.logRefusedPin_spring (x1 : Req) (x2 : Nat) (x3 : Entry) (x4 : Bytes) (x5 : Verdict) : (State.logRefusedPin s x1 x2 x3 x4 x5).spring = s.spring := by unfold State.logRefusedPin; (try dsimp only) <;> (repeat' split) <;> simp
@[simp] theorem State.logRefusedPin_radio (x1 : Req) (x2 : Nat) (x3 : Entry) (x4 : Bytes) (x5 : Verdict) : (State.logRefusedPin s x1 x2 x3 x4 x5).radio = s.radio := by unfold State.logRefusedPin; (try dsimp only) <;> (repeat' split) <;> simp
@[simp] theorem State.logRefusedPin_mem (x1 : Req) (x2 : Nat) (x3 : Entry) (x4 : Bytes) (x5 : Verdict) : (State.logRefusedPin s x1 x2 x3 x4 x5).mem = s.mem := by unfold State.logRefusedPin; (try dsimp only) <;> (repeat' split) <;> simp
@[simp] theorem State.logRefusedPin_fab (x1 : Req) (x2 : Nat) (x3 : Entry) (x4 : Bytes) (x5 : Verdict) : (State.logRefusedPin s x1 x2 x3 x4 x5).fab = s.fab := by unfold State.logRefusedPin; (try dsimp only) <;> (repeat' split) <;> simp
@[simp] theorem State.logRefusedPin_pwr (x1 : Req) (x2 : Nat) (x3 : Entry) (x4 : Bytes) (x5 : Verdict) : (State.logRefusedPin s x1 x2 x3 x4 x5).pwr = s.pwr := by unfold State.logRefusedPin; (try dsimp only) <;> (repeat' split) <;> simp
@[simp] theorem State.logRefusedPin_evSeq (x1 : Req) (x2 : Nat) (x3 : Entry) (x4 : Bytes) (x5 : Verdict) : (State.logRefusedPin s x1 x2 x3 x4 x5).evSeq = s.evSeq := by unfold State.logRefusedPin; (try dsimp only) <;> (repeat' split) <;> simp
@[simp] theorem State.logRefusedPin_events (x1 : Req) (x2 : Nat) (x3 : Entry) (x4 : Bytes) (x5 : Verdict) : (State.logRefusedPin s x1 x2 x3 x4 x5).events = s.events := by unfold State.logRefusedPin; (try dsimp only) <;> (repeat' split) <;> simp
@[simp] theorem State.logRefusedPin_sent (x1 : Req) (x2 : Nat) (x3 : Entry) (x4 : Bytes) (x5 : Verdict) : (State.logRefusedPin s x1 x2 x3 x4 x5).sent = s.sent := by unfold State.logRefusedPin; (try dsimp only) <;> (repeat' split) <;> simp
@[simp] theorem State.logRefusedPin_fresh (x1 : Req) (x2 : Nat) (x3 : Entry) (x4 : Bytes) (x5 : Verdict) : (State.logRefusedPin s x1 x2 x3 x4 x5).fresh = s.fresh := by unfold State.logRefusedPin; (try dsimp only) <;> (repeat' split) <;> simp
@[simp] theorem State.logRefusedPin_pending (x1 : Req) (x2 : Nat) (x3 : Entry) (x4 : Bytes) (x5 : Verdict) : (State.logRefusedPin s x1 x2 x3 x4 x5).pending = s.pending := by unfold State.logRefusedPin; (try dsimp only) <;> (repeat' split) <;> simp
@[simp] theorem State.logTable_tb (x1 : Entry) (x2 : Bytes) (x3 : Nat) : (State.logTable s x1 x2 x3).tb = s.tb := by unfold State.logTable; (try dsimp only) <;> (repeat' split) <;> simp
@[simp] theorem State.logTable_pins (x1 : Entry) (x2 : Bytes) (x3 : Nat) : (State.logTable s x1 x2 x3).pins = s.pins := by unfold State.logTable; (try dsimp only) <;> (repeat' split) <;> simp
@[simp] theorem State.logTable_fc (x1 : Entry) (x2 : Bytes) (x3 : Nat) : (State.logTable s x1 x2 x3).fc = s.fc := by unfold State.logTable; (try dsimp only) <;> (repeat' split) <;> simp
@[simp] theorem State.logTable_isl (x1 : Entry) (x2 : Bytes) (x3 : Nat) : (State.logTable s x1 x2 x3).isl = s.isl := by unfold State.logTable; (try dsimp only) <;> (repeat' split) <;> simp
@[simp] theorem State.logTable_flash (x1 : Entry) (x2 : Bytes) (x3 : Nat) : (State.logTable s x1 x2 x3).flash = s.flash := by unfold State.logTable; (try dsimp only) <;> (repeat' split) <;> simp
@[simp] theorem State.logTable_boot (x1 : Entry) (x2 : Bytes) (x3 : Nat) : (State.logTable s x1 x2 x3).boot = s.boot := by unfold State.logTable; (try dsimp only) <;> (repeat' split) <;> simp
@[simp] theorem State.logTable_sec (x1 : Entry) (x2 : Bytes) (x3 : Nat) : (State.logTable s x1 x2 x3).sec = s.sec := by unfold State.logTable; (try dsimp only) <;> (repeat' split) <;> simp
@[simp] theorem State.logTable_dict (x1 : Entry) (x2 : Bytes) (x3 : Nat) : (State.logTable s x1 x2 x3).dict = s.dict := by unfold State.logTable; (try dsimp only) <;> (repeat' split) <;> simp
@[simp] theorem State.logTable_cores (x1 : Entry) (x2 : Bytes) (x3 : Nat) : (State.logTable s x1 x2 x3).cores = s.cores := by unfold State.logTable; (try dsimp only) <;> (repeat' split) <;> simp
@[simp] theorem State.logTable_sched (x1 : Entry) (x2 : Bytes) (x3 : Nat) : (State.logTable s x1 x2 x3).sched = s.sched := by unfold State.logTable; (try dsimp only) <;> (repeat' split) <;> simp
@[simp] theorem State.logTable_ctx (x1 : Entry) (x2 : Bytes) (x3 : Nat) : (State.logTable s x1 x2 x3).ctx = s.ctx := by unfold State.logTable; (try dsimp only) <;> (repeat' split) <;> simp
@[simp] theorem State.logTable_spring (x1 : Entry) (x2 : Bytes) (x3 : Nat) : (State.logTable s x1 x2 x3).spring = s.spring := by unfold State.logTable; (try dsimp only) <;> (repeat' split) <;> simp
@[simp] theorem State.logTable_radio (x1 : Entry) (x2 : Bytes) (x3 : Nat) : (State.logTable s x1 x2 x3).radio = s.radio := by unfold State.logTable; (try dsimp only) <;> (repeat' split) <;> simp
@[simp] theorem State.logTable_mem (x1 : Entry) (x2 : Bytes) (x3 : Nat) : (State.logTable s x1 x2 x3).mem = s.mem := by unfold State.logTable; (try dsimp only) <;> (repeat' split) <;> simp
@[simp] theorem State.logTable_fab (x1 : Entry) (x2 : Bytes) (x3 : Nat) : (State.logTable s x1 x2 x3).fab = s.fab := by unfold State.logTable; (try dsimp only) <;> (repeat' split) <;> simp
@[simp] theorem State.logTable_pwr (x1 : Entry) (x2 : Bytes) (x3 : Nat) : (State.logTable s x1 x2 x3).pwr = s.pwr := by unfold State.logTable; (try dsimp only) <;> (repeat' split) <;> simp
@[simp] theorem State.logTable_sent (x1 : Entry) (x2 : Bytes) (x3 : Nat) : (State.logTable s x1 x2 x3).sent = s.sent := by unfold State.logTable; (try dsimp only) <;> (repeat' split) <;> simp
@[simp] theorem State.logTable_fresh (x1 : Entry) (x2 : Bytes) (x3 : Nat) : (State.logTable s x1 x2 x3).fresh = s.fresh := by unfold State.logTable; (try dsimp only) <;> (repeat' split) <;> simp
@[simp] theorem State.logTable_pending (x1 : Entry) (x2 : Bytes) (x3 : Nat) : (State.logTable s x1 x2 x3).pending = s.pending := by unfold State.logTable; (try dsimp only) <;> (repeat' split) <;> simp
@[simp] theorem State.driveMfio_tb (x1 : Nat) (x2 : Bool) : (State.driveMfio s x1 x2).tb = s.tb := by unfold State.driveMfio; (try dsimp only) <;> (repeat' split) <;> simp
@[simp] theorem State.driveMfio_fc (x1 : Nat) (x2 : Bool) : (State.driveMfio s x1 x2).fc = s.fc := by unfold State.driveMfio; (try dsimp only) <;> (repeat' split) <;> simp
@[simp] theorem State.driveMfio_isl (x1 : Nat) (x2 : Bool) : (State.driveMfio s x1 x2).isl = s.isl := by unfold State.driveMfio; (try dsimp only) <;> (repeat' split) <;> simp
@[simp] theorem State.driveMfio_flash (x1 : Nat) (x2 : Bool) : (State.driveMfio s x1 x2).flash = s.flash := by unfold State.driveMfio; (try dsimp only) <;> (repeat' split) <;> simp
@[simp] theorem State.driveMfio_boot (x1 : Nat) (x2 : Bool) : (State.driveMfio s x1 x2).boot = s.boot := by unfold State.driveMfio; (try dsimp only) <;> (repeat' split) <;> simp
@[simp] theorem State.driveMfio_sec (x1 : Nat) (x2 : Bool) : (State.driveMfio s x1 x2).sec = s.sec := by unfold State.driveMfio; (try dsimp only) <;> (repeat' split) <;> simp
@[simp] theorem State.driveMfio_dict (x1 : Nat) (x2 : Bool) : (State.driveMfio s x1 x2).dict = s.dict := by unfold State.driveMfio; (try dsimp only) <;> (repeat' split) <;> simp
@[simp] theorem State.driveMfio_cores (x1 : Nat) (x2 : Bool) : (State.driveMfio s x1 x2).cores = s.cores := by unfold State.driveMfio; (try dsimp only) <;> (repeat' split) <;> simp
@[simp] theorem State.driveMfio_sched (x1 : Nat) (x2 : Bool) : (State.driveMfio s x1 x2).sched = s.sched := by unfold State.driveMfio; (try dsimp only) <;> (repeat' split) <;> simp
@[simp] theorem State.driveMfio_ctx (x1 : Nat) (x2 : Bool) : (State.driveMfio s x1 x2).ctx = s.ctx := by unfold State.driveMfio; (try dsimp only) <;> (repeat' split) <;> simp
@[simp] theorem State.driveMfio_spring (x1 : Nat) (x2 : Bool) : (State.driveMfio s x1 x2).spring = s.spring := by unfold State.driveMfio; (try dsimp only) <;> (repeat' split) <;> simp
@[simp] theorem State.driveMfio_radio (x1 : Nat) (x2 : Bool) : (State.driveMfio s x1 x2).radio = s.radio := by unfold State.driveMfio; (try dsimp only) <;> (repeat' split) <;> simp
@[simp] theorem State.driveMfio_mem (x1 : Nat) (x2 : Bool) : (State.driveMfio s x1 x2).mem = s.mem := by unfold State.driveMfio; (try dsimp only) <;> (repeat' split) <;> simp
@[simp] theorem State.driveMfio_fab (x1 : Nat) (x2 : Bool) : (State.driveMfio s x1 x2).fab = s.fab := by unfold State.driveMfio; (try dsimp only) <;> (repeat' split) <;> simp
@[simp] theorem State.driveMfio_pwr (x1 : Nat) (x2 : Bool) : (State.driveMfio s x1 x2).pwr = s.pwr := by unfold State.driveMfio; (try dsimp only) <;> (repeat' split) <;> simp
@[simp] theorem State.driveMfio_evSeq (x1 : Nat) (x2 : Bool) : (State.driveMfio s x1 x2).evSeq = s.evSeq := by unfold State.driveMfio; (try dsimp only) <;> (repeat' split) <;> simp
@[simp] theorem State.driveMfio_events (x1 : Nat) (x2 : Bool) : (State.driveMfio s x1 x2).events = s.events := by unfold State.driveMfio; (try dsimp only) <;> (repeat' split) <;> simp
@[simp] theorem State.driveMfio_sent (x1 : Nat) (x2 : Bool) : (State.driveMfio s x1 x2).sent = s.sent := by unfold State.driveMfio; (try dsimp only) <;> (repeat' split) <;> simp
@[simp] theorem State.driveMfio_fresh (x1 : Nat) (x2 : Bool) : (State.driveMfio s x1 x2).fresh = s.fresh := by unfold State.driveMfio; (try dsimp only) <;> (repeat' split) <;> simp
@[simp] theorem State.driveMfio_pending (x1 : Nat) (x2 : Bool) : (State.driveMfio s x1 x2).pending = s.pending := by unfold State.driveMfio; (try dsimp only) <;> (repeat' split) <;> simp
@[simp] theorem State.abortAll_tb  : (State.abortAll s).tb = s.tb := by unfold State.abortAll; (try dsimp only) <;> (repeat' split) <;> simp
@[simp] theorem State.abortAll_pins  : (State.abortAll s).pins = s.pins := by unfold State.abortAll; (try dsimp only) <;> (repeat' split) <;> simp
@[simp] theorem State.abortAll_fc  : (State.abortAll s).fc = s.fc := by unfold State.abortAll; (try dsimp only) <;> (repeat' split) <;> simp
@[simp] theorem State.abortAll_isl  : (State.abortAll s).isl = s.isl := by unfold State.abortAll; (try dsimp only) <;> (repeat' split) <;> simp
@[simp] theorem State.abortAll_flash  : (State.abortAll s).flash = s.flash := by unfold State.abortAll; (try dsimp only) <;> (repeat' split) <;> simp
@[simp] theorem State.abortAll_boot  : (State.abortAll s).boot = s.boot := by unfold State.abortAll; (try dsimp only) <;> (repeat' split) <;> simp
@[simp] theorem State.abortAll_sec  : (State.abortAll s).sec = s.sec := by unfold State.abortAll; (try dsimp only) <;> (repeat' split) <;> simp
@[simp] theorem State.abortAll_cores  : (State.abortAll s).cores = s.cores := by unfold State.abortAll; (try dsimp only) <;> (repeat' split) <;> simp
@[simp] theorem State.abortAll_sched  : (State.abortAll s).sched = s.sched := by unfold State.abortAll; (try dsimp only) <;> (repeat' split) <;> simp
@[simp] theorem State.abortAll_ctx  : (State.abortAll s).ctx = s.ctx := by unfold State.abortAll; (try dsimp only) <;> (repeat' split) <;> simp
@[simp] theorem State.abortAll_spring  : (State.abortAll s).spring = s.spring := by unfold State.abortAll; (try dsimp only) <;> (repeat' split) <;> simp
@[simp] theorem State.abortAll_radio  : (State.abortAll s).radio = s.radio := by unfold State.abortAll; (try dsimp only) <;> (repeat' split) <;> simp
@[simp] theorem State.abortAll_mem  : (State.abortAll s).mem = s.mem := by unfold State.abortAll; (try dsimp only) <;> (repeat' split) <;> simp
@[simp] theorem State.abortAll_fab  : (State.abortAll s).fab = s.fab := by unfold State.abortAll; (try dsimp only) <;> (repeat' split) <;> simp
@[simp] theorem State.abortAll_pwr  : (State.abortAll s).pwr = s.pwr := by unfold State.abortAll; (try dsimp only) <;> (repeat' split) <;> simp
@[simp] theorem State.abortAll_evSeq  : (State.abortAll s).evSeq = s.evSeq := by unfold State.abortAll; (try dsimp only) <;> (repeat' split) <;> simp
@[simp] theorem State.abortAll_events  : (State.abortAll s).events = s.events := by unfold State.abortAll; (try dsimp only) <;> (repeat' split) <;> simp
@[simp] theorem State.abortAll_fresh  : (State.abortAll s).fresh = s.fresh := by unfold State.abortAll; (try dsimp only) <;> (repeat' split) <;> simp
@[simp] theorem State.abortAll_pending  : (State.abortAll s).pending = s.pending := by unfold State.abortAll; (try dsimp only) <;> (repeat' split) <;> simp

end Sys2Proof.Machine
end

