-- ==== Sys2Proof/Laws/Memory.lean ====
section
/-! SUPPORT. Memory: every operation keeps the canonical form, a read after a write of the same byte gives the byte written, and
a write leaves every other byte alone. -/

-- One declaration at a time, so that few threads hold memory at once.
set_option Elab.async false

namespace Sys2Proof.Machine

/-- The canonical form, said of every entry. -/
theorem sparseWf_iff {α : Type} [DecidableEq α] {d : α} {m : Sparse α} :
    sparseWf d m = true ↔ m.Pairwise (fun a b => a.1 < b.1) ∧ ∀ kv ∈ m, kv.2 ≠ d := by
  induction m with
  | nil => simp [sparseWf]
  | cons p t ih =>
    cases t with
    | nil => obtain ⟨k, v⟩ := p; simp [sparseWf]
    | cons q t =>
      obtain ⟨k, v⟩ := p
      obtain ⟨k', v'⟩ := q
      simp only [sparseWf, Bool.and_eq_true, decide_eq_true_eq, ih, List.pairwise_cons, List.mem_cons, forall_eq_or_imp] at *
      constructor
      · rintro ⟨⟨h1, h2⟩, h3, h4⟩
        exact ⟨⟨⟨h1, fun a ha => lt_trans h1 (h3.1 a ha)⟩, h3⟩, h2, h4⟩
      · rintro ⟨⟨⟨h1, _⟩, h3⟩, h2, h4⟩
        exact ⟨⟨h1, h2⟩, h3, h4⟩

theorem sparseWf_filter {α : Type} [DecidableEq α] {d : α} {m : Sparse α} (h : sparseWf d m = true) (p : Nat × α → Bool) :
    sparseWf d (m.filter p) = true := by
  rw [sparseWf_iff] at *
  exact ⟨h.1.filter p, fun kv hk => h.2 kv (List.mem_filter.1 hk).1⟩

theorem sput_pairwise {α : Type} {m : Sparse α} (h : m.Pairwise (fun a b => a.1 < b.1)) (i : Nat) (v : α) :
    (sput m i v).Pairwise (fun a b => a.1 < b.1) := by
  induction m with
  | nil => simp [sput]
  | cons p t ih =>
    obtain ⟨k, w⟩ := p
    have hp := List.pairwise_cons.1 h
    unfold sput
    split
    · rename_i hik
      refine List.pairwise_cons.2 ⟨fun a ha => ?_, h⟩
      rcases List.mem_cons.1 ha with rfl | ha
      · exact hik
      · exact lt_trans hik (hp.1 a ha)
    · split
      · rename_i e
        subst e
        exact List.pairwise_cons.2 ⟨hp.1, hp.2⟩
      · refine List.pairwise_cons.2 ⟨fun a ha => ?_, ih hp.2⟩
        rcases mem_sput ha with rfl | ha
        · show k < i
          omega
        · exact hp.1 a ha

theorem sdel_sublist {α : Type} (m : Sparse α) (i : Nat) : (sdel m i).Sublist m := by
  induction m with
  | nil => exact List.Sublist.refl _
  | cons p t ih =>
    unfold sdel
    split
    · exact ih.cons _
    · exact ih.cons_cons _

theorem sparseWf_sput {α : Type} [DecidableEq α] {d : α} {m : Sparse α} (h : sparseWf d m = true) {i : Nat} {v : α}
    (hv : v ≠ d) : sparseWf d (sput m i v) = true := by
  rw [sparseWf_iff] at *
  refine ⟨sput_pairwise h.1 i v, fun kv hk => ?_⟩
  rcases mem_sput hk with rfl | hk
  · exact hv
  · exact h.2 kv hk

theorem sparseWf_sdel {α : Type} [DecidableEq α] {d : α} {m : Sparse α} (h : sparseWf d m = true) (i : Nat) :
    sparseWf d (sdel m i) = true := by
  rw [sparseWf_iff] at *
  exact ⟨h.1.sublist (sdel_sublist m i), fun kv hk => h.2 kv (mem_sdel hk)⟩

theorem sparseWf_sset {α : Type} [DecidableEq α] {d : α} {m : Sparse α} (h : sparseWf d m = true) (i : Nat) (v : α) :
    sparseWf d (sset d m i v) = true := by
  unfold sset
  split
  · exact sparseWf_sdel h i
  · exact sparseWf_sput h (by assumption)

/-! ## Reading after writing -/

theorem sfind_sput_same {α : Type} (m : Sparse α) (i : Nat) (v : α) : sfind (sput m i v) i = some v := by
  induction m with
  | nil => simp [sput, sfind]
  | cons p t ih =>
    obtain ⟨k, w⟩ := p
    unfold sput
    split
    · simp [sfind]
    · split
      · simp [sfind]
      · simp [sfind, *]

theorem sfind_sput_other {α : Type} (m : Sparse α) {i j : Nat} (v : α) (h : j ≠ i) : sfind (sput m i v) j = sfind m j := by
  induction m with
  | nil => simp [sput, sfind, h]
  | cons p t ih =>
    obtain ⟨k, w⟩ := p
    unfold sput
    split
    · simp [sfind, h]
    · split
      · rename_i e; subst e; simp [sfind, h]
      · simp [sfind, ih]

theorem sfind_sdel_other {α : Type} (m : Sparse α) {i j : Nat} (h : j ≠ i) : sfind (sdel m i) j = sfind m j := by
  induction m with
  | nil => rfl
  | cons p t ih =>
    obtain ⟨k, w⟩ := p
    unfold sdel
    split
    · rename_i e; subst e; simp [sfind, h, ih]
    · simp [sfind, ih]

theorem sfind_none {α : Type} {m : Sparse α} {i : Nat} (h : ∀ kv ∈ m, i < kv.1) : sfind m i = none := by
  induction m with
  | nil => rfl
  | cons p t ih =>
    obtain ⟨k, w⟩ := p
    have := h (k, w) (by simp)
    unfold sfind
    split
    · simp at this; omega
    · exact ih (fun kv hk => h kv (List.mem_cons_of_mem _ hk))

theorem sfind_sdel_same {α : Type} (m : Sparse α) (i : Nat) : sfind (sdel m i) i = none := by
  induction m with
  | nil => rfl
  | cons p t ih =>
    obtain ⟨k, w⟩ := p
    unfold sdel
    split
    · exact ih
    · simp [sfind, *]

/-- A table reads back what was written, and at every other key what it read before. -/
theorem sget_sset {α : Type} [DecidableEq α] (d : α) (m : Sparse α) (i j : Nat) (v : α) :
    sget d (sset d m i v) j = if j = i then v else sget d m j := by
  unfold sget sset
  by_cases hj : j = i
  · subst hj
    by_cases hv : v = d
    · simp [hv, sfind_sdel_same]
    · simp [hv, sfind_sput_same]
  · by_cases hv : v = d
    · simp [hv, hj, sfind_sdel_other _ hj]
    · simp [hv, hj, sfind_sput_other _ _ hj]

theorem Mem.Ok.data {m : Mem} (h : m.Ok) : sparseWf (0 : Byte) m.data = true := by
  unfold Mem.Ok Mem.wf at h
  exact (Bool.and_eq_true _ _ ▸ h).1

theorem Mem.Ok.synd {m : Mem} (h : m.Ok) : sparseWf (0 : BitVec 8) m.synd = true := by
  unfold Mem.Ok Mem.wf at h
  exact (Bool.and_eq_true _ _ ▸ h).2

theorem Mem.Ok.mk {m : Mem} (h : sparseWf (0 : Byte) m.data = true) (h' : sparseWf (0 : BitVec 8) m.synd = true) : m.Ok := by
  unfold Mem.Ok Mem.wf
  rw [h, h']
  rfl

theorem Mem.byte_setByte_same (m : Mem) (a : Nat) (b : Byte) : (m.setByte a b).byte a = b := by
  unfold Mem.byte Mem.setByte; rw [sget_sset, if_pos rfl]

theorem Mem.byte_setByte_other (m : Mem) {a c : Nat} (b : Byte) (h : c ≠ a) : (m.setByte a b).byte c = m.byte c := by
  unfold Mem.byte Mem.setByte; rw [sget_sset, if_neg h]

/-! ## The canonical form is kept -/

theorem Mem.Ok.setByte {m : Mem} (h : m.Ok) (a : Nat) (b : Byte) : (m.setByte a b).Ok := .mk (sparseWf_sset h.data a b) h.synd

theorem Mem.Ok.setBytes {m : Mem} (h : m.Ok) (a : Nat) (bs : Bytes) : (m.setBytes a bs).Ok := by
  induction bs generalizing m a with
  | nil => exact h
  | cons b bs ih => exact ih (h.setByte a b) (a + 1)

theorem Mem.Ok.poisonWord {m : Mem} (h : m.Ok) (w : Nat) : (m.poisonWord w).Ok := .mk h.data (sparseWf_sset h.synd w 0x7F)

theorem Mem.Ok.upset {m : Mem} (h : m.Ok) (w : Nat) (u : BitVec 40) : (m.upset w u).Ok := by
  unfold Mem.upset
  dsimp only
  split
  · exact h
  · exact .mk (h.setBytes _ _).data (sparseWf_sset h.synd _ _)

theorem Mem.Ok.fix {m : Mem} (h : m.Ok) (w : Nat) : (m.fix w).Ok := by
  unfold Mem.fix
  split
  · exact .mk (h.setBytes _ _).data (sparseWf_sdel h.synd _)
  · exact h

theorem Mem.Ok.rewrite {m : Mem} (h : m.Ok) (poisoned : Bool) (a n w : Nat) : (m.rewrite poisoned a n w).Ok := by
  unfold Mem.rewrite
  split
  · exact h.poisonWord w
  · split
    · exact .mk h.data (sparseWf_sdel h.synd _)
    · split
      · exact h
      · exact .mk (h.setBytes _ _).data (sparseWf_sdel h.synd _)
      · exact h.poisonWord w

theorem Mem.Ok.foldl {α : Type} {f : Mem → α → Mem} {l : List α} {m : Mem} (h : m.Ok) (hf : ∀ t x, t.Ok → (f t x).Ok) :
    (l.foldl f m).Ok := by
  induction l generalizing m with
  | nil => exact h
  | cons x l ih => exact ih (hf m x h)

theorem Mem.Ok.write {m : Mem} (h : m.Ok) (a : Nat) (bs : Bytes) (poisoned : Bool) : (m.write a bs poisoned).Ok := by
  unfold Mem.write
  refine Mem.Ok.setBytes ?_ a bs
  split
  · exact h
  · exact h.foldl (fun t x ht => ht.rewrite _ _ _ _)

theorem Mem.Ok.zeroRange {m : Mem} (h : m.Ok) (a n : Nat) : (m.zeroRange a n).Ok :=
  .mk (sparseWf_filter h.data _) (sparseWf_filter h.synd _)

/-- Entries set one after another keep the canonical form. -/
theorem sparseWf_foldl_sset {α β : Type} [DecidableEq α] {d : α} {l : List β} {k : β → Nat} {v : β → α} {m : Sparse α} (h : sparseWf d m = true) :
    sparseWf d (l.foldl (fun m x => sset d m (k x) (v x)) m) = true := by
  induction l generalizing m with
  | nil => exact h
  | cons x l ih => exact ih (sparseWf_sset h _ _)

/-- Entries of one value other than the default put one after another keep the canonical form. -/
theorem sparseWf_foldl_sput {α β : Type} [DecidableEq α] {d v : α} {l : List β} {k : β → Nat} {m : Sparse α} (h : sparseWf d m = true) (hv : v ≠ d) :
    sparseWf d (l.foldl (fun m x => sput m (k x) v) m) = true := by
  induction l generalizing m with
  | nil => exact h
  | cons x l ih => exact ih (sparseWf_sput h hv)

theorem Mem.Ok.copyRange {m : Mem} (h : m.Ok) (src dst len : Nat) : (m.copyRange src dst len).Ok := by
  unfold Mem.copyRange
  dsimp only
  have h1 := h.foldl (l := m.synd.filter (fun e => decide (src / 4 ≤ e.1) && decide (e.1 < (src + len) / 4))) (f := fun t e => t.fix e.1)
    (fun t x ht => ht.fix _)
  exact .mk (sparseWf_foldl_sset (sparseWf_filter h1.data _)) (sparseWf_foldl_sput (sparseWf_filter h1.synd _) (by decide))

theorem Mem.Ok.swapRanges {m : Mem} (h : m.Ok) (a b len : Nat) : (m.swapRanges a b len).Ok := by
  unfold Mem.swapRanges
  dsimp only
  have h1 := h.foldl (f := fun t e => t.fix e.1) (fun t (x : Nat × BitVec 8) ht => ht.fix x.1)
    (l := m.synd.filter (fun e => decide (a ≤ 4 * e.1) && decide (4 * e.1 < a + len) || decide (b ≤ 4 * e.1) && decide (4 * e.1 < b + len)))
  exact .mk (sparseWf_foldl_sset (sparseWf_filter h1.data _)) (sparseWf_foldl_sput (sparseWf_filter h1.synd _) (by decide))

end Sys2Proof.Machine
end

