-- ==== Sys2Proof/Laws/Power.lean ====
section
/-! SUPPORT. The throttle level and what follows it under the operations of R518 and R522. -/

-- One declaration at a time, so that few threads hold memory at once.
set_option Elab.async false

namespace Sys2Proof.Machine

theorem Power.setLevel_level (p : Power) (l : Nat) : (p.setLevel l).level = l := rfl

theorem Power.setLevel_appClock (p : Power) (l : Nat) : (p.setLevel l).appClock = l - 6 := rfl

/-- Level 8 at once, R522. -/
theorem Power.Ok.full {p : Power} (_ : p.Ok) : (p.setLevel 8).Ok := ⟨le_refl 8, rfl, fun _ => rfl⟩

/-- One evaluation of R518. -/
theorem Power.Ok.evaluate {p : Power} (h : p.Ok) (now est cap : Nat) : (p.evaluate now est cap).Ok := by
  have h8 := h.level
  have hc := h.clock
  unfold Power.evaluate
  have key : ∀ (q : Power) (c : Bool), q.level ≤ 8 → q.appClock = q.level - 6 → { q with unmet := q.level == 8 && c }.Ok :=
    fun q c hl hq => ⟨hl, hq, fun hu => by simp only [Bool.and_eq_true, beq_iff_eq] at hu; exact hu.1⟩
  refine key _ _ ?_ ?_
  · repeat' split
    all_goals simp only [Power.setLevel] at *
    all_goals omega
  · repeat' split
    all_goals simp only [Power.setLevel] at *
    all_goals omega

theorem Power.Ok.beginThermal {p : Power} (h : p.Ok) (now : Nat) : (p.beginThermal now).Ok := by
  unfold Power.beginThermal
  split
  · exact h
  · exact ⟨h.level, h.clock, h.unmet⟩

/-- A slot's contents are not in the OTP. -/
theorem Flash.OtpLe.slot {f : Flash} {b : Bool} {g : List Host.Cell → List Host.Cell} : f.OtpLe (f.onSlot b g) := by
  cases b <;> exact ⟨le_refl _, ⟨rfl, rfl, rfl, rfl⟩, ⟨rfl, rfl, rfl⟩⟩

end Sys2Proof.Machine
end

