-- ==== Sys2Proof/Laws/KeptOps.lean ====
section
/-! SUPPORT. What the operations of Machine/Ops.lean keep. -/

-- One declaration at a time, so that few threads hold memory at once.
set_option Elab.async false

namespace Sys2Proof.Machine

set_option linter.unusedTactic false
set_option linter.unreachableTactic false

theorem Kept.setEntry {s t : State} {key : Nat} {v : Bytes} (h : Kept s t) : Kept s (State.setEntry t key v) := by
  unfold State.setEntry
  try dsimp only
  repeat' first
    | with_reducible assumption
    | (with_reducible refine Kept.dictSame ?_ rfl)
    | with_reducible apply Kept.onDict
    | with_reducible apply Kept.foldl
    | with_reducible apply Kept.foldlFst
    | with_reducible apply Kept.getD
    | with_reducible apply Kept.elim
    | split
    | intro _

theorem Kept.takeSeq {s t : State} {loc : Nat} (h : Kept s t) : Kept s (State.takeSeq t loc) := by
  exact h.trans ⟨rfl, List.prefix_rfl, List.prefix_rfl, id, id, id, id, id, id, .rfl'⟩

theorem Kept.logEvent {s t : State} {loc : Nat} {cls : Nat} {what : What} {args : List Nat} (h : Kept s t) : Kept s (State.logEvent t loc cls what args) := by
  exact h.trans ⟨rfl, List.prefix_append .., List.prefix_rfl, id, id, id, id, id, id, .rfl'⟩

theorem Kept.logChange {s t : State} {time : Nat} {c : Change} (h : Kept s t) : Kept s (State.logChange t time c) := by
  unfold State.logChange
  refine Kept.onDict h fun _ => ?_
  unfold Dict.Ok
  simp only [List.length_drop, List.length_append, List.length_singleton]
  omega

theorem Kept.setDevState {s t : State} {d : DevState} (h : Kept s t) : Kept s (State.setDevState t d) := by
  unfold State.setDevState
  try dsimp only
  repeat' first
    | with_reducible assumption
    | (with_reducible refine Kept.dictSame ?_ rfl)
    | with_reducible apply Kept.logChange
    | with_reducible apply Kept.onDict
    | with_reducible apply Kept.foldl
    | with_reducible apply Kept.foldlFst
    | with_reducible apply Kept.getD
    | with_reducible apply Kept.elim
    | split
    | intro _

theorem Kept.fold {s t : State} {slot : Nat} {w : ReportIn} (h : Kept s t) : Kept s (State.fold t slot w) := by
  unfold State.fold
  split
  · exact h
  · rename_i p hp
    dsimp only
    split
    · refine Kept.takeSeq (Kept.onFc (Kept.onFc h fun x => ?_) fun x => x.ring _)
      exact x.putSame hp rfl rfl rfl rfl
    · exact Kept.onFc h fun x => x.putSame hp rfl rfl rfl rfl

theorem Kept.foldWaiting {s t : State} {f slot : Nat} {u : BitVec 12} (h : Kept s t) : Kept s (State.foldWaiting f t slot u) := by
  induction f generalizing t u with
  | zero => exact h
  | succ f ih =>
    unfold State.foldWaiting
    split
    · exact h
    · exact Kept.foldl (Kept.fcSame h rfl rfl rfl) fun v x hv => ih hv.fold

theorem Kept.foldReport {s t : State} {slot : Nat} {w : ReportIn} (h : Kept s t) : Kept s (State.foldReport t slot w) := by
  unfold State.foldReport
  try dsimp only
  repeat' first
    | with_reducible assumption
    | with_reducible apply Kept.foldWaiting
    | with_reducible apply Kept.fold
    | with_reducible apply Kept.foldl
    | with_reducible apply Kept.foldlFst
    | with_reducible apply Kept.getD
    | with_reducible apply Kept.elim
    | split
    | intro _

theorem Kept.makePrimary {s t : State} {stamp : Nat} {made : Nat} {r : ReportIn} {promoted : Bool} {active : Bool} (h : Kept s t) : Kept s (State.makePrimary t stamp made r promoted active) := by
  unfold State.makePrimary
  dsimp only
  have h1 := Kept.takeSeq (loc := srcFc) (Kept.onFc
    (f := fun c => c.takePrimary t.fc.freeSlot (t.primaryOf stamp made r promoted active)) h fun x => x.takePrimary t.fc.freeSlot (t.primaryOf stamp made r promoted active))
  split
  · exact h1
  · exact h1.foldWaiting

theorem Kept.enterSafe {s t : State} (h : Kept s t) : Kept s (State.enterSafe t) := by
  unfold State.enterSafe
  split
  · exact h
  · have k := h.setDevState (d := .safe)
    exact ⟨k.queue, k.events, k.sent, k.time, k.pwr, k.fc, k.dict, k.mem, fun x => by simpa using h.cores x, k.otp⟩

theorem Kept.react {s t : State} {cls : Nat} (h : Kept s t) : Kept s (State.react t cls) := by
  unfold State.react
  try dsimp only
  repeat' first
    | with_reducible assumption
    | with_reducible apply Kept.setDevState
    | with_reducible apply Kept.enterSafe
    | with_reducible apply Kept.foldl
    | with_reducible apply Kept.foldlFst
    | with_reducible apply Kept.getD
    | with_reducible apply Kept.elim
    | split
    | intro _

theorem Kept.reportWith {s t : State} {r : ReportIn} {active : Bool} (h : Kept s t) : Kept s (State.reportWith t r active) := by
  unfold State.reportWith
  dsimp only
  refine Kept.react (Kept.onFc ?_ fun x => x.settle)
  split
  · exact h.makePrimary
  · have h0 : ∀ {u : State}, Kept s u → Kept s (u.onFc fun c => { c with status := c.status ||| (1#36 <<< r.group.toNat) }) :=
      fun hu => Kept.onFc hu fun x => x.more (fun kv hk => ⟨kv, hk, rfl⟩) rfl (fun g hg => by simp [hg])
    split
    · exact (h0 h).foldReport
    · exact Kept.fcSame (h0 h) rfl rfl rfl

theorem Kept.report {s t : State} {r : ReportIn} (h : Kept s t) : Kept s (State.report t r) := by
  unfold State.report
  try dsimp only
  repeat' first
    | with_reducible assumption
    | with_reducible apply Kept.reportWith
    | with_reducible apply Kept.foldl
    | with_reducible apply Kept.foldlFst
    | with_reducible apply Kept.getD
    | with_reducible apply Kept.elim
    | split
    | intro _

theorem Kept.raise {s t : State} {loc : Nat} {group : Nat} {code : Nat} {cls : Nat} {detail : Nat} (h : Kept s t) : Kept s (State.raise t loc group code cls detail) := by
  unfold State.raise
  try dsimp only
  repeat' first
    | with_reducible assumption
    | with_reducible apply Kept.report
    | with_reducible apply Kept.foldl
    | with_reducible apply Kept.foldlFst
    | with_reducible apply Kept.getD
    | with_reducible apply Kept.elim
    | split
    | intro _

theorem Kept.raiseCtx {s t : State} {loc : Nat} {group : Nat} {code : Nat} {cls : Nat} {ctx : Nat} {part : Nat} {detail : Nat} (h : Kept s t) : Kept s (State.raiseCtx t loc group code cls ctx part detail) := by
  unfold State.raiseCtx
  try dsimp only
  repeat' first
    | with_reducible assumption
    | with_reducible apply Kept.report
    | with_reducible apply Kept.foldl
    | with_reducible apply Kept.foldlFst
    | with_reducible apply Kept.getD
    | with_reducible apply Kept.elim
    | split
    | intro _

theorem Kept.promoteDue {s t : State} (h : Kept s t) : Kept s (State.promoteDue t) := by
  unfold State.promoteDue
  refine Kept.foldl h fun u x hu => ?_
  split
  · exact Kept.onFc (Kept.makePrimary (Kept.fcSame hu rfl rfl rfl)) fun x => x.settle
  · exact hu

end Sys2Proof.Machine
end

