-- ==== Sys2Proof/Laws/KeptMemOps.lean ====
section
/-! SUPPORT. What the operations of Machine/MemOps.lean keep. -/

-- One declaration at a time, so that few threads hold memory at once.
set_option Elab.async false

namespace Sys2Proof.Machine

set_option linter.unusedTactic false
set_option linter.unreachableTactic false

theorem Kept.ccErrWith {s t : State} {n : Nat} {b : Nat} {cls : Nat} {blame : Option (BitVec 12)} {ctx : Nat} {part : Nat} {detail : Nat} (h : Kept s t) : Kept s (State.ccErrWith t n b cls blame ctx part detail) := by
  unfold State.ccErrWith
  try dsimp only
  repeat' first
    | with_reducible assumption
    | with_reducible apply Kept.report
    | with_reducible apply Kept.onCore
    | with_reducible apply Kept.foldl
    | with_reducible apply Kept.foldlFst
    | with_reducible apply Kept.getD
    | with_reducible apply Kept.elim
    | split
    | intro _

theorem Kept.ccErr {s t : State} {n : Nat} {b : Nat} {detail : Nat} (h : Kept s t) : Kept s (State.ccErr t n b detail) := by
  unfold State.ccErr
  try dsimp only
  repeat' first
    | with_reducible assumption
    | with_reducible apply Kept.ccErrWith
    | with_reducible apply Kept.foldl
    | with_reducible apply Kept.foldlFst
    | with_reducible apply Kept.getD
    | with_reducible apply Kept.elim
    | split
    | intro _

theorem Kept.onLake {s t : State} {ch : Nat} {f : LakeCh → LakeCh} (h : Kept s t) : Kept s (State.onLake t ch f) := by
  unfold State.onLake
  try dsimp only
  repeat' first
    | with_reducible assumption
    | (with_reducible refine Kept.memSame ?_ rfl rfl)
    | with_reducible apply Kept.onMem
    | with_reducible apply Kept.foldl
    | with_reducible apply Kept.foldlFst
    | with_reducible apply Kept.getD
    | with_reducible apply Kept.elim
    | split
    | intro _

theorem Kept.lakeCount {s t : State} {ch : Nat} {i : Nat} (h : Kept s t) : Kept s (State.lakeCount t ch i) := by
  unfold State.lakeCount
  try dsimp only
  repeat' first
    | with_reducible assumption
    | with_reducible apply Kept.onLake
    | with_reducible apply Kept.foldl
    | with_reducible apply Kept.foldlFst
    | with_reducible apply Kept.getD
    | with_reducible apply Kept.elim
    | split
    | intro _

theorem Kept.lakeReport {s t : State} {ch : Nat} {code : Nat} {cls : Nat} {detail : Nat} (h : Kept s t) : Kept s (State.lakeReport t ch code cls detail) := by
  unfold State.lakeReport
  try dsimp only
  repeat' first
    | with_reducible assumption
    | with_reducible apply Kept.raise
    | with_reducible apply Kept.foldl
    | with_reducible apply Kept.foldlFst
    | with_reducible apply Kept.getD
    | with_reducible apply Kept.elim
    | split
    | intro _

theorem Kept.retireUnit {s t : State} {ch : Nat} {u1 : Nat} (h : Kept s t) : Kept s (State.retireUnit t ch u1) := by
  unfold State.retireUnit
  try dsimp only
  repeat' first
    | with_reducible assumption
    | with_reducible apply Kept.lakeReport
    | with_reducible apply Kept.lakeCount
    | with_reducible apply Kept.onLake
    | with_reducible apply Kept.foldl
    | with_reducible apply Kept.foldlFst
    | with_reducible apply Kept.getD
    | with_reducible apply Kept.elim
    | split
    | intro _

theorem Kept.lakeCe {s t : State} {ch : Nat} {u1 : Nat} {granule : Nat} (h : Kept s t) : Kept s (State.lakeCe t ch u1 granule) := by
  unfold State.lakeCe
  try dsimp only
  repeat' first
    | with_reducible assumption
    | with_reducible apply Kept.onLake
    | with_reducible apply Kept.lakeReport
    | with_reducible apply Kept.lakeCount
    | with_reducible apply Kept.retireUnit
    | with_reducible apply Kept.foldl
    | with_reducible apply Kept.foldlFst
    | with_reducible apply Kept.getD
    | with_reducible apply Kept.elim
    | split
    | intro _

theorem Kept.reportCe {s t : State} {a : Nat} (h : Kept s t) : Kept s (State.reportCe t a) := by
  unfold State.reportCe
  try dsimp only
  repeat' first
    | with_reducible assumption
    | (with_reducible refine Kept.memSame ?_ rfl rfl)
    | with_reducible apply Kept.lakeCe
    | with_reducible apply Kept.raise
    | with_reducible apply Kept.onMem
    | with_reducible apply Kept.ccErr
    | with_reducible apply Kept.foldl
    | with_reducible apply Kept.foldlFst
    | with_reducible apply Kept.getD
    | with_reducible apply Kept.elim
    | split
    | intro _

theorem Kept.reportUe {s t : State} {a : Nat} (h : Kept s t) : Kept s (State.reportUe t a) := by
  unfold State.reportUe
  try dsimp only
  repeat' first
    | with_reducible assumption
    | (with_reducible refine Kept.memSame ?_ rfl rfl)
    | with_reducible apply Kept.lakeReport
    | with_reducible apply Kept.lakeCount
    | with_reducible apply Kept.raise
    | with_reducible apply Kept.onMem
    | with_reducible apply Kept.foldl
    | with_reducible apply Kept.foldlFst
    | with_reducible apply Kept.getD
    | with_reducible apply Kept.elim
    | split
    | intro _

theorem Kept.reportPoison {s t : State} {a : Nat} (h : Kept s t) : Kept s (State.reportPoison t a) := by
  unfold State.reportPoison
  try dsimp only
  repeat' first
    | with_reducible assumption
    | (with_reducible refine Kept.memSame ?_ rfl rfl)
    | with_reducible apply Kept.lakeReport
    | with_reducible apply Kept.lakeCount
    | with_reducible apply Kept.raise
    | with_reducible apply Kept.onMem
    | with_reducible apply Kept.foldl
    | with_reducible apply Kept.foldlFst
    | with_reducible apply Kept.getD
    | with_reducible apply Kept.elim
    | split
    | intro _

theorem Kept.readWord {s t : State} {a : Nat} (h : Kept s t) : Kept s (State.readWord t a).1 := by
  unfold State.readWord
  dsimp only
  split
  · exact h
  · exact (Kept.onMem h fun x => x.fix _).reportCe
  · exact h.reportUe
  · exact h.reportPoison

theorem Kept.mergeReads {s t : State} {a : Nat} {n : Nat} (h : Kept s t) : Kept s (State.mergeReads t a n) := by
  unfold State.mergeReads
  try dsimp only
  repeat' first
    | with_reducible assumption
    | with_reducible apply Kept.readWord
    | with_reducible apply Kept.foldl
    | with_reducible apply Kept.foldlFst
    | with_reducible apply Kept.getD
    | with_reducible apply Kept.elim
    | split
    | intro _

theorem Kept.poke {s t : State} {a : Nat} {bs : Bytes} {poisoned : Bool} (h : Kept s t) : Kept s (State.poke t a bs poisoned) := by
  unfold State.poke
  exact Kept.onMem h.mergeReads fun x => Mem.Ok.foldl x fun m p hm => hm.write _ _ _

theorem Kept.readMem {s t : State} {a : Nat} {n : Nat} (h : Kept s t) : Kept s (State.readMem t a n).1 := by
  unfold State.readMem
  split
  · exact h
  · rename_i hc
    clear hc
    dsimp only
    generalize (none : Option Nat) = o
    induction wordsOf a n generalizing t o with
    | nil => exact h
    | cons w l ih => rw [List.foldl_cons]; exact ih h.readWord _

theorem Kept.refuse {s t : State} {by_ : Initiator} {part : Nat} {a : Nat} {write : Bool} {q : Option Nat} (h : Kept s t) : Kept s (State.refuse t by_ part a write q) := by
  unfold State.refuse
  dsimp only
  refine Kept.raiseCtx (Kept.onMem h fun x => ?_)
  refine .mk ?_ ?_
  · have := x.data
    cases q <;> dsimp only <;> split <;> exact this
  · have := x.synd
    cases q <;> dsimp only <;> split <;> exact this

theorem Kept.charge {s t : State} {part : Nat} {a : Nat} {n : Nat} (h : Kept s t) : Kept s (State.charge t part a n) := by
  unfold State.charge
  try dsimp only
  repeat' first
    | with_reducible assumption
    | (with_reducible refine Kept.memSame ?_ rfl rfl)
    | with_reducible apply Kept.onMem
    | with_reducible apply Kept.foldl
    | with_reducible apply Kept.foldlFst
    | with_reducible apply Kept.getD
    | with_reducible apply Kept.elim
    | split
    | intro _

theorem Kept.lakeTouch {s t : State} {ch : Nat} {off : Nat} (h : Kept s t) : Kept s (State.lakeTouch t ch off) := by
  unfold State.lakeTouch
  try dsimp only
  repeat' first
    | with_reducible assumption
    | with_reducible apply Kept.onLake
    | with_reducible apply Kept.foldl
    | with_reducible apply Kept.foldlFst
    | with_reducible apply Kept.getD
    | with_reducible apply Kept.elim
    | split
    | intro _

theorem Kept.lpTouch {s t : State} {off : Nat} (h : Kept s t) : Kept s (State.lpTouch t off) := by
  unfold State.lpTouch
  try dsimp only
  repeat' first
    | with_reducible assumption
    | (with_reducible refine Kept.memSame ?_ rfl rfl)
    | with_reducible apply Kept.onMem
    | with_reducible apply Kept.foldl
    | with_reducible apply Kept.foldlFst
    | with_reducible apply Kept.getD
    | with_reducible apply Kept.elim
    | split
    | intro _

theorem Kept.touch {s t : State} {a : Nat} {write : Bool} (h : Kept s t) : Kept s (State.touch t a write) := by
  unfold State.touch
  try dsimp only
  repeat' first
    | with_reducible assumption
    | with_reducible apply Kept.lakeTouch
    | with_reducible apply Kept.lpTouch
    | with_reducible apply Kept.foldl
    | with_reducible apply Kept.foldlFst
    | with_reducible apply Kept.getD
    | with_reducible apply Kept.elim
    | split
    | intro _

theorem Kept.louvre {s t : State} {part : Nat} {a : Nat} {n : Nat} {write : Bool} (h : Kept s t) : Kept s (State.louvre t part a n write) := by
  unfold State.louvre
  try dsimp only
  repeat' first
    | with_reducible assumption
    | with_reducible apply Kept.touch
    | with_reducible apply Kept.charge
    | with_reducible apply Kept.foldl
    | with_reducible apply Kept.foldlFst
    | with_reducible apply Kept.getD
    | with_reducible apply Kept.elim
    | split
    | intro _

end Sys2Proof.Machine
end

