-- ==== Sys2Proof/Laws/KeptGroupOps.lean ====
section
/-! SUPPORT. What the operations of Machine/GroupOps.lean keep. -/

-- One declaration at a time, so that few threads hold memory at once.
set_option Elab.async false

namespace Sys2Proof.Machine

set_option linter.unusedTactic false
set_option linter.unreachableTactic false

theorem Kept.onGroup {s t : State} {g : Nat} {f : GroupRt → GroupRt} (h : Kept s t) : Kept s (State.onGroup t g f) := by
  unfold State.onGroup
  try dsimp only
  repeat' first
    | with_reducible assumption
    | with_reducible apply Kept.onSched
    | with_reducible apply Kept.foldl
    | with_reducible apply Kept.foldlFst
    | with_reducible apply Kept.getD
    | with_reducible apply Kept.elim
    | split
    | intro _

theorem Kept.busWrite {s t : State} {by_ : Initiator} {a : Nat} {bs : Bytes} {poisoned : Bool} (h : Kept s t) : Kept s (State.busWrite t by_ a bs poisoned) := by
  unfold State.busWrite
  try dsimp only
  repeat' first
    | with_reducible assumption
    | with_reducible apply Kept.poke
    | with_reducible apply Kept.onCore
    | with_reducible apply Kept.foldl
    | with_reducible apply Kept.foldlFst
    | with_reducible apply Kept.getD
    | with_reducible apply Kept.elim
    | split
    | intro _

end Sys2Proof.Machine
end

