-- ==== Sys2Proof/Laws/KeptWindowOps.lean ====
section
/-! SUPPORT. What the operations of Machine/WindowOps.lean keep. -/

-- One declaration at a time, so that few threads hold memory at once.
set_option Elab.async false

namespace Sys2Proof.Machine

set_option linter.unusedTactic false
set_option linter.unreachableTactic false

theorem Kept.onAcct {s t : State} {p : Nat} {f : Acct → Acct} (h : Kept s t) : Kept s (State.onAcct t p f) := by
  unfold State.onAcct
  try dsimp only
  repeat' first
    | with_reducible assumption
    | with_reducible apply Kept.onSched
    | with_reducible apply Kept.foldl
    | with_reducible apply Kept.foldlFst
    | with_reducible apply Kept.getD
    | with_reducible apply Kept.elim
    | split
    | intro _

theorem Kept.engineWrite {s t : State} {ebit : Nat} {src : Nat} {a : Nat} {bs : Bytes} (h : Kept s t) : Kept s (State.engineWrite t ebit src a bs).1 := by
  unfold State.engineWrite
  try dsimp only
  repeat' first
    | with_reducible assumption
    | with_reducible apply Kept.louvre
    | with_reducible apply Kept.busWrite
    | with_reducible apply Kept.raise
    | with_reducible apply Kept.logEvent
    | with_reducible apply Kept.refuse
    | with_reducible apply Kept.foldl
    | with_reducible apply Kept.foldlFst
    | with_reducible apply Kept.getD
    | with_reducible apply Kept.elim
    | split
    | intro _

theorem Kept.engineRead {s t : State} {ebit : Nat} {src : Nat} {a : Nat} {n : Nat} (h : Kept s t) : Kept s (State.engineRead t ebit src a n).1 := by
  unfold State.engineRead
  try dsimp only
  repeat' first
    | with_reducible assumption
    | with_reducible apply Kept.readMem
    | with_reducible apply Kept.louvre
    | with_reducible apply Kept.raise
    | with_reducible apply Kept.logEvent
    | with_reducible apply Kept.refuse
    | with_reducible apply Kept.foldl
    | with_reducible apply Kept.foldlFst
    | with_reducible apply Kept.getD
    | with_reducible apply Kept.elim
    | split
    | intro _

theorem Kept.onWindow {s t : State} {p : Nat} {f : Window → Window} (h : Kept s t) : Kept s (State.onWindow t p f) := by
  unfold State.onWindow
  try dsimp only
  repeat' first
    | with_reducible assumption
    | with_reducible apply Kept.onSched
    | with_reducible apply Kept.foldl
    | with_reducible apply Kept.foldlFst
    | with_reducible apply Kept.getD
    | with_reducible apply Kept.elim
    | split
    | intro _

theorem Kept.completeLanded {s t : State} {p : Nat} {c : Completion} (h : Kept s t) : Kept s (State.completeLanded t p c) := by
  unfold State.completeLanded
  try dsimp only
  repeat' first
    | with_reducible assumption
    | with_reducible apply Kept.onWindow
    | with_reducible apply Kept.emit
    | with_reducible apply Kept.foldl
    | with_reducible apply Kept.foldlFst
    | with_reducible apply Kept.getD
    | with_reducible apply Kept.elim
    | split
    | intro _

theorem Kept.writeCompletion {s t : State} {p : Nat} {c : Completion} (h : Kept s t) : Kept s (State.writeCompletion t p c) := by
  unfold State.writeCompletion
  try dsimp only
  repeat' first
    | with_reducible assumption
    | with_reducible apply Kept.onWindow
    | with_reducible apply Kept.engineWrite
    | with_reducible apply Kept.completeLanded
    | with_reducible apply Kept.foldl
    | with_reducible apply Kept.foldlFst
    | with_reducible apply Kept.getD
    | with_reducible apply Kept.elim
    | split
    | intro _

theorem Kept.complete {s t : State} {p : Nat} {seq : Word} {status : Nat} {result : Nat} (h : Kept s t) : Kept s (State.complete t p seq status result) := by
  unfold State.complete
  try dsimp only
  repeat' first
    | with_reducible assumption
    | with_reducible apply Kept.writeCompletion
    | with_reducible apply Kept.foldl
    | with_reducible apply Kept.foldlFst
    | with_reducible apply Kept.getD
    | with_reducible apply Kept.elim
    | split
    | intro _

theorem Kept.retryHeld {s t : State} {p : Nat} (h : Kept s t) : Kept s (State.retryHeld t p) := by
  unfold State.retryHeld
  try dsimp only
  repeat' first
    | with_reducible assumption
    | with_reducible apply Kept.writeCompletion
    | with_reducible apply Kept.onWindow
    | with_reducible apply Kept.foldl
    | with_reducible apply Kept.foldlFst
    | with_reducible apply Kept.getD
    | with_reducible apply Kept.elim
    | split
    | intro _

theorem Kept.onCtxEntry {s t : State} {id : Nat} {f : Ctx → Ctx} (h : Kept s t) : Kept s (State.onCtxEntry t id f) := by
  unfold State.onCtxEntry
  try dsimp only
  repeat' first
    | with_reducible assumption
    | with_reducible apply Kept.onCtx
    | with_reducible apply Kept.foldl
    | with_reducible apply Kept.foldlFst
    | with_reducible apply Kept.getD
    | with_reducible apply Kept.elim
    | split
    | intro _

theorem Kept.releaseRows {s t : State} {id : Nat} (h : Kept s t) : Kept s (State.releaseRows t id) := by
  unfold State.releaseRows
  try dsimp only
  repeat' first
    | with_reducible assumption
    | with_reducible apply Kept.onCtxEntry
    | with_reducible apply Kept.onCtx
    | with_reducible apply Kept.foldl
    | with_reducible apply Kept.foldlFst
    | with_reducible apply Kept.getD
    | with_reducible apply Kept.elim
    | split
    | intro _

theorem Kept.completeWaiters {s t : State} {id : Nat} {reason : Nat} (h : Kept s t) : Kept s (State.completeWaiters t id reason) := by
  unfold State.completeWaiters
  try dsimp only
  repeat' first
    | with_reducible assumption
    | with_reducible apply Kept.complete
    | with_reducible apply Kept.onCtx
    | with_reducible apply Kept.foldl
    | with_reducible apply Kept.foldlFst
    | with_reducible apply Kept.getD
    | with_reducible apply Kept.elim
    | split
    | intro _

theorem Kept.endCtx {s t : State} {id : Nat} {reason : Nat} (h : Kept s t) : Kept s (State.endCtx t id reason) := by
  unfold State.endCtx
  try dsimp only
  repeat' first
    | with_reducible assumption
    | with_reducible apply Kept.onCtxEntry
    | with_reducible apply Kept.releaseRows
    | with_reducible apply Kept.onCtx
    | with_reducible apply Kept.completeWaiters
    | with_reducible apply Kept.logEvent
    | with_reducible apply Kept.foldl
    | with_reducible apply Kept.foldlFst
    | with_reducible apply Kept.getD
    | with_reducible apply Kept.elim
    | split
    | intro _

end Sys2Proof.Machine
end

