-- ==== Sys2Proof/Laws/KeptCoreOps.lean ====
section
/-! SUPPORT. What the operations of Machine/CoreOps.lean keep. -/

-- One declaration at a time, so that few threads hold memory at once.
set_option Elab.async false

namespace Sys2Proof.Machine

set_option linter.unusedTactic false
set_option linter.unreachableTactic false

theorem Kept.pondRead {s t : State} {n : Nat} {off : Nat} {len : Nat} (h : Kept s t) : Kept s (State.pondRead t n off len).1 := by
  unfold State.pondRead
  try dsimp only
  repeat' first
    | with_reducible assumption
    | with_reducible apply Kept.readMem
    | with_reducible apply Kept.foldl
    | with_reducible apply Kept.foldlFst
    | with_reducible apply Kept.getD
    | with_reducible apply Kept.elim
    | split
    | intro _

theorem Kept.pondWrite {s t : State} {n : Nat} {off : Nat} {bs : Bytes} {poisoned : Bool} (h : Kept s t) : Kept s (State.pondWrite t n off bs poisoned) := by
  unfold State.pondWrite
  try dsimp only
  repeat' first
    | with_reducible assumption
    | (with_reducible refine Kept.memSame ?_ rfl rfl)
    | exact fun x => Mem.Ok.write x _ _ _
    | with_reducible apply Kept.onMem
    | with_reducible apply Kept.mergeReads
    | with_reducible apply Kept.foldl
    | with_reducible apply Kept.foldlFst
    | with_reducible apply Kept.getD
    | with_reducible apply Kept.elim
    | split
    | intro _

theorem Kept.chargeCore {s t : State} {n : Nat} (h : Kept s t) : Kept s (State.chargeCore t n) := by
  unfold State.chargeCore
  try dsimp only
  repeat' first
    | with_reducible assumption
    | with_reducible apply Kept.onCore
    | with_reducible apply Kept.onSched
    | with_reducible apply Kept.onAcct
    | with_reducible apply Kept.foldl
    | with_reducible apply Kept.foldlFst
    | with_reducible apply Kept.getD
    | with_reducible apply Kept.elim
    | split
    | intro _

theorem Kept.startCore {s t : State} {n : Nat} {hdr : BitVec 16} {ctx : BitVec 18} {part : BitVec 4} {runFrame : Nat} (h : Kept s t) : Kept s (State.startCore t n hdr ctx part runFrame) := by
  unfold State.startCore
  try dsimp only
  repeat' first
    | with_reducible assumption
    | with_reducible apply Kept.onCore
    | with_reducible apply Kept.pondRead
    | with_reducible apply Kept.ccErrWith
    | with_reducible apply Kept.foldl
    | with_reducible apply Kept.foldlFst
    | with_reducible apply Kept.getD
    | with_reducible apply Kept.elim
    | split
    | intro _

theorem Kept.dropWork {s t : State} {w : Option Work} (h : Kept s t) : Kept s (State.dropWork t w) := by
  unfold State.dropWork
  try dsimp only
  repeat' first
    | with_reducible assumption
    | with_reducible apply Kept.onSched
    | with_reducible apply Kept.complete
    | with_reducible apply Kept.foldl
    | with_reducible apply Kept.foldlFst
    | with_reducible apply Kept.getD
    | with_reducible apply Kept.elim
    | split
    | intro _

theorem Kept.teardownCore {s t : State} {n : Nat} (h : Kept s t) : Kept s (State.teardownCore t n) := by
  unfold State.teardownCore
  try dsimp only
  repeat' first
    | with_reducible assumption
    | with_reducible apply Kept.chargeCore
    | with_reducible apply Kept.onCore
    | with_reducible apply Kept.onAcct
    | with_reducible apply Kept.dropWork
    | with_reducible apply Kept.endCtx
    | with_reducible apply Kept.foldl
    | with_reducible apply Kept.foldlFst
    | with_reducible apply Kept.getD
    | with_reducible apply Kept.elim
    | split
    | intro _

theorem Kept.coreFault {s t : State} {n : Nat} {b : Nat} {detail : Nat} (h : Kept s t) : Kept s (State.coreFault t n b detail) := by
  unfold State.coreFault
  try dsimp only
  repeat' first
    | with_reducible assumption
    | with_reducible apply Kept.ccErr
    | with_reducible apply Kept.teardownCore
    | with_reducible apply Kept.foldl
    | with_reducible apply Kept.foldlFst
    | with_reducible apply Kept.getD
    | with_reducible apply Kept.elim
    | split
    | intro _

theorem Kept.pondUe {s t : State} {n : Nat} {blame : Option (BitVec 12)} {addr : Nat} (h : Kept s t) : Kept s (State.pondUe t n blame addr) := by
  unfold State.pondUe
  try dsimp only
  repeat' first
    | with_reducible assumption
    | with_reducible apply Kept.ccErrWith
    | with_reducible apply Kept.teardownCore
    | with_reducible apply Kept.foldl
    | with_reducible apply Kept.foldlFst
    | with_reducible apply Kept.getD
    | with_reducible apply Kept.elim
    | split
    | intro _

theorem Kept.saveCore {s t : State} {n : Nat} (h : Kept s t) : Kept s (State.saveCore t n) := by
  unfold State.saveCore
  try dsimp only
  repeat' first
    | with_reducible assumption
    | with_reducible apply Kept.pondWrite
    | with_reducible apply Kept.fresh1
    | with_reducible apply Kept.chargeCore
    | with_reducible apply Kept.onAcct
    | with_reducible apply Kept.onSched
    | with_reducible apply Kept.onCore
    | with_reducible apply Kept.foldl
    | with_reducible apply Kept.foldlFst
    | with_reducible apply Kept.getD
    | with_reducible apply Kept.elim
    | split
    | intro _

theorem Kept.resumeCore {s t : State} {n : Nat} {hdr : BitVec 16} {b : Bytes} (h : Kept s t) : Kept s (State.resumeCore t n hdr b) := by
  unfold State.resumeCore
  try dsimp only
  repeat' first
    | with_reducible assumption
    | with_reducible apply Kept.onSched
    | with_reducible apply Kept.onCore
    | with_reducible apply Kept.foldl
    | with_reducible apply Kept.foldlFst
    | with_reducible apply Kept.getD
    | with_reducible apply Kept.elim
    | split
    | intro _

theorem Kept.discardSaved {s t : State} {n : Nat} {hdr : BitVec 16} (h : Kept s t) : Kept s (State.discardSaved t n hdr) := by
  unfold State.discardSaved
  try dsimp only
  repeat' first
    | with_reducible assumption
    | with_reducible apply Kept.onCore
    | with_reducible apply Kept.foldl
    | with_reducible apply Kept.foldlFst
    | with_reducible apply Kept.getD
    | with_reducible apply Kept.elim
    | split
    | intro _

theorem Kept.preemptCore {s t : State} {n : Nat} (h : Kept s t) : Kept s (State.preemptCore t n) := by
  unfold State.preemptCore
  try dsimp only
  repeat' first
    | with_reducible assumption
    | with_reducible apply Kept.onCore
    | with_reducible apply Kept.foldl
    | with_reducible apply Kept.foldlFst
    | with_reducible apply Kept.getD
    | with_reducible apply Kept.elim
    | split
    | intro _

theorem Kept.decodeFault {s t : State} {n : Nat} {addr : Nat} (h : Kept s t) : Kept s (State.decodeFault t n addr) := by
  unfold State.decodeFault
  try dsimp only
  repeat' first
    | with_reducible assumption
    | with_reducible apply Kept.coreFault
    | with_reducible apply Kept.foldl
    | with_reducible apply Kept.foldlFst
    | with_reducible apply Kept.getD
    | with_reducible apply Kept.elim
    | split
    | intro _

end Sys2Proof.Machine
end

