-- ==== Sys2Proof/Laws/KeptBootOps.lean ====
section
/-! SUPPORT. What the operations of Machine/BootOps.lean keep. -/

-- One declaration at a time, so that few threads hold memory at once.
set_option Elab.async false

namespace Sys2Proof.Machine

set_option linter.unusedTactic false
set_option linter.unreachableTactic false

theorem Kept.writeAct {s t : State} {g : ActRecord → ActRecord} (h : Kept s t) : Kept s (State.writeAct t g) := by
  unfold State.writeAct
  refine h.onFlash ?_
  unfold Flash.writeAct
  dsimp only
  split <;> exact ⟨le_refl _, ⟨rfl, rfl, rfl, rfl⟩, ⟨rfl, rfl, rfl⟩⟩

theorem Kept.resetDomains {s t : State} {wake : Nat} (h : Kept s t) : Kept s (State.resetDomains t wake) := by
  exact h.trans ⟨rfl, List.prefix_rfl, List.prefix_rfl, id, fun _ => Power.Ok.reset, fun x => ⟨x.latch, x.log⟩,
    fun _ => Nat.zero_le _, fun x => .mk (sparseWf_filter x.data _) (sparseWf_filter x.synd _), fun _ => rfl, .rfl'⟩

theorem Kept.toRecovery {s t : State} (h : Kept s t) : Kept s (State.toRecovery t) := by
  unfold State.toRecovery
  try dsimp only
  repeat' first
    | with_reducible assumption
    | with_reducible apply Kept.setDevState
    | with_reducible apply Kept.onBoot
    | with_reducible apply Kept.foldl
    | with_reducible apply Kept.foldlFst
    | with_reducible apply Kept.getD
    | with_reducible apply Kept.elim
    | split
    | intro _

theorem Kept.beginBoot {s t : State} {bootsel : BitVec 3} {strap : BitVec 3} (h : Kept s t) : Kept s (State.beginBoot t bootsel strap) := by
  unfold State.beginBoot
  try dsimp only
  repeat' first
    | with_reducible assumption
    | with_reducible apply Kept.onBoot
    | with_reducible apply Kept.onIsl
    | with_reducible apply Kept.onFab
    | with_reducible apply Kept.writeAct
    | with_reducible apply Kept.raise
    | with_reducible apply Kept.toRecovery
    | with_reducible apply Kept.foldl
    | with_reducible apply Kept.foldlFst
    | with_reducible apply Kept.getD
    | with_reducible apply Kept.elim
    | split
    | intro _

theorem Kept.warmReset {s t : State} (h : Kept s t) : Kept s (State.warmReset t) := by
  unfold State.warmReset
  try dsimp only
  repeat' first
    | with_reducible assumption
    | with_reducible apply Kept.beginBoot
    | with_reducible apply Kept.resetDomains
    | with_reducible apply Kept.foldl
    | with_reducible apply Kept.foldlFst
    | with_reducible apply Kept.getD
    | with_reducible apply Kept.elim
    | split
    | intro _

theorem Kept.bootSlot {s t : State} {b : Bool} {outcome : Nat} (h : Kept s t) : Kept s (State.bootSlot t b outcome) := by
  unfold State.bootSlot
  try dsimp only
  repeat' first
    | with_reducible assumption
    | (with_reducible refine Kept.pwrSame ?_ rfl rfl rfl)
    | (with_reducible refine Kept.fcSame ?_ rfl rfl rfl)
    | with_reducible apply Kept.onBoot
    | with_reducible apply Kept.setEntry
    | with_reducible apply Kept.onPwr
    | with_reducible apply Kept.onFc
    | with_reducible apply Kept.foldl
    | with_reducible apply Kept.foldlFst
    | with_reducible apply Kept.getD
    | with_reducible apply Kept.elim
    | split
    | intro _

theorem Kept.slotJudged {s t : State} {slot : Bool} {second : Bool} {readOk : Bool} (h : Kept s t) : Kept s (State.slotJudged t slot second readOk) := by
  unfold State.slotJudged
  try dsimp only
  repeat' first
    | with_reducible assumption
    | with_reducible apply Kept.onBoot
    | with_reducible apply Kept.bootSlot
    | with_reducible apply Kept.writeAct
    | with_reducible apply Kept.toRecovery
    | with_reducible apply Kept.foldl
    | with_reducible apply Kept.foldlFst
    | with_reducible apply Kept.getD
    | with_reducible apply Kept.elim
    | split
    | intro _

end Sys2Proof.Machine
end

