-- ==== Sys2Proof/Laws/KeptSafetyOps.lean ====
section
/-! SUPPORT. What the operations of Machine/SafetyOps.lean keep. -/

-- One declaration at a time, so that few threads hold memory at once.
set_option Elab.async false

namespace Sys2Proof.Machine

set_option linter.unusedTactic false
set_option linter.unreachableTactic false

theorem Kept.setDetect {s t : State} {ns : List Nat} {b : Bool} (h : Kept s t) : Kept s (State.setDetect t ns b) := by
  unfold State.setDetect
  try dsimp only
  repeat' first
    | with_reducible assumption
    | with_reducible apply Kept.onCore
    | with_reducible apply Kept.foldl
    | with_reducible apply Kept.foldlFst
    | with_reducible apply Kept.getD
    | with_reducible apply Kept.elim
    | split
    | intro _

theorem Kept.formGroup {s t : State} {g : Nat} (h : Kept s t) : Kept s (State.formGroup t g) := by
  unfold State.formGroup
  try dsimp only
  repeat' first
    | with_reducible assumption
    | with_reducible apply Kept.onCore
    | with_reducible apply Kept.foldl
    | with_reducible apply Kept.foldlFst
    | with_reducible apply Kept.getD
    | with_reducible apply Kept.elim
    | split
    | intro _

theorem Kept.teardownGroup {s t : State} {g : Nat} (h : Kept s t) : Kept s (State.teardownGroup t g) := by
  unfold State.teardownGroup
  try dsimp only
  repeat' first
    | with_reducible assumption
    | with_reducible apply Kept.teardownCore
    | with_reducible apply Kept.foldl
    | with_reducible apply Kept.foldlFst
    | with_reducible apply Kept.getD
    | with_reducible apply Kept.elim
    | split
    | intro _

theorem Kept.exchange {s t : State} {a : Nat} {b : Nat} (h : Kept s t) : Kept s (State.exchange t a b) := by
  unfold State.exchange
  exact ((Kept.onMem h fun x => x.swapRanges _ _ _).onCore.onCore).onSched

theorem Kept.copySet {s t : State} {from_ : Nat} {to_ : Nat} (h : Kept s t) : Kept s (State.copySet t from_ to_) := by
  unfold State.copySet
  exact Kept.onCore (Kept.onMem h fun x => Mem.Ok.foldl x fun m r hm => hm.copyRange _ _ _)

theorem Kept.withdrawCore {s t : State} {n : Nat} (h : Kept s t) : Kept s (State.withdrawCore t n) := by
  unfold State.withdrawCore
  try dsimp only
  repeat' first
    | with_reducible assumption
    | with_reducible apply Kept.teardownCore
    | with_reducible apply Kept.onGroup
    | with_reducible apply Kept.chargeCore
    | with_reducible apply Kept.setDetect
    | with_reducible apply Kept.teardownGroup
    | with_reducible apply Kept.onCore
    | with_reducible apply Kept.onSched
    | with_reducible apply Kept.raise
    | with_reducible apply Kept.foldl
    | with_reducible apply Kept.foldlFst
    | with_reducible apply Kept.getD
    | with_reducible apply Kept.elim
    | split
    | intro _

theorem Kept.restoreMember {s t : State} {g : Nat} {m : Nat} {line : Option Nat} (h : Kept s t) : Kept s (State.restoreMember t g m line) := by
  unfold State.restoreMember
  try dsimp only
  repeat' first
    | with_reducible assumption
    | with_reducible apply Kept.onGroup
    | with_reducible apply Kept.onCore
    | with_reducible apply Kept.chargeCore
    | with_reducible apply Kept.setDetect
    | with_reducible apply Kept.foldl
    | with_reducible apply Kept.foldlFst
    | with_reducible apply Kept.getD
    | with_reducible apply Kept.elim
    | split
    | intro _

theorem Kept.groupFails {s t : State} {g : Nat} (h : Kept s t) : Kept s (State.groupFails t g) := by
  unfold State.groupFails
  try dsimp only
  repeat' first
    | with_reducible assumption
    | with_reducible apply Kept.teardownGroup
    | with_reducible apply Kept.logEvent
    | with_reducible apply Kept.onSched
    | with_reducible apply Kept.onGroup
    | with_reducible apply Kept.foldl
    | with_reducible apply Kept.foldlFst
    | with_reducible apply Kept.getD
    | with_reducible apply Kept.elim
    | split
    | intro _

theorem Kept.consumerUe {s t : State} {n : Nat} {blame : Option (BitVec 12)} {addr : Nat} (h : Kept s t) : Kept s (State.consumerUe t n blame addr) := by
  unfold State.consumerUe
  try dsimp only
  repeat' first
    | with_reducible assumption
    | with_reducible apply Kept.pondUe
    | with_reducible apply Kept.groupFails
    | with_reducible apply Kept.ccErrWith
    | with_reducible apply Kept.withdrawCore
    | with_reducible apply Kept.restoreMember
    | with_reducible apply Kept.foldl
    | with_reducible apply Kept.foldlFst
    | with_reducible apply Kept.getD
    | with_reducible apply Kept.elim
    | split
    | intro _

theorem Kept.landCopy {s t : State} {g : Nat} {m : Nat} {d : Nat} (h : Kept s t) : Kept s (State.landCopy t g m d) := by
  unfold State.landCopy
  try dsimp only
  repeat' first
    | with_reducible assumption
    | (with_reducible refine Kept.memSame ?_ rfl rfl)
    | exact fun x => Mem.Ok.copyRange x _ _ _
    | with_reducible apply Kept.copySet
    | with_reducible apply Kept.onMem
    | with_reducible apply Kept.foldl
    | with_reducible apply Kept.foldlFst
    | with_reducible apply Kept.getD
    | with_reducible apply Kept.elim
    | split
    | intro _

theorem Kept.portReport {s t : State} {lead : Nat} {code : Nat} {cls : Nat} {blame : Option Nat} (h : Kept s t) : Kept s (State.portReport t lead code cls blame) := by
  unfold State.portReport
  try dsimp only
  repeat' first
    | with_reducible assumption
    | with_reducible apply Kept.report
    | with_reducible apply Kept.foldl
    | with_reducible apply Kept.foldlFst
    | with_reducible apply Kept.getD
    | with_reducible apply Kept.elim
    | split
    | intro _

theorem Kept.memberDeviates {s t : State} {g : Nat} {m : Nat} {code : Nat} (h : Kept s t) : Kept s (State.memberDeviates t g m code) := by
  unfold State.memberDeviates
  try dsimp only
  repeat' first
    | with_reducible assumption
    | with_reducible apply Kept.portReport
    | with_reducible apply Kept.ccErrWith
    | with_reducible apply Kept.withdrawCore
    | with_reducible apply Kept.restoreMember
    | with_reducible apply Kept.foldl
    | with_reducible apply Kept.foldlFst
    | with_reducible apply Kept.getD
    | with_reducible apply Kept.elim
    | split
    | intro _

theorem Kept.groupMismatch {s t : State} {g : Nat} {code : Nat} (h : Kept s t) : Kept s (State.groupMismatch t g code) := by
  unfold State.groupMismatch
  try dsimp only
  repeat' first
    | with_reducible assumption
    | with_reducible apply Kept.portReport
    | with_reducible apply Kept.groupFails
    | with_reducible apply Kept.ccErrWith
    | with_reducible apply Kept.foldl
    | with_reducible apply Kept.foldlFst
    | with_reducible apply Kept.getD
    | with_reducible apply Kept.elim
    | split
    | intro _

theorem Kept.seqViolation {s t : State} {n : Nat} {bank : Nat} {ctr : Nat} (h : Kept s t) : Kept s (State.seqViolation t n bank ctr) := by
  unfold State.seqViolation
  try dsimp only
  repeat' first
    | with_reducible assumption
    | with_reducible apply Kept.ccErrWith
    | with_reducible apply Kept.teardownCore
    | with_reducible apply Kept.foldl
    | with_reducible apply Kept.foldlFst
    | with_reducible apply Kept.getD
    | with_reducible apply Kept.elim
    | split
    | intro _

theorem Kept.landAt {s t : State} {n : Nat} {p : Packet} (h : Kept s t) : Kept s (State.landAt t n p) := by
  unfold State.landAt
  try dsimp only
  repeat' first
    | with_reducible assumption
    | with_reducible apply Kept.onCore
    | with_reducible apply Kept.seqViolation
    | with_reducible apply Kept.foldl
    | with_reducible apply Kept.foldlFst
    | with_reducible apply Kept.getD
    | with_reducible apply Kept.elim
    | split
    | intro _

theorem Kept.landPacket {s t : State} {p : Packet} (h : Kept s t) : Kept s (State.landPacket t p) := by
  unfold State.landPacket
  try dsimp only
  repeat' first
    | with_reducible assumption
    | with_reducible apply Kept.onSched
    | with_reducible apply Kept.landAt
    | with_reducible apply Kept.foldl
    | with_reducible apply Kept.foldlFst
    | with_reducible apply Kept.getD
    | with_reducible apply Kept.elim
    | split
    | intro _

theorem Kept.startRemap {s t : State} {ps : List (Nat × Nat)} (h : Kept s t) : Kept s (State.startRemap t ps) := by
  unfold State.startRemap
  try dsimp only
  repeat' first
    | with_reducible assumption
    | with_reducible apply Kept.onSched
    | with_reducible apply Kept.teardownCore
    | with_reducible apply Kept.foldl
    | with_reducible apply Kept.foldlFst
    | with_reducible apply Kept.getD
    | with_reducible apply Kept.elim
    | split
    | intro _

theorem Kept.copyBanks {s t : State} {r : Remap} {bad : BitVec 4} (h : Kept s t) : Kept s (State.copyBanks t r bad) := by
  unfold State.copyBanks
  try dsimp only
  repeat' first
    | with_reducible assumption
    | with_reducible apply Kept.exchange
    | with_reducible apply Kept.copySet
    | with_reducible apply Kept.onSched
    | with_reducible apply Kept.onCore
    | with_reducible apply Kept.foldl
    | with_reducible apply Kept.foldlFst
    | with_reducible apply Kept.getD
    | with_reducible apply Kept.elim
    | split
    | intro _

theorem Kept.finishRemap {s t : State} {rs : List Remap} {bad : BitVec 4} (h : Kept s t) : Kept s (State.finishRemap t rs bad) := by
  unfold State.finishRemap
  try dsimp only
  repeat' first
    | with_reducible assumption
    | with_reducible apply Kept.copyBanks
    | with_reducible apply Kept.logEvent
    | with_reducible apply Kept.onCore
    | with_reducible apply Kept.onSched
    | with_reducible apply Kept.raise
    | with_reducible apply Kept.formGroup
    | with_reducible apply Kept.setDetect
    | with_reducible apply Kept.onGroup
    | with_reducible apply Kept.landPacket
    | with_reducible apply Kept.foldl
    | with_reducible apply Kept.foldlFst
    | with_reducible apply Kept.getD
    | with_reducible apply Kept.elim
    | split
    | intro _

theorem Kept.withdrawGroupOf {s t : State} {n : Nat} (h : Kept s t) : Kept s (State.withdrawGroupOf t n) := by
  unfold State.withdrawGroupOf
  try dsimp only
  repeat' first
    | with_reducible assumption
    | with_reducible apply Kept.withdrawCore
    | with_reducible apply Kept.foldl
    | with_reducible apply Kept.foldlFst
    | with_reducible apply Kept.getD
    | with_reducible apply Kept.elim
    | split
    | intro _

theorem Kept.withdrawGenerator {s t : State} {g : Nat} (h : Kept s t) : Kept s (State.withdrawGenerator t g) := by
  unfold State.withdrawGenerator
  try dsimp only
  repeat' first
    | with_reducible assumption
    | with_reducible apply Kept.withdrawCore
    | with_reducible apply Kept.onSched
    | with_reducible apply Kept.foldl
    | with_reducible apply Kept.foldlFst
    | with_reducible apply Kept.getD
    | with_reducible apply Kept.elim
    | split
    | intro _

theorem Kept.unitReaction {s t : State} {r : ReportIn} (h : Kept s t) : Kept s (State.unitReaction t r) := by
  unfold State.unitReaction
  try dsimp only
  repeat' first
    | with_reducible assumption
    | with_reducible apply Kept.withdrawGenerator
    | with_reducible apply Kept.onLake
    | with_reducible apply Kept.withdrawGroupOf
    | with_reducible apply Kept.withdrawCore
    | with_reducible apply Kept.teardownCore
    | with_reducible apply Kept.restoreMember
    | with_reducible apply Kept.foldl
    | with_reducible apply Kept.foldlFst
    | with_reducible apply Kept.getD
    | with_reducible apply Kept.elim
    | split
    | intro _

theorem Kept.resumeSaved {s t : State} {n : Nat} {hdr : BitVec 16} (h : Kept s t) : Kept s (State.resumeSaved t n hdr) := by
  unfold State.resumeSaved
  try dsimp only
  repeat' first
    | with_reducible assumption
    | with_reducible apply Kept.readMem
    | with_reducible apply Kept.resumeCore
    | with_reducible apply Kept.consumerUe
    | with_reducible apply Kept.foldl
    | with_reducible apply Kept.foldlFst
    | with_reducible apply Kept.getD
    | with_reducible apply Kept.elim
    | split
    | intro _

end Sys2Proof.Machine
end

