-- ==== Sys2Proof/Laws/KeptBusOps.lean ====
section
/-! SUPPORT. What the operations of Machine/BusOps.lean keep. -/

-- One declaration at a time, so that few threads hold memory at once.
set_option Elab.async false

namespace Sys2Proof.Machine

set_option linter.unusedTactic false
set_option linter.unreachableTactic false

theorem Kept.busFault {s t : State} {by_ : Initiator} {addr : Nat} (h : Kept s t) : Kept s (State.busFault t by_ addr) := by
  unfold State.busFault
  try dsimp only
  repeat' first
    | with_reducible assumption
    | with_reducible apply Kept.emit
    | with_reducible apply Kept.raise
    | with_reducible apply Kept.decodeFault
    | with_reducible apply Kept.foldl
    | with_reducible apply Kept.foldlFst
    | with_reducible apply Kept.getD
    | with_reducible apply Kept.elim
    | split
    | intro _

theorem Kept.refusedBus {s t : State} {by_ : Initiator} {part : Nat} {addr : Nat} {write : Bool} {q : Option Nat} (h : Kept s t) : Kept s (State.refusedBus t by_ part addr write q) := by
  unfold State.refusedBus
  try dsimp only
  repeat' first
    | with_reducible assumption
    | with_reducible apply Kept.refuse
    | with_reducible apply Kept.emit
    | with_reducible apply Kept.raise
    | with_reducible apply Kept.teardownCore
    | with_reducible apply Kept.logEvent
    | with_reducible apply Kept.foldl
    | with_reducible apply Kept.foldlFst
    | with_reducible apply Kept.getD
    | with_reducible apply Kept.elim
    | split
    | intro _

theorem Kept.clearRecord {s t : State} {origin : Nat} {who : Nat} {slot : Nat} {seq : Nat} (h : Kept s t) : Kept s (State.clearRecord t origin who slot seq) := by
  unfold State.clearRecord
  dsimp only
  split
  · exact Kept.fcSame h rfl rfl rfl
  · split
    · refine Kept.takeSeq (Kept.onFc (Kept.fcSame h rfl rfl rfl) fun x => Collector.Ok.settle (Collector.Ok.ring ?_ _))
      exact ⟨fun kv hk hg => x.latch kv (mem_sdel hk) hg, x.log⟩
    · exact Kept.fcSame h rfl rfl rfl

end Sys2Proof.Machine
end

