-- ==== Sys2Proof/Laws/KeptTimeOps.lean ====
section
/-! SUPPORT. What the operations of Machine/TimeOps.lean keep. -/

-- One declaration at a time, so that few threads hold memory at once.
set_option Elab.async false

namespace Sys2Proof.Machine

set_option linter.unusedTactic false
set_option linter.unreachableTactic false

theorem Kept.setLock {s t : State} {l : LockState} (h : Kept s t) : Kept s (State.setLock t l) := by
  unfold State.setLock
  try dsimp only
  repeat' first
    | with_reducible assumption
    | (with_reducible refine Kept.tbSame ?_ rfl)
    | with_reducible apply Kept.logEvent
    | with_reducible apply Kept.onTb
    | with_reducible apply Kept.foldl
    | with_reducible apply Kept.foldlFst
    | with_reducible apply Kept.getD
    | with_reducible apply Kept.elim
    | split
    | intro _

theorem Kept.summary {s t : State} {v : Viol} (h : Kept s t) : Kept s (State.summary t v) := by
  unfold State.summary
  try dsimp only
  repeat' first
    | with_reducible assumption
    | with_reducible apply Kept.logChange
    | with_reducible apply Kept.foldl
    | with_reducible apply Kept.foldlFst
    | with_reducible apply Kept.getD
    | with_reducible apply Kept.elim
    | split
    | intro _

theorem Kept.violSummary {s t : State} {src : Nat} {v : Viol} (h : Kept s t) : Kept s (State.violSummary src t v) := by
  unfold State.violSummary
  try dsimp only
  repeat' first
    | with_reducible assumption
    | with_reducible apply Kept.logEvent
    | with_reducible apply Kept.foldl
    | with_reducible apply Kept.foldlFst
    | with_reducible apply Kept.getD
    | with_reducible apply Kept.elim
    | split
    | intro _

theorem Kept.endViolSeconds {s t : State} {k : Nat} (h : Kept s t) : Kept s (State.endViolSeconds t k) := by
  unfold State.endViolSeconds
  try dsimp only
  repeat' first
    | with_reducible assumption
    | (with_reducible refine Kept.dictSame ?_ rfl)
    | with_reducible apply Kept.violSummary
    | with_reducible apply Kept.summary
    | with_reducible apply Kept.onDict
    | with_reducible apply Kept.onFab
    | with_reducible apply Kept.onRadio
    | with_reducible apply Kept.onSpring
    | with_reducible apply Kept.foldl
    | with_reducible apply Kept.foldlFst
    | with_reducible apply Kept.getD
    | with_reducible apply Kept.elim
    | split
    | intro _

theorem Kept.stepTime {s t : State} {new : Nat} (h : Kept s t) (hn : new % 2 = 0) : Kept s (t.stepTime new) := by
  unfold State.stepTime
  dsimp only
  split
  · exact Kept.endViolSeconds (Kept.onTb h fun _ => hn)
  · exact Kept.onTb h fun _ => hn

theorem Kept.measure {s t : State} {offset : Int} (h : Kept s t) : Kept s (State.measure t offset) := by
  unfold State.measure
  dsimp only
  split
  · exact Kept.setLock (Kept.logEvent (Kept.tbSame (Kept.stepTime (Kept.tbSame h rfl) (by omega)) rfl))
  · split
    · exact Kept.tbSame h rfl
    · split
      · exact Kept.setLock (Kept.tbSame (Kept.tbSame h rfl) rfl)
      · exact Kept.setLock (Kept.tbSame h rfl)
    · exact Kept.setLock (Kept.tbSame h rfl)

theorem Kept.driveFsync {s t : State} {n : Nat} {b : Bool} (h : Kept s t) : Kept s (State.driveFsync t n b) := by
  unfold State.driveFsync
  try dsimp only
  repeat' first
    | with_reducible assumption
    | with_reducible apply Kept.onPins
    | with_reducible apply Kept.foldl
    | with_reducible apply Kept.foldlFst
    | with_reducible apply Kept.getD
    | with_reducible apply Kept.elim
    | split
    | intro _

end Sys2Proof.Machine
end

