-- ==== Sys2Proof/Laws/KeptAccessOps.lean ====
section
/-! SUPPORT. What the operations of Machine/AccessOps.lean keep. -/

-- One declaration at a time, so that few threads hold memory at once.
set_option Elab.async false

namespace Sys2Proof.Machine

set_option linter.unusedTactic false
set_option linter.unreachableTactic false

theorem Kept.portWrite {s t : State} {by_ : Initiator} {a : Nat} {bs : Bytes} {poisoned : Bool} (h : Kept s t) : Kept s (State.portWrite t by_ a bs poisoned) := by
  unfold State.portWrite
  try dsimp only
  repeat' first
    | with_reducible assumption
    | with_reducible apply Kept.poke
    | with_reducible apply Kept.busWrite
    | with_reducible apply Kept.foldl
    | with_reducible apply Kept.foldlFst
    | with_reducible apply Kept.getD
    | with_reducible apply Kept.elim
    | split
    | intro _

theorem Kept.noteRoi {s t : State} {a : Nat} {len : Nat} (h : Kept s t) : Kept s (State.noteRoi t a len) := by
  unfold State.noteRoi
  try dsimp only
  repeat' first
    | with_reducible assumption
    | with_reducible apply Kept.onSpring
    | with_reducible apply Kept.foldl
    | with_reducible apply Kept.foldlFst
    | with_reducible apply Kept.getD
    | with_reducible apply Kept.elim
    | split
    | intro _

theorem Kept.consumerOf {s t : State} {by_ : Initiator} {bad : Nat} (h : Kept s t) : Kept s (State.consumerOf t by_ bad) := by
  unfold State.consumerOf
  try dsimp only
  repeat' first
    | with_reducible assumption
    | with_reducible apply Kept.consumerUe
    | with_reducible apply Kept.emit
    | with_reducible apply Kept.report
    | with_reducible apply Kept.foldl
    | with_reducible apply Kept.foldlFst
    | with_reducible apply Kept.getD
    | with_reducible apply Kept.elim
    | split
    | intro _

theorem Kept.serveMemory {s t : State} {x : Access} (h : Kept s t) : Kept s (State.serveMemory t x) := by
  unfold State.serveMemory
  try dsimp only
  repeat' first
    | with_reducible assumption
    | (with_reducible refine Kept.memSame ?_ rfl rfl)
    | exact fun x => Mem.Ok.upset x _ _
    | with_reducible apply Kept.louvre
    | with_reducible apply Kept.onMem
    | with_reducible apply Kept.noteRoi
    | with_reducible apply Kept.portWrite
    | with_reducible apply Kept.readMem
    | with_reducible apply Kept.emit
    | with_reducible apply Kept.consumerOf
    | with_reducible apply Kept.foldl
    | with_reducible apply Kept.foldlFst
    | with_reducible apply Kept.getD
    | with_reducible apply Kept.elim
    | split
    | intro _

theorem Kept.serveWaiting {s t : State} (h : Kept s t) : Kept s (State.serveWaiting t) := by
  unfold State.serveWaiting
  try dsimp only
  repeat' first
    | with_reducible assumption
    | (with_reducible refine Kept.memSame ?_ rfl rfl)
    | with_reducible apply Kept.serveMemory
    | with_reducible apply Kept.onMem
    | with_reducible apply Kept.foldl
    | with_reducible apply Kept.foldlFst
    | with_reducible apply Kept.getD
    | with_reducible apply Kept.elim
    | split
    | intro _

end Sys2Proof.Machine
end

