-- ==== Sys2Proof/Laws/KeptContextOps.lean ====
section
/-! SUPPORT. What the operations of Machine/ContextOps.lean keep. -/

-- One declaration at a time, so that few threads hold memory at once.
set_option Elab.async false

namespace Sys2Proof.Machine

set_option linter.unusedTactic false
set_option linter.unreachableTactic false

theorem Kept.takePage {s t : State} {p : Nat} {k : Nat} (h : Kept s t) : Kept s (State.takePage t p k).1 := by
  unfold State.takePage
  try dsimp only
  repeat' first
    | with_reducible assumption
    | (with_reducible refine Kept.memSame ?_ rfl rfl)
    | exact fun x => Mem.Ok.zeroRange x _ _
    | with_reducible apply Kept.onCtx
    | with_reducible apply Kept.onMem
    | with_reducible apply Kept.foldl
    | with_reducible apply Kept.foldlFst
    | with_reducible apply Kept.getD
    | with_reducible apply Kept.elim
    | split
    | intro _

theorem Kept.takeRow {s t : State} {p : Nat} {b : Nat} {split : Nat} {n : Nat} (h : Kept s t) : Kept s (State.takeRow t p b split n).1 := by
  unfold State.takeRow
  try dsimp only
  repeat' first
    | with_reducible assumption
    | with_reducible apply Kept.takePage
    | with_reducible apply Kept.foldl
    | with_reducible apply Kept.foldlFst
    | with_reducible apply Kept.getD
    | with_reducible apply Kept.elim
    | split
    | intro _

theorem Kept.writeRow {s t : State} {id : Nat} {b : Nat} (h : Kept s t) : Kept s (State.writeRow t id b) := by
  unfold State.writeRow
  try dsimp only
  repeat' first
    | with_reducible assumption
    | with_reducible apply Kept.poke
    | with_reducible apply Kept.foldl
    | with_reducible apply Kept.foldlFst
    | with_reducible apply Kept.getD
    | with_reducible apply Kept.elim
    | split
    | intro _

theorem Kept.writeRows {s t : State} {id : Nat} (h : Kept s t) : Kept s (State.writeRows t id) := by
  unfold State.writeRows
  try dsimp only
  repeat' first
    | with_reducible assumption
    | with_reducible apply Kept.writeRow
    | with_reducible apply Kept.foldl
    | with_reducible apply Kept.foldlFst
    | with_reducible apply Kept.getD
    | with_reducible apply Kept.elim
    | split
    | intro _

theorem Kept.copyPage {s t : State} {a : Page} {b : Page} (h : Kept s t) : Kept s (State.copyPage t a b) := by
  unfold State.copyPage
  try dsimp only
  repeat' first
    | with_reducible assumption
    | (with_reducible refine Kept.memSame ?_ rfl rfl)
    | exact fun x => Mem.Ok.copyRange x _ _ _
    | with_reducible apply Kept.onMem
    | with_reducible apply Kept.readMem
    | with_reducible apply Kept.foldl
    | with_reducible apply Kept.foldlFst
    | with_reducible apply Kept.getD
    | with_reducible apply Kept.elim
    | split
    | intro _

theorem Kept.beginSwapOut {s t : State} {id : Nat} (h : Kept s t) : Kept s (State.beginSwapOut t id).1 := by
  unfold State.beginSwapOut
  try dsimp only
  repeat' first
    | with_reducible assumption
    | with_reducible apply Kept.endCtx
    | with_reducible apply Kept.logEvent
    | with_reducible apply Kept.onCtx
    | with_reducible apply Kept.onCtxEntry
    | with_reducible apply Kept.foldl
    | with_reducible apply Kept.foldlFst
    | with_reducible apply Kept.getD
    | with_reducible apply Kept.elim
    | split
    | intro _

theorem Kept.pageOut {s t : State} {c : Ctx} {q : Page} (h : Kept s t) : Kept s (State.pageOut t c q).1 := by
  unfold State.pageOut
  try dsimp only
  repeat' first
    | with_reducible assumption
    | with_reducible apply Kept.copyPage
    | with_reducible apply Kept.onCtx
    | with_reducible apply Kept.foldl
    | with_reducible apply Kept.foldlFst
    | with_reducible apply Kept.getD
    | with_reducible apply Kept.elim
    | split
    | intro _

theorem Kept.mapRow {s t : State} {f : State → Page → State × Page} {row : List Page} (h : Kept s t) (hf : ∀ p0 p1, Kept s p0 → Kept s ((f p0 p1).1)) : Kept s (Sys2Proof.Machine.mapRow f t row).1 := by
  unfold Sys2Proof.Machine.mapRow
  try dsimp only
  repeat' first
    | with_reducible assumption
    | with_reducible apply hf
    | with_reducible apply Kept.foldl
    | with_reducible apply Kept.foldlFst
    | with_reducible apply Kept.getD
    | with_reducible apply Kept.elim
    | split
    | intro _

theorem Kept.mapRows {s t : State} {f : Nat → State → Page → State × Page} {rows : List (List Page)} (h : Kept s t) (hf : ∀ p0 p1 p2, Kept s p1 → Kept s ((f p0 p1 p2).1)) : Kept s (Sys2Proof.Machine.mapRows f t rows).1 := by
  unfold Sys2Proof.Machine.mapRows
  try dsimp only
  repeat' first
    | with_reducible assumption
    | with_reducible apply Kept.mapRow
    | with_reducible apply hf
    | with_reducible apply Kept.foldl
    | with_reducible apply Kept.foldlFst
    | with_reducible apply Kept.getD
    | with_reducible apply Kept.elim
    | split
    | intro _

theorem Kept.finishSwapOut {s t : State} {id : Nat} (h : Kept s t) : Kept s (State.finishSwapOut t id) := by
  unfold State.finishSwapOut
  try dsimp only
  repeat' first
    | with_reducible assumption
    | with_reducible apply Kept.mapRows
    | with_reducible apply Kept.pageOut
    | with_reducible apply Kept.writeRows
    | with_reducible apply Kept.onCtxEntry
    | with_reducible apply Kept.foldl
    | with_reducible apply Kept.foldlFst
    | with_reducible apply Kept.getD
    | with_reducible apply Kept.elim
    | split
    | intro _

theorem Kept.beginSwapIn {s t : State} {id : Nat} (h : Kept s t) : Kept s (State.beginSwapIn t id) := by
  unfold State.beginSwapIn
  try dsimp only
  repeat' first
    | with_reducible assumption
    | with_reducible apply Kept.mapRows
    | with_reducible apply Kept.takePage
    | with_reducible apply Kept.logEvent
    | with_reducible apply Kept.onCtx
    | with_reducible apply Kept.onCtxEntry
    | with_reducible apply Kept.foldl
    | with_reducible apply Kept.foldlFst
    | with_reducible apply Kept.getD
    | with_reducible apply Kept.elim
    | split
    | intro _

theorem Kept.finishSwapIn {s t : State} {id : Nat} (h : Kept s t) : Kept s (State.finishSwapIn t id) := by
  unfold State.finishSwapIn
  try dsimp only
  repeat' first
    | with_reducible assumption
    | with_reducible apply Kept.onCtx
    | with_reducible apply Kept.copyPage
    | with_reducible apply Kept.writeRows
    | with_reducible apply Kept.onCtxEntry
    | with_reducible apply Kept.foldl
    | with_reducible apply Kept.foldlFst
    | with_reducible apply Kept.getD
    | with_reducible apply Kept.elim
    | split
    | intro _

theorem Kept.copyRow {s t : State} {id : Nat} {b : Nat} (h : Kept s t) : Kept s (State.copyRow t id b) := by
  unfold State.copyRow
  try dsimp only
  repeat' first
    | with_reducible assumption
    | with_reducible apply Kept.takeRow
    | with_reducible apply Kept.copyPage
    | with_reducible apply Kept.onCtx
    | with_reducible apply Kept.writeRow
    | with_reducible apply Kept.logEvent
    | with_reducible apply Kept.onCtxEntry
    | with_reducible apply Kept.foldl
    | with_reducible apply Kept.foldlFst
    | with_reducible apply Kept.getD
    | with_reducible apply Kept.elim
    | split
    | intro _

theorem Kept.copyPartial {s t : State} {id : Nat} {n : Nat} (h : Kept s t) : Kept s (State.copyPartial t id n).1 := by
  unfold State.copyPartial
  try dsimp only
  repeat' first
    | with_reducible assumption
    | with_reducible apply Kept.copyRow
    | with_reducible apply Kept.foldl
    | with_reducible apply Kept.foldlFst
    | with_reducible apply Kept.getD
    | with_reducible apply Kept.elim
    | split
    | intro _

theorem Kept.openBlocks {s t : State} {id : Nat} {blocks : Nat} (h : Kept s t) : Kept s (State.openBlocks t id blocks) := by
  unfold State.openBlocks
  try dsimp only
  repeat' first
    | with_reducible assumption
    | with_reducible apply Kept.takeRow
    | with_reducible apply Kept.writeRow
    | with_reducible apply Kept.onCtxEntry
    | with_reducible apply Kept.foldl
    | with_reducible apply Kept.foldlFst
    | with_reducible apply Kept.getD
    | with_reducible apply Kept.elim
    | split
    | intro _

theorem Kept.beginStep {s t : State} {id : Nat} {n : Nat} (h : Kept s t) : Kept s (State.beginStep t id n) := by
  unfold State.beginStep
  try dsimp only
  repeat' first
    | with_reducible assumption
    | with_reducible apply Kept.onCtxEntry
    | with_reducible apply Kept.openBlocks
    | with_reducible apply Kept.foldl
    | with_reducible apply Kept.foldlFst
    | with_reducible apply Kept.getD
    | with_reducible apply Kept.elim
    | split
    | intro _

theorem Kept.endStep {s t : State} {p : Nat} {m : Word} (h : Kept s t) : Kept s (State.endStep t p m) := by
  unfold State.endStep
  try dsimp only
  repeat' first
    | with_reducible assumption
    | with_reducible apply Kept.onCtx
    | with_reducible apply Kept.foldl
    | with_reducible apply Kept.foldlFst
    | with_reducible apply Kept.getD
    | with_reducible apply Kept.elim
    | split
    | intro _

theorem Kept.applyBlocks {s t : State} {p : Nat} {m : Word} (h : Kept s t) : Kept s (State.applyBlocks t p m) := by
  unfold State.applyBlocks
  try dsimp only
  repeat' first
    | with_reducible assumption
    | with_reducible apply Kept.onCtx
    | with_reducible apply Kept.complete
    | with_reducible apply Kept.foldl
    | with_reducible apply Kept.foldlFst
    | with_reducible apply Kept.getD
    | with_reducible apply Kept.elim
    | split
    | intro _

theorem Kept.leaveStep {s t : State} {ids : List Nat} (h : Kept s t) : Kept s (State.leaveStep t ids) := by
  unfold State.leaveStep
  try dsimp only
  repeat' first
    | with_reducible assumption
    | with_reducible apply Kept.logEvent
    | with_reducible apply Kept.endCtx
    | with_reducible apply Kept.foldl
    | with_reducible apply Kept.foldlFst
    | with_reducible apply Kept.getD
    | with_reducible apply Kept.elim
    | split
    | intro _

theorem Kept.limitStep {s t : State} {b : Boundary} (h : Kept s t) : Kept s (State.limitStep t b).1 := by
  unfold State.limitStep
  try dsimp only
  repeat' first
    | with_reducible assumption
    | with_reducible apply Kept.endCtx
    | with_reducible apply Kept.foldl
    | with_reducible apply Kept.foldlFst
    | with_reducible apply Kept.getD
    | with_reducible apply Kept.elim
    | split
    | intro _

theorem Kept.runStep {s t : State} {f : Nat} {b : Boundary} (h : Kept s t) : Kept s (State.runStep f t b).1 := by
  induction f generalizing t b with
  | zero => exact h
  | succ f ih =>
    unfold State.runStep
    dsimp only
    split
    · exact h
    · split
      · refine ih ?_
        split
        · exact (h.endCtx).raiseCtx
        · exact h.endCtx
      · split
        · exact h.beginSwapOut
        · exact ih h.beginSwapOut

theorem Kept.admitCtx {s t : State} {b : Boundary} {id : Nat} {n : Nat} (h : Kept s t) : Kept s (State.admitCtx t b id n) := by
  unfold State.admitCtx
  try dsimp only
  repeat' first
    | with_reducible assumption
    | with_reducible apply Kept.beginSwapIn
    | with_reducible apply Kept.logEvent
    | with_reducible apply Kept.onCtxEntry
    | with_reducible apply Kept.beginStep
    | with_reducible apply Kept.openBlocks
    | with_reducible apply Kept.foldl
    | with_reducible apply Kept.foldlFst
    | with_reducible apply Kept.getD
    | with_reducible apply Kept.elim
    | split
    | intro _

theorem Kept.joinOne {s t : State} {f : Nat} {b : Boundary} {j : Nat} (h : Kept s t) : Kept s (State.joinOne f t b j).1 := by
  induction f generalizing t b with
  | zero => exact h
  | succ f ih =>
    unfold State.joinOne
    dsimp only
    split
    · exact h.endCtx
    · split
      · exact h.endCtx
      · split
        · exact h
        · split
          · exact h.admitCtx
          · split
            · split
              · exact h.beginSwapOut
              · exact ih h.beginSwapOut
            · exact h.logEvent

theorem Kept.joinStep {s t : State} {f : Nat} {b : Boundary} (h : Kept s t) : Kept s (State.joinStep f t b).1 := by
  induction f generalizing t b with
  | zero => exact h
  | succ f ih =>
    unfold State.joinStep
    dsimp only
    split
    · exact h
    · split
      · exact h.joinOne
      · exact ih h.joinOne

theorem Kept.takeSnapshot {s t : State} {m : Word} (h : Kept s t) : Kept s (State.takeSnapshot t m) := by
  unfold State.takeSnapshot
  try dsimp only
  repeat' first
    | with_reducible assumption
    | with_reducible apply Kept.onCtx
    | with_reducible apply Kept.foldl
    | with_reducible apply Kept.foldlFst
    | with_reducible apply Kept.getD
    | with_reducible apply Kept.elim
    | split
    | intro _

theorem Kept.makeCopies {s t : State} {b : Boundary} (h : Kept s t) : Kept s (State.makeCopies t b).1 := by
  unfold State.makeCopies
  try dsimp only
  repeat' first
    | with_reducible assumption
    | with_reducible apply Kept.copyPartial
    | with_reducible apply Kept.foldl
    | with_reducible apply Kept.foldlFst
    | with_reducible apply Kept.getD
    | with_reducible apply Kept.elim
    | split
    | intro _

theorem Kept.endBoundary {s t : State} {b : Boundary} (h : Kept s t) : Kept s (State.endBoundary t b) := by
  unfold State.endBoundary
  try dsimp only
  repeat' first
    | with_reducible assumption
    | with_reducible apply Kept.makeCopies
    | with_reducible apply Kept.beginStep
    | with_reducible apply Kept.emit
    | with_reducible apply Kept.takeSnapshot
    | with_reducible apply Kept.foldl
    | with_reducible apply Kept.foldlFst
    | with_reducible apply Kept.getD
    | with_reducible apply Kept.elim
    | split
    | intro _

theorem Kept.waitBoundary {s t : State} {b : Boundary} (h : Kept s t) : Kept s (State.waitBoundary t b) := by
  unfold State.waitBoundary
  try dsimp only
  repeat' first
    | with_reducible assumption
    | with_reducible apply Kept.onCtx
    | with_reducible apply Kept.foldl
    | with_reducible apply Kept.foldlFst
    | with_reducible apply Kept.getD
    | with_reducible apply Kept.elim
    | split
    | intro _

theorem Kept.runBoundary {s t : State} {b : Boundary} (h : Kept s t) : Kept s (State.runBoundary t b) := by
  unfold State.runBoundary
  try dsimp only
  repeat' first
    | with_reducible assumption
    | with_reducible apply Kept.runStep
    | with_reducible apply Kept.limitStep
    | with_reducible apply Kept.joinStep
    | with_reducible apply Kept.waitBoundary
    | with_reducible apply Kept.endBoundary
    | with_reducible apply Kept.foldl
    | with_reducible apply Kept.foldlFst
    | with_reducible apply Kept.getD
    | with_reducible apply Kept.elim
    | split
    | intro _

theorem Kept.givenSwaps {s t : State} {f : Nat} {b : Boundary} (h : Kept s t) : Kept s (State.givenSwaps f t b).1 := by
  induction f generalizing t b with
  | zero => exact h
  | succ f ih =>
    unfold State.givenSwaps
    dsimp only
    split
    · exact h
    · split
      · exact h.beginSwapOut
      · exact ih h.beginSwapOut

theorem Kept.runGiven {s t : State} {b : Boundary} (h : Kept s t) : Kept s (State.runGiven t b) := by
  unfold State.runGiven
  try dsimp only
  repeat' first
    | with_reducible assumption
    | with_reducible apply Kept.givenSwaps
    | with_reducible apply Kept.waitBoundary
    | with_reducible apply Kept.admitCtx
    | with_reducible apply Kept.copyRow
    | with_reducible apply Kept.takeSnapshot
    | with_reducible apply Kept.beginStep
    | with_reducible apply Kept.foldl
    | with_reducible apply Kept.foldlFst
    | with_reducible apply Kept.getD
    | with_reducible apply Kept.elim
    | split
    | intro _

theorem Kept.resumeBoundary {s t : State} {id : Nat} (h : Kept s t) : Kept s (State.resumeBoundary t id) := by
  unfold State.resumeBoundary
  try dsimp only
  repeat' first
    | with_reducible assumption
    | with_reducible apply Kept.onCtx
    | with_reducible apply Kept.runGiven
    | with_reducible apply Kept.runBoundary
    | with_reducible apply Kept.foldl
    | with_reducible apply Kept.foldlFst
    | with_reducible apply Kept.getD
    | with_reducible apply Kept.elim
    | split
    | intro _

theorem Kept.stepBoundary {s t : State} {p : Nat} {m : Word} {appends : List (BitVec 18 × Nat)} {written : List Nat} {reports : List (BitVec 3 × Nat)} (h : Kept s t) : Kept s (State.stepBoundary t p m appends written reports) := by
  unfold State.stepBoundary
  try dsimp only
  repeat' first
    | with_reducible assumption
    | with_reducible apply Kept.applyBlocks
    | with_reducible apply Kept.endStep
    | with_reducible apply Kept.runBoundary
    | with_reducible apply Kept.leaveStep
    | with_reducible apply Kept.foldl
    | with_reducible apply Kept.foldlFst
    | with_reducible apply Kept.getD
    | with_reducible apply Kept.elim
    | split
    | intro _

theorem Kept.applyDecision {s t : State} {m : Word} {d : StepDecision} (h : Kept s t) : Kept s (State.applyDecision t m d) := by
  unfold State.applyDecision
  try dsimp only
  repeat' first
    | with_reducible assumption
    | with_reducible apply Kept.onCtx
    | with_reducible apply Kept.leaveStep
    | with_reducible apply Kept.applyBlocks
    | with_reducible apply Kept.endStep
    | with_reducible apply Kept.runGiven
    | with_reducible apply Kept.endCtx
    | with_reducible apply Kept.foldl
    | with_reducible apply Kept.foldlFst
    | with_reducible apply Kept.getD
    | with_reducible apply Kept.elim
    | split
    | intro _

end Sys2Proof.Machine
end

