-- ==== Sys2Proof/Laws/KeptScheduleOps.lean ====
section
/-! SUPPORT. What the operations of Machine/ScheduleOps.lean keep. -/

-- One declaration at a time, so that few threads hold memory at once.
set_option Elab.async false

namespace Sys2Proof.Machine

set_option linter.unusedTactic false
set_option linter.unreachableTactic false

theorem Kept.requestLoad {s t : State} {m : Word} {cmd : Option (BitVec 4 × Word)} {p : Nat} (h : Kept s t) : Kept s (State.requestLoad t m cmd p) := by
  unfold State.requestLoad
  try dsimp only
  repeat' first
    | with_reducible assumption
    | with_reducible apply Kept.onSched
    | with_reducible apply Kept.foldl
    | with_reducible apply Kept.foldlFst
    | with_reducible apply Kept.getD
    | with_reducible apply Kept.elim
    | split
    | intro _

theorem Kept.useModel {s t : State} {m : Word} (h : Kept s t) : Kept s (State.useModel t m) := by
  unfold State.useModel
  try dsimp only
  repeat' first
    | with_reducible assumption
    | with_reducible apply Kept.onSched
    | with_reducible apply Kept.foldl
    | with_reducible apply Kept.foldlFst
    | with_reducible apply Kept.getD
    | with_reducible apply Kept.elim
    | split
    | intro _

theorem Kept.saveScales {s t : State} {m : Word} (h : Kept s t) : Kept s (State.saveScales t m) := by
  unfold State.saveScales
  try dsimp only
  repeat' first
    | with_reducible assumption
    | with_reducible apply Kept.onSched
    | with_reducible apply Kept.foldl
    | with_reducible apply Kept.foldlFst
    | with_reducible apply Kept.getD
    | with_reducible apply Kept.elim
    | split
    | intro _

theorem Kept.loadScales {s t : State} {m : Word} (h : Kept s t) : Kept s (State.loadScales t m) := by
  unfold State.loadScales
  try dsimp only
  repeat' first
    | with_reducible assumption
    | with_reducible apply Kept.poke
    | with_reducible apply Kept.foldl
    | with_reducible apply Kept.foldlFst
    | with_reducible apply Kept.getD
    | with_reducible apply Kept.elim
    | split
    | intro _

theorem Kept.makeRoom {s t u : State} {f n : Nat} (h : Kept s t) (e : State.makeRoom f t n = some u) : Kept s u := by
  induction f generalizing t with
  | zero => cases e
  | succ f ih =>
    unfold State.makeRoom at e
    split at e
    · cases e; exact h
    · split at e
      · cases e
      · exact ih h.saveScales.onSched e

theorem Kept.modelLoaded {s t : State} {m : Word} {p : Nat} (h : Kept s t) : Kept s (State.modelLoaded t m p) := by
  unfold State.modelLoaded
  try dsimp only
  repeat' first
    | with_reducible assumption
    | with_reducible apply Kept.onAcct
    | with_reducible apply Kept.onSched
    | with_reducible apply Kept.loadScales
    | with_reducible apply Kept.complete
    | with_reducible apply Kept.foldl
    | with_reducible apply Kept.foldlFst
    | with_reducible apply Kept.getD
    | with_reducible apply Kept.elim
    | split
    | intro _

theorem Kept.loadImage {s t : State} {n : Nat} {m : Word} {prog : Nat} (h : Kept s t) : Kept s (State.loadImage t n m prog) := by
  unfold State.loadImage
  try dsimp only
  repeat' first
    | with_reducible assumption
    | with_reducible apply Kept.onCore
    | with_reducible apply Kept.pondWrite
    | with_reducible apply Kept.foldl
    | with_reducible apply Kept.foldlFst
    | with_reducible apply Kept.getD
    | with_reducible apply Kept.elim
    | split
    | intro _

theorem Kept.startOn {s t : State} {ns : List Nat} {m : Word} {prog : Nat} {ctx : Nat} {part : Nat} {runFrame : Nat} {w : Work} (h : Kept s t) : Kept s (State.startOn t ns m prog ctx part runFrame w) := by
  unfold State.startOn
  try dsimp only
  repeat' first
    | with_reducible assumption
    | with_reducible apply Kept.onCore
    | with_reducible apply Kept.startCore
    | with_reducible apply Kept.loadImage
    | with_reducible apply Kept.useModel
    | with_reducible apply Kept.foldl
    | with_reducible apply Kept.foldlFst
    | with_reducible apply Kept.getD
    | with_reducible apply Kept.elim
    | split
    | intro _

theorem Kept.unlessRefused {s t : State} {e : Nat} {frame : Nat} (h : Kept s t) : Kept s (State.unlessRefused t e frame) := by
  unfold State.unlessRefused
  try dsimp only
  repeat' first
    | with_reducible assumption
    | with_reducible apply Kept.onSched
    | with_reducible apply Kept.foldl
    | with_reducible apply Kept.foldlFst
    | with_reducible apply Kept.getD
    | with_reducible apply Kept.elim
    | split
    | intro _

theorem Kept.rejoin {s t : State} {w : WorkEntry} (h : Kept s t) : Kept s (State.rejoin t w) := by
  unfold State.rejoin
  try dsimp only
  repeat' first
    | with_reducible assumption
    | with_reducible apply Kept.onCore
    | with_reducible apply Kept.setDetect
    | with_reducible apply Kept.onGroup
    | with_reducible apply Kept.foldl
    | with_reducible apply Kept.foldlFst
    | with_reducible apply Kept.getD
    | with_reducible apply Kept.elim
    | split
    | intro _

theorem Kept.makeRelease {s t : State} {e : Nat} {w : WorkEntry} (h : Kept s t) : Kept s (State.makeRelease t e w) := by
  unfold State.makeRelease
  try dsimp only
  repeat' first
    | with_reducible assumption
    | with_reducible apply Kept.rejoin
    | with_reducible apply Kept.onSched
    | with_reducible apply Kept.unlessRefused
    | with_reducible apply Kept.startOn
    | with_reducible apply Kept.requestLoad
    | with_reducible apply Kept.foldl
    | with_reducible apply Kept.foldlFst
    | with_reducible apply Kept.getD
    | with_reducible apply Kept.elim
    | split
    | intro _

theorem Kept.startHeld {s t : State} {r : Rel} {w : WorkEntry} (h : Kept s t) : Kept s (State.startHeld t r w) := by
  unfold State.startHeld
  try dsimp only
  repeat' first
    | with_reducible assumption
    | with_reducible apply Kept.unlessRefused
    | with_reducible apply Kept.startOn
    | with_reducible apply Kept.onSched
    | with_reducible apply Kept.foldl
    | with_reducible apply Kept.foldlFst
    | with_reducible apply Kept.getD
    | with_reducible apply Kept.elim
    | split
    | intro _

theorem Kept.resumeOn {s t : State} {ns : List Nat} {hdr : BitVec 16} (h : Kept s t) : Kept s (State.resumeOn t ns hdr) := by
  unfold State.resumeOn
  try dsimp only
  repeat' first
    | with_reducible assumption
    | with_reducible apply Kept.resumeSaved
    | with_reducible apply Kept.foldl
    | with_reducible apply Kept.foldlFst
    | with_reducible apply Kept.getD
    | with_reducible apply Kept.elim
    | split
    | intro _

theorem Kept.onJob {s t : State} {part : BitVec 4} {seq : Word} {f : Job → Job} (h : Kept s t) : Kept s (State.onJob t part seq f) := by
  unfold State.onJob
  try dsimp only
  repeat' first
    | with_reducible assumption
    | with_reducible apply Kept.onSched
    | with_reducible apply Kept.foldl
    | with_reducible apply Kept.foldlFst
    | with_reducible apply Kept.getD
    | with_reducible apply Kept.elim
    | split
    | intro _

theorem Kept.startJob {s t : State} {j : Job} {ns : List Nat} (h : Kept s t) : Kept s (State.startJob t j ns) := by
  unfold State.startJob
  try dsimp only
  repeat' first
    | with_reducible assumption
    | with_reducible apply Kept.startOn
    | with_reducible apply Kept.onJob
    | with_reducible apply Kept.foldl
    | with_reducible apply Kept.foldlFst
    | with_reducible apply Kept.getD
    | with_reducible apply Kept.elim
    | split
    | intro _

theorem Kept.servePool {s t : State} {w : WorkEntry} (h : Kept s t) : Kept s (State.servePool t w) := by
  unfold State.servePool
  try dsimp only
  repeat' first
    | with_reducible assumption
    | with_reducible apply Kept.rejoin
    | with_reducible apply Kept.resumeOn
    | with_reducible apply Kept.startJob
    | with_reducible apply Kept.foldl
    | with_reducible apply Kept.foldlFst
    | with_reducible apply Kept.getD
    | with_reducible apply Kept.elim
    | split
    | intro _

theorem Kept.servePools {s t : State} (h : Kept s t) : Kept s (State.servePools t) := by
  unfold State.servePools
  try dsimp only
  repeat' first
    | with_reducible assumption
    | with_reducible apply Kept.servePool
    | with_reducible apply Kept.foldl
    | with_reducible apply Kept.foldlFst
    | with_reducible apply Kept.getD
    | with_reducible apply Kept.elim
    | split
    | intro _

theorem Kept.missed {s t : State} {part : Nat} {ctx : Nat} {entry : Nat} {frame : Nat} (h : Kept s t) : Kept s (State.missed t part ctx entry frame) := by
  unfold State.missed
  try dsimp only
  repeat' first
    | with_reducible assumption
    | with_reducible apply Kept.onAcct
    | with_reducible apply Kept.raiseCtx
    | with_reducible apply Kept.logEvent
    | with_reducible apply Kept.foldl
    | with_reducible apply Kept.foldlFst
    | with_reducible apply Kept.getD
    | with_reducible apply Kept.elim
    | split
    | intro _

theorem Kept.countMiss {s t : State} {e : Nat} {part : Nat} (h : Kept s t) : Kept s (State.countMiss t e part) := by
  unfold State.countMiss
  try dsimp only
  repeat' first
    | with_reducible assumption
    | with_reducible apply Kept.onSched
    | with_reducible apply Kept.raiseCtx
    | with_reducible apply Kept.logEvent
    | with_reducible apply Kept.foldl
    | with_reducible apply Kept.foldlFst
    | with_reducible apply Kept.getD
    | with_reducible apply Kept.elim
    | split
    | intro _

theorem Kept.discardOn {s t : State} {ns : List Nat} {hdr : BitVec 16} {ctx : Nat} {part : Nat} (h : Kept s t) : Kept s (State.discardOn t ns hdr ctx part) := by
  unfold State.discardOn
  try dsimp only
  repeat' first
    | with_reducible assumption
    | with_reducible apply Kept.onAcct
    | with_reducible apply Kept.discardSaved
    | with_reducible apply Kept.endCtx
    | with_reducible apply Kept.foldl
    | with_reducible apply Kept.foldlFst
    | with_reducible apply Kept.getD
    | with_reducible apply Kept.elim
    | split
    | intro _

theorem Kept.voidUnmade {s t : State} {n : Nat} {m : Word} {prog : Nat} (h : Kept s t) : Kept s (State.voidUnmade t n m prog) := by
  unfold State.voidUnmade
  try dsimp only
  repeat' first
    | with_reducible assumption
    | with_reducible apply Kept.pondRead
    | with_reducible apply Kept.onCore
    | with_reducible apply Kept.foldl
    | with_reducible apply Kept.foldlFst
    | with_reducible apply Kept.getD
    | with_reducible apply Kept.elim
    | split
    | intro _

theorem Kept.dropRelease {s t : State} {r : Rel} {w : WorkEntry} (h : Kept s t) : Kept s (State.dropRelease t r w) := by
  unfold State.dropRelease
  try dsimp only
  repeat' first
    | with_reducible assumption
    | with_reducible apply Kept.teardownCore
    | with_reducible apply Kept.discardOn
    | with_reducible apply Kept.voidUnmade
    | with_reducible apply Kept.loadImage
    | with_reducible apply Kept.foldl
    | with_reducible apply Kept.foldlFst
    | with_reducible apply Kept.getD
    | with_reducible apply Kept.elim
    | split
    | intro _

theorem Kept.checkRelease {s t : State} {r : Rel} {w : WorkEntry} (h : Kept s t) : Kept s (State.checkRelease t r w) := by
  unfold State.checkRelease
  try dsimp only
  repeat' first
    | with_reducible assumption
    | with_reducible apply Kept.onSched
    | with_reducible apply Kept.countMiss
    | with_reducible apply Kept.missed
    | with_reducible apply Kept.dropRelease
    | with_reducible apply Kept.foldl
    | with_reducible apply Kept.foldlFst
    | with_reducible apply Kept.getD
    | with_reducible apply Kept.elim
    | split
    | intro _

theorem Kept.missJob {s t : State} {j : Job} (h : Kept s t) : Kept s (State.missJob t j) := by
  unfold State.missJob
  try dsimp only
  repeat' first
    | with_reducible assumption
    | with_reducible apply Kept.chargeCore
    | with_reducible apply Kept.onSched
    | with_reducible apply Kept.teardownCore
    | with_reducible apply Kept.discardOn
    | with_reducible apply Kept.missed
    | with_reducible apply Kept.complete
    | with_reducible apply Kept.foldl
    | with_reducible apply Kept.foldlFst
    | with_reducible apply Kept.getD
    | with_reducible apply Kept.elim
    | split
    | intro _

theorem Kept.testSetDone {s t : State} {n : Nat} (h : Kept s t) : Kept s (State.testSetDone t n) := by
  unfold State.testSetDone
  try dsimp only
  repeat' first
    | with_reducible assumption
    | with_reducible apply Kept.onCore
    | with_reducible apply Kept.onGroup
    | with_reducible apply Kept.foldl
    | with_reducible apply Kept.foldlFst
    | with_reducible apply Kept.getD
    | with_reducible apply Kept.elim
    | split
    | intro _

theorem Kept.groupCmdDone {s t : State} {g : Nat} (h : Kept s t) : Kept s (State.groupCmdDone t g) := by
  unfold State.groupCmdDone
  try dsimp only
  repeat' first
    | with_reducible assumption
    | with_reducible apply Kept.complete
    | with_reducible apply Kept.onGroup
    | with_reducible apply Kept.foldl
    | with_reducible apply Kept.foldlFst
    | with_reducible apply Kept.getD
    | with_reducible apply Kept.elim
    | split
    | intro _

theorem Kept.finishSplit {s t : State} {g : Nat} (h : Kept s t) : Kept s (State.finishSplit t g) := by
  unfold State.finishSplit
  try dsimp only
  repeat' first
    | with_reducible assumption
    | with_reducible apply Kept.groupMismatch
    | with_reducible apply Kept.groupCmdDone
    | with_reducible apply Kept.onGroup
    | with_reducible apply Kept.onCore
    | with_reducible apply Kept.foldl
    | with_reducible apply Kept.foldlFst
    | with_reducible apply Kept.getD
    | with_reducible apply Kept.elim
    | split
    | intro _

end Sys2Proof.Machine
end

