-- ==== Sys2Proof/Laws/KeptScaleOps.lean ====
section
/-! SUPPORT. What the operations of Machine/ScaleOps.lean keep. -/

-- One declaration at a time, so that few threads hold memory at once.
set_option Elab.async false

namespace Sys2Proof.Machine

set_option linter.unusedTactic false
set_option linter.unreachableTactic false

theorem Kept.boundaryWrite {s t : State} {a : Nat} {bs : Bytes} (h : Kept s t) : Kept s (State.boundaryWrite t a bs) := by
  unfold State.boundaryWrite
  try dsimp only
  repeat' first
    | with_reducible assumption
    | with_reducible apply Kept.busWrite
    | with_reducible apply Kept.foldl
    | with_reducible apply Kept.foldlFst
    | with_reducible apply Kept.getD
    | with_reducible apply Kept.elim
    | split
    | intro _

theorem Kept.collect {s t : State} {e : Bytes} {g : Nat × Nat} (h : Kept s t) : Kept s (State.collect t e g).1 := by
  unfold State.collect
  try dsimp only
  repeat' first
    | with_reducible assumption
    | with_reducible apply Kept.boundaryWrite
    | with_reducible apply Kept.foldl
    | with_reducible apply Kept.foldlFst
    | with_reducible apply Kept.getD
    | with_reducible apply Kept.elim
    | split
    | intro _

theorem Kept.spreadFactors {s t : State} {m : Word} {t1 : Nat} {e : Bytes} (h : Kept s t) : Kept s (State.spreadFactors t m t1 e) := by
  unfold State.spreadFactors
  try dsimp only
  repeat' first
    | with_reducible assumption
    | with_reducible apply Kept.boundaryWrite
    | with_reducible apply Kept.foldl
    | with_reducible apply Kept.foldlFst
    | with_reducible apply Kept.getD
    | with_reducible apply Kept.elim
    | split
    | intro _

theorem Kept.updateTensor {s t : State} {m : Word} {t1 : Nat} (h : Kept s t) : Kept s (State.updateTensor t m t1) := by
  unfold State.updateTensor
  try dsimp only
  repeat' first
    | with_reducible assumption
    | with_reducible apply Kept.collect
    | with_reducible apply Kept.poke
    | with_reducible apply Kept.boundaryWrite
    | with_reducible apply Kept.spreadFactors
    | with_reducible apply Kept.foldl
    | with_reducible apply Kept.foldlFst
    | with_reducible apply Kept.getD
    | with_reducible apply Kept.elim
    | split
    | intro _

theorem Kept.updateScales {s t : State} {m : Word} {written : List Nat} (h : Kept s t) : Kept s (State.updateScales t m written) := by
  unfold State.updateScales
  try dsimp only
  repeat' first
    | with_reducible assumption
    | with_reducible apply Kept.updateTensor
    | with_reducible apply Kept.foldl
    | with_reducible apply Kept.foldlFst
    | with_reducible apply Kept.getD
    | with_reducible apply Kept.elim
    | split
    | intro _

end Sys2Proof.Machine
end

