-- ==== Sys2Proof/Laws/KeptCommandOps.lean ====
section
/-! SUPPORT. What the operations of Machine/CommandOps.lean keep. -/

-- One declaration at a time, so that few threads hold memory at once.
set_option Elab.async false

namespace Sys2Proof.Machine

set_option linter.unusedTactic false
set_option linter.unreachableTactic false

theorem Kept.submitRead {s t : State} {p : Nat} {h1 : Nat} (h : Kept s t) : Kept s (State.submitRead t p h1) := by
  unfold State.submitRead
  try dsimp only
  repeat' first
    | with_reducible assumption
    | with_reducible apply Kept.onWindow
    | with_reducible apply Kept.complete
    | with_reducible apply Kept.foldl
    | with_reducible apply Kept.foldlFst
    | with_reducible apply Kept.getD
    | with_reducible apply Kept.elim
    | split
    | intro _

theorem Kept.takeCmd {s t : State} {part : BitVec 4} {seq : Word} (h : Kept s t) : Kept s (State.takeCmd t part seq) := by
  unfold State.takeCmd
  try dsimp only
  repeat' first
    | with_reducible assumption
    | with_reducible apply Kept.onWindow
    | with_reducible apply Kept.foldl
    | with_reducible apply Kept.foldlFst
    | with_reducible apply Kept.getD
    | with_reducible apply Kept.elim
    | split
    | intro _

theorem Kept.carry {s t : State} {part : BitVec 4} {seq : Word} {status : Nat} {effect : State → State} (h : Kept s t) (heffect : ∀ p0, Kept s p0 → Kept s (effect p0)) : Kept s (State.carry t part seq status effect) := by
  unfold State.carry
  try dsimp only
  repeat' first
    | with_reducible assumption
    | with_reducible apply Kept.takeCmd
    | with_reducible apply Kept.complete
    | with_reducible apply heffect
    | with_reducible apply Kept.foldl
    | with_reducible apply Kept.foldlFst
    | with_reducible apply Kept.getD
    | with_reducible apply Kept.elim
    | split
    | intro _

theorem Kept.allocCtx {s t : State} {part : BitVec 4} {seq : Word} {x : Ctx} (h : Kept s t) : Kept s (State.allocCtx t part seq x) := by
  unfold State.allocCtx
  try dsimp only
  repeat' first
    | with_reducible assumption
    | with_reducible apply Kept.complete
    | with_reducible apply Kept.onCtx
    | with_reducible apply Kept.onCtxEntry
    | with_reducible apply Kept.foldl
    | with_reducible apply Kept.foldlFst
    | with_reducible apply Kept.getD
    | with_reducible apply Kept.elim
    | split
    | intro _

theorem Kept.forkCtx {s t : State} {part : BitVec 4} {seq : Word} {c : Cmd} (h : Kept s t) : Kept s (State.forkCtx t part seq c) := by
  unfold State.forkCtx
  try dsimp only
  repeat' first
    | with_reducible assumption
    | with_reducible apply Kept.allocCtx
    | with_reducible apply Kept.onCtx
    | with_reducible apply Kept.foldl
    | with_reducible apply Kept.foldlFst
    | with_reducible apply Kept.getD
    | with_reducible apply Kept.elim
    | split
    | intro _

theorem Kept.tearJob {s t : State} {j : Job} (h : Kept s t) : Kept s (State.tearJob t j) := by
  unfold State.tearJob
  try dsimp only
  repeat' first
    | with_reducible assumption
    | with_reducible apply Kept.onSched
    | with_reducible apply Kept.teardownCore
    | with_reducible apply Kept.complete
    | with_reducible apply Kept.discardOn
    | with_reducible apply Kept.foldl
    | with_reducible apply Kept.foldlFst
    | with_reducible apply Kept.getD
    | with_reducible apply Kept.elim
    | split
    | intro _

theorem Kept.tearCtx {s t : State} {id : Nat} (h : Kept s t) : Kept s (State.tearCtx t id) := by
  unfold State.tearCtx
  try dsimp only
  repeat' first
    | with_reducible assumption
    | with_reducible apply Kept.teardownCore
    | with_reducible apply Kept.discardSaved
    | with_reducible apply Kept.tearJob
    | with_reducible apply Kept.endCtx
    | with_reducible apply Kept.foldl
    | with_reducible apply Kept.foldlFst
    | with_reducible apply Kept.getD
    | with_reducible apply Kept.elim
    | split
    | intro _

end Sys2Proof.Machine
end

