-- ==== Sys2Proof/Laws/KeptFaults.lean ====
section
/-! SUPPORT. What the operations of Machine/Faults.lean keep. -/

-- One declaration at a time, so that few threads hold memory at once.
set_option Elab.async false

namespace Sys2Proof.Machine

set_option linter.unusedTactic false
set_option linter.unreachableTactic false

theorem Kept.heartbeatMiss {s t : State} (h : Kept s t) : Kept s (State.heartbeatMiss t) := by
  unfold State.heartbeatMiss
  try dsimp only
  repeat' first
    | with_reducible assumption
    | with_reducible apply Kept.onIsl
    | with_reducible apply Kept.raise
    | with_reducible apply Kept.foldl
    | with_reducible apply Kept.foldlFst
    | with_reducible apply Kept.getD
    | with_reducible apply Kept.elim
    | split
    | intro _

theorem Kept.watchdogFault {s t : State} {pair : Nat} (h : Kept s t) : Kept s (State.watchdogFault t pair) := by
  unfold State.watchdogFault
  try dsimp only
  repeat' first
    | with_reducible assumption
    | with_reducible apply Kept.raise
    | with_reducible apply Kept.onIsl
    | with_reducible apply Kept.foldl
    | with_reducible apply Kept.foldlFst
    | with_reducible apply Kept.getD
    | with_reducible apply Kept.elim
    | split
    | intro _

theorem Kept.kick {s t : State} {pair : Nat} {v : BitVec 16} (h : Kept s t) : Kept s (State.kick t pair v) := by
  unfold State.kick
  try dsimp only
  repeat' first
    | with_reducible assumption
    | with_reducible apply Kept.onIsl
    | with_reducible apply Kept.watchdogFault
    | with_reducible apply Kept.foldl
    | with_reducible apply Kept.foldlFst
    | with_reducible apply Kept.getD
    | with_reducible apply Kept.elim
    | split
    | intro _

theorem Kept.execFcAltSw {s t : State} {by_ : Initiator} {level : Bool} (h : Kept s t) : ∃ u, Sys2Proof.Machine.execFcAltSw by_ level t = .next u ∧ Kept s u := by
  unfold Sys2Proof.Machine.execFcAltSw
  refine ⟨_, rfl, ?_⟩
  try dsimp only
  repeat' first
    | with_reducible assumption
    | (with_reducible refine Kept.fcSame ?_ rfl rfl rfl)
    | with_reducible apply Kept.onFc
    | with_reducible apply Kept.busFault
    | with_reducible apply Kept.foldl
    | split
    | intro _

theorem Kept.execFcClear {s t : State} {by_ : Initiator} {slot : Byte} {seq : BitVec 48} (h : Kept s t) : ∃ u, Sys2Proof.Machine.execFcClear by_ slot seq t = .next u ∧ Kept s u := by
  unfold Sys2Proof.Machine.execFcClear
  refine ⟨_, rfl, ?_⟩
  try dsimp only
  repeat' first
    | with_reducible assumption
    | with_reducible apply Kept.clearRecord
    | with_reducible apply Kept.busFault
    | with_reducible apply Kept.foldl
    | split
    | intro _

theorem Kept.execFcInject {s t : State} {by_ : Initiator} {v : Word64} (h : Kept s t) : ∃ u, Sys2Proof.Machine.execFcInject by_ v t = .next u ∧ Kept s u := by
  unfold Sys2Proof.Machine.execFcInject
  refine ⟨_, rfl, ?_⟩
  try dsimp only
  repeat' first
    | with_reducible assumption
    | with_reducible apply Kept.busFault
    | with_reducible apply Kept.unitReaction
    | with_reducible apply Kept.reportWith
    | with_reducible apply Kept.foldl
    | split
    | intro _

theorem Kept.execOverflowClear {s t : State} {by_ : Initiator} (h : Kept s t) : ∃ u, Sys2Proof.Machine.execOverflowClear by_ t = .next u ∧ Kept s u := by
  unfold Sys2Proof.Machine.execOverflowClear
  refine ⟨_, rfl, ?_⟩
  try dsimp only
  repeat' first
    | with_reducible assumption
    | (with_reducible refine Kept.fcSame ?_ rfl rfl rfl)
    | with_reducible apply Kept.onFc
    | with_reducible apply Kept.busFault
    | exact fun x => Collector.Ok.settle ⟨x.latch, x.log⟩
    | with_reducible apply Kept.foldl
    | split
    | intro _

end Sys2Proof.Machine
end

