-- ==== Sys2Proof/Laws/KeptPower.lean ====
section
/-! SUPPORT. What the operations of Machine/Power.lean keep. -/

-- One declaration at a time, so that few threads hold memory at once.
set_option Elab.async false

namespace Sys2Proof.Machine

set_option linter.unusedTactic false
set_option linter.unreachableTactic false

theorem Kept.chargeEnergy {s t : State} {est : Nat} (h : Kept s t) : Kept s (State.chargeEnergy t est) := by
  unfold State.chargeEnergy
  try dsimp only
  repeat' first
    | with_reducible assumption
    | (with_reducible refine Kept.pwrSame ?_ rfl rfl rfl)
    | with_reducible apply Kept.onSched
    | with_reducible apply Kept.onPwr
    | with_reducible apply Kept.foldl
    | with_reducible apply Kept.foldlFst
    | with_reducible apply Kept.getD
    | with_reducible apply Kept.elim
    | split
    | intro _

theorem Kept.thermal {s t : State} {code : Nat} {cls : Nat} {detail : Nat} (h : Kept s t) : Kept s (State.thermal t code cls detail) := by
  unfold State.thermal
  try dsimp only
  repeat' first
    | with_reducible assumption
    | with_reducible apply Kept.raise
    | with_reducible apply Kept.foldl
    | with_reducible apply Kept.foldlFst
    | with_reducible apply Kept.getD
    | with_reducible apply Kept.elim
    | split
    | intro _

theorem Kept.threshold {s t : State} {k : Nat} {deg : Int} {code : Nat} {cls : Nat} {act : State → State} (h : Kept s t) (hact : ∀ p0, Kept s p0 → Kept s (act p0)) : Kept s (State.threshold t k deg code cls act) := by
  unfold State.threshold
  try dsimp only
  repeat' first
    | with_reducible assumption
    | (with_reducible refine Kept.pwrSame ?_ rfl rfl rfl)
    | with_reducible apply Kept.thermal
    | with_reducible apply Kept.onPwr
    | with_reducible apply hact
    | with_reducible apply Kept.foldl
    | with_reducible apply Kept.foldlFst
    | with_reducible apply Kept.getD
    | with_reducible apply Kept.elim
    | split
    | intro _

theorem Kept.fullThrottle {s t : State} (h : Kept s t) : Kept s (State.fullThrottle t) := by
  unfold State.fullThrottle
  exact Kept.onPwr h fun x => ⟨x.full.level, x.full.clock, x.full.unmet⟩

theorem Kept.lakeHeat {s t : State} {r : Nat} {t1 : Int} (h : Kept s t) : Kept s (State.lakeHeat t r t1) := by
  unfold State.lakeHeat
  try dsimp only
  repeat' first
    | with_reducible assumption
    | with_reducible apply Kept.logEvent
    | with_reducible apply Kept.onLake
    | with_reducible apply Kept.foldl
    | with_reducible apply Kept.foldlFst
    | with_reducible apply Kept.getD
    | with_reducible apply Kept.elim
    | split
    | intro _

theorem Kept.failSensors {s t : State} (h : Kept s t) : Kept s (State.failSensors t) := by
  unfold State.failSensors
  try dsimp only
  repeat' first
    | with_reducible assumption
    | (with_reducible refine Kept.pwrSame ?_ rfl rfl rfl)
    | with_reducible apply Kept.thermal
    | with_reducible apply Kept.onPwr
    | with_reducible apply Kept.fullThrottle
    | with_reducible apply Kept.foldl
    | with_reducible apply Kept.foldlFst
    | with_reducible apply Kept.getD
    | with_reducible apply Kept.elim
    | split
    | intro _

end Sys2Proof.Machine
end

