-- ==== Sys2Proof/Laws/KeptMemory.lean ====
section
/-! SUPPORT. What the operations of Machine/Memory.lean keep. -/

-- One declaration at a time, so that few threads hold memory at once.
set_option Elab.async false

namespace Sys2Proof.Machine

set_option linter.unusedTactic false
set_option linter.unreachableTactic false

theorem Kept.scrubUe {s t : State} {a : Nat} (h : Kept s t) : Kept s (State.scrubUe t a) := by
  unfold State.scrubUe
  try dsimp only
  repeat' first
    | with_reducible assumption
    | (with_reducible refine Kept.memSame ?_ rfl rfl)
    | with_reducible apply Kept.raise
    | with_reducible apply Kept.onMem
    | with_reducible apply Kept.reportUe
    | with_reducible apply Kept.foldl
    | with_reducible apply Kept.foldlFst
    | with_reducible apply Kept.getD
    | with_reducible apply Kept.elim
    | split
    | intro _

theorem Kept.scrubWord {s t : State} {a : Nat} {newer : Bool} (h : Kept s t) : Kept s (State.scrubWord t a newer) := by
  unfold State.scrubWord
  try dsimp only
  repeat' first
    | with_reducible assumption
    | (with_reducible refine Kept.memSame ?_ rfl rfl)
    | exact fun x => Mem.Ok.fix x _
    | exact fun x => Mem.Ok.poisonWord x _
    | with_reducible apply Kept.reportCe
    | with_reducible apply Kept.onMem
    | with_reducible apply Kept.scrubUe
    | with_reducible apply Kept.reportPoison
    | with_reducible apply Kept.foldl
    | with_reducible apply Kept.foldlFst
    | with_reducible apply Kept.getD
    | with_reducible apply Kept.elim
    | split
    | intro _

theorem Kept.scrubPassEnd {s t : State} {a : Nat} (h : Kept s t) : Kept s (State.scrubPassEnd t a) := by
  unfold State.scrubPassEnd
  try dsimp only
  repeat' first
    | with_reducible assumption
    | with_reducible apply Kept.onLake
    | with_reducible apply Kept.foldl
    | with_reducible apply Kept.foldlFst
    | with_reducible apply Kept.getD
    | with_reducible apply Kept.elim
    | split
    | intro _

end Sys2Proof.Machine
end

