-- ==== Sys2Proof/Laws/KeptSchedule.lean ====
section
/-! SUPPORT. What the operations of Machine/Schedule.lean keep. -/

-- One declaration at a time, so that few threads hold memory at once.
set_option Elab.async false

namespace Sys2Proof.Machine

set_option linter.unusedTactic false
set_option linter.unreachableTactic false

theorem Kept.stopCopies {s t : State} {k : Nat} (h : Kept s t) : Kept s (State.stopCopies t k) := by
  unfold State.stopCopies
  try dsimp only
  repeat' first
    | with_reducible assumption
    | with_reducible apply Kept.onGroup
    | with_reducible apply Kept.foldl
    | with_reducible apply Kept.foldlFst
    | with_reducible apply Kept.getD
    | with_reducible apply Kept.elim
    | split
    | intro _

theorem Kept.startGolden {s t : State} {n : Nat} (h : Kept s t) : Kept s (State.startGolden t n) := by
  unfold State.startGolden
  try dsimp only
  repeat' first
    | with_reducible assumption
    | with_reducible apply Kept.onCore
    | with_reducible apply Kept.foldl
    | with_reducible apply Kept.foldlFst
    | with_reducible apply Kept.getD
    | with_reducible apply Kept.elim
    | split
    | intro _

theorem Kept.checkGolden {s t : State} {n : Nat} {frame : Nat} (h : Kept s t) : Kept s (State.checkGolden t n frame) := by
  unfold State.checkGolden
  try dsimp only
  repeat' first
    | with_reducible assumption
    | with_reducible apply Kept.onCore
    | with_reducible apply Kept.withdrawCore
    | with_reducible apply Kept.raise
    | with_reducible apply Kept.onSched
    | with_reducible apply Kept.foldl
    | with_reducible apply Kept.foldlFst
    | with_reducible apply Kept.getD
    | with_reducible apply Kept.elim
    | split
    | intro _

end Sys2Proof.Machine
end

