-- ==== Sys2Proof/Laws/KeptCoreControl.lean ====
section
/-! SUPPORT. What the operations of Machine/CoreControl.lean keep. -/

-- One declaration at a time, so that few threads hold memory at once.
set_option Elab.async false

namespace Sys2Proof.Machine

set_option linter.unusedTactic false
set_option linter.unreachableTactic false

theorem Kept.resetCore {s t : State} {n : Nat} (h : Kept s t) : Kept s (State.resetCore t n) := by
  unfold State.resetCore
  try dsimp only
  repeat' first
    | with_reducible assumption
    | with_reducible apply Kept.onCore
    | with_reducible apply Kept.dropWork
    | with_reducible apply Kept.chargeCore
    | with_reducible apply Kept.foldl
    | with_reducible apply Kept.foldlFst
    | with_reducible apply Kept.getD
    | with_reducible apply Kept.elim
    | split
    | intro _

theorem Kept.ctlWrite {s t : State} {by_ : Initiator} {l : Nat} {k : Nat} {v : Word64} {effect : State → Nat → State} (h : Kept s t) (heffect : ∀ p0 p1, Kept s p0 → Kept s (effect p0 p1)) : Kept s (State.ctlWrite t by_ l k v effect) := by
  unfold State.ctlWrite
  try dsimp only
  repeat' first
    | with_reducible assumption
    | with_reducible apply Kept.busFault
    | with_reducible apply Kept.ccErr
    | with_reducible apply Kept.onCore
    | with_reducible apply heffect
    | with_reducible apply Kept.foldl
    | with_reducible apply Kept.foldlFst
    | with_reducible apply Kept.getD
    | with_reducible apply Kept.elim
    | split
    | intro _

theorem Kept.applyGroup {s t : State} {n : Nat} {v : Word64} (h : Kept s t) : Kept s (State.applyGroup t n v) := by
  unfold State.applyGroup
  try dsimp only
  repeat' first
    | with_reducible assumption
    | with_reducible apply Kept.onCore
    | with_reducible apply Kept.ccErr
    | with_reducible apply Kept.foldl
    | with_reducible apply Kept.foldlFst
    | with_reducible apply Kept.getD
    | with_reducible apply Kept.elim
    | split
    | intro _

theorem Kept.compareSigs {s t : State} {n : Nat} (h : Kept s t) : Kept s (State.compareSigs t n) := by
  unfold State.compareSigs
  try dsimp only
  repeat' first
    | with_reducible assumption
    | with_reducible apply Kept.memberDeviates
    | with_reducible apply Kept.groupMismatch
    | with_reducible apply Kept.foldl
    | with_reducible apply Kept.foldlFst
    | with_reducible apply Kept.getD
    | with_reducible apply Kept.elim
    | split
    | intro _

theorem Kept.splitHere {s t : State} {n : Nat} (h : Kept s t) : Kept s (State.splitHere t n) := by
  unfold State.splitHere
  try dsimp only
  repeat' first
    | with_reducible assumption
    | with_reducible apply Kept.finishSplit
    | with_reducible apply Kept.foldl
    | with_reducible apply Kept.foldlFst
    | with_reducible apply Kept.getD
    | with_reducible apply Kept.elim
    | split
    | intro _

theorem Kept.resyncTo {s t : State} {g : Nat} {r : Nat × Nat × ResyncSt} {st : ResyncSt} (h : Kept s t) : Kept s (State.resyncTo t g r st) := by
  unfold State.resyncTo
  try dsimp only
  repeat' first
    | with_reducible assumption
    | with_reducible apply Kept.onGroup
    | with_reducible apply Kept.foldl
    | with_reducible apply Kept.foldlFst
    | with_reducible apply Kept.getD
    | with_reducible apply Kept.elim
    | split
    | intro _

theorem Kept.groupRestarts {s t : State} {g : Nat} {r : Nat × Nat × ResyncSt} (h : Kept s t) : Kept s (State.groupRestarts t g r) := by
  unfold State.groupRestarts
  try dsimp only
  repeat' first
    | with_reducible assumption
    | with_reducible apply Kept.onCore
    | with_reducible apply Kept.onGroup
    | with_reducible apply Kept.setDetect
    | with_reducible apply Kept.formGroup
    | with_reducible apply Kept.groupCmdDone
    | with_reducible apply Kept.logEvent
    | with_reducible apply Kept.onSched
    | with_reducible apply Kept.foldl
    | with_reducible apply Kept.foldlFst
    | with_reducible apply Kept.getD
    | with_reducible apply Kept.elim
    | split
    | intro _

theorem Kept.execCcGroupWrite {s t : State} {by_ : Initiator} {n : BitVec 6} {v : Word64} (h : Kept s t) : ∃ u, Sys2Proof.Machine.execCcGroupWrite by_ n v t = .next u ∧ Kept s u := by
  unfold Sys2Proof.Machine.execCcGroupWrite
  refine ⟨_, rfl, ?_⟩
  try dsimp only
  repeat' first
    | with_reducible assumption
    | with_reducible apply Kept.busFault
    | with_reducible apply Kept.applyGroup
    | with_reducible apply Kept.onCore
    | with_reducible apply Kept.foldl
    | split
    | intro _

theorem Kept.execGolden {s t : State} {by_ : Initiator} {n : BitVec 6} {ctl : Word64} (h : Kept s t) : ∃ u, Sys2Proof.Machine.execGolden by_ n ctl t = .next u ∧ Kept s u := by
  unfold Sys2Proof.Machine.execGolden
  refine ⟨_, rfl, ?_⟩
  try dsimp only
  repeat' first
    | with_reducible assumption
    | with_reducible apply Kept.ctlWrite
    | with_reducible apply Kept.onCore
    | with_reducible apply Kept.foldl
    | split
    | intro _

theorem Kept.execPreempt {s t : State} {by_ : Initiator} {n : BitVec 6} {ctl : Word64} (h : Kept s t) : ∃ u, Sys2Proof.Machine.execPreempt by_ n ctl t = .next u ∧ Kept s u := by
  unfold Sys2Proof.Machine.execPreempt
  refine ⟨_, rfl, ?_⟩
  try dsimp only
  repeat' first
    | with_reducible assumption
    | with_reducible apply Kept.ctlWrite
    | with_reducible apply Kept.preemptCore
    | with_reducible apply Kept.foldl
    | split
    | intro _

theorem Kept.execReset {s t : State} {by_ : Initiator} {n : BitVec 6} {ctl : Word64} (h : Kept s t) : ∃ u, Sys2Proof.Machine.execReset by_ n ctl t = .next u ∧ Kept s u := by
  unfold Sys2Proof.Machine.execReset
  refine ⟨_, rfl, ?_⟩
  try dsimp only
  repeat' first
    | with_reducible assumption
    | with_reducible apply Kept.ctlWrite
    | with_reducible apply Kept.resetCore
    | with_reducible apply Kept.foldl
    | split
    | intro _

theorem Kept.execResume {s t : State} {by_ : Initiator} {n : BitVec 6} {ctl : Word64} (h : Kept s t) : ∃ u, Sys2Proof.Machine.execResume by_ n ctl t = .next u ∧ Kept s u := by
  unfold Sys2Proof.Machine.execResume
  refine ⟨_, rfl, ?_⟩
  try dsimp only
  repeat' first
    | with_reducible assumption
    | with_reducible apply Kept.ctlWrite
    | with_reducible apply Kept.resumeSaved
    | with_reducible apply Kept.foldl
    | split
    | intro _

theorem Kept.execStart {s t : State} {by_ : Initiator} {n : BitVec 6} {ctl : Word64} (h : Kept s t) : ∃ u, Sys2Proof.Machine.execStart by_ n ctl t = .next u ∧ Kept s u := by
  unfold Sys2Proof.Machine.execStart
  refine ⟨_, rfl, ?_⟩
  try dsimp only
  repeat' first
    | with_reducible assumption
    | with_reducible apply Kept.ctlWrite
    | with_reducible apply Kept.startCore
    | with_reducible apply Kept.foldl
    | split
    | intro _

theorem Kept.execTeardown {s t : State} {by_ : Initiator} {n : BitVec 6} {ctl : Word64} (h : Kept s t) : ∃ u, Sys2Proof.Machine.execTeardown by_ n ctl t = .next u ∧ Kept s u := by
  unfold Sys2Proof.Machine.execTeardown
  refine ⟨_, rfl, ?_⟩
  try dsimp only
  repeat' first
    | with_reducible assumption
    | with_reducible apply Kept.ctlWrite
    | with_reducible apply Kept.teardownCore
    | with_reducible apply Kept.foldl
    | split
    | intro _

end Sys2Proof.Machine
end

