-- ==== Sys2Proof/Laws/KeptSeqOps.lean ====
section
/-! SUPPORT. What the operations of Machine/SeqOps.lean keep. -/

-- One declaration at a time, so that few threads hold memory at once.
set_option Elab.async false

namespace Sys2Proof.Machine

set_option linter.unusedTactic false
set_option linter.unreachableTactic false

theorem Kept.fetchWord {s t u : State} {n : Nat} {w : Word64} (h : Kept s t) (e : t.fetch n = .word u w) : Kept s u := by
  unfold State.fetch at e
  dsimp only at e
  split at e
  · cases e
  · split at e
    · cases e
    · split at e
      · cases e
      · repeat' split at e
        all_goals cases e
        all_goals exact h.readMem

theorem Kept.fetchBad {s t u : State} {n a : Nat} (h : Kept s t) (e : t.fetch n = .bad u a) : Kept s u := by
  unfold State.fetch at e
  dsimp only at e
  split at e
  · cases e
  · split at e
    · cases e
    · split at e
      · cases e
      · repeat' split at e
        all_goals cases e
        all_goals exact h.readMem

theorem Kept.issue {s t : State} {n : BitVec 6} {i : Instr} {effect : State → State} (h : Kept s t)
    (heffect : ∀ u, Kept s u → Kept s (effect u)) : Kept s (t.issue n i effect) := by
  unfold State.issue
  split
  · rename_i e
    split
    · exact heffect _ (h.fetchWord e)
    · exact h
  · exact h

theorem Kept.next {s t : State} {n : Nat} (h : Kept s t) : Kept s (State.next t n) := by
  unfold State.next
  try dsimp only
  repeat' first
    | with_reducible assumption
    | with_reducible apply Kept.onCore
    | with_reducible apply Kept.foldl
    | with_reducible apply Kept.foldlFst
    | with_reducible apply Kept.getD
    | with_reducible apply Kept.elim
    | split
    | intro _

theorem Kept.interlock {s t : State} {n : Nat} {i : Instr} {rs : List Range} {effect : State → State} (h : Kept s t) (heffect : ∀ p0, Kept s p0 → Kept s (effect p0)) : Kept s (State.interlock t n i rs effect) := by
  unfold State.interlock
  try dsimp only
  repeat' first
    | with_reducible assumption
    | with_reducible apply Kept.onCore
    | with_reducible apply heffect
    | with_reducible apply Kept.foldl
    | with_reducible apply Kept.foldlFst
    | with_reducible apply Kept.getD
    | with_reducible apply Kept.elim
    | split
    | intro _

theorem Kept.meetsBad {s t : State} {n : Nat} {bad : Option Nat} {k : State → State} (h : Kept s t) (hk : ∀ p0, Kept s p0 → Kept s (k p0)) : Kept s (State.meetsBad t n bad k) := by
  unfold State.meetsBad
  try dsimp only
  repeat' first
    | with_reducible assumption
    | with_reducible apply Kept.consumerUe
    | with_reducible apply hk
    | with_reducible apply Kept.foldl
    | with_reducible apply Kept.foldlFst
    | with_reducible apply Kept.getD
    | with_reducible apply Kept.elim
    | split
    | intro _

theorem Kept.withPond {s t : State} {n : Nat} {off : Nat} {len : Nat} {k : State → Bytes → State} (h : Kept s t) (hk : ∀ p0 p1, Kept s p0 → Kept s (k p0 p1)) : Kept s (State.withPond t n off len k) := by
  unfold State.withPond
  try dsimp only
  repeat' first
    | with_reducible assumption
    | with_reducible apply Kept.readMem
    | with_reducible apply Kept.meetsBad
    | with_reducible apply hk
    | with_reducible apply Kept.foldl
    | with_reducible apply Kept.foldlFst
    | with_reducible apply Kept.getD
    | with_reducible apply Kept.elim
    | split
    | intro _

theorem Kept.unitWrites {s t : State} {n : Nat} {u1 : Nat} {ws : List (Nat × Bytes)} {poisoned : Bool} (h : Kept s t) : Kept s (State.unitWrites t n u1 ws poisoned) := by
  unfold State.unitWrites
  try dsimp only
  repeat' first
    | with_reducible assumption
    | with_reducible apply Kept.onCore
    | with_reducible apply Kept.pondWrite
    | with_reducible apply Kept.foldl
    | with_reducible apply Kept.foldlFst
    | with_reducible apply Kept.getD
    | with_reducible apply Kept.elim
    | split
    | intro _

theorem Kept.finishRelease {s t : State} {w : Option Work} (h : Kept s t) : Kept s (State.finishRelease t w) := by
  unfold State.finishRelease
  try dsimp only
  repeat' first
    | with_reducible assumption
    | with_reducible apply Kept.onSched
    | with_reducible apply Kept.foldl
    | with_reducible apply Kept.foldlFst
    | with_reducible apply Kept.getD
    | with_reducible apply Kept.elim
    | split
    | intro _

theorem Kept.finishJob {s t : State} {w : Option Work} (h : Kept s t) : Kept s (State.finishJob t w) := by
  unfold State.finishJob
  try dsimp only
  repeat' first
    | with_reducible assumption
    | with_reducible apply Kept.onAcct
    | with_reducible apply Kept.onSched
    | with_reducible apply Kept.missed
    | with_reducible apply Kept.complete
    | with_reducible apply Kept.foldl
    | with_reducible apply Kept.foldlFst
    | with_reducible apply Kept.getD
    | with_reducible apply Kept.elim
    | split
    | intro _

theorem Kept.haltCore {s t : State} {n : Nat} (h : Kept s t) : Kept s (State.haltCore t n) := by
  unfold State.haltCore
  try dsimp only
  repeat' first
    | with_reducible assumption
    | with_reducible apply Kept.servePools
    | with_reducible apply Kept.finishJob
    | with_reducible apply Kept.finishRelease
    | with_reducible apply Kept.onCore
    | with_reducible apply Kept.chargeCore
    | with_reducible apply Kept.foldl
    | with_reducible apply Kept.foldlFst
    | with_reducible apply Kept.getD
    | with_reducible apply Kept.elim
    | split
    | intro _

end Sys2Proof.Machine
end

