-- ==== Sys2Proof/Laws/KeptVectorUnit.lean ====
section
/-! SUPPORT. What the operations of Machine/VectorUnit.lean keep. -/

-- One declaration at a time, so that few threads hold memory at once.
set_option Elab.async false

namespace Sys2Proof.Machine

set_option linter.unusedTactic false
set_option linter.unreachableTactic false

theorem Kept.vecOp {s t : State} {n : BitVec 6} {i : Instr} {vd : BitVec 5} {f : Core → List Word} (h : Kept s t) : Kept s (State.vecOp t n i vd f) := by
  unfold State.vecOp
  try dsimp only
  repeat' first
    | with_reducible assumption
    | with_reducible apply Kept.issue
    | with_reducible apply Kept.onCore
    | with_reducible apply Kept.foldl
    | with_reducible apply Kept.foldlFst
    | with_reducible apply Kept.getD
    | with_reducible apply Kept.elim
    | split
    | intro _

theorem Kept.convertScaled {s t : State} {n : BitVec 6} {vd : BitVec 5} {vs1 : BitVec 5} {vs2 : BitVec 5} {vs3 : BitVec 5} {imm : Word} {k : Nat} (h : Kept s t) : Kept s (State.convertScaled t n vd vs1 vs2 vs3 imm k) := by
  unfold State.convertScaled
  try dsimp only
  repeat' first
    | with_reducible assumption
    | with_reducible apply Kept.onCore
    | with_reducible apply Kept.coreFault
    | with_reducible apply Kept.interlock
    | with_reducible apply Kept.withPond
    | with_reducible apply Kept.unitWrites
    | with_reducible apply Kept.foldl
    | with_reducible apply Kept.foldlFst
    | with_reducible apply Kept.getD
    | with_reducible apply Kept.elim
    | split
    | intro _

theorem Kept.convert {s t : State} {n : BitVec 6} {vd : BitVec 5} {vs1 : BitVec 5} {vs2 : BitVec 5} {vs3 : BitVec 5} {imm : Word} (h : Kept s t) : Kept s (State.convert t n vd vs1 vs2 vs3 imm) := by
  unfold State.convert
  try dsimp only
  repeat' first
    | with_reducible assumption
    | with_reducible apply Kept.onCore
    | with_reducible apply Kept.convertScaled
    | with_reducible apply Kept.foldl
    | with_reducible apply Kept.foldlFst
    | with_reducible apply Kept.getD
    | with_reducible apply Kept.elim
    | split
    | intro _

theorem Kept.loadLanes {s t : State} {n : BitVec 6} {vd : BitVec 5} {granule : BitVec 16} (h : Kept s t) : Kept s (State.loadLanes t n vd granule) := by
  unfold State.loadLanes
  try dsimp only
  repeat' first
    | with_reducible assumption
    | with_reducible apply Kept.coreFault
    | with_reducible apply Kept.interlock
    | with_reducible apply Kept.withPond
    | with_reducible apply Kept.onCore
    | with_reducible apply Kept.foldl
    | with_reducible apply Kept.foldlFst
    | with_reducible apply Kept.getD
    | with_reducible apply Kept.elim
    | split
    | intro _

theorem Kept.storeLanes {s t : State} {n : BitVec 6} {vs1 : BitVec 5} {granule : BitVec 16} (h : Kept s t) : Kept s (State.storeLanes t n vs1 granule) := by
  unfold State.storeLanes
  try dsimp only
  repeat' first
    | with_reducible assumption
    | with_reducible apply Kept.coreFault
    | with_reducible apply Kept.interlock
    | with_reducible apply Kept.next
    | with_reducible apply Kept.unitWrites
    | with_reducible apply Kept.foldl
    | with_reducible apply Kept.foldlFst
    | with_reducible apply Kept.getD
    | with_reducible apply Kept.elim
    | split
    | intro _

end Sys2Proof.Machine
end

