-- ==== Sys2Proof/Laws/KeptTileProgram.lean ====
section
/-! SUPPORT. What the operations of Machine/TileProgram.lean keep. -/

-- One declaration at a time, so that few threads hold memory at once.
set_option Elab.async false

namespace Sys2Proof.Machine

set_option linter.unusedTactic false
set_option linter.unreachableTactic false

theorem Kept.scalarOp {s t : State} {n : BitVec 6} {i : Instr} {f : Core → Core} (h : Kept s t) : Kept s (State.scalarOp t n i f) := by
  unfold State.scalarOp
  try dsimp only
  repeat' first
    | with_reducible assumption
    | with_reducible apply Kept.issue
    | with_reducible apply Kept.onCore
    | with_reducible apply Kept.foldl
    | with_reducible apply Kept.foldlFst
    | with_reducible apply Kept.getD
    | with_reducible apply Kept.elim
    | split
    | intro _

end Sys2Proof.Machine
end

