-- ==== Sys2Proof/Laws/KeptMatrixOps.lean ====
section
/-! SUPPORT. What the operations of Machine/MatrixOps.lean keep. -/

-- One declaration at a time, so that few threads hold memory at once.
set_option Elab.async false

namespace Sys2Proof.Machine

set_option linter.unusedTactic false
set_option linter.unreachableTactic false

theorem Kept.issueLoad {s t : State} {n : BitVec 6} {shape : BitVec 4} {fmt : BitVec 4} {quad : BitVec 2} {block : BitVec 16} (h : Kept s t) : Kept s (State.issueLoad t n shape fmt quad block) := by
  unfold State.issueLoad
  try dsimp only
  repeat' first
    | with_reducible assumption
    | with_reducible apply Kept.coreFault
    | with_reducible apply Kept.interlock
    | with_reducible apply Kept.withPond
    | with_reducible apply Kept.onCore
    | with_reducible apply Kept.foldl
    | with_reducible apply Kept.foldlFst
    | with_reducible apply Kept.getD
    | with_reducible apply Kept.elim
    | split
    | intro _

theorem Kept.queuePass {s t : State} {n : BitVec 6} {a : PassArgs} {p : Program} {table : Bytes} {pro : Option Bytes} (h : Kept s t) : Kept s (State.queuePass t n a p table pro) := by
  unfold State.queuePass
  try dsimp only
  repeat' first
    | with_reducible assumption
    | with_reducible apply Kept.interlock
    | with_reducible apply Kept.onCore
    | with_reducible apply Kept.coreFault
    | with_reducible apply Kept.foldl
    | with_reducible apply Kept.foldlFst
    | with_reducible apply Kept.getD
    | with_reducible apply Kept.elim
    | split
    | intro _

theorem Kept.issuePassOf {s t : State} {n : BitVec 6} {a : PassArgs} {p : Program} (h : Kept s t) : Kept s (State.issuePassOf t n a p) := by
  unfold State.issuePassOf
  try dsimp only
  repeat' first
    | with_reducible assumption
    | with_reducible apply Kept.coreFault
    | with_reducible apply Kept.interlock
    | with_reducible apply Kept.withPond
    | with_reducible apply Kept.queuePass
    | with_reducible apply Kept.foldl
    | with_reducible apply Kept.foldlFst
    | with_reducible apply Kept.getD
    | with_reducible apply Kept.elim
    | split
    | intro _

theorem Kept.issuePass {s t : State} {n : BitVec 6} {a : PassArgs} (h : Kept s t) : Kept s (State.issuePass t n a) := by
  unfold State.issuePass
  try dsimp only
  repeat' first
    | with_reducible assumption
    | with_reducible apply Kept.coreFault
    | with_reducible apply Kept.issuePassOf
    | with_reducible apply Kept.foldl
    | with_reducible apply Kept.foldlFst
    | with_reducible apply Kept.getD
    | with_reducible apply Kept.elim
    | split
    | intro _

theorem Kept.touchPond {s t : State} {n : Nat} {rs : List (Nat × Nat)} (h : Kept s t) : Kept s (State.touchPond t n rs).1 := by
  unfold State.touchPond
  try dsimp only
  repeat' first
    | with_reducible assumption
    | with_reducible apply Kept.readMem
    | with_reducible apply Kept.foldl
    | with_reducible apply Kept.foldlFst
    | with_reducible apply Kept.getD
    | with_reducible apply Kept.elim
    | split
    | intro _

theorem Kept.startPass {s t : State} {n : Nat} {p : Pass} {rest : List MatrixOp} (h : Kept s t) : Kept s (State.startPass t n p rest) := by
  unfold State.startPass
  try dsimp only
  repeat' first
    | with_reducible assumption
    | with_reducible apply Kept.touchPond
    | with_reducible apply Kept.meetsBad
    | with_reducible apply Kept.onCore
    | with_reducible apply Kept.fresh1
    | with_reducible apply Kept.pondWrite
    | with_reducible apply Kept.ccErr
    | with_reducible apply Kept.foldl
    | with_reducible apply Kept.foldlFst
    | with_reducible apply Kept.getD
    | with_reducible apply Kept.elim
    | split
    | intro _

theorem Kept.beginDrain {s t : State} {n : Nat} (h : Kept s t) : Kept s (State.beginDrain t n) := by
  unfold State.beginDrain
  try dsimp only
  repeat' first
    | with_reducible assumption
    | with_reducible apply Kept.touchPond
    | with_reducible apply Kept.meetsBad
    | with_reducible apply Kept.coreFault
    | with_reducible apply Kept.unitWrites
    | with_reducible apply Kept.foldl
    | with_reducible apply Kept.foldlFst
    | with_reducible apply Kept.getD
    | with_reducible apply Kept.elim
    | split
    | intro _

theorem Kept.completePass {s t : State} {n : Nat} (h : Kept s t) : Kept s (State.completePass t n) := by
  unfold State.completePass
  try dsimp only
  repeat' first
    | with_reducible assumption
    | with_reducible apply Kept.onCore
    | with_reducible apply Kept.beginDrain
    | with_reducible apply Kept.foldl
    | with_reducible apply Kept.foldlFst
    | with_reducible apply Kept.getD
    | with_reducible apply Kept.elim
    | split
    | intro _

theorem Kept.endDrain {s t : State} {n : Nat} {parityOk : Bool} (h : Kept s t) : Kept s (State.endDrain t n parityOk) := by
  unfold State.endDrain
  try dsimp only
  repeat' first
    | with_reducible assumption
    | with_reducible apply Kept.touchPond
    | with_reducible apply Kept.meetsBad
    | with_reducible apply Kept.unitWrites
    | with_reducible apply Kept.onCore
    | with_reducible apply Kept.beginDrain
    | with_reducible apply Kept.coreFault
    | with_reducible apply Kept.foldl
    | with_reducible apply Kept.foldlFst
    | with_reducible apply Kept.getD
    | with_reducible apply Kept.elim
    | split
    | intro _

end Sys2Proof.Machine
end

