-- ==== Sys2Proof/Laws/KeptFabricOps.lean ====
section
/-! SUPPORT. What the operations of Machine/FabricOps.lean keep. -/

-- One declaration at a time, so that few threads hold memory at once.
set_option Elab.async false

namespace Sys2Proof.Machine

set_option linter.unusedTactic false
set_option linter.unreachableTactic false

theorem Kept.onLink {s t : State} {d : Nat} {f : FabLink → FabLink} (h : Kept s t) : Kept s (State.onLink t d f) := by
  unfold State.onLink
  try dsimp only
  repeat' first
    | with_reducible assumption
    | with_reducible apply Kept.onFab
    | with_reducible apply Kept.foldl
    | with_reducible apply Kept.foldlFst
    | with_reducible apply Kept.getD
    | with_reducible apply Kept.elim
    | split
    | intro _

theorem Kept.onE2e {s t : State} {node : Nat} {vc : Nat} {f : E2E → E2E} (h : Kept s t) : Kept s (State.onE2e t node vc f) := by
  unfold State.onE2e
  try dsimp only
  repeat' first
    | with_reducible assumption
    | with_reducible apply Kept.onFab
    | with_reducible apply Kept.foldl
    | with_reducible apply Kept.foldlFst
    | with_reducible apply Kept.getD
    | with_reducible apply Kept.elim
    | split
    | intro _

theorem Kept.fabFails {s t : State} {src : Nat} {addr : Nat} (h : Kept s t) : Kept s (State.fabFails t src addr) := by
  unfold State.fabFails
  try dsimp only
  repeat' first
    | with_reducible assumption
    | with_reducible apply Kept.logEvent
    | with_reducible apply Kept.busFault
    | with_reducible apply Kept.foldl
    | with_reducible apply Kept.foldlFst
    | with_reducible apply Kept.getD
    | with_reducible apply Kept.elim
    | split
    | intro _

theorem Kept.pumpLink {s t : State} {d : Nat} (h : Kept s t) : Kept s (State.pumpLink t d) := by
  unfold State.pumpLink
  try dsimp only
  repeat' first
    | with_reducible assumption
    | with_reducible apply Kept.emit
    | with_reducible apply Kept.onLink
    | with_reducible apply Kept.foldl
    | with_reducible apply Kept.foldlFst
    | with_reducible apply Kept.getD
    | with_reducible apply Kept.elim
    | split
    | intro _

theorem Kept.linkSend {s t : State} {d : Nat} {t1 : Txn} {vc : Nat} {hop : Nat} (h : Kept s t) : Kept s (State.linkSend t d t1 vc hop) := by
  unfold State.linkSend
  try dsimp only
  repeat' first
    | with_reducible assumption
    | with_reducible apply Kept.pumpLink
    | with_reducible apply Kept.onLink
    | with_reducible apply Kept.foldl
    | with_reducible apply Kept.foldlFst
    | with_reducible apply Kept.getD
    | with_reducible apply Kept.elim
    | split
    | intro _

theorem Kept.e2eIssue {s t : State} {node : Nat} {vc : Nat} {t1 : Txn} (h : Kept s t) : Kept s (State.e2eIssue t node vc t1) := by
  unfold State.e2eIssue
  try dsimp only
  repeat' first
    | with_reducible assumption
    | with_reducible apply Kept.linkSend
    | with_reducible apply Kept.onE2e
    | with_reducible apply Kept.foldl
    | with_reducible apply Kept.foldlFst
    | with_reducible apply Kept.getD
    | with_reducible apply Kept.elim
    | split
    | intro _

theorem Kept.fabSend {s t : State} {node : Nat} {vc : Nat} {t1 : Txn} (h : Kept s t) : Kept s (State.fabSend t node vc t1) := by
  unfold State.fabSend
  try dsimp only
  repeat' first
    | with_reducible assumption
    | with_reducible apply Kept.fabFails
    | with_reducible apply Kept.onE2e
    | with_reducible apply Kept.e2eIssue
    | with_reducible apply Kept.foldl
    | with_reducible apply Kept.foldlFst
    | with_reducible apply Kept.getD
    | with_reducible apply Kept.elim
    | split
    | intro _

theorem Kept.issueHeld {s t : State} {f node vc : Nat} (h : Kept s t) : Kept s (State.issueHeld f t node vc) := by
  induction f generalizing t with
  | zero => exact h
  | succ f ih =>
    unfold State.issueHeld
    split
    · exact h
    · split
      · exact h
      · exact ih h.onE2e.e2eIssue

theorem Kept.remoteRead {s t : State} {by_ : Initiator} {part : Nat} {node : Nat} {addr : Nat} {len : Nat} (h : Kept s t) : Kept s (State.remoteRead t by_ part node addr len) := by
  unfold State.remoteRead
  try dsimp only
  repeat' first
    | with_reducible assumption
    | with_reducible apply Kept.fabFails
    | with_reducible apply Kept.fabSend
    | with_reducible apply Kept.onFab
    | with_reducible apply Kept.louvre
    | with_reducible apply Kept.foldl
    | with_reducible apply Kept.foldlFst
    | with_reducible apply Kept.getD
    | with_reducible apply Kept.elim
    | split
    | intro _

theorem Kept.remoteWrite {s t : State} {by_ : Initiator} {part : Nat} {node : Nat} {addr : Nat} {bs : Bytes} {poisoned : Bool} (h : Kept s t) : Kept s (State.remoteWrite t by_ part node addr bs poisoned) := by
  unfold State.remoteWrite
  try dsimp only
  repeat' first
    | with_reducible assumption
    | with_reducible apply Kept.fabSend
    | with_reducible apply Kept.louvre
    | with_reducible apply Kept.foldl
    | with_reducible apply Kept.foldlFst
    | with_reducible apply Kept.getD
    | with_reducible apply Kept.elim
    | split
    | intro _

theorem Kept.answerError {s t : State} {t1 : Txn} {code : Nat} (h : Kept s t) : Kept s (State.answerError t t1 code) := by
  unfold State.answerError
  try dsimp only
  repeat' first
    | with_reducible assumption
    | with_reducible apply Kept.fabSend
    | with_reducible apply Kept.foldl
    | with_reducible apply Kept.foldlFst
    | with_reducible apply Kept.getD
    | with_reducible apply Kept.elim
    | split
    | intro _

theorem Kept.fabViolation {s t : State} {door : Nat} {t1 : Txn} (h : Kept s t) : Kept s (State.fabViolation t door t1) := by
  unfold State.fabViolation
  try dsimp only
  repeat' first
    | with_reducible assumption
    | with_reducible apply Kept.logEvent
    | with_reducible apply Kept.onLink
    | with_reducible apply Kept.onFab
    | with_reducible apply Kept.foldl
    | with_reducible apply Kept.foldlFst
    | with_reducible apply Kept.getD
    | with_reducible apply Kept.elim
    | split
    | intro _

theorem Kept.fabCount {s t : State} {t1 : Txn} (h : Kept s t) : Kept s (State.fabCount t t1) := by
  unfold State.fabCount
  try dsimp only
  repeat' first
    | with_reducible assumption
    | with_reducible apply Kept.landPacket
    | with_reducible apply Kept.foldl
    | with_reducible apply Kept.foldlFst
    | with_reducible apply Kept.getD
    | with_reducible apply Kept.elim
    | split
    | intro _

theorem Kept.packetTake {s t : State} {t1 : Txn} (h : Kept s t) : Kept s (State.packetTake t t1) := by
  unfold State.packetTake
  try dsimp only
  repeat' first
    | with_reducible assumption
    | with_reducible apply Kept.onFab
    | with_reducible apply Kept.foldl
    | with_reducible apply Kept.foldlFst
    | with_reducible apply Kept.getD
    | with_reducible apply Kept.elim
    | split
    | intro _

theorem Kept.fabApplyWrite {s t : State} {door : Fin 3} {t1 : Txn} (h : Kept s t) : Kept s (State.fabApplyWrite t door t1) := by
  unfold State.fabApplyWrite
  try dsimp only
  repeat' first
    | with_reducible assumption
    | with_reducible apply Kept.answerError
    | with_reducible apply Kept.refuse
    | with_reducible apply Kept.busWrite
    | with_reducible apply Kept.louvre
    | with_reducible apply Kept.packetTake
    | with_reducible apply Kept.fabCount
    | with_reducible apply Kept.fabViolation
    | with_reducible apply Kept.foldl
    | with_reducible apply Kept.foldlFst
    | with_reducible apply Kept.getD
    | with_reducible apply Kept.elim
    | split
    | intro _

theorem Kept.fabApplyRead {s t : State} {door : Fin 3} {t1 : Txn} (h : Kept s t) : Kept s (State.fabApplyRead t door t1) := by
  unfold State.fabApplyRead
  try dsimp only
  repeat' first
    | with_reducible assumption
    | with_reducible apply Kept.answerError
    | with_reducible apply Kept.refuse
    | with_reducible apply Kept.readMem
    | with_reducible apply Kept.louvre
    | with_reducible apply Kept.fabSend
    | with_reducible apply Kept.foldl
    | with_reducible apply Kept.foldlFst
    | with_reducible apply Kept.getD
    | with_reducible apply Kept.elim
    | split
    | intro _

theorem Kept.feedMoves {s t : State} {by_ : Initiator} {tag : BitVec 16} {data : Bytes} {poisoned : Bool} (h : Kept s t) : Kept s (State.feedMoves t by_ tag data poisoned) := by
  unfold State.feedMoves
  try dsimp only
  repeat' first
    | with_reducible assumption
    | with_reducible apply Kept.onCore
    | with_reducible apply Kept.foldl
    | with_reducible apply Kept.foldlFst
    | with_reducible apply Kept.getD
    | with_reducible apply Kept.elim
    | split
    | intro _

theorem Kept.fabApplyResp {s t : State} {door : Fin 3} {t1 : Txn} (h : Kept s t) : Kept s (State.fabApplyResp t door t1) := by
  unfold State.fabApplyResp
  try dsimp only
  repeat' first
    | with_reducible assumption
    | with_reducible apply Kept.fabViolation
    | with_reducible apply Kept.onFab
    | with_reducible apply Kept.emit
    | with_reducible apply Kept.feedMoves
    | with_reducible apply Kept.consumerOf
    | with_reducible apply Kept.foldl
    | with_reducible apply Kept.foldlFst
    | with_reducible apply Kept.getD
    | with_reducible apply Kept.elim
    | split
    | intro _

theorem Kept.fabDeliver {s t : State} {door : Fin 3} {op : Nat} {t1 : Txn} (h : Kept s t) : Kept s (State.fabDeliver t door op t1) := by
  unfold State.fabDeliver
  try dsimp only
  repeat' first
    | with_reducible assumption
    | with_reducible apply Kept.answerError
    | with_reducible apply Kept.fabViolation
    | with_reducible apply Kept.onLink
    | with_reducible apply Kept.onFab
    | with_reducible apply Kept.fabApplyWrite
    | with_reducible apply Kept.fabApplyRead
    | with_reducible apply Kept.fabApplyResp
    | with_reducible apply Kept.fabCount
    | with_reducible apply Kept.fabFails
    | with_reducible apply Kept.foldl
    | with_reducible apply Kept.foldlFst
    | with_reducible apply Kept.getD
    | with_reducible apply Kept.elim
    | split
    | intro _

theorem Kept.e2eDeliver {s t : State} {door : Fin 3} {op : Nat} {t1 : Txn} (h : Kept s t) : Kept s (State.e2eDeliver t door op t1) := by
  unfold State.e2eDeliver
  try dsimp only
  repeat' first
    | with_reducible assumption
    | with_reducible apply Kept.fabDeliver
    | with_reducible apply Kept.onE2e
    | with_reducible apply Kept.emit
    | with_reducible apply Kept.foldl
    | with_reducible apply Kept.foldlFst
    | with_reducible apply Kept.getD
    | with_reducible apply Kept.elim
    | split
    | intro _

theorem Kept.e2eAhead {s t : State} {f : Nat} {door : Fin 3} {node vc : Nat} (h : Kept s t) :
    Kept s (State.e2eAhead f t door node vc) := by
  induction f generalizing t with
  | zero => exact h
  | succ f ih =>
    unfold State.e2eAhead
    dsimp only
    split
    · exact h
    · exact ih h.onE2e.e2eDeliver

theorem Kept.fabTransit {s t : State} {door : Fin 3} {op : Nat} {t1 : Txn} (h : Kept s t) : Kept s (State.fabTransit t door op t1) := by
  unfold State.fabTransit
  try dsimp only
  repeat' first
    | with_reducible assumption
    | with_reducible apply Kept.answerError
    | with_reducible apply Kept.fabViolation
    | with_reducible apply Kept.linkSend
    | with_reducible apply Kept.foldl
    | with_reducible apply Kept.foldlFst
    | with_reducible apply Kept.getD
    | with_reducible apply Kept.elim
    | split
    | intro _

theorem Kept.fabArrive {s t : State} {door : Fin 3} {op : Nat} {t1 : Txn} (h : Kept s t) : Kept s (State.fabArrive t door op t1) := by
  unfold State.fabArrive
  try dsimp only
  repeat' first
    | with_reducible assumption
    | with_reducible apply Kept.fabTransit
    | with_reducible apply Kept.answerError
    | with_reducible apply Kept.fabViolation
    | with_reducible apply Kept.e2eAhead
    | with_reducible apply Kept.e2eDeliver
    | with_reducible apply Kept.onLink
    | with_reducible apply Kept.onE2e
    | with_reducible apply Kept.foldl
    | with_reducible apply Kept.foldlFst
    | with_reducible apply Kept.getD
    | with_reducible apply Kept.elim
    | split
    | intro _

theorem Kept.failCopies {s t : State} {node : Nat} (h : Kept s t) : Kept s (State.failCopies t node) := by
  unfold State.failCopies
  try dsimp only
  repeat' first
    | with_reducible assumption
    | with_reducible apply Kept.onE2e
    | with_reducible apply Kept.fabFails
    | with_reducible apply Kept.foldl
    | with_reducible apply Kept.foldlFst
    | with_reducible apply Kept.getD
    | with_reducible apply Kept.elim
    | split
    | intro _

theorem Kept.routeLost {s t : State} {node : Nat} {door : Nat} (h : Kept s t) : Kept s (State.routeLost t node door) := by
  unfold State.routeLost
  try dsimp only
  repeat' first
    | with_reducible assumption
    | with_reducible apply Kept.logEvent
    | with_reducible apply Kept.raise
    | with_reducible apply Kept.onFab
    | with_reducible apply Kept.failCopies
    | with_reducible apply Kept.foldl
    | with_reducible apply Kept.foldlFst
    | with_reducible apply Kept.getD
    | with_reducible apply Kept.elim
    | split
    | intro _

theorem Kept.replay {s t : State} {node : Nat} (h : Kept s t) : Kept s (State.replay t node) := by
  unfold State.replay
  try dsimp only
  repeat' first
    | with_reducible assumption
    | with_reducible apply Kept.onLink
    | with_reducible apply Kept.linkSend
    | with_reducible apply Kept.foldl
    | with_reducible apply Kept.foldlFst
    | with_reducible apply Kept.getD
    | with_reducible apply Kept.elim
    | split
    | intro _

theorem Kept.recomputeRoutes {s t : State} {gone : Option Nat} (h : Kept s t) : Kept s (State.recomputeRoutes t gone) := by
  unfold State.recomputeRoutes
  try dsimp only
  repeat' first
    | with_reducible assumption
    | with_reducible apply Kept.onFab
    | with_reducible apply Kept.replay
    | with_reducible apply Kept.routeLost
    | with_reducible apply Kept.foldl
    | with_reducible apply Kept.foldlFst
    | with_reducible apply Kept.getD
    | with_reducible apply Kept.elim
    | split
    | intro _

theorem Kept.flood {s t : State} {r : LinkStateRec} {but : Option Nat} (h : Kept s t) : Kept s (State.flood t r but) := by
  unfold State.flood
  try dsimp only
  repeat' first
    | with_reducible assumption
    | with_reducible apply Kept.emit
    | with_reducible apply Kept.foldl
    | with_reducible apply Kept.foldlFst
    | with_reducible apply Kept.getD
    | with_reducible apply Kept.elim
    | split
    | intro _

theorem Kept.linksChanged {s t : State} {gone : Option Nat} (h : Kept s t) : Kept s (State.linksChanged t gone) := by
  unfold State.linksChanged
  try dsimp only
  repeat' first
    | with_reducible assumption
    | with_reducible apply Kept.recomputeRoutes
    | with_reducible apply Kept.flood
    | with_reducible apply Kept.onFab
    | with_reducible apply Kept.foldl
    | with_reducible apply Kept.foldlFst
    | with_reducible apply Kept.getD
    | with_reducible apply Kept.elim
    | split
    | intro _

theorem Kept.quarantine {s t : State} {d : Nat} (h : Kept s t) : Kept s (State.quarantine t d) := by
  unfold State.quarantine
  try dsimp only
  repeat' first
    | with_reducible assumption
    | with_reducible apply Kept.linksChanged
    | with_reducible apply Kept.logEvent
    | with_reducible apply Kept.raise
    | with_reducible apply Kept.onLink
    | with_reducible apply Kept.foldl
    | with_reducible apply Kept.foldlFst
    | with_reducible apply Kept.getD
    | with_reducible apply Kept.elim
    | split
    | intro _

theorem Kept.linkDown {s t : State} {d : Nat} (h : Kept s t) : Kept s (State.linkDown t d) := by
  unfold State.linkDown
  try dsimp only
  repeat' first
    | with_reducible assumption
    | with_reducible apply Kept.quarantine
    | with_reducible apply Kept.linksChanged
    | with_reducible apply Kept.logEvent
    | with_reducible apply Kept.onLink
    | with_reducible apply Kept.foldl
    | with_reducible apply Kept.foldlFst
    | with_reducible apply Kept.getD
    | with_reducible apply Kept.elim
    | split
    | intro _

theorem Kept.replayEvent {s t : State} {d : Nat} (h : Kept s t) : Kept s (State.replayEvent t d) := by
  unfold State.replayEvent
  try dsimp only
  repeat' first
    | with_reducible assumption
    | with_reducible apply Kept.quarantine
    | with_reducible apply Kept.onLink
    | with_reducible apply Kept.foldl
    | with_reducible apply Kept.foldlFst
    | with_reducible apply Kept.getD
    | with_reducible apply Kept.elim
    | split
    | intro _

theorem Kept.resendFrom {s t : State} {d : Nat} (h : Kept s t) : Kept s (State.resendFrom t d) := by
  unfold State.resendFrom
  try dsimp only
  repeat' first
    | with_reducible assumption
    | with_reducible apply Kept.emit
    | with_reducible apply Kept.onLink
    | with_reducible apply Kept.linkDown
    | with_reducible apply Kept.replayEvent
    | with_reducible apply Kept.foldl
    | with_reducible apply Kept.foldlFst
    | with_reducible apply Kept.getD
    | with_reducible apply Kept.elim
    | split
    | intro _

theorem Kept.takeAck {s t : State} {d : Nat} {ack : BitVec 16} {vc : Nat} {hop : Nat} {n : Nat} (h : Kept s t) : Kept s (State.takeAck t d ack vc hop n) := by
  unfold State.takeAck
  try dsimp only
  repeat' first
    | with_reducible assumption
    | with_reducible apply Kept.pumpLink
    | with_reducible apply Kept.onFab
    | with_reducible apply Kept.onLink
    | with_reducible apply Kept.foldl
    | with_reducible apply Kept.foldlFst
    | with_reducible apply Kept.getD
    | with_reducible apply Kept.elim
    | split
    | intro _

theorem Kept.discardFlit {s t : State} {d : Nat} (h : Kept s t) : Kept s (State.discardFlit t d) := by
  unfold State.discardFlit
  try dsimp only
  repeat' first
    | with_reducible assumption
    | with_reducible apply Kept.onLink
    | with_reducible apply Kept.emit
    | with_reducible apply Kept.foldl
    | with_reducible apply Kept.foldlFst
    | with_reducible apply Kept.getD
    | with_reducible apply Kept.elim
    | split
    | intro _

end Sys2Proof.Machine
end

