-- ==== Sys2Proof/Laws/KeptFabric.lean ====
section
/-! SUPPORT. What the operations of Machine/Fabric.lean keep. -/

-- One declaration at a time, so that few threads hold memory at once.
set_option Elab.async false

namespace Sys2Proof.Machine

set_option linter.unusedTactic false
set_option linter.unreachableTactic false

theorem Kept.duplicate {s t : State} {d : Nat} {strap : BitVec 3} (h : Kept s t) : Kept s (State.duplicate t d strap) := by
  unfold State.duplicate
  try dsimp only
  repeat' first
    | with_reducible assumption
    | with_reducible apply Kept.logEvent
    | with_reducible apply Kept.onFab
    | with_reducible apply Kept.foldl
    | with_reducible apply Kept.foldlFst
    | with_reducible apply Kept.getD
    | with_reducible apply Kept.elim
    | split
    | intro _

theorem Kept.loseMissing {s t : State} (h : Kept s t) : Kept s (State.loseMissing t) := by
  unfold State.loseMissing
  try dsimp only
  repeat' first
    | with_reducible assumption
    | with_reducible apply Kept.routeLost
    | with_reducible apply Kept.foldl
    | with_reducible apply Kept.foldlFst
    | with_reducible apply Kept.getD
    | with_reducible apply Kept.elim
    | split
    | intro _

end Sys2Proof.Machine
end

