-- ==== Sys2Proof/Laws/KeptMoveOps.lean ====
section
/-! SUPPORT. What the operations of Machine/MoveOps.lean keep. -/

-- One declaration at a time, so that few threads hold memory at once.
set_option Elab.async false

namespace Sys2Proof.Machine

set_option linter.unusedTactic false
set_option linter.unreachableTactic false

theorem Kept.pieceFault {s t : State} {n : Nat} {write : Bool} {p : Nat × Nat} {u : State} (h : Kept s t) (e : State.pieceFault t n write p = some u) : Kept s u := by
  unfold State.pieceFault at e
  try dsimp only at e
  repeat' split at e
  all_goals first | (cases e; done) | (obtain ⟨_, _, rfl⟩ := Option.map_eq_some_iff.1 e) | (obtain rfl := Option.some.inj e)
  all_goals repeat' first
    | with_reducible assumption
    | with_reducible apply Kept.coreFault
    | with_reducible apply Kept.fabFails
    | with_reducible apply Kept.decodeFault
    | with_reducible apply Kept.refusedBus
    | with_reducible apply Kept.foldl
    | with_reducible apply Kept.foldlFst
    | with_reducible apply Kept.getD
    | with_reducible apply Kept.elim
    | split
    | intro _

theorem Kept.sendPacket {s t : State} {n : Nat} {o : BitVec 4} {seq : Word} {d : Dest} {void : Bool} (h : Kept s t) : Kept s (State.sendPacket t n o seq d void) := by
  unfold State.sendPacket
  try dsimp only
  repeat' first
    | with_reducible assumption
    | with_reducible apply Kept.emit
    | with_reducible apply Kept.fabSend
    | with_reducible apply Kept.foldl
    | with_reducible apply Kept.foldlFst
    | with_reducible apply Kept.getD
    | with_reducible apply Kept.elim
    | split
    | intro _

theorem Kept.readPiece {s t : State} {n : Nat} {m : Move} {p : Nat × Nat} (h : Kept s t) : Kept s (State.readPiece t n m p).1 := by
  unfold State.readPiece
  try dsimp only
  repeat' first
    | with_reducible assumption
    | with_reducible apply Kept.remoteRead
    | with_reducible apply Kept.readMem
    | with_reducible apply Kept.louvre
    | with_reducible apply Kept.foldl
    | with_reducible apply Kept.foldlFst
    | with_reducible apply Kept.getD
    | with_reducible apply Kept.elim
    | split
    | intro _

theorem Kept.beginMove {s t : State} {n : Nat} {engine : Bool} {b : Bytes} {ranges : List Range} {ps : List (Nat × Nat)} {p : Program} (h : Kept s t) : Kept s (State.beginMove t n engine b ranges ps p) := by
  unfold State.beginMove
  try dsimp only
  repeat' first
    | with_reducible assumption
    | with_reducible apply Kept.onCore
    | with_reducible apply Kept.readPiece
    | with_reducible apply Kept.foldl
    | with_reducible apply Kept.foldlFst
    | with_reducible apply Kept.getD
    | with_reducible apply Kept.elim
    | split
    | intro _

theorem Kept.takeDesc {s t : State} {n : Nat} {engine : Bool} {granule_ : BitVec 16} {ranges : List Range} {p : Program} (h : Kept s t) : Kept s (State.takeDesc t n engine granule_ ranges p) := by
  unfold State.takeDesc
  try dsimp only
  repeat' first
    | with_reducible assumption
    | (refine Kept.pieceFault ?_ (by assumption))
    | with_reducible apply Kept.withPond
    | with_reducible apply Kept.coreFault
    | with_reducible apply Kept.beginMove
    | with_reducible apply Kept.fabFails
    | with_reducible apply Kept.foldl
    | with_reducible apply Kept.foldlFst
    | with_reducible apply Kept.getD
    | with_reducible apply Kept.elim
    | (obtain ⟨x, _, hx⟩ := List.exists_of_findSome?_eq_some (by assumption); exact Kept.pieceFault (by assumption) hx)
    | split
    | intro _

theorem Kept.landPiece {s t : State} {n : Nat} {u1 : Nat} {bad : List Nat} {w : Nat × Bytes × Option Nat} (h : Kept s t) : Kept s (State.landPiece t n u1 bad w) := by
  unfold State.landPiece
  try dsimp only
  repeat' first
    | with_reducible assumption
    | (with_reducible refine Kept.memSame ?_ rfl rfl)
    | exact fun x => Mem.Ok.poisonWord x _
    | with_reducible apply Kept.poke
    | with_reducible apply Kept.noteRoi
    | with_reducible apply Kept.portWrite
    | with_reducible apply Kept.louvre
    | with_reducible apply Kept.onMem
    | with_reducible apply Kept.onCore
    | with_reducible apply Kept.foldl
    | with_reducible apply Kept.foldlFst
    | with_reducible apply Kept.getD
    | with_reducible apply Kept.elim
    | split
    | intro _

theorem Kept.landWrites {s t : State} {n : Nat} {engine : Bool} {m : Move} {ws : List (Nat × Bytes × Option Nat)} (h : Kept s t) : Kept s (State.landWrites t n engine m ws) := by
  unfold State.landWrites
  try dsimp only
  repeat' first
    | with_reducible assumption
    | with_reducible apply Kept.onCore
    | with_reducible apply Kept.fabFails
    | with_reducible apply Kept.fabSend
    | with_reducible apply Kept.louvre
    | with_reducible apply Kept.landPiece
    | with_reducible apply Kept.sendPacket
    | with_reducible apply Kept.foldl
    | with_reducible apply Kept.foldlFst
    | with_reducible apply Kept.getD
    | with_reducible apply Kept.elim
    | split
    | intro _

theorem Kept.readBlocks {s t : State} {n : Nat} {engine : Bool} {m : Move} (h : Kept s t) : Kept s (State.readBlocks t n engine m) := by
  unfold State.readBlocks
  try dsimp only
  repeat' first
    | with_reducible assumption
    | with_reducible apply Kept.readPiece
    | with_reducible apply Kept.onCore
    | with_reducible apply Kept.coreFault
    | with_reducible apply Kept.foldl
    | with_reducible apply Kept.foldlFst
    | with_reducible apply Kept.getD
    | with_reducible apply Kept.elim
    | split
    | intro _

theorem Kept.landMove {s t : State} {n : Nat} {engine : Bool} {m : Move} (h : Kept s t) : Kept s (State.landMove t n engine m) := by
  unfold State.landMove
  try dsimp only
  repeat' first
    | with_reducible assumption
    | with_reducible apply Kept.readBlocks
    | with_reducible apply Kept.coreFault
    | with_reducible apply Kept.landWrites
    | with_reducible apply Kept.onCore
    | with_reducible apply Kept.foldl
    | with_reducible apply Kept.foldlFst
    | with_reducible apply Kept.getD
    | with_reducible apply Kept.elim
    | split
    | intro _

end Sys2Proof.Machine
end

