-- ==== Sys2Proof/Laws/KeptMoves.lean ====
section
/-! SUPPORT. What the operations of Machine/Moves.lean keep. -/

-- One declaration at a time, so that few threads hold memory at once.
set_option Elab.async false

namespace Sys2Proof.Machine

set_option linter.unusedTactic false
set_option linter.unreachableTactic false

theorem Kept.issueMove {s t : State} {n : BitVec 6} {engine : Bool} {desc : BitVec 16} (h : Kept s t) : Kept s (State.issueMove t n engine desc) := by
  unfold State.issueMove
  try dsimp only
  repeat' first
    | with_reducible assumption
    | with_reducible apply Kept.coreFault
    | with_reducible apply Kept.interlock
    | with_reducible apply Kept.withPond
    | with_reducible apply Kept.onCore
    | with_reducible apply Kept.foldl
    | with_reducible apply Kept.foldlFst
    | with_reducible apply Kept.getD
    | with_reducible apply Kept.elim
    | split
    | intro _

theorem Kept.issueSignal {s t : State} {n : BitVec 6} {out : BitVec 4} {d : Dest} (h : Kept s t) : Kept s (State.issueSignal t n out d) := by
  unfold State.issueSignal
  try dsimp only
  repeat' first
    | with_reducible assumption
    | with_reducible apply Kept.coreFault
    | with_reducible apply Kept.sendPacket
    | with_reducible apply Kept.onCore
    | with_reducible apply Kept.foldl
    | with_reducible apply Kept.foldlFst
    | with_reducible apply Kept.getD
    | with_reducible apply Kept.elim
    | split
    | intro _

theorem Kept.voidStream {s t : State} {n : Nat} {e : BitVec 2 × BitVec 4 × Word} (h : Kept s t) : Kept s (State.voidStream t n e) := by
  unfold State.voidStream
  try dsimp only
  repeat' first
    | with_reducible assumption
    | with_reducible apply Kept.onCore
    | with_reducible apply Kept.sendPacket
    | with_reducible apply Kept.foldl
    | with_reducible apply Kept.foldlFst
    | with_reducible apply Kept.getD
    | with_reducible apply Kept.elim
    | split
    | intro _

theorem Kept.retryInstr {s t : State} {i : Instr} (h : Kept s t) : Kept s (State.retryInstr t i) := by
  unfold State.retryInstr
  try dsimp only
  repeat' first
    | with_reducible assumption
    | with_reducible apply Kept.issueLoad
    | with_reducible apply Kept.issuePass
    | with_reducible apply Kept.loadLanes
    | with_reducible apply Kept.storeLanes
    | with_reducible apply Kept.convert
    | with_reducible apply Kept.issueMove
    | with_reducible apply Kept.foldl
    | with_reducible apply Kept.foldlFst
    | with_reducible apply Kept.getD
    | with_reducible apply Kept.elim
    | split
    | intro _

end Sys2Proof.Machine
end

