-- ==== Sys2Proof/Laws/KeptSpringOps.lean ====
section
/-! SUPPORT. What the operations of Machine/SpringOps.lean keep. -/

-- One declaration at a time, so that few threads hold memory at once.
set_option Elab.async false

namespace Sys2Proof.Machine

set_option linter.unusedTactic false
set_option linter.unreachableTactic false

theorem Kept.onStream {s t : State} {n : Nat} {f : StreamRt → StreamRt} (h : Kept s t) : Kept s (State.onStream t n f) := by
  unfold State.onStream
  try dsimp only
  repeat' first
    | with_reducible assumption
    | with_reducible apply Kept.onSpring
    | with_reducible apply Kept.foldl
    | with_reducible apply Kept.foldlFst
    | with_reducible apply Kept.getD
    | with_reducible apply Kept.elim
    | split
    | intro _

theorem Kept.streamCount {s t : State} {n : Nat} {i : Nat} {k : Nat} (h : Kept s t) : Kept s (State.streamCount t n i k) := by
  unfold State.streamCount
  try dsimp only
  repeat' first
    | with_reducible assumption
    | with_reducible apply Kept.onStream
    | with_reducible apply Kept.foldl
    | with_reducible apply Kept.foldlFst
    | with_reducible apply Kept.getD
    | with_reducible apply Kept.elim
    | split
    | intro _

theorem Kept.onBatch {s t : State} {b : Nat} {f : BatchRt → BatchRt} (h : Kept s t) : Kept s (State.onBatch t b f) := by
  unfold State.onBatch
  try dsimp only
  repeat' first
    | with_reducible assumption
    | with_reducible apply Kept.onSpring
    | with_reducible apply Kept.foldl
    | with_reducible apply Kept.foldlFst
    | with_reducible apply Kept.getD
    | with_reducible apply Kept.elim
    | split
    | intro _

theorem Kept.onSample {s t : State} {n : Nat} {seq : Word} {f : Sample → Sample} (h : Kept s t) : Kept s (State.onSample t n seq f) := by
  unfold State.onSample
  try dsimp only
  repeat' first
    | with_reducible assumption
    | with_reducible apply Kept.onSpring
    | with_reducible apply Kept.foldl
    | with_reducible apply Kept.foldlFst
    | with_reducible apply Kept.getD
    | with_reducible apply Kept.elim
    | split
    | intro _

theorem Kept.pruneSamples {s t : State} (h : Kept s t) : Kept s (State.pruneSamples t) := by
  unfold State.pruneSamples
  try dsimp only
  repeat' first
    | with_reducible assumption
    | with_reducible apply Kept.onSpring
    | with_reducible apply Kept.foldl
    | with_reducible apply Kept.foldlFst
    | with_reducible apply Kept.getD
    | with_reducible apply Kept.elim
    | split
    | intro _

theorem Kept.springViolation {s t : State} {key : Nat × Nat × Nat} {door : Nat} {n : Option Nat} {seq : Nat} (h : Kept s t) : Kept s (State.springViolation t key door n seq) := by
  unfold State.springViolation
  try dsimp only
  repeat' first
    | with_reducible assumption
    | with_reducible apply Kept.logEvent
    | with_reducible apply Kept.onSpring
    | with_reducible apply Kept.streamCount
    | with_reducible apply Kept.foldl
    | with_reducible apply Kept.foldlFst
    | with_reducible apply Kept.getD
    | with_reducible apply Kept.elim
    | split
    | intro _

theorem Kept.springMarginal {s t : State} {n : Nat} (h : Kept s t) : Kept s (State.springMarginal t n) := by
  unfold State.springMarginal
  try dsimp only
  repeat' first
    | with_reducible assumption
    | with_reducible apply Kept.streamCount
    | with_reducible apply Kept.onSpring
    | with_reducible apply Kept.foldl
    | with_reducible apply Kept.foldlFst
    | with_reducible apply Kept.getD
    | with_reducible apply Kept.elim
    | split
    | intro _

theorem Kept.openSample {s t : State} {x : Sample} (h : Kept s t) : Kept s (State.openSample t x) := by
  unfold State.openSample
  try dsimp only
  repeat' first
    | with_reducible assumption
    | with_reducible apply Kept.onSpring
    | with_reducible apply Kept.onStream
    | with_reducible apply Kept.foldl
    | with_reducible apply Kept.foldlFst
    | with_reducible apply Kept.getD
    | with_reducible apply Kept.elim
    | split
    | intro _

theorem Kept.completeSample {s t : State} {n : Nat} {seq : Word} (h : Kept s t) : Kept s (State.completeSample t n seq) := by
  unfold State.completeSample
  try dsimp only
  repeat' first
    | with_reducible assumption
    | with_reducible apply Kept.onSample
    | with_reducible apply Kept.logEvent
    | with_reducible apply Kept.streamCount
    | with_reducible apply Kept.foldl
    | with_reducible apply Kept.foldlFst
    | with_reducible apply Kept.getD
    | with_reducible apply Kept.elim
    | split
    | intro _

theorem Kept.springSignal {s t : State} {target : Nat} (h : Kept s t) : Kept s (State.springSignal t target) := by
  unfold State.springSignal
  try dsimp only
  repeat' first
    | with_reducible assumption
    | with_reducible apply Kept.onSpring
    | with_reducible apply Kept.emit
    | with_reducible apply Kept.fabSend
    | with_reducible apply Kept.foldl
    | with_reducible apply Kept.foldlFst
    | with_reducible apply Kept.getD
    | with_reducible apply Kept.elim
    | split
    | intro _

theorem Kept.writeLine {s t : State} {b : Nat} {n : Nat} {y : Nat} {line : Bytes} (h : Kept s t) : Kept s (State.writeLine t b n y line) := by
  unfold State.writeLine
  try dsimp only
  repeat' first
    | with_reducible assumption
    | with_reducible apply Kept.engineWrite
    | with_reducible apply Kept.springSignal
    | with_reducible apply Kept.foldl
    | with_reducible apply Kept.foldlFst
    | with_reducible apply Kept.getD
    | with_reducible apply Kept.elim
    | split
    | intro _

theorem Kept.cropRow {s t : State} {roi : Bytes} {r : Nat} {row : Bytes} (h : Kept s t) : Kept s (State.cropRow t roi r row) := by
  unfold State.cropRow
  try dsimp only
  repeat' first
    | with_reducible assumption
    | with_reducible apply Kept.engineWrite
    | with_reducible apply Kept.springSignal
    | with_reducible apply Kept.foldl
    | with_reducible apply Kept.foldlFst
    | with_reducible apply Kept.getD
    | with_reducible apply Kept.elim
    | split
    | intro _

theorem Kept.cropLine {s t : State} {n : Nat} {y : Nat} {line : Bytes} {roi : Bytes} (h : Kept s t) : Kept s (State.cropLine t n y line roi) := by
  unfold State.cropLine
  try dsimp only
  repeat' first
    | with_reducible assumption
    | with_reducible apply Kept.cropRow
    | with_reducible apply Kept.logEvent
    | with_reducible apply Kept.streamCount
    | with_reducible apply Kept.foldl
    | with_reducible apply Kept.foldlFst
    | with_reducible apply Kept.getD
    | with_reducible apply Kept.elim
    | split
    | intro _

theorem Kept.releaseLine {s t : State} {x : Sample} {y : Nat} {line : Bytes} (h : Kept s t) : Kept s (State.releaseLine t x y line) := by
  unfold State.releaseLine
  try dsimp only
  repeat' first
    | with_reducible assumption
    | with_reducible apply Kept.writeLine
    | with_reducible apply Kept.cropLine
    | with_reducible apply Kept.foldl
    | with_reducible apply Kept.foldlFst
    | with_reducible apply Kept.getD
    | with_reducible apply Kept.elim
    | split
    | intro _

theorem Kept.failCamera {s t : State} {x : Sample} {reason : Reason} (h : Kept s t) : Kept s (State.failCamera t x reason) := by
  unfold State.failCamera
  try dsimp only
  repeat' first
    | with_reducible assumption
    | with_reducible apply Kept.onSample
    | with_reducible apply Kept.releaseLine
    | with_reducible apply Kept.foldl
    | with_reducible apply Kept.foldlFst
    | with_reducible apply Kept.getD
    | with_reducible apply Kept.elim
    | split
    | intro _

theorem Kept.cameraViolation {s t : State} {door : Nat} {vc : Nat} {n : Nat} {reason : Option Reason} (h : Kept s t) : Kept s (State.cameraViolation t door vc n reason) := by
  unfold State.cameraViolation
  try dsimp only
  repeat' first
    | with_reducible assumption
    | with_reducible apply Kept.springViolation
    | with_reducible apply Kept.failCamera
    | with_reducible apply Kept.foldl
    | with_reducible apply Kept.foldlFst
    | with_reducible apply Kept.getD
    | with_reducible apply Kept.elim
    | split
    | intro _

theorem Kept.payloadComplete {s t : State} {n : Nat} {seq : Word} {data : Bytes} (h : Kept s t) : Kept s (State.payloadComplete t n seq data) := by
  unfold State.payloadComplete
  try dsimp only
  repeat' first
    | with_reducible assumption
    | with_reducible apply Kept.onSample
    | with_reducible apply Kept.pruneSamples
    | with_reducible apply Kept.completeSample
    | with_reducible apply Kept.foldl
    | with_reducible apply Kept.foldlFst
    | with_reducible apply Kept.getD
    | with_reducible apply Kept.elim
    | split
    | intro _

theorem Kept.freeDecoder {s t : State} {d : Nat} (h : Kept s t) : Kept s (State.freeDecoder t d) := by
  unfold State.freeDecoder
  try dsimp only
  repeat' first
    | with_reducible assumption
    | with_reducible apply Kept.onSpring
    | with_reducible apply Kept.foldl
    | with_reducible apply Kept.foldlFst
    | with_reducible apply Kept.getD
    | with_reducible apply Kept.elim
    | split
    | intro _

theorem Kept.closeCamera {s t : State} {b : Nat} {n : Nat} (h : Kept s t) : Kept s (State.closeCamera t b n).1 := by
  unfold State.closeCamera
  try dsimp only
  repeat' first
    | with_reducible assumption
    | with_reducible apply Kept.writeLine
    | with_reducible apply Kept.failCamera
    | with_reducible apply Kept.springMarginal
    | with_reducible apply Kept.foldl
    | with_reducible apply Kept.foldlFst
    | with_reducible apply Kept.getD
    | with_reducible apply Kept.elim
    | split
    | intro _

theorem Kept.closeRecords {s t : State} {b : Nat} {n : Nat} (h : Kept s t) : Kept s (State.closeRecords t b n).1 := by
  unfold State.closeRecords
  try dsimp only
  repeat' first
    | with_reducible assumption
    | with_reducible apply Kept.springMarginal
    | with_reducible apply Kept.foldl
    | with_reducible apply Kept.foldlFst
    | with_reducible apply Kept.getD
    | with_reducible apply Kept.elim
    | split
    | intro _

theorem Kept.closeSlots {s t : State} {b : Nat} (h : Kept s t) : Kept s (State.closeSlots t b).1 := by
  unfold State.closeSlots
  try dsimp only
  repeat' first
    | with_reducible assumption
    | with_reducible apply Kept.closeCamera
    | with_reducible apply Kept.closeRecords
    | with_reducible apply Kept.foldl
    | with_reducible apply Kept.foldlFst
    | with_reducible apply Kept.getD
    | with_reducible apply Kept.elim
    | split
    | intro _

theorem Kept.forgetSamples {s t : State} {b : Nat} (h : Kept s t) : Kept s (State.forgetSamples t b) := by
  unfold State.forgetSamples
  try dsimp only
  repeat' first
    | with_reducible assumption
    | with_reducible apply Kept.onSpring
    | with_reducible apply Kept.foldl
    | with_reducible apply Kept.foldlFst
    | with_reducible apply Kept.getD
    | with_reducible apply Kept.elim
    | split
    | intro _

theorem Kept.placeBatch {s t : State} {b : Nat} (h : Kept s t) : Kept s (State.placeBatch t b).1 := by
  unfold State.placeBatch
  try dsimp only
  repeat' first
    | with_reducible assumption
    | with_reducible apply Kept.engineWrite
    | with_reducible apply Kept.foldl
    | with_reducible apply Kept.foldlFst
    | with_reducible apply Kept.getD
    | with_reducible apply Kept.elim
    | split
    | intro _

theorem Kept.settleSlot {s t : State} {p : Placed} (h : Kept s t) : Kept s (State.settleSlot t p) := by
  unfold State.settleSlot
  try dsimp only
  repeat' first
    | with_reducible assumption
    | with_reducible apply Kept.streamCount
    | with_reducible apply Kept.logEvent
    | with_reducible apply Kept.foldl
    | with_reducible apply Kept.foldlFst
    | with_reducible apply Kept.getD
    | with_reducible apply Kept.elim
    | split
    | intro _

theorem Kept.finishBatch {s t : State} {b : Nat} (h : Kept s t) : Kept s (State.finishBatch t b) := by
  unfold State.finishBatch
  try dsimp only
  repeat' first
    | with_reducible assumption
    | with_reducible apply Kept.placeBatch
    | with_reducible apply Kept.engineWrite
    | with_reducible apply Kept.pruneSamples
    | with_reducible apply Kept.onBatch
    | with_reducible apply Kept.springSignal
    | with_reducible apply Kept.settleSlot
    | with_reducible apply Kept.foldl
    | with_reducible apply Kept.foldlFst
    | with_reducible apply Kept.getD
    | with_reducible apply Kept.elim
    | split
    | intro _

theorem Kept.storeSlot {s t : State} {d : Bytes} {k : Nat} {size : Nat} {p : Nat} (h : Kept s t) : Kept s (State.storeSlot t d k size p).1 := by
  unfold State.storeSlot
  try dsimp only
  repeat' first
    | with_reducible assumption
    | with_reducible apply Kept.engineWrite
    | with_reducible apply Kept.engineRead
    | with_reducible apply Kept.foldl
    | with_reducible apply Kept.foldlFst
    | with_reducible apply Kept.getD
    | with_reducible apply Kept.elim
    | split
    | intro _

theorem Kept.assembleStore {s t : State} {b : Nat} {k : Word} (h : Kept s t) : Kept s (State.assembleStore t b k) := by
  unfold State.assembleStore
  try dsimp only
  repeat' first
    | with_reducible assumption
    | with_reducible apply Kept.storeSlot
    | with_reducible apply Kept.onBatch
    | with_reducible apply Kept.foldl
    | with_reducible apply Kept.foldlFst
    | with_reducible apply Kept.getD
    | with_reducible apply Kept.elim
    | split
    | intro _

theorem Kept.adoptRoi {s t : State} {f : Nat} {n : Nat} (h : Kept s t) : Kept s (State.adoptRoi t f n) := by
  unfold State.adoptRoi
  try dsimp only
  repeat' first
    | with_reducible assumption
    | with_reducible apply Kept.engineRead
    | with_reducible apply Kept.onStream
    | with_reducible apply Kept.logEvent
    | with_reducible apply Kept.springMarginal
    | with_reducible apply Kept.streamCount
    | with_reducible apply Kept.foldl
    | with_reducible apply Kept.foldlFst
    | with_reducible apply Kept.getD
    | with_reducible apply Kept.elim
    | split
    | intro _

theorem Kept.adoptRois {s t : State} {f : Nat} (h : Kept s t) : Kept s (State.adoptRois t f) := by
  unfold State.adoptRois
  try dsimp only
  repeat' first
    | with_reducible assumption
    | with_reducible apply Kept.adoptRoi
    | with_reducible apply Kept.foldl
    | with_reducible apply Kept.foldlFst
    | with_reducible apply Kept.getD
    | with_reducible apply Kept.elim
    | split
    | intro _

end Sys2Proof.Machine
end

