-- ==== Sys2Proof/Laws/KeptSpring.lean ====
section
/-! SUPPORT. What the operations of Machine/Spring.lean keep. -/

-- One declaration at a time, so that few threads hold memory at once.
set_option Elab.async false

namespace Sys2Proof.Machine

set_option linter.unusedTactic false
set_option linter.unreachableTactic false

theorem Kept.unmatchedPacket {s t : State} {door : Nat} (h : Kept s t) : Kept s (State.unmatchedPacket t door) := by
  unfold State.unmatchedPacket
  try dsimp only
  repeat' first
    | with_reducible assumption
    | with_reducible apply Kept.onSpring
    | with_reducible apply Kept.foldl
    | with_reducible apply Kept.foldlFst
    | with_reducible apply Kept.getD
    | with_reducible apply Kept.elim
    | split
    | intro _

theorem Kept.eccNote {s t : State} {door : Nat} {vc : Nat} {ecc : EccResult} (h : Kept s t) : Kept s (State.eccNote t door vc ecc) := by
  unfold State.eccNote
  try dsimp only
  repeat' first
    | with_reducible assumption
    | with_reducible apply Kept.springViolation
    | with_reducible apply Kept.raise
    | with_reducible apply Kept.foldl
    | with_reducible apply Kept.foldlFst
    | with_reducible apply Kept.getD
    | with_reducible apply Kept.elim
    | split
    | intro _

theorem Kept.eccDrop {s t : State} {door : Nat} {vc : Nat} (h : Kept s t) : Kept s (State.eccDrop t door vc) := by
  unfold State.eccDrop
  try dsimp only
  repeat' first
    | with_reducible assumption
    | with_reducible apply Kept.failCamera
    | with_reducible apply Kept.springViolation
    | with_reducible apply Kept.foldl
    | with_reducible apply Kept.foldlFst
    | with_reducible apply Kept.getD
    | with_reducible apply Kept.elim
    | split
    | intro _

theorem Kept.startCamera {s t : State} {door : Nat} {vc : Nat} {n : Nat} (h : Kept s t) : Kept s (State.startCamera t door vc n) := by
  unfold State.startCamera
  try dsimp only
  repeat' first
    | with_reducible assumption
    | with_reducible apply Kept.completeSample
    | with_reducible apply Kept.cameraViolation
    | with_reducible apply Kept.openSample
    | with_reducible apply Kept.onStream
    | with_reducible apply Kept.foldl
    | with_reducible apply Kept.foldlFst
    | with_reducible apply Kept.getD
    | with_reducible apply Kept.elim
    | split
    | intro _

theorem Kept.cameraLine {s t : State} {door : Nat} {vc : Nat} {n : Nat} {dt : Nat} {wc : Nat} {pixels : List (List Nat)} {crcOk : Bool} {comparable : Bool} (h : Kept s t) : Kept s (State.cameraLine t door vc n dt wc pixels crcOk comparable) := by
  unfold State.cameraLine
  try dsimp only
  repeat' first
    | with_reducible assumption
    | with_reducible apply Kept.cameraViolation
    | with_reducible apply Kept.onSample
    | with_reducible apply Kept.releaseLine
    | with_reducible apply Kept.streamCount
    | with_reducible apply Kept.foldl
    | with_reducible apply Kept.foldlFst
    | with_reducible apply Kept.getD
    | with_reducible apply Kept.elim
    | split
    | intro _

theorem Kept.endCamera {s t : State} {n : Nat} (h : Kept s t) : Kept s (State.endCamera t n) := by
  unfold State.endCamera
  try dsimp only
  repeat' first
    | with_reducible assumption
    | with_reducible apply Kept.onStream
    | with_reducible apply Kept.completeSample
    | with_reducible apply Kept.failCamera
    | with_reducible apply Kept.foldl
    | with_reducible apply Kept.foldlFst
    | with_reducible apply Kept.getD
    | with_reducible apply Kept.elim
    | split
    | intro _

theorem Kept.unnumber {s t : State} {n : Nat} {seq : Word} (h : Kept s t) : Kept s (State.unnumber t n seq) := by
  unfold State.unnumber
  try dsimp only
  repeat' first
    | with_reducible assumption
    | with_reducible apply Kept.onStream
    | with_reducible apply Kept.onSpring
    | with_reducible apply Kept.foldl
    | with_reducible apply Kept.foldlFst
    | with_reducible apply Kept.getD
    | with_reducible apply Kept.elim
    | split
    | intro _

theorem Kept.stampSegment {s t : State} {n : Nat} {seq : Word} {p : Bytes} (h : Kept s t) : Kept s (State.stampSegment t n seq p) := by
  unfold State.stampSegment
  try dsimp only
  repeat' first
    | with_reducible assumption
    | with_reducible apply Kept.onStream
    | with_reducible apply Kept.unnumber
    | with_reducible apply Kept.onSample
    | with_reducible apply Kept.foldl
    | with_reducible apply Kept.foldlFst
    | with_reducible apply Kept.getD
    | with_reducible apply Kept.elim
    | split
    | intro _

theorem Kept.landSegment {s t : State} {n : Nat} {seq : Word} {i : Nat} {p : Bytes} (h : Kept s t) : Kept s (State.landSegment t n seq i p) := by
  unfold State.landSegment
  try dsimp only
  repeat' first
    | with_reducible assumption
    | with_reducible apply Kept.onSample
    | with_reducible apply Kept.stampSegment
    | with_reducible apply Kept.payloadComplete
    | with_reducible apply Kept.foldl
    | with_reducible apply Kept.foldlFst
    | with_reducible apply Kept.getD
    | with_reducible apply Kept.elim
    | split
    | intro _

theorem Kept.udpSegment {s t : State} {n : Nat} {f : EthFrame} (h : Kept s t) : Kept s (State.udpSegment t n f) := by
  unfold State.udpSegment
  try dsimp only
  repeat' first
    | with_reducible assumption
    | with_reducible apply Kept.springViolation
    | with_reducible apply Kept.onSample
    | with_reducible apply Kept.streamCount
    | with_reducible apply Kept.landSegment
    | with_reducible apply Kept.onStream
    | with_reducible apply Kept.openSample
    | with_reducible apply Kept.foldl
    | with_reducible apply Kept.foldlFst
    | with_reducible apply Kept.getD
    | with_reducible apply Kept.elim
    | split
    | intro _

theorem Kept.skipStale {s t : State} (h : Kept s t) : Kept s (State.skipStale t) := by
  unfold State.skipStale
  try dsimp only
  repeat' first
    | with_reducible assumption
    | with_reducible apply Kept.onSample
    | with_reducible apply Kept.foldl
    | with_reducible apply Kept.foldlFst
    | with_reducible apply Kept.getD
    | with_reducible apply Kept.elim
    | split
    | intro _

theorem Kept.finishDecode {s t : State} {dec : Nat} {e : Decoder} {y : Sample} (h : Kept s t) : Kept s (State.finishDecode t dec e y) := by
  unfold State.finishDecode
  try dsimp only
  repeat' first
    | with_reducible assumption
    | with_reducible apply Kept.freeDecoder
    | with_reducible apply Kept.springMarginal
    | with_reducible apply Kept.onStream
    | with_reducible apply Kept.pruneSamples
    | with_reducible apply Kept.onSample
    | with_reducible apply Kept.foldl
    | with_reducible apply Kept.foldlFst
    | with_reducible apply Kept.getD
    | with_reducible apply Kept.elim
    | split
    | intro _

end Sys2Proof.Machine
end

