-- ==== Sys2Proof/Laws/KeptRadioOps.lean ====
section
/-! SUPPORT. What the operations of Machine/RadioOps.lean keep. -/

-- One declaration at a time, so that few threads hold memory at once.
set_option Elab.async false

namespace Sys2Proof.Machine

set_option linter.unusedTactic false
set_option linter.unreachableTactic false

theorem Kept.onCarrier {s t : State} {c : Nat} {f : Carrier → Carrier} (h : Kept s t) : Kept s (State.onCarrier t c f) := by
  unfold State.onCarrier
  try dsimp only
  repeat' first
    | with_reducible assumption
    | with_reducible apply Kept.onRadio
    | with_reducible apply Kept.foldl
    | with_reducible apply Kept.foldlFst
    | with_reducible apply Kept.getD
    | with_reducible apply Kept.elim
    | split
    | intro _

theorem Kept.onRadioDoor {s t : State} {d : Nat} {f : RadioDoor → RadioDoor} (h : Kept s t) : Kept s (State.onRadioDoor t d f) := by
  unfold State.onRadioDoor
  try dsimp only
  repeat' first
    | with_reducible assumption
    | with_reducible apply Kept.onRadio
    | with_reducible apply Kept.foldl
    | with_reducible apply Kept.foldlFst
    | with_reducible apply Kept.getD
    | with_reducible apply Kept.elim
    | split
    | intro _

theorem Kept.onDecoder {s t : State} {e : Nat} {f : Engine → Engine} (h : Kept s t) : Kept s (State.onDecoder t e f) := by
  unfold State.onDecoder
  try dsimp only
  repeat' first
    | with_reducible assumption
    | with_reducible apply Kept.onRadio
    | with_reducible apply Kept.foldl
    | with_reducible apply Kept.foldlFst
    | with_reducible apply Kept.getD
    | with_reducible apply Kept.elim
    | split
    | intro _

theorem Kept.radioCount {s t : State} {c : Nat} {i : Nat} (h : Kept s t) : Kept s (State.radioCount t c i) := by
  unfold State.radioCount
  try dsimp only
  repeat' first
    | with_reducible assumption
    | with_reducible apply Kept.onCarrier
    | with_reducible apply Kept.foldl
    | with_reducible apply Kept.foldlFst
    | with_reducible apply Kept.getD
    | with_reducible apply Kept.elim
    | split
    | intro _

theorem Kept.onCurSlot {s t : State} {c : Nat} {f : SlotRt → SlotRt} (h : Kept s t) : Kept s (State.onCurSlot t c f) := by
  unfold State.onCurSlot
  try dsimp only
  repeat' first
    | with_reducible assumption
    | with_reducible apply Kept.onCarrier
    | with_reducible apply Kept.foldl
    | with_reducible apply Kept.foldlFst
    | with_reducible apply Kept.getD
    | with_reducible apply Kept.elim
    | split
    | intro _

theorem Kept.onSlot {s t : State} {c : Nat} {n : Nat} {f : SlotRt → SlotRt} (h : Kept s t) : Kept s (State.onSlot t c n f) := by
  unfold State.onSlot
  try dsimp only
  repeat' first
    | with_reducible assumption
    | with_reducible apply Kept.onCarrier
    | with_reducible apply Kept.foldl
    | with_reducible apply Kept.foldlFst
    | with_reducible apply Kept.getD
    | with_reducible apply Kept.elim
    | split
    | intro _

theorem Kept.doorFollows {s t : State} {d : Nat} (h : Kept s t) : Kept s (State.doorFollows t d) := by
  unfold State.doorFollows
  try dsimp only
  repeat' first
    | with_reducible assumption
    | with_reducible apply Kept.onRadioDoor
    | with_reducible apply Kept.foldl
    | with_reducible apply Kept.foldlFst
    | with_reducible apply Kept.getD
    | with_reducible apply Kept.elim
    | split
    | intro _

theorem Kept.radioViolation {s t : State} {d : Nat} {what : Nat} (h : Kept s t) : Kept s (State.radioViolation t d what) := by
  unfold State.radioViolation
  try dsimp only
  repeat' first
    | with_reducible assumption
    | with_reducible apply Kept.logEvent
    | with_reducible apply Kept.radioCount
    | with_reducible apply Kept.onRadio
    | with_reducible apply Kept.foldl
    | with_reducible apply Kept.foldlFst
    | with_reducible apply Kept.getD
    | with_reducible apply Kept.elim
    | split
    | intro _

theorem Kept.driveGain {s t : State} {c : Nat} {gi : Nat} (h : Kept s t) : Kept s (State.driveGain t c gi) := by
  unfold State.driveGain
  try dsimp only
  repeat' first
    | with_reducible assumption
    | with_reducible apply Kept.onCurSlot
    | with_reducible apply Kept.onPins
    | with_reducible apply Kept.foldl
    | with_reducible apply Kept.foldlFst
    | with_reducible apply Kept.getD
    | with_reducible apply Kept.elim
    | split
    | intro _

theorem Kept.settleGain {s t : State} {c : Nat} (h : Kept s t) : Kept s (State.settleGain t c) := by
  unfold State.settleGain
  try dsimp only
  repeat' first
    | with_reducible assumption
    | with_reducible apply Kept.onCurSlot
    | with_reducible apply Kept.foldl
    | with_reducible apply Kept.foldlFst
    | with_reducible apply Kept.getD
    | with_reducible apply Kept.elim
    | split
    | intro _

theorem Kept.slotSignal {s t : State} {c : Nat} (h : Kept s t) : Kept s (State.slotSignal t c) := by
  unfold State.slotSignal
  try dsimp only
  repeat' first
    | with_reducible assumption
    | with_reducible apply Kept.onCarrier
    | with_reducible apply Kept.emit
    | with_reducible apply Kept.foldl
    | with_reducible apply Kept.foldlFst
    | with_reducible apply Kept.getD
    | with_reducible apply Kept.elim
    | split
    | intro _

theorem Kept.writeSlot {s t : State} {c : Nat} {x : SlotRt} (h : Kept s t) : Kept s (State.writeSlot t c x) := by
  unfold State.writeSlot
  try dsimp only
  repeat' first
    | with_reducible assumption
    | with_reducible apply Kept.slotSignal
    | with_reducible apply Kept.engineWrite
    | with_reducible apply Kept.radioCount
    | with_reducible apply Kept.foldl
    | with_reducible apply Kept.foldlFst
    | with_reducible apply Kept.getD
    | with_reducible apply Kept.elim
    | split
    | intro _

theorem Kept.addReplay {s t : State} {j : Bytes} (h : Kept s t) : Kept s (State.addReplay t j) := by
  unfold State.addReplay
  try dsimp only
  repeat' first
    | with_reducible assumption
    | with_reducible apply Kept.engineWrite
    | with_reducible apply Kept.onCarrier
    | with_reducible apply Kept.foldl
    | with_reducible apply Kept.foldlFst
    | with_reducible apply Kept.getD
    | with_reducible apply Kept.elim
    | split
    | intro _

theorem Kept.addLabel {s t : State} {j : Bytes} {payload : Bytes} (h : Kept s t) : Kept s (State.addLabel t j payload) := by
  unfold State.addLabel
  try dsimp only
  repeat' first
    | with_reducible assumption
    | with_reducible apply Kept.onCarrier
    | with_reducible apply Kept.engineWrite
    | with_reducible apply Kept.foldl
    | with_reducible apply Kept.foldlFst
    | with_reducible apply Kept.getD
    | with_reducible apply Kept.elim
    | split
    | intro _

theorem Kept.springBlock {s t : State} {j : Bytes} {payload : Bytes} (h : Kept s t) : Kept s (State.springBlock t j payload) := by
  unfold State.springBlock
  try dsimp only
  repeat' first
    | with_reducible assumption
    | with_reducible apply Kept.payloadComplete
    | with_reducible apply Kept.openSample
    | with_reducible apply Kept.foldl
    | with_reducible apply Kept.foldlFst
    | with_reducible apply Kept.getD
    | with_reducible apply Kept.elim
    | split
    | intro _

theorem Kept.releasePassed {s t : State} {f c : Nat} (h : Kept s t) : Kept s (State.releasePassed f t c) := by
  induction f generalizing t with
  | zero => exact h
  | succ f ih =>
    unfold State.releasePassed
    dsimp only
    split
    · exact h
    · split
      · exact h
      · exact ih h.onCarrier.springBlock.addReplay

theorem Kept.reportJob {s t : State} {e : Nat} {j : Bytes} {outcome : Nat} {iter : Nat} {buf : Nat} {combined : Bool} {fb : Nat} (h : Kept s t) : Kept s (State.reportJob t e j outcome iter buf combined fb) := by
  unfold State.reportJob
  try dsimp only
  repeat' first
    | with_reducible assumption
    | with_reducible apply Kept.onCarrier
    | with_reducible apply Kept.engineWrite
    | with_reducible apply Kept.radioCount
    | with_reducible apply Kept.logEvent
    | with_reducible apply Kept.releasePassed
    | with_reducible apply Kept.emit
    | with_reducible apply Kept.foldl
    | with_reducible apply Kept.foldlFst
    | with_reducible apply Kept.getD
    | with_reducible apply Kept.elim
    | split
    | intro _

theorem Kept.addFeedback {s t : State} {j : Bytes} {fb : Nat} (h : Kept s t) : Kept s (State.addFeedback t j fb) := by
  unfold State.addFeedback
  try dsimp only
  repeat' first
    | with_reducible assumption
    | with_reducible apply Kept.onCarrier
    | with_reducible apply Kept.foldl
    | with_reducible apply Kept.foldlFst
    | with_reducible apply Kept.getD
    | with_reducible apply Kept.elim
    | split
    | intro _

theorem Kept.cutJob {s t : State} {e : Nat} {j : Bytes} {outcome : Nat} (h : Kept s t) : Kept s (State.cutJob t e j outcome) := by
  unfold State.cutJob
  try dsimp only
  repeat' first
    | with_reducible assumption
    | with_reducible apply Kept.addFeedback
    | with_reducible apply Kept.reportJob
    | with_reducible apply Kept.foldl
    | with_reducible apply Kept.foldlFst
    | with_reducible apply Kept.getD
    | with_reducible apply Kept.elim
    | split
    | intro _

theorem Kept.endJob {s t : State} {e : Nat} (h : Kept s t) : Kept s (State.endJob t e) := by
  unfold State.endJob
  try dsimp only
  repeat' first
    | with_reducible assumption
    | with_reducible apply Kept.onDecoder
    | with_reducible apply Kept.foldl
    | with_reducible apply Kept.foldlFst
    | with_reducible apply Kept.getD
    | with_reducible apply Kept.elim
    | split
    | intro _

theorem Kept.keepHarq {s t : State} {e : Nat} {j : Bytes} {soft : List Int} {held : Option Harq} (h : Kept s t) : Kept s (State.keepHarq t e j soft held).1 := by
  unfold State.keepHarq
  try dsimp only
  repeat' first
    | with_reducible assumption
    | with_reducible apply Kept.engineWrite
    | with_reducible apply Kept.radioCount
    | with_reducible apply Kept.onCarrier
    | with_reducible apply Kept.foldl
    | with_reducible apply Kept.foldlFst
    | with_reducible apply Kept.getD
    | with_reducible apply Kept.elim
    | split
    | intro _

theorem Kept.finishDecodeJob {s t : State} {e : Nat} {j : Bytes} (h : Kept s t) : Kept s (State.finishDecodeJob t e j) := by
  unfold State.finishDecodeJob
  try dsimp only
  repeat' first
    | with_reducible assumption
    | with_reducible apply Kept.engineRead
    | with_reducible apply Kept.onRadio
    | with_reducible apply Kept.engineWrite
    | with_reducible apply Kept.onCarrier
    | with_reducible apply Kept.addFeedback
    | with_reducible apply Kept.reportJob
    | with_reducible apply Kept.keepHarq
    | with_reducible apply Kept.foldl
    | with_reducible apply Kept.foldlFst
    | with_reducible apply Kept.getD
    | with_reducible apply Kept.elim
    | split
    | intro _

theorem Kept.finishEncodeJob {s t : State} {e : Nat} {j : Bytes} (h : Kept s t) : Kept s (State.finishEncodeJob t e j) := by
  unfold State.finishEncodeJob
  try dsimp only
  repeat' first
    | with_reducible assumption
    | with_reducible apply Kept.engineRead
    | with_reducible apply Kept.engineWrite
    | with_reducible apply Kept.onCarrier
    | with_reducible apply Kept.addLabel
    | with_reducible apply Kept.reportJob
    | with_reducible apply Kept.foldl
    | with_reducible apply Kept.foldlFst
    | with_reducible apply Kept.getD
    | with_reducible apply Kept.elim
    | split
    | intro _

theorem Kept.txReport {s t : State} {c : Nat} {desc : Bytes} {outcome : Nat} (h : Kept s t) : Kept s (State.txReport t c desc outcome) := by
  unfold State.txReport
  try dsimp only
  repeat' first
    | with_reducible assumption
    | with_reducible apply Kept.radioCount
    | with_reducible apply Kept.onCarrier
    | with_reducible apply Kept.engineWrite
    | with_reducible apply Kept.foldl
    | with_reducible apply Kept.foldlFst
    | with_reducible apply Kept.getD
    | with_reducible apply Kept.elim
    | split
    | intro _

theorem Kept.blank {s t : State} {c : Nat} {n : Nat} {m : Nat} (h : Kept s t) : Kept s (State.blank t c n m) := by
  unfold State.blank
  try dsimp only
  repeat' first
    | with_reducible assumption
    | with_reducible apply Kept.onCurSlot
    | with_reducible apply Kept.onRadioDoor
    | with_reducible apply Kept.foldl
    | with_reducible apply Kept.foldlFst
    | with_reducible apply Kept.getD
    | with_reducible apply Kept.elim
    | split
    | intro _

theorem Kept.runList {s t : State} {d : Nat} {list : Nat} {bs : Bytes} (h : Kept s t) : Kept s (State.runList t d list bs) := by
  unfold State.runList
  try dsimp only
  repeat' first
    | with_reducible assumption
    | with_reducible apply Kept.onRadioDoor
    | with_reducible apply Kept.emit
    | with_reducible apply Kept.foldl
    | with_reducible apply Kept.foldlFst
    | with_reducible apply Kept.getD
    | with_reducible apply Kept.elim
    | split
    | intro _

theorem Kept.pumpSpi {s t : State} {f d : Nat} (h : Kept s t) : Kept s (State.pumpSpi f t d) := by
  induction f generalizing t with
  | zero => exact h
  | succ f ih =>
    unfold State.pumpSpi
    split
    · exact h
    · split
      · exact ih h.emit.onRadioDoor
      · exact h

theorem Kept.spiXfer {s t : State} {d : Nat} {v : Bytes} (h : Kept s t) : Kept s (State.spiXfer t d v) := by
  unfold State.spiXfer
  try dsimp only
  repeat' first
    | with_reducible assumption
    | with_reducible apply Kept.pumpSpi
    | with_reducible apply Kept.onRadioDoor
    | with_reducible apply Kept.foldl
    | with_reducible apply Kept.foldlFst
    | with_reducible apply Kept.getD
    | with_reducible apply Kept.elim
    | split
    | intro _

theorem Kept.startTx {s t : State} {c : Nat} {n : Nat} {t1 : Tx} (h : Kept s t) : Kept s (State.startTx t c n t1) := by
  unfold State.startTx
  try dsimp only
  repeat' first
    | with_reducible assumption
    | with_reducible apply Kept.onCarrier
    | with_reducible apply Kept.txReport
    | with_reducible apply Kept.blank
    | with_reducible apply Kept.onCurSlot
    | with_reducible apply Kept.emit
    | with_reducible apply Kept.foldl
    | with_reducible apply Kept.foldlFst
    | with_reducible apply Kept.getD
    | with_reducible apply Kept.elim
    | split
    | intro _

theorem Kept.dropTxs {s t : State} {c : Nat} (h : Kept s t) : Kept s (State.dropTxs t c) := by
  unfold State.dropTxs
  try dsimp only
  repeat' first
    | with_reducible assumption
    | with_reducible apply Kept.txReport
    | with_reducible apply Kept.foldl
    | with_reducible apply Kept.foldlFst
    | with_reducible apply Kept.getD
    | with_reducible apply Kept.elim
    | split
    | intro _

theorem Kept.switchCarriers {s t : State} {v : Nat} (h : Kept s t) : Kept s (State.switchCarriers t v) := by
  unfold State.switchCarriers
  try dsimp only
  repeat' first
    | with_reducible assumption
    | with_reducible apply Kept.dropTxs
    | with_reducible apply Kept.onCarrier
    | with_reducible apply Kept.doorFollows
    | with_reducible apply Kept.foldl
    | with_reducible apply Kept.foldlFst
    | with_reducible apply Kept.getD
    | with_reducible apply Kept.elim
    | split
    | intro _

theorem Kept.swapBank {s t : State} {c : Nat} {n : Nat} (h : Kept s t) : Kept s (State.swapBank t c n) := by
  unfold State.swapBank
  try dsimp only
  repeat' first
    | with_reducible assumption
    | with_reducible apply Kept.logEvent
    | with_reducible apply Kept.onCarrier
    | with_reducible apply Kept.radioCount
    | with_reducible apply Kept.foldl
    | with_reducible apply Kept.foldlFst
    | with_reducible apply Kept.getD
    | with_reducible apply Kept.elim
    | split
    | intro _

theorem Kept.endSlot {s t : State} {c : Nat} (h : Kept s t) : Kept s (State.endSlot t c) := by
  unfold State.endSlot
  try dsimp only
  repeat' first
    | with_reducible assumption
    | with_reducible apply Kept.onCarrier
    | with_reducible apply Kept.writeSlot
    | with_reducible apply Kept.foldl
    | with_reducible apply Kept.foldlFst
    | with_reducible apply Kept.getD
    | with_reducible apply Kept.elim
    | split
    | intro _

theorem Kept.endTx {s t : State} {c : Nat} {n : Nat} (h : Kept s t) : Kept s (State.endTx t c n) := by
  unfold State.endTx
  try dsimp only
  repeat' first
    | with_reducible assumption
    | with_reducible apply Kept.runList
    | with_reducible apply Kept.foldl
    | with_reducible apply Kept.foldlFst
    | with_reducible apply Kept.getD
    | with_reducible apply Kept.elim
    | split
    | intro _

theorem Kept.beginSlot {s t : State} {c : Nat} {n : Nat} (h : Kept s t) : Kept s (State.beginSlot t c n) := by
  unfold State.beginSlot
  try dsimp only
  repeat' first
    | with_reducible assumption
    | with_reducible apply Kept.onCarrier
    | with_reducible apply Kept.driveGain
    | with_reducible apply Kept.radioCount
    | with_reducible apply Kept.foldl
    | with_reducible apply Kept.foldlFst
    | with_reducible apply Kept.getD
    | with_reducible apply Kept.elim
    | split
    | intro _

theorem Kept.refillShares {s t : State} {c : Nat} (h : Kept s t) : Kept s (State.refillShares t c) := by
  unfold State.refillShares
  try dsimp only
  repeat' first
    | with_reducible assumption
    | with_reducible apply Kept.onRadio
    | with_reducible apply Kept.foldl
    | with_reducible apply Kept.foldlFst
    | with_reducible apply Kept.getD
    | with_reducible apply Kept.elim
    | split
    | intro _

theorem Kept.slotBoundary {s t : State} {c : Nat} {n : Nat} {samples : Nat} (h : Kept s t) : Kept s (State.slotBoundary t c n samples) := by
  unfold State.slotBoundary
  try dsimp only
  repeat' first
    | with_reducible assumption
    | with_reducible apply Kept.onCarrier
    | with_reducible apply Kept.endSlot
    | with_reducible apply Kept.radioCount
    | with_reducible apply Kept.endTx
    | with_reducible apply Kept.swapBank
    | with_reducible apply Kept.refillShares
    | with_reducible apply Kept.beginSlot
    | with_reducible apply Kept.startTx
    | with_reducible apply Kept.pumpSpi
    | with_reducible apply Kept.foldl
    | with_reducible apply Kept.foldlFst
    | with_reducible apply Kept.getD
    | with_reducible apply Kept.elim
    | split
    | intro _

theorem Kept.submitBank {s t : State} {c : Nat} {crc : Word} (h : Kept s t) : Kept s (State.submitBank t c crc) := by
  unfold State.submitBank
  try dsimp only
  repeat' first
    | with_reducible assumption
    | with_reducible apply Kept.onCarrier
    | with_reducible apply Kept.foldl
    | with_reducible apply Kept.foldlFst
    | with_reducible apply Kept.getD
    | with_reducible apply Kept.elim
    | split
    | intro _

theorem Kept.revertBank {s t : State} {c : Nat} (h : Kept s t) : Kept s (State.revertBank t c) := by
  unfold State.revertBank
  try dsimp only
  repeat' first
    | with_reducible assumption
    | with_reducible apply Kept.onCarrier
    | with_reducible apply Kept.logEvent
    | with_reducible apply Kept.foldl
    | with_reducible apply Kept.foldlFst
    | with_reducible apply Kept.getD
    | with_reducible apply Kept.elim
    | split
    | intro _

end Sys2Proof.Machine
end

