-- ==== Sys2Proof/Laws/KeptRadio.lean ====
section
/-! SUPPORT. What the operations of Machine/Radio.lean keep. -/

-- One declaration at a time, so that few threads hold memory at once.
set_option Elab.async false

namespace Sys2Proof.Machine

set_option linter.unusedTactic false
set_option linter.unreachableTactic false

theorem Kept.agcMeasure {s t : State} {c : Nat} {power : Int} (h : Kept s t) : Kept s (State.agcMeasure t c power) := by
  unfold State.agcMeasure
  try dsimp only
  repeat' first
    | with_reducible assumption
    | with_reducible apply Kept.settleGain
    | with_reducible apply Kept.driveGain
    | with_reducible apply Kept.onCurSlot
    | with_reducible apply Kept.foldl
    | with_reducible apply Kept.foldlFst
    | with_reducible apply Kept.getD
    | with_reducible apply Kept.elim
    | split
    | intro _

theorem Kept.detect {s t : State} {c : Nat} {chip : Nat} {d : Nat} {m : Nat} {power : Int} {x : SlotRt} (h : Kept s t) : Kept s (State.detect t c chip d m power x) := by
  unfold State.detect
  try dsimp only
  repeat' first
    | with_reducible assumption
    | with_reducible apply Kept.logEvent
    | with_reducible apply Kept.radioCount
    | with_reducible apply Kept.onCarrier
    | with_reducible apply Kept.onCurSlot
    | with_reducible apply Kept.foldl
    | with_reducible apply Kept.foldlFst
    | with_reducible apply Kept.getD
    | with_reducible apply Kept.elim
    | split
    | intro _

theorem Kept.abandon {s t : State} {e : Nat} {seq : Word} (h : Kept s t) : Kept s (State.abandon t e seq) := by
  unfold State.abandon
  try dsimp only
  repeat' first
    | with_reducible assumption
    | with_reducible apply Kept.cutJob
    | with_reducible apply Kept.onDecoder
    | with_reducible apply Kept.foldl
    | with_reducible apply Kept.foldlFst
    | with_reducible apply Kept.getD
    | with_reducible apply Kept.elim
    | split
    | intro _

theorem Kept.sendFeedback {s t : State} {c : Nat} {n : Nat} (h : Kept s t) : Kept s (State.sendFeedback t c n) := by
  unfold State.sendFeedback
  try dsimp only
  repeat' first
    | with_reducible assumption
    | with_reducible apply Kept.onCarrier
    | with_reducible apply Kept.radioCount
    | with_reducible apply Kept.blank
    | with_reducible apply Kept.emit
    | with_reducible apply Kept.foldl
    | with_reducible apply Kept.foldlFst
    | with_reducible apply Kept.getD
    | with_reducible apply Kept.elim
    | split
    | intro _

end Sys2Proof.Machine
end

