-- ==== Sys2Proof/Laws/KeptDictOps.lean ====
section
/-! SUPPORT. What the operations of Machine/DictOps.lean keep. -/

-- One declaration at a time, so that few threads hold memory at once.
set_option Elab.async false

namespace Sys2Proof.Machine

set_option linter.unusedTactic false
set_option linter.unreachableTactic false

theorem Kept.onDwSlot {s t : State} {k : Nat} {f : DwSlot → DwSlot} (h : Kept s t) : Kept s (State.onDwSlot t k f) := by
  unfold State.onDwSlot
  try dsimp only
  repeat' first
    | with_reducible assumption
    | (with_reducible refine Kept.dictSame ?_ rfl)
    | with_reducible apply Kept.onDict
    | with_reducible apply Kept.foldl
    | with_reducible apply Kept.foldlFst
    | with_reducible apply Kept.getD
    | with_reducible apply Kept.elim
    | split
    | intro _

theorem Kept.slotDone {s t : State} {c : Client} {code : Nat} (h : Kept s t) : Kept s (State.slotDone t c code) := by
  unfold State.slotDone
  try dsimp only
  repeat' first
    | with_reducible assumption
    | with_reducible apply Kept.onDwSlot
    | with_reducible apply Kept.foldl
    | with_reducible apply Kept.foldlFst
    | with_reducible apply Kept.getD
    | with_reducible apply Kept.elim
    | split
    | intro _

theorem Kept.answer {s t : State} {q : Req} {code : Nat} {payload : Bytes} (h : Kept s t) : Kept s (State.answer t q code payload) := by
  unfold State.answer
  try dsimp only
  repeat' first
    | with_reducible assumption
    | (with_reducible refine Kept.dictSame ?_ rfl)
    | with_reducible apply Kept.onDwSlot
    | with_reducible apply Kept.slotDone
    | with_reducible apply Kept.onDict
    | with_reducible apply Kept.emit
    | with_reducible apply Kept.foldl
    | with_reducible apply Kept.foldlFst
    | with_reducible apply Kept.getD
    | with_reducible apply Kept.elim
    | split
    | intro _

theorem Kept.defer {s t : State} {q : Req} (h : Kept s t) : Kept s (State.defer t q) := by
  unfold State.defer
  try dsimp only
  repeat' first
    | with_reducible assumption
    | (with_reducible refine Kept.dictSame ?_ rfl)
    | with_reducible apply Kept.onDict
    | with_reducible apply Kept.onDwSlot
    | with_reducible apply Kept.foldl
    | with_reducible apply Kept.foldlFst
    | with_reducible apply Kept.getD
    | with_reducible apply Kept.elim
    | split
    | intro _

theorem Kept.finishTx {s t : State} {c : Client} {tid : BitVec 16} {code : Nat} (h : Kept s t) : Kept s (State.finishTx t c tid code) := by
  unfold State.finishTx
  try dsimp only
  repeat' first
    | with_reducible assumption
    | (with_reducible refine Kept.dictSame ?_ rfl)
    | with_reducible apply Kept.answer
    | with_reducible apply Kept.onDict
    | with_reducible apply Kept.foldl
    | with_reducible apply Kept.foldlFst
    | with_reducible apply Kept.getD
    | with_reducible apply Kept.elim
    | split
    | intro _

theorem Kept.onTransfer {s t : State} {c : Client} {tid : BitVec 16} {f : Transfer → Transfer} (h : Kept s t) : Kept s (State.onTransfer t c tid f) := by
  unfold State.onTransfer
  try dsimp only
  repeat' first
    | with_reducible assumption
    | (with_reducible refine Kept.dictSame ?_ rfl)
    | with_reducible apply Kept.onDict
    | with_reducible apply Kept.foldl
    | with_reducible apply Kept.foldlFst
    | with_reducible apply Kept.getD
    | with_reducible apply Kept.elim
    | split
    | intro _

theorem Kept.dropTransfer {s t : State} {c : Client} {tid : BitVec 16} (h : Kept s t) : Kept s (State.dropTransfer t c tid) := by
  unfold State.dropTransfer
  try dsimp only
  repeat' first
    | with_reducible assumption
    | (with_reducible refine Kept.dictSame ?_ rfl)
    | with_reducible apply Kept.onDict
    | with_reducible apply Kept.foldl
    | with_reducible apply Kept.foldlFst
    | with_reducible apply Kept.getD
    | with_reducible apply Kept.elim
    | split
    | intro _

theorem Kept.serverAbort {s t : State} {c : Client} {tid : BitVec 16} {code : Nat} (h : Kept s t) : Kept s (State.serverAbort t c tid code) := by
  unfold State.serverAbort
  try dsimp only
  repeat' first
    | with_reducible assumption
    | with_reducible apply Kept.dropTransfer
    | with_reducible apply Kept.slotDone
    | with_reducible apply Kept.emit
    | with_reducible apply Kept.foldl
    | with_reducible apply Kept.foldlFst
    | with_reducible apply Kept.getD
    | with_reducible apply Kept.elim
    | split
    | intro _

theorem Kept.kdpViolation {s t : State} {c : Client} {tid : BitVec 16} (h : Kept s t) : Kept s (State.kdpViolation t c tid) := by
  unfold State.kdpViolation
  try dsimp only
  repeat' first
    | with_reducible assumption
    | (with_reducible refine Kept.dictSame ?_ rfl)
    | with_reducible apply Kept.logEvent
    | with_reducible apply Kept.onDict
    | with_reducible apply Kept.foldl
    | with_reducible apply Kept.foldlFst
    | with_reducible apply Kept.getD
    | with_reducible apply Kept.elim
    | split
    | intro _

theorem Kept.windowViolation {s t : State} {c : Client} (h : Kept s t) : Kept s (State.windowViolation t c) := by
  unfold State.windowViolation
  try dsimp only
  repeat' first
    | with_reducible assumption
    | (with_reducible refine Kept.dictSame ?_ rfl)
    | with_reducible apply Kept.onDict
    | with_reducible apply Kept.kdpViolation
    | with_reducible apply Kept.foldl
    | with_reducible apply Kept.foldlFst
    | with_reducible apply Kept.getD
    | with_reducible apply Kept.elim
    | split
    | intro _

theorem Kept.expireStale {s t : State} {c : Client} (h : Kept s t) : Kept s (State.expireStale t c) := by
  unfold State.expireStale
  try dsimp only
  repeat' first
    | with_reducible assumption
    | (with_reducible refine Kept.dictSame ?_ rfl)
    | with_reducible apply Kept.onDict
    | with_reducible apply Kept.serverAbort
    | with_reducible apply Kept.foldl
    | with_reducible apply Kept.foldlFst
    | with_reducible apply Kept.getD
    | with_reducible apply Kept.elim
    | split
    | intro _

theorem Kept.admitReq {s t : State} {q : Req} (h : Kept s t) : Kept s (State.admitReq t q).1 := by
  unfold State.admitReq
  try dsimp only
  repeat' first
    | with_reducible assumption
    | (with_reducible refine Kept.dictSame ?_ rfl)
    | with_reducible apply Kept.expireStale
    | with_reducible apply Kept.answer
    | with_reducible apply Kept.onDict
    | with_reducible apply Kept.windowViolation
    | with_reducible apply Kept.emit
    | with_reducible apply Kept.kdpViolation
    | with_reducible apply Kept.serverAbort
    | with_reducible apply Kept.foldl
    | with_reducible apply Kept.foldlFst
    | with_reducible apply Kept.getD
    | with_reducible apply Kept.elim
    | split
    | intro _

theorem Kept.dropBall {s t : State} {r : Nat} (h : Kept s t) : Kept s (State.dropBall t r) := by
  unfold State.dropBall
  try dsimp only
  repeat' first
    | with_reducible assumption
    | (with_reducible refine Kept.dictSame ?_ rfl)
    | with_reducible apply Kept.onDict
    | with_reducible apply Kept.onPins
    | with_reducible apply Kept.foldl
    | with_reducible apply Kept.foldlFst
    | with_reducible apply Kept.getD
    | with_reducible apply Kept.elim
    | split
    | intro _

theorem Kept.logClaim {s t : State} {kind : Nat} {origin : Nat} {who : Nat} {tid : BitVec 16} {r : Nat} {old : Claim} {new : Claim} {code : Nat} {other : Nat} (h : Kept s t) : Kept s (State.logClaim t kind origin who tid r old new code other) := by
  unfold State.logClaim
  try dsimp only
  repeat' first
    | with_reducible assumption
    | with_reducible apply Kept.logChange
    | with_reducible apply Kept.foldl
    | with_reducible apply Kept.foldlFst
    | with_reducible apply Kept.getD
    | with_reducible apply Kept.elim
    | split
    | intro _

theorem Kept.enablePins {s t : State} {origin : Nat} {who : Nat} {tid : BitVec 16} {owner : Nat} {pins : List Nat} (h : Kept s t) : Kept s (State.enablePins t origin who tid owner pins) := by
  unfold State.enablePins
  try dsimp only
  repeat' first
    | with_reducible assumption
    | (with_reducible refine Kept.dictSame ?_ rfl)
    | with_reducible apply Kept.logClaim
    | with_reducible apply Kept.onDict
    | with_reducible apply Kept.foldl
    | with_reducible apply Kept.foldlFst
    | with_reducible apply Kept.getD
    | with_reducible apply Kept.elim
    | split
    | intro _

theorem Kept.disablePins {s t : State} {origin : Nat} {who : Nat} {tid : BitVec 16} {owner : Nat} {pins : List Nat} (h : Kept s t) : Kept s (State.disablePins t origin who tid owner pins) := by
  unfold State.disablePins
  try dsimp only
  repeat' first
    | with_reducible assumption
    | (with_reducible refine Kept.dictSame ?_ rfl)
    | with_reducible apply Kept.logClaim
    | with_reducible apply Kept.dropBall
    | with_reducible apply Kept.onDict
    | with_reducible apply Kept.foldl
    | with_reducible apply Kept.foldlFst
    | with_reducible apply Kept.getD
    | with_reducible apply Kept.elim
    | split
    | intro _

theorem Kept.applyClaim {s t : State} {origin : Nat} {r : Nat} {v : Bytes} (h : Kept s t) : Kept s (State.applyClaim t origin r v) := by
  unfold State.applyClaim
  try dsimp only
  repeat' first
    | with_reducible assumption
    | (with_reducible refine Kept.dictSame ?_ rfl)
    | with_reducible apply Kept.dropBall
    | with_reducible apply Kept.onDict
    | with_reducible apply Kept.foldl
    | with_reducible apply Kept.foldlFst
    | with_reducible apply Kept.getD
    | with_reducible apply Kept.elim
    | split
    | intro _

theorem Kept.onTimer {s t : State} {n : Nat} {f : Timer → Timer} (h : Kept s t) : Kept s (State.onTimer t n f) := by
  unfold State.onTimer
  try dsimp only
  repeat' first
    | with_reducible assumption
    | (with_reducible refine Kept.dictSame ?_ rfl)
    | with_reducible apply Kept.onDict
    | with_reducible apply Kept.foldl
    | with_reducible apply Kept.foldlFst
    | with_reducible apply Kept.getD
    | with_reducible apply Kept.elim
    | split
    | intro _

theorem Kept.applyTimer {s t : State} {n : Nat} {v : Bytes} (h : Kept s t) : Kept s (State.applyTimer t n v) := by
  unfold State.applyTimer
  try dsimp only
  repeat' first
    | with_reducible assumption
    | with_reducible apply Kept.dropBall
    | with_reducible apply Kept.onTimer
    | with_reducible apply Kept.foldl
    | with_reducible apply Kept.foldlFst
    | with_reducible apply Kept.getD
    | with_reducible apply Kept.elim
    | split
    | intro _

theorem Kept.passEpoch {s t : State} (h : Kept s t) : Kept s (State.passEpoch t) := by
  unfold State.passEpoch
  try dsimp only
  repeat' first
    | with_reducible assumption
    | with_reducible apply Kept.logChange
    | with_reducible apply Kept.writeAct
    | with_reducible apply Kept.foldl
    | with_reducible apply Kept.foldlFst
    | with_reducible apply Kept.getD
    | with_reducible apply Kept.elim
    | split
    | intro _

theorem Kept.applyEpoch {s t : State} {n : Nat} (h : Kept s t) : Kept s (State.applyEpoch t n) := by
  unfold State.applyEpoch
  try dsimp only
  repeat' first
    | with_reducible assumption
    | with_reducible apply Kept.writeAct
    | with_reducible apply Kept.passEpoch
    | with_reducible apply Kept.foldl
    | with_reducible apply Kept.foldlFst
    | with_reducible apply Kept.getD
    | with_reducible apply Kept.elim
    | split
    | intro _

theorem Kept.openFlash {s t : State} {key : Nat} (h : Kept s t) : Kept s (State.openFlash t key) := by
  unfold State.openFlash
  try dsimp only
  repeat' first
    | with_reducible assumption
    | exact Flash.OtpLe.slot
    | exact ⟨le_refl _, ⟨rfl, rfl, rfl, rfl⟩, ⟨rfl, rfl, rfl⟩⟩
    | with_reducible apply Kept.onFlash
    | with_reducible apply Kept.writeAct
    | with_reducible apply Kept.foldl
    | with_reducible apply Kept.foldlFst
    | with_reducible apply Kept.getD
    | with_reducible apply Kept.elim
    | split
    | intro _

theorem Kept.programFlash {s t : State} {key : Nat} {off : Nat} {bs : Bytes} (h : Kept s t) : Kept s (State.programFlash t key off bs) := by
  unfold State.programFlash
  try dsimp only
  repeat' first
    | with_reducible assumption
    | exact Flash.OtpLe.slot
    | exact ⟨le_refl _, ⟨rfl, rfl, rfl, rfl⟩, ⟨rfl, rfl, rfl⟩⟩
    | with_reducible apply Kept.onFlash
    | with_reducible apply Kept.foldl
    | with_reducible apply Kept.foldlFst
    | with_reducible apply Kept.getD
    | with_reducible apply Kept.elim
    | split
    | intro _

theorem Kept.commitImage {s t : State} {key : Nat} {v : Bytes} (h : Kept s t) : Kept s (State.commitImage t key v) := by
  unfold State.commitImage
  try dsimp only
  repeat' first
    | with_reducible assumption
    | with_reducible apply Kept.writeAct
    | with_reducible apply Kept.foldl
    | with_reducible apply Kept.foldlFst
    | with_reducible apply Kept.getD
    | with_reducible apply Kept.elim
    | split
    | intro _

theorem Kept.actEffect {s t : State} {origin : Nat} {who : Nat} {e : Entry} {v : Bytes} (h : Kept s t) : Kept s (State.actEffect t origin who e v) := by
  unfold State.actEffect
  try dsimp only
  repeat' first
    | with_reducible assumption
    | with_reducible apply Kept.clearRecord
    | with_reducible apply Kept.onBoot
    | with_reducible apply Kept.onSec
    | with_reducible apply Kept.foldl
    | with_reducible apply Kept.foldlFst
    | with_reducible apply Kept.getD
    | with_reducible apply Kept.elim
    | split
    | intro _

theorem Kept.applyCarriers {s t : State} {origin : Nat} {who : Nat} {tid : BitVec 16} {n : Nat} (h : Kept s t) : Kept s (State.applyCarriers t origin who tid n) := by
  unfold State.applyCarriers
  try dsimp only
  repeat' first
    | with_reducible assumption
    | with_reducible apply Kept.enablePins
    | with_reducible apply Kept.switchCarriers
    | with_reducible apply Kept.disablePins
    | with_reducible apply Kept.foldl
    | with_reducible apply Kept.foldlFst
    | with_reducible apply Kept.getD
    | with_reducible apply Kept.elim
    | split
    | intro _

theorem Kept.applyGptp {s t : State} {origin : Nat} {who : Nat} {tid : BitVec 16} {v : Bytes} (h : Kept s t) : Kept s (State.applyGptp t origin who tid v) := by
  unfold State.applyGptp
  try dsimp only
  repeat' first
    | with_reducible assumption
    | (with_reducible refine Kept.tbSame ?_ rfl)
    | with_reducible apply Kept.onTb
    | with_reducible apply Kept.setEntry
    | with_reducible apply Kept.enablePins
    | with_reducible apply Kept.disablePins
    | with_reducible apply Kept.foldl
    | with_reducible apply Kept.foldlFst
    | with_reducible apply Kept.getD
    | with_reducible apply Kept.elim
    | split
    | intro _

theorem Kept.commitA {s t : State} {origin : Nat} {who : Nat} {tid : BitVec 16} {first : Nat} {i : Nat} {v : Bytes} {u : State} (h : Kept s t) (e : State.commitA t origin who tid first i v = some u) : Kept s u := by
  unfold State.commitA at e
  try dsimp only at e
  repeat' split at e
  all_goals first | (cases e; done) | (obtain ⟨_, _, rfl⟩ := Option.map_eq_some_iff.1 e) | (obtain rfl := Option.some.inj e)
  all_goals repeat' first
    | with_reducible assumption
    | (with_reducible refine Kept.pwrSame ?_ rfl rfl rfl)
    | (with_reducible refine Kept.fcSame ?_ rfl rfl rfl)
    | with_reducible apply Kept.applyGptp
    | with_reducible apply Kept.onSched
    | with_reducible apply Kept.setEntry
    | with_reducible apply Kept.assembleStore
    | with_reducible apply Kept.applyCarriers
    | with_reducible apply Kept.spiXfer
    | with_reducible apply Kept.submitBank
    | with_reducible apply Kept.revertBank
    | with_reducible apply Kept.kick
    | with_reducible apply Kept.onFc
    | with_reducible apply Kept.onPwr
    | with_reducible apply Kept.foldl
    | with_reducible apply Kept.foldlFst
    | with_reducible apply Kept.getD
    | with_reducible apply Kept.elim
    | split
    | intro _

theorem Kept.commitB {s t : State} {c : Client} {origin : Nat} {tid : BitVec 16} {first : Nat} {i : Nat} {key : Nat} {v : Bytes} {u : State} (h : Kept s t) (e : State.commitB t c origin tid first i key v = some u) : Kept s u := by
  unfold State.commitB at e
  try dsimp only at e
  repeat' split at e
  all_goals first | (cases e; done) | (obtain ⟨_, _, rfl⟩ := Option.map_eq_some_iff.1 e) | (obtain rfl := Option.some.inj e)
  all_goals repeat' first
    | with_reducible assumption
    | (with_reducible refine Kept.dictSame ?_ rfl)
    | with_reducible apply Kept.onDict
    | with_reducible apply Kept.applyClaim
    | with_reducible apply Kept.applyTimer
    | with_reducible apply Kept.setEntry
    | with_reducible apply Kept.applyEpoch
    | with_reducible apply Kept.commitImage
    | with_reducible apply Kept.onSec
    | with_reducible apply Kept.onBoot
    | with_reducible apply Kept.foldl
    | with_reducible apply Kept.foldlFst
    | with_reducible apply Kept.getD
    | with_reducible apply Kept.elim
    | split
    | intro _

theorem Kept.commitValue {s t : State} {c : Client} {origin : Nat} {tid : BitVec 16} {key : Nat} {e : Entry} {v : Bytes} (h : Kept s t) : Kept s (State.commitValue t c origin tid key e v) := by
  unfold State.commitValue
  cases ha : t.commitA origin c.logWho tid e.first (e.pos key) v with
  | some u => exact h.commitA ha
  | none =>
    cases hb : t.commitB c origin tid e.first (e.pos key) key v with
    | some u => exact h.commitB hb
    | none => exact h.setEntry

theorem Kept.logWrite {s t : State} {q : Req} {origin : Nat} {old : Bytes} {v : Bytes} {d : Verdict} (h : Kept s t) : Kept s (State.logWrite t q origin old v d) := by
  unfold State.logWrite
  try dsimp only
  repeat' first
    | with_reducible assumption
    | with_reducible apply Kept.logChange
    | with_reducible apply Kept.foldl
    | with_reducible apply Kept.foldlFst
    | with_reducible apply Kept.getD
    | with_reducible apply Kept.elim
    | split
    | intro _

theorem Kept.logRefusedPin {s t : State} {q : Req} {origin : Nat} {e : Entry} {v : Bytes} {d : Verdict} (h : Kept s t) : Kept s (State.logRefusedPin t q origin e v d) := by
  unfold State.logRefusedPin
  try dsimp only
  repeat' first
    | with_reducible assumption
    | with_reducible apply Kept.logClaim
    | with_reducible apply Kept.foldl
    | with_reducible apply Kept.foldlFst
    | with_reducible apply Kept.getD
    | with_reducible apply Kept.elim
    | split
    | intro _

theorem Kept.logTable {s t : State} {e : Entry} {v : Bytes} {code : Nat} (h : Kept s t) : Kept s (State.logTable t e v code) := by
  unfold State.logTable
  try dsimp only
  repeat' first
    | with_reducible assumption
    | with_reducible apply Kept.logEvent
    | with_reducible apply Kept.foldl
    | with_reducible apply Kept.foldlFst
    | with_reducible apply Kept.getD
    | with_reducible apply Kept.elim
    | split
    | intro _

theorem Kept.performWrite {s t : State} {q : Req} {origin : Nat} {v : Bytes} {opened : Bool} (h : Kept s t) : Kept s (State.performWrite t q origin v opened).1 := by
  unfold State.performWrite
  try dsimp only
  repeat' first
    | with_reducible assumption
    | with_reducible apply Kept.logWrite
    | with_reducible apply Kept.logTable
    | with_reducible apply Kept.logRefusedPin
    | with_reducible apply Kept.actEffect
    | with_reducible apply Kept.commitValue
    | with_reducible apply Kept.foldl
    | with_reducible apply Kept.foldlFst
    | with_reducible apply Kept.getD
    | with_reducible apply Kept.elim
    | split
    | intro _

theorem Kept.clientWrite {s t : State} {q : Req} {v : Bytes} (h : Kept s t) : Kept s (State.clientWrite t q v).1 := by
  unfold State.clientWrite
  try dsimp only
  repeat' first
    | with_reducible assumption
    | with_reducible apply Kept.performWrite
    | with_reducible apply Kept.programFlash
    | with_reducible apply Kept.openFlash
    | with_reducible apply Kept.foldl
    | with_reducible apply Kept.foldlFst
    | with_reducible apply Kept.getD
    | with_reducible apply Kept.elim
    | split
    | intro _

theorem Kept.afterResponse {s t : State} {q : Req} {code : Nat} {v : Bytes} (h : Kept s t) : Kept s (State.afterResponse t q code v) := by
  unfold State.afterResponse
  try dsimp only
  repeat' first
    | with_reducible assumption
    | with_reducible apply Kept.warmReset
    | with_reducible apply Kept.foldl
    | with_reducible apply Kept.foldlFst
    | with_reducible apply Kept.getD
    | with_reducible apply Kept.elim
    | split
    | intro _

theorem Kept.write {s t : State} {q : Req} {v : Bytes} (h : Kept s t) : Kept s (State.write t q v) := by
  unfold State.write
  try dsimp only
  repeat' first
    | with_reducible assumption
    | with_reducible apply Kept.admitReq
    | with_reducible apply Kept.clientWrite
    | with_reducible apply Kept.afterResponse
    | with_reducible apply Kept.defer
    | with_reducible apply Kept.answer
    | with_reducible apply Kept.foldl
    | with_reducible apply Kept.foldlFst
    | with_reducible apply Kept.getD
    | with_reducible apply Kept.elim
    | split
    | intro _

theorem Kept.challenge {s t : State} (h : Kept s t) : Kept s (State.challenge t).1 := by
  unfold State.challenge
  try dsimp only
  repeat' first
    | with_reducible assumption
    | with_reducible apply Kept.onSec
    | with_reducible apply Kept.fresh1
    | with_reducible apply Kept.foldl
    | with_reducible apply Kept.foldlFst
    | with_reducible apply Kept.getD
    | with_reducible apply Kept.elim
    | split
    | intro _

theorem Kept.readValue {s t : State} {key : Nat} {e : Entry} (h : Kept s t) : Kept s (State.readValue t key e).1 := by
  unfold State.readValue
  try dsimp only
  repeat' first
    | with_reducible assumption
    | with_reducible apply Kept.challenge
    | with_reducible apply Kept.fresh1
    | with_reducible apply Kept.foldl
    | with_reducible apply Kept.foldlFst
    | with_reducible apply Kept.getD
    | with_reducible apply Kept.elim
    | split
    | intro _

theorem Kept.read {s t : State} {q : Req} (h : Kept s t) : Kept s (State.read t q) := by
  unfold State.read
  try dsimp only
  repeat' first
    | with_reducible assumption
    | with_reducible apply Kept.admitReq
    | with_reducible apply Kept.answer
    | with_reducible apply Kept.readValue
    | with_reducible apply Kept.foldl
    | with_reducible apply Kept.foldlFst
    | with_reducible apply Kept.getD
    | with_reducible apply Kept.elim
    | split
    | intro _

theorem Kept.describe {s t : State} {q : Req} (h : Kept s t) : Kept s (State.describe t q) := by
  unfold State.describe
  try dsimp only
  repeat' first
    | with_reducible assumption
    | with_reducible apply Kept.admitReq
    | with_reducible apply Kept.answer
    | with_reducible apply Kept.foldl
    | with_reducible apply Kept.foldlFst
    | with_reducible apply Kept.getD
    | with_reducible apply Kept.elim
    | split
    | intro _

theorem Kept.openTransfer {s t : State} {q : Req} {t1 : Transfer} (h : Kept s t) : Kept s (State.openTransfer t q t1) := by
  unfold State.openTransfer
  try dsimp only
  repeat' first
    | with_reducible assumption
    | (with_reducible refine Kept.dictSame ?_ rfl)
    | with_reducible apply Kept.onDict
    | with_reducible apply Kept.slotDone
    | with_reducible apply Kept.emit
    | with_reducible apply Kept.foldl
    | with_reducible apply Kept.foldlFst
    | with_reducible apply Kept.getD
    | with_reducible apply Kept.elim
    | split
    | intro _

theorem Kept.openWrite {s t : State} {q : Req} {length : Nat} (h : Kept s t) : Kept s (State.openWrite t q length) := by
  unfold State.openWrite
  try dsimp only
  repeat' first
    | with_reducible assumption
    | with_reducible apply Kept.admitReq
    | with_reducible apply Kept.answer
    | with_reducible apply Kept.onDwSlot
    | with_reducible apply Kept.openTransfer
    | with_reducible apply Kept.openFlash
    | with_reducible apply Kept.foldl
    | with_reducible apply Kept.foldlFst
    | with_reducible apply Kept.getD
    | with_reducible apply Kept.elim
    | split
    | intro _

theorem Kept.sendSegs {s t : State} {f : Nat} {c : Client} {tid : BitVec 16} (h : Kept s t) :
    Kept s (State.sendSegs f t c tid) := by
  induction f generalizing t with
  | zero => exact h
  | succ f ih =>
    unfold State.sendSegs
    split
    · exact h
    · split
      · exact ih h.emit.onTransfer
      · exact h

theorem Kept.openRead {s t : State} {q : Req} {start : Nat} (h : Kept s t) : Kept s (State.openRead t q start) := by
  unfold State.openRead
  try dsimp only
  repeat' first
    | with_reducible assumption
    | with_reducible apply Kept.admitReq
    | with_reducible apply Kept.answer
    | with_reducible apply Kept.openTransfer
    | with_reducible apply Kept.onDwSlot
    | with_reducible apply Kept.sendSegs
    | with_reducible apply Kept.foldl
    | with_reducible apply Kept.foldlFst
    | with_reducible apply Kept.getD
    | with_reducible apply Kept.elim
    | split
    | intro _

theorem Kept.heardTransfer {s t : State} {t1 : Transfer} (h : Kept s t) : Kept s (State.heardTransfer t t1) := by
  unfold State.heardTransfer
  try dsimp only
  repeat' first
    | with_reducible assumption
    | (with_reducible refine Kept.dictSame ?_ rfl)
    | with_reducible apply Kept.onTransfer
    | with_reducible apply Kept.onDict
    | with_reducible apply Kept.foldl
    | with_reducible apply Kept.foldlFst
    | with_reducible apply Kept.getD
    | with_reducible apply Kept.elim
    | split
    | intro _

theorem Kept.breakTransfer {s t : State} {c : Client} {tid : BitVec 16} {code : Nat} (h : Kept s t) : Kept s (State.breakTransfer t c tid code) := by
  unfold State.breakTransfer
  try dsimp only
  repeat' first
    | with_reducible assumption
    | with_reducible apply Kept.serverAbort
    | with_reducible apply Kept.kdpViolation
    | with_reducible apply Kept.foldl
    | with_reducible apply Kept.foldlFst
    | with_reducible apply Kept.getD
    | with_reducible apply Kept.elim
    | split
    | intro _

theorem Kept.takeSeg {s t : State} {q : Req} {t1 : Transfer} {num : Nat} {v : Bytes} (h : Kept s t) : Kept s (State.takeSeg t q t1 num v) := by
  unfold State.takeSeg
  try dsimp only
  repeat' first
    | with_reducible assumption
    | with_reducible apply Kept.breakTransfer
    | with_reducible apply Kept.onTransfer
    | with_reducible apply Kept.emit
    | with_reducible apply Kept.foldl
    | with_reducible apply Kept.foldlFst
    | with_reducible apply Kept.getD
    | with_reducible apply Kept.elim
    | split
    | intro _

theorem Kept.seg {s t : State} {q : Req} {num : Nat} {v : Bytes} (h : Kept s t) : Kept s (State.seg t q num v) := by
  unfold State.seg
  try dsimp only
  repeat' first
    | with_reducible assumption
    | with_reducible apply Kept.expireStale
    | with_reducible apply Kept.emit
    | with_reducible apply Kept.kdpViolation
    | with_reducible apply Kept.heardTransfer
    | with_reducible apply Kept.breakTransfer
    | with_reducible apply Kept.takeSeg
    | with_reducible apply Kept.sendSegs
    | with_reducible apply Kept.onTransfer
    | with_reducible apply Kept.foldl
    | with_reducible apply Kept.foldlFst
    | with_reducible apply Kept.getD
    | with_reducible apply Kept.elim
    | split
    | intro _

theorem Kept.endWrite {s t : State} {q : Req} {t1 : Transfer} {crc : Word} (h : Kept s t) : Kept s (State.endWrite t q t1 crc) := by
  unfold State.endWrite
  try dsimp only
  repeat' first
    | with_reducible assumption
    | with_reducible apply Kept.dropTransfer
    | with_reducible apply Kept.answer
    | with_reducible apply Kept.logWrite
    | with_reducible apply Kept.performWrite
    | with_reducible apply Kept.foldl
    | with_reducible apply Kept.foldlFst
    | with_reducible apply Kept.getD
    | with_reducible apply Kept.elim
    | split
    | intro _

theorem Kept.endTransfer {s t : State} {q : Req} {crc : Word} (h : Kept s t) : Kept s (State.endTransfer t q crc) := by
  unfold State.endTransfer
  try dsimp only
  repeat' first
    | with_reducible assumption
    | (with_reducible refine Kept.dictSame ?_ rfl)
    | with_reducible apply Kept.expireStale
    | with_reducible apply Kept.onDict
    | with_reducible apply Kept.emit
    | with_reducible apply Kept.slotDone
    | with_reducible apply Kept.windowViolation
    | with_reducible apply Kept.kdpViolation
    | with_reducible apply Kept.heardTransfer
    | with_reducible apply Kept.answer
    | with_reducible apply Kept.dropTransfer
    | with_reducible apply Kept.endWrite
    | with_reducible apply Kept.onTransfer
    | with_reducible apply Kept.foldl
    | with_reducible apply Kept.foldlFst
    | with_reducible apply Kept.getD
    | with_reducible apply Kept.elim
    | split
    | intro _

theorem Kept.abortTransfer {s t : State} {q : Req} (h : Kept s t) : Kept s (State.abortTransfer t q) := by
  unfold State.abortTransfer
  try dsimp only
  repeat' first
    | with_reducible assumption
    | with_reducible apply Kept.expireStale
    | with_reducible apply Kept.slotDone
    | with_reducible apply Kept.serverAbort
    | with_reducible apply Kept.foldl
    | with_reducible apply Kept.foldlFst
    | with_reducible apply Kept.getD
    | with_reducible apply Kept.elim
    | split
    | intro _

theorem Kept.flashDone {s t : State} {ok : Bool} (h : Kept s t) : Kept s (State.flashDone t ok) := by
  unfold State.flashDone
  try dsimp only
  repeat' first
    | with_reducible assumption
    | with_reducible apply Kept.emit
    | with_reducible apply Kept.onTransfer
    | with_reducible apply Kept.programFlash
    | with_reducible apply Kept.endWrite
    | with_reducible apply Kept.foldl
    | with_reducible apply Kept.foldlFst
    | with_reducible apply Kept.getD
    | with_reducible apply Kept.elim
    | split
    | intro _

theorem Kept.wordMisuse {s t : State} {k : Nat} {write : Bool} (h : Kept s t) : Kept s (State.wordMisuse t k write) := by
  unfold State.wordMisuse
  try dsimp only
  repeat' first
    | with_reducible assumption
    | with_reducible apply Kept.windowViolation
    | with_reducible apply Kept.slotDone
    | with_reducible apply Kept.dropTransfer
    | with_reducible apply Kept.emit
    | with_reducible apply Kept.foldl
    | with_reducible apply Kept.foldlFst
    | with_reducible apply Kept.getD
    | with_reducible apply Kept.elim
    | split
    | intro _

theorem Kept.dwWord {s t : State} {k : Nat} {write : Option Word64} (h : Kept s t) : Kept s (State.dwWord t k write) := by
  unfold State.dwWord
  try dsimp only
  repeat' first
    | with_reducible assumption
    | with_reducible apply Kept.expireStale
    | with_reducible apply Kept.wordMisuse
    | with_reducible apply Kept.heardTransfer
    | with_reducible apply Kept.onDwSlot
    | with_reducible apply Kept.onTransfer
    | with_reducible apply Kept.programFlash
    | with_reducible apply Kept.emit
    | with_reducible apply Kept.foldl
    | with_reducible apply Kept.foldlFst
    | with_reducible apply Kept.getD
    | with_reducible apply Kept.elim
    | split
    | intro _

theorem Kept.overlong {s t : State} {q : Req} (h : Kept s t) : Kept s (State.overlong t q) := by
  unfold State.overlong
  try dsimp only
  repeat' first
    | with_reducible assumption
    | with_reducible apply Kept.admitReq
    | with_reducible apply Kept.answer
    | with_reducible apply Kept.logWrite
    | with_reducible apply Kept.foldl
    | with_reducible apply Kept.foldlFst
    | with_reducible apply Kept.getD
    | with_reducible apply Kept.elim
    | split
    | intro _

theorem Kept.windowCommand {s t : State} {k : Nat} {cmd : Word64} (h : Kept s t) : Kept s (State.windowCommand t k cmd) := by
  unfold State.windowCommand
  try dsimp only
  repeat' first
    | with_reducible assumption
    | with_reducible apply Kept.windowViolation
    | with_reducible apply Kept.onDwSlot
    | with_reducible apply Kept.read
    | with_reducible apply Kept.overlong
    | with_reducible apply Kept.write
    | with_reducible apply Kept.openRead
    | with_reducible apply Kept.openWrite
    | with_reducible apply Kept.endTransfer
    | with_reducible apply Kept.describe
    | with_reducible apply Kept.abortTransfer
    | with_reducible apply Kept.slotDone
    | with_reducible apply Kept.foldl
    | with_reducible apply Kept.foldlFst
    | with_reducible apply Kept.getD
    | with_reducible apply Kept.elim
    | split
    | intro _

end Sys2Proof.Machine
end

