-- ==== Sys2Proof/Laws/KeptDictionary.lean ====
section
/-! SUPPORT. What the operations of Machine/Dictionary.lean keep. -/

-- One declaration at a time, so that few threads hold memory at once.
set_option Elab.async false

namespace Sys2Proof.Machine

set_option linter.unusedTactic false
set_option linter.unreachableTactic false

theorem Kept.passOn {s t : State} {q : Req} (h : Kept s t) : Kept s (State.passOn t q) := by
  unfold State.passOn
  try dsimp only
  repeat' first
    | with_reducible assumption
    | with_reducible apply Kept.emit
    | with_reducible apply Kept.foldl
    | with_reducible apply Kept.foldlFst
    | with_reducible apply Kept.getD
    | with_reducible apply Kept.elim
    | split
    | intro _

theorem Kept.peerMarginal {s t : State} {node : Nat} (h : Kept s t) : Kept s (State.peerMarginal t node) := by
  unfold State.peerMarginal
  try dsimp only
  repeat' first
    | with_reducible assumption
    | (with_reducible refine Kept.dictSame ?_ rfl)
    | with_reducible apply Kept.onDict
    | with_reducible apply Kept.foldl
    | with_reducible apply Kept.foldlFst
    | with_reducible apply Kept.getD
    | with_reducible apply Kept.elim
    | split
    | intro _

theorem Kept.peerDone {s t : State} {node : Nat} (h : Kept s t) : Kept s (State.peerDone t node) := by
  unfold State.peerDone
  try dsimp only
  repeat' first
    | with_reducible assumption
    | (with_reducible refine Kept.dictSame ?_ rfl)
    | with_reducible apply Kept.onDict
    | with_reducible apply Kept.foldl
    | with_reducible apply Kept.foldlFst
    | with_reducible apply Kept.getD
    | with_reducible apply Kept.elim
    | split
    | intro _

theorem Kept.driveMfio {s t : State} {k : Nat} {b : Bool} (h : Kept s t) : Kept s (State.driveMfio t k b) := by
  unfold State.driveMfio
  try dsimp only
  repeat' first
    | with_reducible assumption
    | with_reducible apply Kept.onPins
    | with_reducible apply Kept.foldl
    | with_reducible apply Kept.foldlFst
    | with_reducible apply Kept.getD
    | with_reducible apply Kept.elim
    | split
    | intro _

end Sys2Proof.Machine
end

