-- ==== Sys2Proof/Laws/KeptSecurity.lean ====
section
/-! SUPPORT. What the operations of Machine/Security.lean keep. -/

-- One declaration at a time, so that few threads hold memory at once.
set_option Elab.async false

namespace Sys2Proof.Machine

set_option linter.unusedTactic false
set_option linter.unreachableTactic false

theorem Kept.tapSelect {s t : State} {i : TapInstr} (h : Kept s t) : Kept s (State.tapSelect t i) := by
  unfold State.tapSelect
  try dsimp only
  repeat' first
    | with_reducible assumption
    | with_reducible apply Kept.onSec
    | with_reducible apply Kept.foldl
    | with_reducible apply Kept.foldlFst
    | with_reducible apply Kept.getD
    | with_reducible apply Kept.elim
    | split
    | intro _

theorem Kept.writeResult {s t : State} {job : Bytes} (h : Kept s t) : Kept s (State.writeResult t job) := by
  unfold State.writeResult
  try dsimp only
  repeat' first
    | with_reducible assumption
    | with_reducible apply Kept.engineWrite
    | with_reducible apply Kept.foldl
    | with_reducible apply Kept.foldlFst
    | with_reducible apply Kept.getD
    | with_reducible apply Kept.elim
    | split
    | intro _

end Sys2Proof.Machine
end

