-- ==== Sys2Proof/Laws/KeptTransitionOps.lean ====
section
/-! SUPPORT. What the operations of Machine/TransitionOps.lean keep. -/

-- One declaration at a time, so that few threads hold memory at once.
set_option Elab.async false

namespace Sys2Proof.Machine

set_option linter.unusedTactic false
set_option linter.unreachableTactic false

theorem Kept.storedWrite {s t : State} {q : Req} {v : Bytes} (h : Kept s t) : Kept s (State.storedWrite t q v) := by
  unfold State.storedWrite
  try dsimp only
  repeat' first
    | with_reducible assumption
    | with_reducible apply Kept.performWrite
    | with_reducible apply Kept.foldl
    | with_reducible apply Kept.foldlFst
    | with_reducible apply Kept.getD
    | with_reducible apply Kept.elim
    | split
    | intro _

theorem Kept.applyItem {s t : State} {b : Bool} {item : Bytes} {claim : Bytes} (h : Kept s t) : Kept s (State.applyItem t b item claim) := by
  unfold State.applyItem
  try dsimp only
  repeat' first
    | with_reducible assumption
    | with_reducible apply Kept.storedWrite
    | with_reducible apply Kept.foldl
    | with_reducible apply Kept.foldlFst
    | with_reducible apply Kept.getD
    | with_reducible apply Kept.elim
    | split
    | intro _

theorem Kept.applyStored {s t : State} {f : Nat} (h : Kept s t) : Kept s (State.applyStored f t) := by
  induction f generalizing t with
  | zero => exact h
  | succ f ih =>
    unfold State.applyStored
    split
    · dsimp only
      split
      · exact h.onBoot
      · split
        · exact h
        · exact ih h.applyItem.onBoot
    · exact h

theorem Kept.goOnStored {s t : State} (h : Kept s t) : Kept s (State.goOnStored t) := by
  unfold State.goOnStored
  try dsimp only
  repeat' first
    | with_reducible assumption
    | with_reducible apply Kept.applyStored
    | with_reducible apply Kept.foldl
    | with_reducible apply Kept.foldlFst
    | with_reducible apply Kept.getD
    | with_reducible apply Kept.elim
    | split
    | intro _

theorem Kept.enterConfig {s t : State} (h : Kept s t) : Kept s (State.enterConfig t) := by
  unfold State.enterConfig
  try dsimp only
  repeat' first
    | with_reducible assumption
    | with_reducible apply Kept.onBoot
    | with_reducible apply Kept.setDevState
    | with_reducible apply Kept.goOnStored
    | with_reducible apply Kept.setEntry
    | with_reducible apply Kept.foldl
    | with_reducible apply Kept.foldlFst
    | with_reducible apply Kept.getD
    | with_reducible apply Kept.elim
    | split
    | intro _

theorem Kept.placeSection {s t : State} {b : Bool} {i : Nat} (h : Kept s t) : Kept s (State.placeSection t b i) := by
  unfold State.placeSection
  try dsimp only
  repeat' first
    | with_reducible assumption
    | with_reducible apply Kept.engineWrite
    | with_reducible apply Kept.setEntry
    | with_reducible apply Kept.commitValue
    | with_reducible apply Kept.foldl
    | with_reducible apply Kept.foldlFst
    | with_reducible apply Kept.getD
    | with_reducible apply Kept.elim
    | split
    | intro _

theorem Kept.useSection {s t : State} {mr : Nat} {b : Bool} {i : Nat} (h : Kept s t) : Kept s (State.useSection t mr b i) := by
  unfold State.useSection
  try dsimp only
  repeat' first
    | with_reducible assumption
    | with_reducible apply Kept.placeSection
    | with_reducible apply Kept.onBoot
    | with_reducible apply Kept.foldl
    | with_reducible apply Kept.foldlFst
    | with_reducible apply Kept.getD
    | with_reducible apply Kept.elim
    | split
    | intro _

theorem Kept.markBad {s t : State} {b : Bool} (h : Kept s t) : Kept s (State.markBad t b) := by
  unfold State.markBad
  try dsimp only
  repeat' first
    | with_reducible assumption
    | with_reducible apply Kept.writeAct
    | with_reducible apply Kept.foldl
    | with_reducible apply Kept.foldlFst
    | with_reducible apply Kept.getD
    | with_reducible apply Kept.elim
    | split
    | intro _

theorem Kept.remapFailed {s t : State} {n : Nat} (h : Kept s t) : Kept s (State.remapFailed t n).1 := by
  unfold State.remapFailed
  try dsimp only
  repeat' first
    | with_reducible assumption
    | with_reducible apply Kept.logEvent
    | with_reducible apply Kept.onSched
    | with_reducible apply Kept.foldl
    | with_reducible apply Kept.foldlFst
    | with_reducible apply Kept.getD
    | with_reducible apply Kept.elim
    | split
    | intro _

theorem Kept.remapAllFailed {s t : State} (h : Kept s t) : Kept s (State.remapAllFailed t).1 := by
  unfold State.remapAllFailed
  try dsimp only
  repeat' first
    | with_reducible assumption
    | with_reducible apply Kept.remapFailed
    | with_reducible apply Kept.withdrawCore
    | with_reducible apply Kept.foldl
    | with_reducible apply Kept.foldlFst
    | with_reducible apply Kept.getD
    | with_reducible apply Kept.elim
    | split
    | intro _

theorem Kept.loadShutters {s t : State} (h : Kept s t) : Kept s (State.loadShutters t) := by
  unfold State.loadShutters
  try dsimp only
  repeat' first
    | with_reducible assumption
    | (with_reducible refine Kept.memSame ?_ rfl rfl)
    | with_reducible apply Kept.onMem
    | with_reducible apply Kept.foldl
    | with_reducible apply Kept.foldlFst
    | with_reducible apply Kept.getD
    | with_reducible apply Kept.elim
    | split
    | intro _

theorem Kept.loadGolden {s t : State} (h : Kept s t) : Kept s (State.loadGolden t) := by
  unfold State.loadGolden
  try dsimp only
  repeat' first
    | with_reducible assumption
    | with_reducible apply Kept.onIsl
    | with_reducible apply Kept.pondWrite
    | with_reducible apply Kept.foldl
    | with_reducible apply Kept.foldlFst
    | with_reducible apply Kept.getD
    | with_reducible apply Kept.elim
    | split
    | intro _

theorem Kept.loadPinned {s t : State} (h : Kept s t) : Kept s (State.loadPinned t) := by
  unfold State.loadPinned
  try dsimp only
  repeat' first
    | with_reducible assumption
    | with_reducible apply Kept.onSched
    | with_reducible apply Kept.modelLoaded
    | with_reducible apply Kept.foldl
    | with_reducible apply Kept.foldlFst
    | with_reducible apply Kept.getD
    | with_reducible apply Kept.elim
    | split
    | intro _

theorem Kept.formGroups {s t : State} (h : Kept s t) : Kept s (State.formGroups t) := by
  unfold State.formGroups
  try dsimp only
  repeat' first
    | with_reducible assumption
    | with_reducible apply Kept.onGroup
    | with_reducible apply Kept.formGroup
    | with_reducible apply Kept.foldl
    | with_reducible apply Kept.foldlFst
    | with_reducible apply Kept.getD
    | with_reducible apply Kept.elim
    | split
    | intro _

theorem Kept.clearStreams {s t : State} (h : Kept s t) : Kept s (State.clearStreams t) := by
  exact h.trans ⟨rfl, List.prefix_rfl, List.prefix_rfl, id, id, id, id, id, fun x => by simpa [State.clearStreams] using x, .rfl'⟩

theorem Kept.enterRun {s t : State} (h : Kept s t) : Kept s (State.enterRun t) := by
  unfold State.enterRun
  try dsimp only
  repeat' first
    | with_reducible assumption
    | (with_reducible refine Kept.tbSame ?_ rfl)
    | (with_reducible refine Kept.pwrSame ?_ rfl rfl rfl)
    | with_reducible apply Kept.clearStreams
    | with_reducible apply Kept.formGroups
    | with_reducible apply Kept.loadPinned
    | with_reducible apply Kept.loadGolden
    | with_reducible apply Kept.loadShutters
    | with_reducible apply Kept.remapAllFailed
    | with_reducible apply Kept.onTb
    | with_reducible apply Kept.onBoot
    | with_reducible apply Kept.onPwr
    | with_reducible apply Kept.setDevState
    | with_reducible apply Kept.lakeReport
    | with_reducible apply Kept.foldl
    | with_reducible apply Kept.foldlFst
    | with_reducible apply Kept.getD
    | with_reducible apply Kept.elim
    | split
    | intro _

theorem Kept.finishTransition {s t : State} {c : Client} {tid : BitVec 16} (h : Kept s t) : Kept s (State.finishTransition t c tid) := by
  unfold State.finishTransition
  try dsimp only
  repeat' first
    | with_reducible assumption
    | (with_reducible refine Kept.dictSame ?_ rfl)
    | with_reducible apply Kept.onDict
    | with_reducible apply Kept.finishTx
    | with_reducible apply Kept.enterRun
    | with_reducible apply Kept.foldl
    | with_reducible apply Kept.foldlFst
    | with_reducible apply Kept.getD
    | with_reducible apply Kept.elim
    | split
    | intro _

end Sys2Proof.Machine
end

