-- ==== Sys2Proof/Laws/KeptBoot.lean ====
section
/-! SUPPORT. What the operations of Machine/Boot.lean keep. -/

-- One declaration at a time, so that few threads hold memory at once.
set_option Elab.async false

namespace Sys2Proof.Machine

set_option linter.unusedTactic false
set_option linter.unreachableTactic false

theorem Kept.heldReset {s t : State} (h : Kept s t) : Kept s (State.heldReset t) := by
  exact ⟨h.queue, h.events, h.sent, fun _ => rfl, fun _ => Power.Ok.reset, fun _ => ⟨fun _ hk => absurd hk (by simp [State.heldReset, State.reset]),
    Nat.zero_le _⟩, fun _ => Nat.zero_le _, fun _ => rfl, fun _ => rfl, h.otp⟩

theorem Kept.exercisePassed {s t : State} (h : Kept s t) : Kept s (State.exercisePassed t) := by
  have k : Kept s (((t.onFc (fun c => { c.ring t.exerciseRecord with exercised := true, fnExercise := 1 })).takeSeq srcFc)) := by
    refine Kept.takeSeq (Kept.onFc h fun x => ?_)
    have y := x.ring t.exerciseRecord
    generalize t.fc.ring t.exerciseRecord = c at y ⊢
    exact ⟨y.latch, y.log⟩
  unfold State.exercisePassed
  dsimp only
  split
  · exact k.onBoot
  · exact k.enterConfig

theorem Kept.exerciseFailed {s t : State} (h : Kept s t) : Kept s (State.exerciseFailed t) := by
  unfold State.exerciseFailed
  try dsimp only
  repeat' first
    | with_reducible assumption
    | (with_reducible refine Kept.fcSame ?_ rfl rfl rfl)
    | with_reducible apply Kept.enterSafe
    | with_reducible apply Kept.onBoot
    | with_reducible apply Kept.onFc
    | with_reducible apply Kept.foldl
    | with_reducible apply Kept.foldlFst
    | with_reducible apply Kept.getD
    | with_reducible apply Kept.elim
    | split
    | intro _

theorem Kept.markDue {s t : State} {n : Nat} (h : Kept s t) : Kept s (State.markDue t n) := by
  unfold State.markDue
  try dsimp only
  repeat' first
    | with_reducible assumption
    | with_reducible apply Kept.logEvent
    | with_reducible apply Kept.onCore
    | with_reducible apply Kept.teardownGroup
    | with_reducible apply Kept.onGroup
    | with_reducible apply Kept.setDetect
    | with_reducible apply Kept.foldl
    | with_reducible apply Kept.foldlFst
    | with_reducible apply Kept.getD
    | with_reducible apply Kept.elim
    | split
    | intro _

theorem Kept.newSets {s t : State} (h : Kept s t) : Kept s (State.newSets t) := by
  exact h.trans ⟨rfl, List.prefix_rfl, List.prefix_rfl, id, id, id, id, id, fun x => by simpa [State.newSets] using x, .rfl'⟩

theorem Kept.nextFrame {s t : State} (h : Kept s t) : Kept s (State.nextFrame t) := by
  unfold State.nextFrame
  try dsimp only
  repeat' first
    | with_reducible assumption
    | (with_reducible refine Kept.tbSame ?_ rfl)
    | with_reducible apply Kept.markDue
    | with_reducible apply Kept.onTb
    | with_reducible apply Kept.onBoot
    | with_reducible apply Kept.newSets
    | with_reducible apply Kept.foldl
    | with_reducible apply Kept.foldlFst
    | with_reducible apply Kept.getD
    | with_reducible apply Kept.elim
    | split
    | intro _

theorem Kept.abortAll {s t : State} (h : Kept s t) : Kept s (State.abortAll t) := by
  unfold State.abortAll
  try dsimp only
  repeat' first
    | with_reducible assumption
    | with_reducible apply Kept.serverAbort
    | with_reducible apply Kept.foldl
    | with_reducible apply Kept.foldlFst
    | with_reducible apply Kept.getD
    | with_reducible apply Kept.elim
    | split
    | intro _

theorem Kept.stopWork {s t : State} (h : Kept s t) : Kept s (State.stopWork t) := by
  unfold State.stopWork
  try dsimp only
  repeat' first
    | with_reducible assumption
    | with_reducible apply Kept.teardownCore
    | with_reducible apply Kept.onSched
    | with_reducible apply Kept.endCtx
    | with_reducible apply Kept.foldl
    | with_reducible apply Kept.foldlFst
    | with_reducible apply Kept.getD
    | with_reducible apply Kept.elim
    | split
    | intro _

theorem Kept.standbySequence {s t : State} {off : Bool} (h : Kept s t) : Kept s (State.standbySequence t off) := by
  unfold State.standbySequence
  try dsimp only
  repeat' first
    | with_reducible assumption
    | (with_reducible refine Kept.pwrSame ?_ rfl rfl rfl)
    | (with_reducible refine Kept.fcSame ?_ rfl rfl rfl)
    | (with_reducible refine Kept.memSame ?_ rfl rfl)
    | with_reducible apply Kept.stopWork
    | with_reducible apply Kept.onSpring
    | with_reducible apply Kept.onRadio
    | with_reducible apply Kept.logChange
    | with_reducible apply Kept.abortAll
    | with_reducible apply Kept.onFc
    | with_reducible apply Kept.onMem
    | with_reducible apply Kept.onPwr
    | with_reducible apply Kept.onPins
    | with_reducible apply Kept.logEvent
    | with_reducible apply Kept.foldl
    | with_reducible apply Kept.foldlFst
    | with_reducible apply Kept.getD
    | with_reducible apply Kept.elim
    | split
    | intro _

end Sys2Proof.Machine
end

