-- ==== Sys2Proof/Laws/KeptRegOps.lean ====
section
/-! SUPPORT. What the operations of Machine/RegOps.lean keep. -/

-- One declaration at a time, so that few threads hold memory at once.
set_option Elab.async false

namespace Sys2Proof.Machine

set_option linter.unusedTactic false
set_option linter.unreachableTactic false

theorem Kept.after {s t : State} {o : Host.Outcome State Fault Refusal} (h : Kept s t) (ho : ∃ u, o = .next u ∧ Kept s u) :
    Kept s (t.after o) := by
  obtain ⟨u, rfl, hu⟩ := ho
  exact hu

theorem Kept.tbWrite {s t : State} {off : Nat} {v : Word64} {u : State} (h : Kept s t) (e : State.tbWrite t off v = some u) : Kept s u := by
  unfold State.tbWrite at e
  try dsimp only at e
  repeat' split at e
  all_goals first | (cases e; done) | (obtain ⟨_, _, rfl⟩ := Option.map_eq_some_iff.1 e) | (obtain rfl := Option.some.inj e)
  all_goals repeat' first
    | with_reducible assumption
    | (with_reducible refine Kept.tbSame ?_ rfl)
    | with_reducible apply Kept.onTb
    | with_reducible apply Kept.foldl
    | with_reducible apply Kept.foldlFst
    | with_reducible apply Kept.getD
    | with_reducible apply Kept.elim
    | split
    | intro _

theorem Kept.ccCtlWrite {s t : State} {by_ : Initiator} {l : Nat} {v : Word64} (h : Kept s t) : Kept s (State.ccCtlWrite t by_ l v) := by
  unfold State.ccCtlWrite
  dsimp only
  split
  · exact h.after h.execReset
  · split
    · exact h.after h.execStart
    · split
      · exact h.after h.execPreempt
      · split
        · exact h.after h.execResume
        · split
          · exact h.after h.execTeardown
          · split
            · exact h.after h.execGolden
            · exact h.onCore

theorem Kept.ccWrite {s t : State} {by_ : Initiator} {l : Nat} {off : Nat} {v : Word64} {u : State} (h : Kept s t) (e : State.ccWrite t by_ l off v = some u) : Kept s u := by
  unfold State.ccWrite at e
  try dsimp only at e
  repeat' split at e
  all_goals first | (cases e; done) | (obtain ⟨_, _, rfl⟩ := Option.map_eq_some_iff.1 e) | (obtain rfl := Option.some.inj e)
  all_goals repeat' first
    | with_reducible assumption
    | with_reducible apply Kept.ccCtlWrite
    | with_reducible apply Kept.after
    | with_reducible apply Kept.onCore
    | with_reducible apply Kept.foldl
    | with_reducible apply Kept.foldlFst
    | with_reducible apply Kept.getD
    | with_reducible apply Kept.elim
    | exact Kept.execCcGroupWrite (by assumption)
    | split
    | intro _

theorem Kept.winErrWrite {s t : State} {p : Nat} {v : Word64} (h : Kept s t) : Kept s (State.winErrWrite t p v) := by
  unfold State.winErrWrite
  try dsimp only
  repeat' first
    | with_reducible assumption
    | with_reducible apply Kept.onWindow
    | with_reducible apply Kept.retryHeld
    | with_reducible apply Kept.foldl
    | with_reducible apply Kept.foldlFst
    | with_reducible apply Kept.getD
    | with_reducible apply Kept.elim
    | split
    | intro _

theorem Kept.winWrite {s t : State} {p : Nat} {off : Nat} {v : Word64} {u : State} (h : Kept s t) (e : State.winWrite t p off v = some u) : Kept s u := by
  unfold State.winWrite at e
  try dsimp only at e
  repeat' split at e
  all_goals first | (cases e; done) | (obtain ⟨_, _, rfl⟩ := Option.map_eq_some_iff.1 e) | (obtain rfl := Option.some.inj e)
  all_goals repeat' first
    | with_reducible assumption
    | with_reducible apply Kept.onWindow
    | with_reducible apply Kept.winErrWrite
    | with_reducible apply Kept.foldl
    | with_reducible apply Kept.foldlFst
    | with_reducible apply Kept.getD
    | with_reducible apply Kept.elim
    | split
    | intro _

theorem Kept.dwWrite {s t : State} {k : Nat} {off : Nat} {v : Word64} {u : State} (h : Kept s t) (e : State.dwWrite t k off v = some u) : Kept s u := by
  unfold State.dwWrite at e
  try dsimp only at e
  repeat' split at e
  all_goals first | (cases e; done) | (obtain ⟨_, _, rfl⟩ := Option.map_eq_some_iff.1 e) | (obtain rfl := Option.some.inj e)
  all_goals repeat' first
    | with_reducible assumption
    | with_reducible apply Kept.windowCommand
    | with_reducible apply Kept.onDwSlot
    | with_reducible apply Kept.dwWord
    | with_reducible apply Kept.foldl
    | with_reducible apply Kept.foldlFst
    | with_reducible apply Kept.getD
    | with_reducible apply Kept.elim
    | split
    | intro _

theorem Kept.fcWrite {s t : State} {by_ : Initiator} {off : Nat} {v : Word64} {u : State} (h : Kept s t) (e : State.fcWrite t by_ off v = some u) : Kept s u := by
  unfold State.fcWrite at e
  try dsimp only at e
  repeat' split at e
  all_goals first | (cases e; done) | (obtain ⟨_, _, rfl⟩ := Option.map_eq_some_iff.1 e) | (obtain rfl := Option.some.inj e)
  all_goals repeat' first
    | with_reducible assumption
    | with_reducible apply Kept.after
    | with_reducible apply Kept.foldl
    | with_reducible apply Kept.foldlFst
    | with_reducible apply Kept.getD
    | with_reducible apply Kept.elim
    | exact Kept.execOverflowClear (by assumption)
    | exact Kept.execFcClear (by assumption)
    | exact Kept.execFcAltSw (by assumption)
    | exact Kept.execFcInject (by assumption)
    | split
    | intro _

theorem Kept.shWrite {s t : State} {by_ : Initiator} {off : Nat} {v : Word64} {u : State} (h : Kept s t) (e : State.shWrite t by_ off v = some u) : Kept s u := by
  unfold State.shWrite at e
  try dsimp only at e
  repeat' split at e
  all_goals first | (cases e; done) | (obtain ⟨_, _, rfl⟩ := Option.map_eq_some_iff.1 e) | (obtain rfl := Option.some.inj e)
  all_goals repeat' first
    | with_reducible assumption
    | (with_reducible refine Kept.memSame ?_ rfl rfl)
    | with_reducible apply Kept.onMem
    | with_reducible apply Kept.foldl
    | with_reducible apply Kept.foldlFst
    | with_reducible apply Kept.getD
    | with_reducible apply Kept.elim
    | split
    | intro _

theorem Kept.regWrite {s t : State} {by_ : Initiator} {a : Nat} {v : Word64} (h : Kept s t) : Kept s (State.regWrite t by_ a v) := by
  have hf : Kept s (t.busFault by_ a) := h.busFault
  unfold State.regWrite
  dsimp only
  split
  · split
    · exact Kept.getD hf fun u e => h.tbWrite e
    · exact hf
  · exact Kept.getD hf fun u e => h.shWrite e
  · exact Kept.getD hf fun u e => h.fcWrite e
  · exact Kept.getD hf fun u e => h.ccWrite e
  · split
    · exact Kept.getD hf fun u e => h.winWrite e
    · exact h.refusedBus
  · split
    · exact h.refusedBus
    · split
      · split
        · exact Kept.getD hf fun u e => h.dwWrite e
        · exact h
      · exact Kept.elim hf fun _ => h
  · exact h

theorem Kept.regAccess {s t : State} {by_ : Initiator} {a : Nat} (h : Kept s t) : Kept s (State.regAccess t by_ a) := by
  unfold State.regAccess
  try dsimp only
  repeat' first
    | with_reducible assumption
    | with_reducible apply Kept.emit
    | with_reducible apply Kept.submitRead
    | with_reducible apply Kept.refusedBus
    | with_reducible apply Kept.dwWord
    | with_reducible apply Kept.busFault
    | with_reducible apply Kept.foldl
    | with_reducible apply Kept.foldlFst
    | with_reducible apply Kept.getD
    | with_reducible apply Kept.elim
    | split
    | intro _

end Sys2Proof.Machine
end

