-- ==== Sys2Proof/Laws/KeptAccess.lean ====
section
/-! SUPPORT. What the operations of Machine/Access.lean keep. -/

-- One declaration at a time, so that few threads hold memory at once.
set_option Elab.async false

namespace Sys2Proof.Machine

set_option linter.unusedTactic false
set_option linter.unreachableTactic false

theorem Kept.accessFault {s t : State} {x : Access} (h : Kept s t) : Kept s (State.accessFault t x) := by
  unfold State.accessFault
  try dsimp only
  repeat' first
    | with_reducible assumption
    | with_reducible apply Kept.tearCtx
    | with_reducible apply Kept.raiseCtx
    | with_reducible apply Kept.busFault
    | with_reducible apply Kept.foldl
    | with_reducible apply Kept.foldlFst
    | with_reducible apply Kept.getD
    | with_reducible apply Kept.elim
    | split
    | intro _

theorem Kept.memAccess {s t : State} {x : Access} (h : Kept s t) : Kept s (State.memAccess t x) := by
  unfold State.memAccess
  try dsimp only
  repeat' first
    | with_reducible assumption
    | (with_reducible refine Kept.memSame ?_ rfl rfl)
    | with_reducible apply Kept.accessFault
    | with_reducible apply Kept.refusedBus
    | with_reducible apply Kept.onMem
    | with_reducible apply Kept.serveMemory
    | with_reducible apply Kept.foldl
    | with_reducible apply Kept.foldlFst
    | with_reducible apply Kept.getD
    | with_reducible apply Kept.elim
    | split
    | intro _

theorem Kept.registerAccess {s t : State} {x : Access} (h : Kept s t) : Kept s (State.registerAccess t x) := by
  unfold State.registerAccess
  try dsimp only
  repeat' first
    | with_reducible assumption
    | with_reducible apply Kept.regWrite
    | with_reducible apply Kept.regAccess
    | with_reducible apply Kept.accessFault
    | with_reducible apply Kept.foldl
    | with_reducible apply Kept.foldlFst
    | with_reducible apply Kept.getD
    | with_reducible apply Kept.elim
    | split
    | intro _

theorem Kept.accessAt {s t : State} {x : Access} (h : Kept s t) : Kept s (State.accessAt t x) := by
  unfold State.accessAt
  try dsimp only
  repeat' first
    | with_reducible assumption
    | with_reducible apply Kept.remoteWrite
    | with_reducible apply Kept.remoteRead
    | with_reducible apply Kept.accessFault
    | with_reducible apply Kept.memAccess
    | with_reducible apply Kept.registerAccess
    | with_reducible apply Kept.foldl
    | with_reducible apply Kept.foldlFst
    | with_reducible apply Kept.getD
    | with_reducible apply Kept.elim
    | split
    | intro _

theorem Kept.access {s t : State} {x : Access} (h : Kept s t) : Kept s (State.access t x) := by
  unfold State.access
  try dsimp only
  repeat' first
    | with_reducible assumption
    | with_reducible apply Kept.accessAt
    | with_reducible apply Kept.foldl
    | with_reducible apply Kept.foldlFst
    | with_reducible apply Kept.getD
    | with_reducible apply Kept.elim
    | split
    | intro _

end Sys2Proof.Machine
end

