-- ==== Sys2Proof/Tests/Slice0.lean ====
section
/-! SUPPORT. Tests: ill-formed commands are refused, worked values of the spec, and for every statement with hypotheses a state and
operands that meet them. -/

-- One declaration at a time, so that few threads hold memory at once.
set_option Elab.async false

namespace Sys2Proof.Tests

open Sys2Proof Sys2Proof.Machine

/-! ## States -/

/-- A device that runs, its Ponds and Reservoir initialised. -/
def live : State :=
  { State.reset with
    pins := { State.reset.pins with porstN := true }
    boot := { State.reset.boot with stage := .online }
    dict := { State.reset.dict with state := .run }
    mem := { State.reset.mem with pondReady := true, reservoirReady := true } }

/-- The memory cells of bytes at an address. -/
def cells (a : Nat) (bs : Bytes) : List Host.Cell := (bs.zipIdx.filter (fun b => b.1 != 0)).map (fun b => (a + b.2, b.1))

/-- The live device with some memory. -/
def holding (cs : List Host.Cell) : State := { live with mem := { live.mem with data := cs } }

/-- A program in the first 64 KiB of a Pond. -/
def prog0 : Program :=
  { hdr := 0, length := 64, entry := 0, maxTile := 1000, flags := 0, pondBase := 0, pondSize := 0x10000, saveArea := 0, chainTable := 0,
    chainCount := 0, bank := 0, ctrMask := 0xFFFF, outMask := 0xFFFF, modelId := 0, ctx := 0 }

/-- A core that runs the program. -/
def runner : Core := { st := .running, prog := some prog0 }

/-- A state with its first core replaced. -/
def first (s : State) (c : Core) : State := { s with cores := c :: List.replicate 63 {} }

/-- Core 0 runs a program whose next word is w. -/
def running (w : Word64) : State := first (holding (cells (pondAt 0 64) (leBytes 8 w.toNat))) runner

/-- The next word of the running core is i's: it issues, and its fetch changes nothing. -/
theorem issues_of {w : Word64} {i : Instr} (h : (running w).fetch 0 = .word (running w) w) (h' : tileDecode 0 w = some i) :
    (running w).Issues 0 i (running w) := ⟨w, h, h'⟩

/-! ## The block -/

/-- A live device with an empty queue, and a device held in reset. -/
theorem witness_EmptyQueueIsTwoNanoseconds :
    (live.pending = [] ∧ live.pins.porstN = true ∧ live.tb.now + 2 < 2 ^ 64) ∧ State.reset.pending = [] ∧ State.reset.pins.porstN = false := by
  decide

/-- A command with its next state. -/
theorem witness_CommandsAnswerAndLeaveTheQueue : exec (.nop 0) live = .next live := rfl

/-- A state that meets the invariant, and its step. -/
theorem witness_EveryStepKeepsTheInvariant : live.Inv ∧ ∃ t, step live = .next t :=
  ⟨⟨rfl, ⟨by decide, rfl, by decide⟩, ⟨fun _ h => absurd h List.not_mem_nil, by decide⟩, Nat.zero_le _, rfl, rfl⟩, _, rfl⟩

/-- A step. -/
theorem witness_StepsNeverTakeBack : ∃ t, step live = .next t := ⟨_, rfl⟩

/-- A difference in each of the four ranges, at their ends. -/
theorem witness_SerialNumbersCompare : ∀ d ∈ [0, 1, 2 ^ 31 - 1, 2 ^ 31, 2 ^ 31 + 1, 2 ^ 32 - 1],
    d = ((BitVec.ofNat 32 d : Word).toNat + 2 ^ 32 - (0 : Word).toNat) % 2 ^ 32 := by decide

/-- Two records of one stamp and source, and two of different stamps. -/
theorem witness_EventMergeDecidesEveryPair :
    let a : Event := ⟨10, 3, 7, 0, .ppsIn, []⟩
    let b : Event := ⟨10, 3, 8, 0, .ppsIn, []⟩
    (a.seq < 2 ^ 48 ∧ b.seq < 2 ^ 48) ∧ a.seq ≠ b.seq ∧ (a.seq + 2 ^ 48 - b.seq) % 2 ^ 48 ≠ 2 ^ 47 := by decide

/-- The last tick of a frame of the default length. -/
theorem witness_FramesAndTicksBegin : live.cfg kFrameTicks - 1 < live.cfg kFrameTicks ∧ live.frameOrigin = State.reset.frameOrigin
    ∧ live.cfg kFrameTicks = State.reset.cfg kFrameTicks := by decide

/-- The memory after reset, and addresses before and behind a write. -/
theorem witness_MemoryWriteIsReadBack : live.mem.wf = true ∧ live.mem.synd = [] ∧ (7 < 10 / 4 * 4 ∧ (10 + 3 + 3) / 4 * 4 ≤ 16) ∧ 9 < 10 ∧ 10 + 3 ≤ 13 := by
  decide

/-- Syndromes at the ends of each kind, a word of four bytes, a clean word, and the last bit of a codeword. -/
theorem witness_WordsAreCorrected : (127#8).toNat < 128 ∧ 1#8 <<< 6 = 64#8 ∧ checkBits (1#32 <<< 31) = 0x70 ∧ ([1, 2, 3, 4] : Bytes).length = 4
    ∧ sget 0 live.mem.synd 5 = 0 ∧ 38 < 39 := by decide

/-! ## Cores -/

/-- Each control word issues on a running core. -/
theorem witness_ControlInstructionsComplete_issue :
    (running 0x0).Issues 0 (.nop 0) (running 0x0)
    ∧ (running 0x20000000000000).Issues 0 (.tileEnd 0) (running 0x20000000000000)
    ∧ (running 0x30000000000005).Issues 0 (.jump 0 5) (running 0x30000000000005)
    ∧ (running 0x44000000000007).Issues 0 (.loop 0 1 7) (running 0x44000000000007)
    ∧ (running 0x54000900000000).Issues 0 (.setlc 0 1 9) (running 0x54000900000000)
    ∧ (running 0x6500000000000F).Issues 0 (.setx 0 5 15) (running 0x6500000000000F)
    ∧ (running 0x7500000000000F).Issues 0 (.addx 0 5 15) (running 0x7500000000000F)
    ∧ (running 0x81230000000000).Issues 0 (.addxr 0 1 2 3) (running 0x81230000000000)
    ∧ (running 0x91200000000006).Issues 0 (.mulxi 0 1 2 6) (running 0x91200000000006)
    ∧ (running 0x1003000000000009).Issues 0 (.waitSeq 0 3 false 0 9) (running 0x1003000000000009) :=
  ⟨issues_of rfl (by decide),
   issues_of rfl (by decide),
   issues_of rfl (by decide),
   issues_of rfl (by decide),
   issues_of rfl (by decide),
   issues_of rfl (by decide),
   issues_of rfl (by decide),
   issues_of rfl (by decide),
   issues_of rfl (by decide),
   issues_of rfl (by decide)⟩

/-- Each lane operation issues on a running core. -/
theorem witness_LaneOperationsComplete :
    (running 0x3000886400000005).Issues 0 (.vadd 0 1 2 3 4 5) (running 0x3000886400000005)
    ∧ (running 0x3010886400000005).Issues 0 (.vsub 0 1 2 3 4 5) (running 0x3010886400000005)
    ∧ (running 0x3020886400000005).Issues 0 (.vmul 0 1 2 3 4 5) (running 0x3020886400000005)
    ∧ (running 0x3030886400000005).Issues 0 (.vfma 0 1 2 3 4 5) (running 0x3030886400000005)
    ∧ (running 0x3040886400000005).Issues 0 (.vmin 0 1 2 3 4 5) (running 0x3040886400000005)
    ∧ (running 0x3050886400000005).Issues 0 (.vmax 0 1 2 3 4 5) (running 0x3050886400000005)
    ∧ (running 0x3060886400000005).Issues 0 (.vcmp 0 1 2 3 4 5) (running 0x3060886400000005)
    ∧ (running 0x3070886400000005).Issues 0 (.vsel 0 1 2 3 4 5) (running 0x3070886400000005)
    ∧ (running 0x3080886400000005).Issues 0 (.vcvt 0 1 2 3 4 5) (running 0x3080886400000005)
    ∧ (running 0x3090886400000005).Issues 0 (.viadd 0 1 2 3 4 5) (running 0x3090886400000005)
    ∧ (running 0x30A0886400000005).Issues 0 (.vimul 0 1 2 3 4 5) (running 0x30A0886400000005)
    ∧ (running 0x30B0886400000005).Issues 0 (.vand 0 1 2 3 4 5) (running 0x30B0886400000005)
    ∧ (running 0x30C0886400000005).Issues 0 (.vor 0 1 2 3 4 5) (running 0x30C0886400000005)
    ∧ (running 0x30D0886400000005).Issues 0 (.vshift 0 1 2 3 4 5) (running 0x30D0886400000005)
    ∧ (running 0x3120886400000005).Issues 0 (.vred 0 1 2 3 4 5) (running 0x3120886400000005)
    ∧ (running 0x3130886400000005).Issues 0 (.vbcast 0 1 2 3 4 5) (running 0x3130886400000005)
    ∧ (running 0x3180886400000005).Issues 0 (.vsfu 0 1 2 3 4 5) (running 0x3180886400000005) :=
  ⟨issues_of rfl (by decide),
   issues_of rfl (by decide),
   issues_of rfl (by decide),
   issues_of rfl (by decide),
   issues_of rfl (by decide),
   issues_of rfl (by decide),
   issues_of rfl (by decide),
   issues_of rfl (by decide),
   issues_of rfl (by decide),
   issues_of rfl (by decide),
   issues_of rfl (by decide),
   issues_of rfl (by decide),
   issues_of rfl (by decide),
   issues_of rfl (by decide),
   issues_of rfl (by decide),
   issues_of rfl (by decide),
   issues_of rfl (by decide)⟩

/-- The granule of a scaled conversion, where Config names the first one: it lies in the region, free and readable. (Which kind a VARIANT
names, and whether an operand names a granule, Config leaves open.) -/
theorem witness_LaneOperationsComplete_granule :
    runner.inRegion (0 * 64) 64 = true ∧ runner.conflicts [pondRange 1 true (0 * 64) 64] = false
      ∧ ∃ u bs, ((running 0).onCore 0 (fun c => { c with held := none })).Reads (pondBase + (running 0).logical 0 * 0x400000 + 0 * 64) 64 u bs :=
  ⟨by decide, by decide, _, _, rfl⟩

/-- A core that waits with its number reached. -/
theorem witness_ControlInstructionsComplete_waitSeqRetire :
    let s := first live { runner with st := .waiting, atTb := true, waitOn := some (3, 0) }
    s.up = true ∧ (s.core 0).st = .waiting ∧ (s.core 0).atTb = true ∧ (s.core 0).preemptAt = none ∧ s.pairHeld 0 = false ∧ (s.core 0).waitOn = some (3, 0)
      ∧ ((s.core 0).awaited 3).seqDone = 0 := by decide

/-- A HALT issues on a quiet core; a word that R67 does not list; a PC outside the region; a poisoned word. -/
theorem witness_FetchHaltAndIllegalWords :
    (running (0x001 <<< 52)).mem.synd = [] ∧ (running (0x001 <<< 52)).Issues 0 (.halt 0) (running (0x001 <<< 52))
      ∧ ((running (0x001 <<< 52)).core 0).quiet = true
      ∧ ((running (0xF <<< 60)).fetch 0 = .word (running (0xF <<< 60)) (0xF <<< 60) ∧ tileDecode 0 (0xF <<< 60) = none)
      ∧ (first live { runner with pc := 9000 }).fetch 0 = .outside (64 + 8 * 9000)
      ∧ ∃ t, ({ running 0 with mem := { (running 0).mem with synd := [(pondAt 0 64 / 4, 0x7F)] } } : State).fetch 0 = .bad t (pondAt 0 64) :=
  ⟨rfl, issues_of rfl (by decide), by decide, ⟨rfl, by decide⟩, rfl, _, rfl⟩

/-- A lane operation with its next state. -/
theorem witness_ScalarAndLaneFrame : (running 0).mem.synd = [] ∧ (Instr.nop 0).onlyCore = some 0 ∧ ∃ t, exec (.nop 0) (running 0) = .next t :=
  ⟨rfl, rfl, _, rfl⟩

/-- 64 lanes; a VLD and a VST whose operand lies at the end of the region, free and readable. -/
theorem witness_VectorRegistersLoadAndStore :
    (List.replicate 64 (7 : Word)).length = 64 ∧ (runner.inRegion (0x3FC * 64) 256 = true)
      ∧ (running 0x31000000000003FC).Issues 0 (.vld 0 0 0x3FC) (running 0x31000000000003FC)
      ∧ (running 0x31104C00000003FC).Issues 0 (.vst 0 19 0x3FC) (running 0x31104C00000003FC)
      ∧ runner.conflicts [pondRange 1 false (0x3FC * 64) 256] = false ∧ runner.conflicts [pondRange 1 true (0x3FC * 64) 256] = false
      ∧ ∃ u bs, (running 0).Reads (pondBase + (running 0).logical 0 * 0x400000 + 0x3FC * 64) 256 u bs :=
  ⟨by decide, by decide, issues_of rfl (by decide), issues_of rfl (by decide), by decide, by decide, _, _, rfl⟩


/-! ## Streams, passes and moves -/

/-- A duplicate behind the window, a number past its end and the last that is too far, and the window's last number. -/
theorem witness_CountersAndSignals_land :
    (∀ d ∈ [2 ^ 31 + 1, 64, 2 ^ 31, 63], d = ((BitVec.ofNat 32 d : Word).toNat + 2 ^ 32 - ({} : Counter).seqDone.toNat) % 2 ^ 32)
      ∧ ({} : Counter).landed.getLsbD 63 = false := by decide

/-- A stream to counter 5 of core 0's own bank 0, with numbers left. -/
def streamer (w : Word64) : State :=
  first (running w) { runner with outs := [(2, { next := 0, dest := some (destOf 0 0 5), base := 0, count := 4 })] }

/-- A SIGNAL on a stream of the program. -/
theorem witness_CountersAndSignals_signal :
    (streamer 0x1012140000000000).Issues 0 (.signal 0 2 5 0 0) (streamer 0x1012140000000000)
      ∧ (streamer 0x1012140000000000).streamQueued 0 2 = false
      ∧ ((streamer 0x1012140000000000).core 0).streamOk prog0 2 (destOf 0 0 5) = true
      ∧ (destOf 0 0 5).node = (streamer 0x1012140000000000).fab.nodeId ∧ (streamer 0x1012140000000000).speaks 0 = true :=
  ⟨⟨_, rfl, by decide⟩, by decide, by decide, by decide, by decide⟩

/-- An MLOADW, an MPASS and a TMV that nothing holds back. -/
theorem witness_MatrixAndMoveInstructionsQueue :
    (running 0x2000000000000010).Issues 0 (.mloadw 0 0 0 0 16) (running 0x2000000000000010)
      ∧ (pairOk 0 0 = true ∧ runner.inRegion (16 * 64) (weightBytes 0) = true ∧ runner.conflicts [pondRange 4 false (16 * 64) (weightBytes 0)] = false)
      ∧ (running 0x2010000000000000).Issues 0 (PassArgs.instr ⟨0, 0, false, false, 0, 0, 0, false, 0, 0⟩ 0) (running 0x2010000000000000)
      ∧ (rowsOk 0 0 0 1 = true ∧ runner.mq.length < 4 ∧ prog0.chainCount = 0
        ∧ checkChains ⟨0, 0, false, false, 0, 0, 0, false, 0, 0⟩ prog0 [] = some none
        ∧ PassArgs.strays ⟨0, 0, false, false, 0, 0, 0, false, 0, 0⟩ prog0 [] none = none
        ∧ runner.conflicts (passRanges ⟨0, 0, false, false, 0, 0, 0, false, 0, 0⟩ prog0 [] none) = false)
      ∧ (running 0x4008000000000004).Issues 0 (.tmv 0 true 4) (running 0x4008000000000004)
      ∧ (runner.inRegion (4 * 64) 64 = true ∧ runner.conflicts [pondRange 3 false (4 * 64) 64] = false)
      ∧ ((∃ u bs, (running 0).Reads (pondBase + 16 * 64) (weightBytes 0) u bs) ∧ (∃ u table, (running 0).Reads (pondBase + 0) (192 * 0) u table)
        ∧ ∃ u bs, (running 0).Reads (pondBase + 4 * 64) 64 u bs ∧ (u.core 0).conflicts
            (u.moveRanges 0 true (u.descOf bs) (u.pondReader 0 (u.descOf bs).ext 64) (u.codedOf 0 (u.descOf bs)) (4 * 64)) = false) :=
  ⟨issues_of rfl (by decide), by decide, issues_of rfl (by decide), by decide, issues_of rfl (by decide), by decide, ⟨_, _, rfl⟩, ⟨_, _, rfl⟩, _, _, rfl, by decide⟩

/-- A pass of one row that is not drained, at the start of the Pond. -/
def pass0 : Pass :=
  { shape := 0, fmt := 0, acc := false, abuf := false, quad := 0, rows := 1, arow := 0, drain := true, chain := 0, row := 0, epilogue := [],
    prologue := none, ranges := [] }

/-- A core that holds back a VLD. -/
def holder : Core := { runner with held := some (.vld 0 3 0x3FC) }

/-- An instruction held back, a pass at the front of its queue, one in the array, one that drains. -/
theorem witness_PassesRunAndDrain :
    live.up = true
      ∧ (holder.busy = true ∧ holder.held = some (.vld 0 3 0x3FC) ∧ holder.inRegion (0x3FC * 64) 256 = true
        ∧ holder.conflicts [pondRange 1 false (0x3FC * 64) 256] = false)
      ∧ (∃ u bs, (first live runner).Reads (pondBase + 0x3FC * 64) 256 u bs)
      ∧ (frontOf [.pass pass0] = ([], some (pass0, [])) ∧ runner.bufferFree false = true)
      ∧ (((first live { runner with mq := [.pass pass0] }).onCore 0 Core.preload).touchPond 0 pass0.reads).2 = none
      ∧ ({ runner with inArray := [pass0] } : Core).busy = true
      ∧ (let s := first live { runner with draining := [pass0] }
         pass0.abuf = false ∧ (s.touchPond 0 (drainReads (s.pondReader 0) (parseEntry pass0.epilogue) pass0)).2 = none) :=
  ⟨by decide, by decide, ⟨_, _, rfl⟩, by decide, by decide, by decide, by decide⟩

/-- A fill of 64 bytes at the granule 16 of the own Pond. -/
def fill0 : Bytes :=
  leBytes 8 0 ++ leBytes 8 0x1000001000 ++ leBytes 4 1 ++ leBytes 4 64 ++ leBytes 8 0 ++ [4, 0xFF, 0xFF, 0, 0, 0, 0, 0] ++ leBytes 8 0
    ++ leBytes 8 0x0807060504030201 ++ leBytes 8 0

/-- Core 0 with that descriptor at the head of a queue. -/
def filler : State :=
  first (holding (cells (pondAt 0 256) fill0)) { runner with tmq := [[], [(4, [])]] }

/-- A move whose remote answers are all in. -/
def move0 : Move := { desc := fill0, src := [], bad := [], need := [], packet := none, ranges := [] }

/-- A decode of a chunk that its source does not hold. -/
def move3 : Move := { move0 with desc := fill0.take 32 ++ [3] ++ fill0.drop 33 }

/-- A move that has asked for the header of a remote chunk. -/
def move4 : Move := { move0 with header := true }

/-- A descriptor with good fields, whose pieces lie in the own region; a move that lands, one refused, and one that goes on to its blocks. -/
theorem witness_TileMovesStartAndLand :
    (filler.up = true ∧ (filler.core 0).busy = true ∧ (filler.core 0).tm.getD (tmIndex true) none = none
      ∧ (filler.core 0).tmq.getD (tmIndex true) [] = (4, []) :: [])
      ∧ (∃ t, (filler.onCore 0 (fun c => { c with tmq := setAt c.tmq (tmIndex true) [] })).Reads (pondBase + 4 * 64) 64 t fill0)
      ∧ ((parseDesc fill0).fieldsOk true = true ∧ (parseDesc fill0).mode = 4
        ∧ filler.modeOk 0 (parseDesc fill0) [] 0 = true ∧ filler.badHeader 0 (parseDesc fill0) [] = false
        ∧ (parseDesc fill0).out = 0xFF ∧ (parseDesc fill0).sources [] 0 = [] ∧ filler.leaves (parseDesc fill0) = false
        ∧ ∀ q ∈ (parseDesc fill0).targets [] 0, (filler.pieceFault 0 true q).isNone = true)
      ∧ (∀ q ∈ (parseDesc fill0).targets [] 0, filler.pieceWaits q = false)
      ∧ (move0.header = false ∧ ((parseDesc move0.desc).writes [] []).isSome = true ∧ (parseDesc move3.desc).writes [] [] = none ∧ move4.header = true)
      ∧ filler.descOf fill0 = parseDesc fill0 :=
  ⟨by decide, ⟨_, rfl⟩, by decide, by decide, by decide, rfl⟩

/-- A remap of logical core 9. -/
def remap9 : Remap := { logical := 9, old := 9, new := 10, since := 0 }

/-- A packet for a core that no remap names, one for a core that a remap names, and a stream with three numbers to void. -/
theorem witness_PacketsAndVoids :
    live.up = true ∧ (∀ r ∈ live.sched.remaps, r.logical ≠ 9)
      ∧ (∃ r ∈ (live.onSched (fun x => { x with remaps := [remap9] })).sched.remaps, r.logical = 9)
      ∧ (streamer 0).speaks 0 = true ∧ (((streamer 0).core 0).out 0 2).dest = some (destOf 0 0 5)
      ∧ (destOf 0 0 5).node = (streamer 0).fab.nodeId ∧ ((3 : Word) - (((streamer 0).core 0).out 0 2).next).toNat < 2 ^ 31 :=
  ⟨by decide, by decide, ⟨remap9, by decide, rfl⟩, by decide, by decide, by decide, by decide⟩

/-! ## Cores and groups -/

/-- The header of a program of one word, with one stream, at granule 0x40; its CRC32C was computed apart from the model. -/
def header0 : Bytes :=
  [0x50, 0x54, 0x01, 0, 0x01, 0, 0, 0, 0, 0, 0, 0, 0xE8, 0x03, 0, 0, 0, 0, 0, 0, 0, 0, 0x01, 0, 0, 0x20, 0, 0, 0, 0, 0, 0]
    ++ [0, 0, 0xFF, 0xFF, 0x04, 0, 0, 0, 0, 0, 0, 0, 0, 0, 0, 0, 0, 0x80, 0, 0, 0, 0, 0, 0, 0, 0, 0, 0, 0xBB, 0x2D, 0x09, 0x04]

/-- Core 0's Pond with that program and its table of streams. -/
def loaded : State := holding (cells (pondAt 0 0x1000) header0 ++ cells (pondAt 0 0x8000) (List.replicate 16 0 ++ [4, 0, 0, 0, 5]))

/-- A write that each of the six commands takes, on a core in a state that takes it, and writes that a core refuses. -/
theorem witness_CoreCommandsComplete_commands :
    live.up = true ∧ mayControl .island = true ∧ mayControl (.app 0) = false ∧ bits 1 5 0 = 1 ∧ bits 2 5 0 = 2 ∧ bits 4 5 0 = 4 ∧ bits 16 5 0 = 16 ∧ bits 32 5 0 = 32
      ∧ (live.core 0).st = .idle ∧ (first live runner).up = true ∧ ((first live runner).core ((first live runner).phys 0)).st = .running
      ∧ bits (8 + 0x1000 * 65536) 5 0 = 8
      ∧ (∃ x ∈ [(⟨0x1000, prog0, [], 0, none⟩ : Saved)], x.hdr.toNat = bits (8 + 0x1000 * 65536) 31 16)
      ∧ (2 : Word64).getLsbD 1 = true ∧ ((first live runner).core 0).st ≠ .idle
      ∧ (16 : Word64).getLsbD 4 = true ∧ (live.core 0).st ≠ .running ∧ (live.core 0).st ≠ .waiting := by decide

/-- A program whose header passes the checks. -/
theorem witness_CoreCommandsComplete_start :
    (loaded.pondRead 0 (0x40 * 64) 64).2 = (header0, false)
      ∧ ((loaded.pondRead 0 (0x40 * 64) 64).1.pondRead 0 (0x40 * 64 + 64) 8).2 = (List.replicate 8 0, false)
      ∧ (parseHeader 0x40 header0).length = 1 ∧ headerOk (parseHeader 0x40 header0) header0 (List.replicate 8 0) 0 (loaded.core 0).mode = true
      ∧ outTableOk (loaded.core 0) 0 4 (loaded.pondRead 0 0x8000 128).2.1 = true ∧ 0 < loaded.cores.length ∧ (4#16).getLsbD 2 = true :=
  ⟨by decide +kernel, by decide +kernel, by decide +kernel, by decide +kernel, by decide +kernel, by decide, by decide⟩

/-- A running core. -/
theorem witness_PreemptionAndTeardown : ((first live runner).core 0).prog = some prog0 ∧ 0 < (first live runner).cores.length ∧ runner.pc < 65536 ∧ runner.st ≠ .withdrawn := by decide

/-- The last error bit, on a core with and without an error; a core whose TILE_END is due, without and with a preemption; one preempted at
its boundary; one that is late. -/
theorem witness_TileBoundariesAndFaults :
    let c : Core := { runner with tileEndPending := true }
    let d : Core := { c with preemptAt := some 0 }
    14 < 15 ∧ runner.err = 0 ∧ ({ runner with err := 1 } : Core).err ≠ 0
      ∧ (c.reachesTb = true ∧ c.groupHeld = none ∧ live.groupOf (live.logical 0) = none ∧ c.waitUnordered = false ∧ c.preemptAt = none)
      ∧ (d.reachesTb = true ∧ d.waitUnordered = false ∧ d.preemptAt.isSome = true)
      ∧ (({ d with tileEndPending := false, atTb := true } : Core).busy = true)
      ∧ d.busy = true ∧ d.atTb = false ∧ 0 + 2500 ≤ ({ live with tb := { live.tb with now := 2500 } } : State).now := by decide

/-- A core at a boundary, one between boundaries, one that holds a value; words of three and of two members that meet each case. -/
theorem witness_GroupsChangeAndCompare :
    let t : State := live.onGroup 0 (fun x => { x with active := [0, 1, 2] })
    let p : State := live.onGroup 0 (fun x => { x with active := [0, 1] })
    live.up = true ∧ (live.core (live.phys 0)).atBoundary = true ∧ ((first live runner).core ((first live runner).phys 0)).atBoundary = false
      ∧ ({ groupHeld := some 0 } : Core).atBoundary = true
      ∧ (t.up = true ∧ (t.groupRt 0).split = false ∧ (t.groupRt 0).active = [0, 1, 2]) ∧ (p.groupRt 0).active = [0, 1]
      ∧ ((5 : Word64) = 5 ∧ (5 : Word64) ≠ 6 ∧ (6 : Word64) ≠ 7 ∧ (5 : Word64) ≠ 7) := by decide

/-- A table with one pair: cores 0 and 1. -/
def pairTable : Schedule := { frameTicks := 40, build := 0, groups := [⟨1, 0, 0, [0, 1]⟩], bankMap := [], goldens := [], entries := [] }

/-- The pair at a stage, its donor active. -/
def paired (st : ResyncSt) : State :=
  { live with sched := { live.sched with table := some pairTable, groups := [(0, { active := [0], resync := some (1, 0, st) })] } }

/-- Each stage of a re-synchronisation, with the donor at a tile boundary. -/
theorem witness_ResynchronisationMovesOn :
    (paired .waitTb).up = true ∧ ((paired .waitTb).groupRt 0).resync = some (1, 0, .waitTb) ∧ (paired .waitTb).donorsAtBoundary 0 = true
      ∧ ((paired .copying).groupRt 0).resync = some (1, 0, .copying)
      ∧ ((paired .landed).groupRt 0).resync = some (1, 0, .landed) ∧ (paired .landed).donorsAtBoundary 0 = true
      ∧ ((paired .stateSent).groupRt 0).resync = some (1, 0, .stateSent) ∧ ((paired .stateSent).groupRt 0).split = false := by decide

/-! ## The schedule -/

/-- A work entry of core 0 at the start of the frame, for no package. -/
def work0 (kind : Nat) (flags : BitVec 16) : WorkEntry :=
  { tick := 0, kind := kind, part := 1, start := 0, length := 1000, target := 0, prog := 0, modelId := noModel, deadline := 0, ctx := 0
    flags := flags }

/-- A device that counts frames, with these work entries. -/
def framed (es : List WorkEntry) : State :=
  { live with
    tb := { live.tb with framesOn := true }
    sched := { live.sched with table := some { pairTable with groups := [], goldens := [⟨0, 3000, 1⟩], entries := es } } }

/-- The same at another instant. -/
def instant (s : State) (t : Nat) : State := s.onTb (fun x => { x with now := t })

/-- A release of entry 0 in frame 0. -/
def rel0 (deadline : Nat) (st : JobSt) (completed : Option Nat) : Rel :=
  { entry := 0, frame := 0, ctx := 0, cores := [0], at_ := 0, deadline := deadline, st := st, completed := completed }

/-- With these releases. -/
def released (s : State) (rs : List Rel) : State := s.onSched (fun x => { x with rels := rs })

/-- A job of partition 1 for no package. -/
def job0 (st : JobSt) (core : Option (BitVec 6)) : Job :=
  { part := 1, seq := 5, model := noModel, prog := 0, prio := 3, arg := 0, deadline := 90, ctx := 0, irq := false, st := st, core := core }

/-- Partition 1 enabled for background work. -/
def background (s : State) : State :=
  { s with dict := { s.dict with vals := [(kPartition 1, [0, 0, 3] ++ List.replicate 253 0)] } }

/-- With these jobs. -/
def jobbed (s : State) (js : List Job) : State := s.onSched (fun x => { x with jobs := js })

/-- Entries of kind WORK and RADIO at their instant, with no member to take back: startable, not startable, with a lost bank of their
partition; a held release; a preempted one that an entry continues. -/
theorem witness_ReleasesAndEntries_entries :
    let s := framed [work0 0 0]
    let r := framed [work0 1 0]
    let lost := s.onSched (fun x => { x with lostBanks := 1, table := x.table.map (fun t => { t with bankMap := [1] }) })
    let held := released s [rel0 0 .held none]
    let cont := released (framed [work0 0 2]) [rel0 0 .preempted none]
    (s.workEntry 0 = some (work0 0 0) ∧ s.rejoin (work0 0 0) = s ∧ s.entryStarts (work0 0 0) = true ∧ (work0 0 0).isContinue = false)
      ∧ (s.entryLost (work0 0 0) = false ∧ s.startable (work0 0 0) = true)
      ∧ (lost.workEntry 0 = some (work0 0 0) ∧ lost.rejoin (work0 0 0) = lost ∧ lost.entryLost (work0 0 0) = true)
      ∧ s.startable { work0 0 0 with modelId := 7 } = false
      ∧ (r.workEntry 0 = some (work0 1 0) ∧ (work0 1 0).kind = 1 ∧ r.entryStarts (work0 1 0) = true)
      ∧ (held.heldRelease 0 = some (rel0 0 .held none) ∧ held.up = true ∧ held.inRun = true ∧ held.sched.stopped = false
        ∧ (held.rejoin (work0 0 0)).startable (work0 0 0) = true)
      ∧ ((work0 0 2).isContinue = true ∧ cont.workEntry 0 = some (work0 0 2) ∧ cont.entryStarts (work0 0 2) = true
        ∧ cont.continued (work0 0 2) = some (rel0 0 .preempted none) ∧ cont.startable (work0 0 2) = true) := by decide

/-- With one job, the next job is that job or none. -/
theorem nextJob_of_one {s : State} {j : Job} (h : s.sched.jobs = [j]) (p : Nat) :
    s.nextJob p = if j.part.toNat == p && j.st == .queued && s.resident j.model then some j else none := by
  simp only [State.nextJob, h, List.filter]
  split <;> simp_all

/-- The queued job, in the pool and in slack. -/
theorem witness_ReleasesAndEntries_queued :
    (jobbed (framed [work0 2 0]) [job0 .queued none]).preemptedJob 1 [0] = none
      ∧ (jobbed (framed [work0 2 0]) [job0 .queued none]).nextJob 1 = some (job0 .queued none)
      ∧ (jobbed (background (framed [])) [job0 .queued none]).slackCandidate 0 = none
      ∧ (jobbed (background (framed [])) [job0 .queued none]).backgroundJob 0 = some (job0 .queued none) := by
  refine ⟨by decide, ?_, by decide, ?_⟩
  · rw [nextJob_of_one rfl]
    decide
  · simp only [State.backgroundJob, nextJob_of_one (show (jobbed (background (framed [])) [job0 .queued none]).sched.jobs = [job0 .queued none] from rfl)]
    decide +kernel

/-- Preempted work in the pool and in slack; a busy core 3 us before a segment and before an entry of other work; an end, with the power
not capped and capped. -/
theorem witness_ReleasesAndEntries_jobs :
    let s := framed [work0 2 0]
    let p := jobbed s [job0 .preempted (some 0)]
    let v : Saved := ⟨0, prog0, [], 0, some (.job 1 5)⟩
    let z := instant (first (jobbed (framed []) [job0 .preempted (some 0)]) { saved := [v], segsDone := 1000 }) 200000
    let w : WorkEntry := { work0 0 0 with tick := 2 }
    let q := first (instant (framed [w]) 497000) runner
    let e := instant s 1000
    (s.workEntry 0 = some (work0 2 0) ∧ s.entryStarts (work0 2 0) = true ∧ (s.rejoin (work0 2 0)).startable { work0 2 0 with modelId := noModel } = true)
      ∧ p.rejoin (work0 2 0) = p ∧ p.preemptedJob 1 (p.entryPhys (work0 2 0)) = some (job0 .preempted (some 0))
      ∧ (z.up = true ∧ z.inFrames = true ∧ z.sched.stopped = false
        ∧ (∀ m ∈ z.workers 0, z.coreFree m = true ∧ z.occupantAt m z.now = .slack) ∧ z.slackCandidate 0 = some v)
      ∧ ((first (instant s 9999000) runner).occupantAt 0 (9999000 + 3000) = .segment ∧ ((first (instant s 9999000) runner).core 0).busy = true)
      ∧ (q.occupantAt 0 (497000 + 3000) = .entry 0 w ∧ q.sameWork 0 0 w = false ∧ (q.core 0).busy = true)
      ∧ (e.workEntry 0 = some (work0 2 0) ∧ e.up = true ∧ e.inFrames = true ∧ e.now = e.thisFrame + (work0 2 0).to_ ∧ e.pwr.level = 0
        ∧ (e.onPwr (fun y => { y with level := 1 })).pwr.level ≠ 0 ∧ e.rated 1 = false) := by decide +kernel

/-- A golden slot 3 us before it, also across the end of a frame, at its start and at its end; a test that ends; signatures that agree and
differ. -/
theorem witness_TestsAndRemaps_golden :
    let s := framed []
    let g : GoldenEntry := ⟨0, 3000, 1⟩
    let b : GoldenEntry := ⟨0, 1000, 1⟩
    let late := instant (s.onSched (fun x => { x with table := x.table.map (fun t => { t with goldens := [b] }) })) (s.frameLen - 2000)
    let d := s.onSched (fun x => { x with goldenSlots := [0] })
    let e := first (instant d 123000) { variant := some 0 }
    s.goldenEntry 0 = some g ∧ (s.up = true ∧ s.inFrames = true ∧ 0 ∉ s.sched.goldenSlots ∧ s.now + 3000 = s.thisFrame + g.from_)
      ∧ (late.goldenEntry 0 = some b ∧ late.up = true ∧ late.inFrames = true ∧ late.now + 3000 = late.thisFrame + late.frameLen + b.from_)
      ∧ ((instant d 3000).inFrames = true ∧ (instant d 3000).now = (instant d 3000).thisFrame + g.from_)
      ∧ (e.aonUp = true ∧ e.slotOver 0 g = true ∧ e.thisFrame + g.from_ ≤ e.now)
      ∧ (((first s { st := .golden }).core 0).st = .golden ∧ (e.core 0).variant = some 0 ∧ (e.core 0).st = .idle ∧ (e.core 0).sig = e.isl.expected.getD 0 0
        ∧ ((first s { st := .idle, variant := some 0, sig := 1 }).core 0).sig ≠ e.isl.expected.getD 0 0
        ∧ ((first s { st := .golden, variant := some 0 }).core 0).st ≠ .idle) := by decide +kernel

/-- A segment that may start, one that agrees and is not the last, and the last; a core whose work may move home, a withdrawn core whose
work moves to a substitute, one that moves, and one that moves for 5002 ns. -/
theorem witness_TestsAndRemaps_remaps :
    let s := framed []
    let away := s.onSched (fun x => { x with coreMap := [5, 1, 2, 3, 4, 0] ++ x.coreMap.drop 6 })
    let owned : State := { s with dict := { s.dict with vals := [(kPartition 1, [0, 0, 1, 0, 0, 0, 0, 0, 1] ++ List.replicate 247 0)] } }
    let gone := owned.onSched (fun x => { x with withdrawn := 1 })
    let moving := s.onSched (fun x => { x with remaps := [remap9] })
    ((instant s 200000).coreFree 0 = true ∧ (s.core 0).segsDone < s.cfg 0x230001 ∧ (instant s 200000).segmentAllowed 0 = true
        ∧ (instant s 200000).segmentFits 0 = true)
      ∧ (((first s { st := .selftest }).core 0).st = .selftest ∧ 0 + 1 < s.cfg 0x230001 ∧ s.cfg 0x230001 ≤ (s.cfg 0x230001 - 1) + 1)
      ∧ (away.inRun = true ∧ (∀ r ∈ away.sched.remaps, r.old ≠ 5) ∧ away.workAtBoundary 5 = true ∧ away.remapPlan 5 ≠ []
        ∧ away.placesFree (away.remapPlan 5) = true ∧ away.remapTakes (away.remapPlan 5) = false)
      ∧ (gone.inRun = true ∧ gone.workAtBoundary 0 = true ∧ gone.remapPlan 0 ≠ [] ∧ gone.placesFree (gone.remapPlan 0) = true
        ∧ gone.remapTakes (gone.remapPlan 0) = true)
      ∧ (moving.remapsOf 9 ≠ [] ∧ ∃ r ∈ (instant moving 5002).remapsOf 9, r.since + 5002 ≤ (instant moving 5002).now) := by decide +kernel

/-- A release completed at its deadline, after it, and not; a job past its deadline that waits, runs and is preempted. -/
theorem witness_DeadlinesAreChecked :
    let s := instant (framed [work0 0 0]) 1000
    (s.up = true ∧ s.inRun = true ∧ s.workEntry 0 = some (work0 0 0))
      ∧ (∀ c ∈ [some 64, some 65, none], ((released s [rel0 64 .running c])).dueRelease 0 = some (rel0 64 .running c))
      ∧ (64 ≤ (rel0 64 .running (some 64)).deadline ∧ (rel0 64 .running (some 65)).deadline < 65)
      ∧ ∀ j ∈ [job0 .queued none, job0 .running (some 0), job0 .preempted (some 0)],
        (jobbed s [j]).sched.jobs.find? (fun j => j.part == 1 && j.seq == 5 && j.deadline != 0 && decide (j.deadline + 2 ≤ s.now)) = some j := by decide

/-! ## Commands and contexts -/

/-- A running device with one package, a partition 1 that may hold a job, and a pair of that partition. -/
def serving : State :=
  { live with
    dict := { live.dict with vals := [(kPartition 1, List.replicate 18 0 ++ [1] ++ List.replicate 237 0), (0x302000, [1]), (0x310003, [1]), (0x311002, [64])] }
    sched := { live.sched with table := some { pairTable with groups := [⟨1, 1, 0, [0, 1]⟩] }, groups := [(0, { active := [0, 1] })] }
    mem := { live.mem with regions := [(0, { base := 1, rights := BitVec.ofNat 64 (2 ^ 52), limit := BitVec.ofNat 64 (2 ^ 32) })] } }

/-- A command of partition 1. -/
def cmd1 (w0 w1 w2 : Word64) : Cmd := { seq := 9, w0 := w0, w1 := w1, w2 := w2, w3 := 0 }

/-- It waits. -/
def submitted (s : State) (c : Cmd) : State := s.onSched (fun x => { x with windows := [(1, { cmds := [c] })] })

/-- With context 3 of partition 1. -/
def opened (s : State) (st : CtxState) : State := s.onCtx (fun x => { x with table := [(3, { st := st, part := 1, positions := 1 })] })

/-- A window with room for one more, one without a ring, and records that their checks refuse. -/
theorem witness_SubmitAcceptsOrRefuses :
    let win : Window → State := fun w => live.onSched (fun x => { x with windows := [(0, w)] })
    live.up = true ∧ ((win { cqLog2 := 8, pending := 255 }).submitRefusal 0 11 = 0 ∧ bits (0x0C : Nat) 7 0 ≤ 0x0C ∧ 0x0C < bits (0x0D : Nat) 7 0)
      ∧ (win {}).submitRefusal 0 11 ≠ 0 ∧ (win { cqLog2 := 16, pending := 256 }).submitRefusal 0 11 ≠ 0
      ∧ ((submitted live (cmd1 0 1 0)).cmdOf 1 9 0 = some (cmd1 0 1 0) ∧ (cmd1 0 1 0).form 0 0 0 = false)
      ∧ ((submitted live (cmd1 1 0 0)).cmdOf 1 9 1 = some (cmd1 1 0 0) ∧ live.runJobStatus 1 (cmd1 1 0 0) ≠ 0)
      ∧ ((submitted live (cmd1 2 0 0)).cmdOf 1 9 2 = some (cmd1 2 0 0) ∧ live.openStatus 1 (cmd1 2 0 0) ≠ 0)
      ∧ ((submitted live (cmd1 3 0 0)).cmdOf 1 9 3 = some (cmd1 3 0 0) ∧ live.forkStatus 1 (cmd1 3 0 0) ≠ 0)
      ∧ ((submitted live (cmd1 5 0 0)).cmdOf 1 9 5 = some (cmd1 5 0 0) ∧ live.blockStatus 1 (cmd1 5 0 0) ≠ 0)
      ∧ ((submitted live (cmd1 6 0 0)).cmdOf 1 9 6 = some (cmd1 6 0 0) ∧ live.unblockStatus 1 (cmd1 6 0 0) ≠ 0)
      ∧ ((submitted live (cmd1 7 0 0)).cmdOf 1 9 7 = some (cmd1 7 0 0) ∧ live.teardownStatus 1 (cmd1 7 0 0) ≠ 0)
      ∧ ((submitted live (cmd1 9 0 0)).cmdOf 1 9 9 = some (cmd1 9 0 0) ∧ live.modelPinStatus 1 (cmd1 9 0 0) ≠ 0)
      ∧ ((submitted live (cmd1 11 0 0)).cmdOf 1 9 11 = some (cmd1 11 0 0) ∧ live.reformStatus 1 (cmd1 11 0 0) ≠ 0)
      ∧ ((submitted live (cmd1 4 0 0)).cmdOf 1 9 4 = some (cmd1 4 0 0) ∧ (cmd1 4 0 0).form 0 0 0 = true ∧ live.ctxStatus 1 (cmd1 4 0 0).ctx ≠ 0)
      ∧ (let c := cmd1 (12 + BitVec.ofNat 64 (3 * 2 ^ 32)) 0 0
         let z := opened (live.onSched (fun x => { x with windows := [(2, { cmds := [c] })] })) .resident
         z.cmdOf 2 9 12 = some c ∧ c.form 0 0 0 = true ∧ (z.ctxOf c.ctx).st ≠ .free ∧ (z.ctxOf c.ctx).part ≠ 2)
      ∧ ((submitted live (cmd1 8 0 1)).cmdOf 1 9 8 = some (cmd1 8 0 1) ∧ live.modelLoadStatus 1 (cmd1 8 0 1) ≠ 0)
      ∧ ((submitted live (cmd1 10 0 0)).cmdOf 1 9 10 = some (cmd1 10 0 0) ∧ live.splitStatus 1 (cmd1 10 0 0) ≠ 0) := by decide

/-- Commands that need no model pass their checks: NOP, FORK, LEAVE, BLOCK, UNBLOCK, TEARDOWN of a context and of a job, SPLIT_PAIR,
REFORM_PAIR, CTX_QUERY of a free context and of one of the partition. -/
theorem witness_CommandsComplete_plain :
    let ctx : Word64 := BitVec.ofNat 64 (3 * 2 ^ 32)
    let split := serving.onGroup 0 (fun x => { x with split := true })
    ((submitted serving (cmd1 0 0 0)).cmdOf 1 9 0 = some (cmd1 0 0 0) ∧ (cmd1 0 0 0).form 0 0 0 = true)
      ∧ (opened serving .resident).forkStatus 1 (cmd1 3 3 1) = 0
      ∧ ((cmd1 (4 + ctx) 0 0).form 0 0 0 = true ∧ (opened serving .resident).ctxStatus 1 (cmd1 (4 + ctx) 0 0).ctx = 0)
      ∧ (opened serving .resident).blockStatus 1 (cmd1 (5 + ctx) 0 0) = 0 ∧ (opened serving .blocked).unblockStatus 1 (cmd1 (6 + ctx) 0 0) = 0
      ∧ ((opened serving .resident).teardownStatus 1 (cmd1 (7 + ctx) 0 0) = 0 ∧ bits (0 : Nat) 31 0 = 0)
      ∧ ((jobbed serving [job0 .queued none]).teardownStatus 1 (cmd1 7 5 0) = 0 ∧ bits (5 : Nat) 31 0 ≠ 0
        ∧ (jobbed serving [job0 .queued none]).jobOf 1 5 = some (job0 .queued none))
      ∧ serving.splitStatus 1 (cmd1 10 0 0) = 0 ∧ split.reformStatus 1 (cmd1 11 0 0) = 0
      ∧ ((cmd1 (12 + ctx) 0 0).form 0 0 0 = true ∧ (serving.ctxOf (cmd1 (12 + ctx) 0 0).ctx).st = .free
        ∧ ((opened serving .resident).ctxOf (cmd1 (12 + ctx) 0 0).ctx).part = 1) := by decide

/-- The model of the package, which Config leaves open. -/
def model0 : Word := Config.packageModel [1]

/-- The package is found; its model may be loaded where it has, which Config leaves open, at most 4,096 tensors (R113). -/
theorem serving_knows (few : Config.tensorCount model0 ≤ 4096) : serving.modelStatus 1 model0 = 0 := by
  have h : serving.packageOf model0 = some [1] := by
    have e : (List.range 64).map (fun i => serving.entry (0x302000 + 256 * i)) = [1] :: List.replicate 63 [] := by decide
    rw [State.packageOf, e, List.find?_cons]
    simp [model0]
  have f : serving.modelForeign 1 model0 = false := rfl
  rw [State.modelStatus, State.modelKnown, h, f, decide_eq_false (Nat.not_lt.mpr few)]
  rfl

/-- A mask of at least 32 bits leaves a model number. -/
theorem land_model (k : Nat) (h : 32 ≤ k) : Nat.land model0.toNat (2 ^ k - 1) = model0.toNat := by
  have := model0.isLt
  exact (Nat.and_two_pow_sub_one_eq_mod _ _).trans (Nat.mod_eq_of_lt (Nat.lt_of_lt_of_le this (Nat.pow_le_pow_right (by decide) h)))

/-- With the model resident. -/
def holding0 : State := serving.onSched (fun x => { x with models := [⟨model0, 0, false, 0⟩] })

/-- The model's number as a record word. -/
def mword : Word64 := BitVec.ofNat 64 model0.toNat

/-- The word's value and low half. -/
theorem mword_value : mword.toNat = model0.toNat ∧ BitVec.ofNat 32 mword.toNat = model0 := by
  have w : mword.toNat = model0.toNat := by
    rw [mword, BitVec.toNat_ofNat, Nat.mod_eq_of_lt (Nat.lt_trans model0.isLt (by decide))]
  exact ⟨w, by rw [w, BitVec.ofNat_toNat, BitVec.setWidth_eq]⟩

/-- The bits of the word below bit 32 are the model's, and above it has none. -/
theorem mword_high (h l : Nat) (k : 32 ≤ l) : bits mword.toNat h l = 0 := by
  rw [mword_value.1, bits, Nat.div_eq_of_lt (Nat.lt_of_lt_of_le model0.isLt (Nat.pow_le_pow_right (by decide) k)), Nat.zero_mod]

/-- RUN_JOB, OPEN and MODEL_LOAD of a known model of at most 4,096 tensors pass their checks; MODEL_PIN does once it is resident. -/
theorem witness_CommandsComplete_models (few : Config.tensorCount model0 ≤ 4096) :
    serving.runJobStatus 1 (cmd1 1 mword 0) = 0 ∧ serving.openStatus 1 (cmd1 2 0 mword) = 0
      ∧ holding0.modelPinStatus 1 (cmd1 9 mword 0) = 0
      ∧ serving.modelLoadStatus 1 (cmd1 8 mword 0) = 0 := by
  have e := mword_value
  have k := serving_knows few
  have l : ∀ j, 32 ≤ j → (Nat.land mword.toNat (2 ^ j - 1) == mword.toNat) = true := fun j h => by
    rw [e.1, land_model j h]
    exact beq_self_eq_true _
  have f1 : (cmd1 1 mword 0).form (2 ^ 56 - 1) (2 ^ 48 - 1) (2 ^ 64 - 1) = true := by
    simp only [Cmd.form, cmd1, l 56 (by decide)]
    decide
  have f2 : (cmd1 2 0 mword).form (2 ^ 60 - 1) (2 ^ 58 - 1) (2 ^ 32 - 1) = true := by
    simp only [Cmd.form, cmd1, l 58 (by decide)]
    decide
  have f3 : (cmd1 9 mword 0).form (2 ^ 33 - 1) 0 0 = true := by
    simp only [Cmd.form, cmd1, l 33 (by decide)]
    decide
  have f4 : (cmd1 8 mword 0).form (2 ^ 32 - 1) 0 0 = true := by
    simp only [Cmd.form, cmd1, l 32 (by decide)]
    decide
  refine ⟨?_, ?_, ?_, ?_⟩
  · have m : BitVec.ofNat 32 (cmd1 1 mword 0).w1.toNat = model0 := e.2
    unfold State.runJobStatus
    rw [f1, m, k]
    decide
  · have o : openCtx 1 (cmd1 2 0 mword) = { st := .joining, part := 1, modelId := model0, layers := 1, kvHeads := 1, split := 1, blockCap := 1 } := by
      unfold openCtx
      rw [show (cmd1 2 0 mword).w2 = mword from rfl, e.2, mword_high _ _ (by decide), mword_high _ _ (by decide), mword_high _ _ (by decide),
        mword_high _ _ (by decide)]
      rfl
    unfold State.openStatus
    rw [f2, show BitVec.ofNat 4 1 = (1 : BitVec 4) from rfl, o]
    simp only []
    rw [k]
    decide
  · have m : BitVec.ofNat 32 (cmd1 9 mword 0).w1.toNat = model0 := e.2
    have q : holding0.modelStatus 1 model0 = 0 := k
    have r : holding0.resident model0 = true := by
      rw [State.resident, show holding0.sched.models = [⟨model0, 0, false, 0⟩] from rfl]
      simp
    unfold State.modelPinStatus
    simp only [f3, m, q, r]
    decide
  · have m : BitVec.ofNat 32 (cmd1 8 mword 0).w1.toNat = model0 := e.2
    unfold State.modelLoadStatus
    simp only [f4, m, k]
    decide

/-- The engine's write into that ring lands, wherever the context table lies. -/
theorem witness_CompletionsAndLoadsLand_ring : (live.engineWrite 3 srcSched (0 * 64 + 16 * (9 % 2 ^ 8)) (List.replicate 16 1)).2 = true := by
  have h : (live.shutter (.engine 3 (BitVec.ofNat 9 srcSched)) 0 144 16 true).1 = true := by
    unfold State.shutter
    rw [if_neg (by decide)]
    simp only []
    rw [if_neg (by simp)]
    split
    · rfl
    · decide
  show (live.engineWrite 3 srcSched 144 (List.replicate 16 1)).2 = true
  exact (congrArg Prod.snd (if_pos h)).trans rfl

/-- A command in its window with a ring; windows without one and with a fault; a load that needs no room. -/
theorem witness_CompletionsAndLoadsLand :
    let t := submitted (serving.onSched (fun x => { x with loads := [⟨7, none, 1⟩] })) (cmd1 0x100 0 0)
    (t.window 1).cmds.find? (fun y => y.seq == 9) = some (cmd1 0x100 0 0) ∧ (t.window 1).cqFault = false ∧ (t.window 1).cqLog2.toNat < 8
      ∧ (({ cqLog2 := 8 } : Window).cqLog2.toNat = 8 ∧ (live.onWindow 1 (fun w => { w with cqFault := true })).up = true)
      ∧ (t.up = true ∧ t.sched.loads = [⟨7, none, 1⟩] ∧ (State.makeRoom 65 t 0).isSome = true) := by decide

/-- A resident model without a boundary that waits; contexts whose swap lands; a step not held yet, nodes before and behind
this one, and a step that waits too long for its decision; a page with one reference and one with
more, and another page. -/
theorem witness_ContextsAndPages :
    let x : Contexts := { pages := [(pageNo 0 4, (1, 1)), (pageNo 2 (2 ^ 25 - 1), (1, 3))] }
    (live.up = true ∧ live.inRun = true ∧ live.resident noModel = true ∧ live.boundaryWaits 1 noModel = false)
      ∧ ((opened live .swappingOut).ctxOf 3).st = .swappingOut ∧ ((opened live .swappingIn).ctxOf 3).st = .swappingIn
      ∧ (1, noModel) ∉ live.ctx.heldSteps
      ∧ (live.fab.nodeId.toNat < (1 : BitVec 3).toNat ∧ (0 : BitVec 3).toNat ≤ live.fab.nodeId.toNat ∧ live.ctx.awaiting = [])
      ∧ (let u := instant (live.onCtx (fun y => { y with awaiting := [(1, noModel, 0)] })) (live.cfg 0x170003 + 2)
         u.inRun = true ∧ u.decisionExpiry 1 noModel = some (live.cfg 0x170003) ∧ live.cfg 0x170003 + 2 ≤ u.now)
      ∧ (sfind x.pages (pageNo 0 4) = some (1, 1) ∧ 1 ≤ 1) ∧ (2 ^ 25 - 1 < 2 ^ 25 ∧ sfind x.pages (pageNo 2 (2 ^ 25 - 1)) = some (1, 3))
      ∧ ((2 : BitVec 6), 2 ^ 25 - 1) ≠ (0, 4) := by decide

/-! ## Sensors and the radio -/

/-- The live device with these values in its dictionary. -/
def configured (vals : List (Nat × Bytes)) : State := { live with dict := { live.dict with vals := vals } }

/-- The first bytes of a record: each offset with its byte. -/
def record (l : List (Nat × Byte)) : Bytes := (List.range 64).map (fun i => ((l.find? (fun e => e.1 == i)).map (·.2)).getD 0)

/-- Stream 5: a camera on door 2, virtual channel 1, RAW8, one line of two pixels; stream 7: Ethernet door 0. -/
def sensing : State :=
  configured [(0x410000 + 256 * 5, record [(0, 1), (1, 2), (2, 1), (3, 0x2A), (0x1C, 2), (0x1E, 1)]), (0x410000 + 256 * 7, record [(0, 2), (1, 8)])]

/-- A frame of 64 bytes at door 0, of that stream's host and port. -/
def frame0 : EthFrame :=
  { door := 0, bytes := 64, fcsOk := true, vlan := 0, isIp := true, ipOk := true, fragment := false, srcIp := 0, srcMac := 0, udpOk := true
    udpSrc := 0, udpDst := 0, payload := [] }

/-- An open sample of stream 5. -/
def sample5 : Sample := { stream := 5, seq := 0, capture := 0, openedAt := 0 }

/-- A frame start that opens a sample, one that no descriptor matches, a line that passes; frames of a sensor and of none, at the bounds of
length; and origins within and beyond a throttle. -/
theorem witness_SensorDataArrives :
    let o := sensing.onSpring (fun x => { x with samples := [sample5] })
    let z := live.onSpring (fun x => { x with viols := [{ key := (1, 0, 0), throttledSince := some 0, admitted := 2 ^ 32 }] })
    sensing.up = true ∧ sensing.cameraStreams 2 1 = [5] ∧ sensing.cameraStreams 2 3 = []
      ∧ (sensing.openCamera 5 = none ∧ sensing.captureCounts (sensing.cameraCapture 5) = true)
      ∧ (o.cameraStream 2 1 0x2A = some 5 ∧ o.openCamera 5 = some sample5 ∧ 8 * 2 = o.streamField 5 0x1C 2 * pixelBits 0x2A
        ∧ sample5.lines < o.streamHeight 5 ∧ sample5.reason = 0)
      ∧ (violOf (ethOrigin frame0) sensing.spring.viols).throttledSince = none
      ∧ (frame0.fcsOk = true ∧ 64 ≤ frame0.bytes ∧ ({ frame0 with bytes := 9022 } : EthFrame).bytes ≤ 9022)
      ∧ sensing.ethStream frame0 = some 7 ∧ sensing.ethStream { frame0 with door := 1 } = none
      ∧ (9022 < ({ frame0 with bytes := 9023 } : EthFrame).bytes ∧ ({ frame0 with bytes := 63 } : EthFrame).bytes < 64)
      ∧ ((violOf (ethOrigin frame0) z.spring.viols).throttledSince.isSome = true
        ∧ z.cfg 0x400003 ≤ (violOf (ethOrigin frame0) z.spring.viols).admitted ∧ z.ethStream frame0 = none) := by decide +kernel

/-- A payload with one field of one value. -/
def drc1 : Bytes := [0x43, 0x44, 1, 0, 1, 0, 0, 0] ++ List.replicate 12 0 ++ List.replicate 8 0x55


/-- A complete sample and an idle decoder; decodes within and beyond their budgets; a batch at its tick, and one with every outcome
settled. -/
theorem witness_DecodersAndBatches :
    let y : Sample := { sample5 with complete := true }
    let u := live.onSpring (fun x => { x with samples := [y] })
    let v := u.onSpring (fun x => { x with decoders := [some ⟨5, 0, 0, 0⟩, none] })
    let w := instant (v.onSpring (fun x => { x with samples := [{ y with data := drc1 }] })) 2
    let b : State := { configured [(0x440000, record [(2, 1)])] with tb := { live.tb with framesOn := true } }
    (u.up = true ∧ u.spring.decoders.getD 0 none = none ∧ firstSample u.skipStale.decodable = some y)
      ∧ (v.decoding 0 = some (⟨5, 0, 0, 0⟩, y) ∧ drcCycles y.data ≤ 0 ∧ 0 + drcCycles y.data ≤ v.now)
      ∧ (w.decoding 0 = some (⟨5, 0, 0, 0⟩, { y with data := drc1 }) ∧ 0 < drcCycles drc1 ∧ 0 + 0 + 2 ≤ w.now)
      ∧ b.closesNow 0 = true
      ∧ (let t := b.onSpring (fun x => { x with batches := [(0, { closedAt := some 0 })] })
         (t.batchRt 0).closedAt.isSome = true ∧ t.slotsSettled 0 = true) := by decide +kernel

/-- The device with carrier 0 in this state. -/
def carrying (s : State) (c : Carrier) : State := s.onRadio (fun r => { r with carriers := c :: r.carriers.drop 1 })

/-- A slot in progress. -/
def slot0 : SlotRt := { n := 0, gi := 15, bank := 0, gridSeq := 0 }

/-- A door whose link aligns, and one that is up; a slot boundary that is due; gains not settled, settling, and frozen by the symbol's
end. -/
theorem witness_RadioLinksAndSlots :
    let d0 := live.onRadioDoor 0 (fun x => { x with link := .aligning, aligned := true })
    let d1 := (configured [(0x501000, record [(1, 1)])]).onRadioDoor 0 (fun x => { x with link := .up })
    let c := carrying live { on := true }
    let g := carrying live { on := true, slots := [slot0] }
    (d0.up = true ∧ (d0.radioDoor 0).link = .aligning ∧ (d0.radioDoor 0).aligned = true)
      ∧ (d1.up = true ∧ (d1.radioDoor 0).link = .up ∧ d1.jesdField 0 1 1 = 1)
      ∧ c.slotDue 0 = true
      ∧ (violOf (0, 0, 0) d1.radio.viols).throttledSince.isSome = false
      ∧ (g.curSlot 0 = some slot0 ∧ g.leadsDoor 0 = true ∧ slot0.frozen = false ∧ slot0.settled = false ∧ slot0.lost = false ∧ slot0.settling = false) := by decide

/-- A detection with as many mismatches as SYNC_MAX; a grid slot at its first and at its last symbol; a transmit list at its first
instant. -/
theorem witness_DetectionsAndGrids :
    let g := carrying (configured [(0x510000, record [(0x16, 2), (0x18, 1)])]) { on := true, slots := [slot0] }
    let h := carrying live { on := true, slots := [{ slot0 with symbols := 13 }] }
    let t := carrying live { on := true, txs := [{ slot := 0, bytes := [] }] }
    (g.up = true ∧ g.curSlot 0 = some slot0 ∧ slot0.lost = false ∧ bit slot0.txSym (g.chipSymbol 0 slot0.n 0) = false)
      ∧ (mismatches (g.carrierField 0 0x16 2) 0 (g.entry 0x514000) (g.syncChips 0 [] [] 0) (g.syncChips 0 [] [] 1) ≤ g.carrierField 0 0x18 2
        ∧ (g.carrier 0).noDetBefore ≤ 0)
      ∧ (g.gridSlot 0 = some slot0 ∧ 0 = slot0.symbols) ∧ h.gridSlot 0 = some { slot0 with symbols := 13 }
      ∧ (t.listDue 0 = some { slot := 0, bytes := [] } ∧ (t.radioDoor 0).transmitting = false ∧ (t.radioDoor 0).txStopped = false) := by decide +kernel

/-- A job of 64 bytes with this SLOT and DEADLINE. -/
def jobAt (slot deadline : Byte) : Bytes := List.replicate 8 0 ++ [slot] ++ List.replicate 31 0 ++ [deadline] ++ List.replicate 23 0

/-- The device with engine 0 in this state. -/
def decodes (e : Engine) : State := live.onRadio (fun r => { r with engines := [e, {}] })

/-- A granule that may land; a job to start, of a good slot and of a lost one; jobs in time, past their deadline, without share, and one
waiting too long; an old LTE soft buffer. -/
theorem witness_DecodersAndTransmission_decoders :
    let j := jobAt 0 9
    let p := decodes { pending := [j], share := [1, 0, 0, 0] }
    let l := carrying p { slots := [{ slot0 with lost := true }] }
    let r := decodes { running := some (j, 0), share := [10, 0, 0, 0] }
    let o := carrying (instant (configured [(0x510000, record [(1, 0)])]) 16000000) {}
    (p.up = true ∧ j.length = 64 ∧ serialAfter (live.decoder 0).next (jobSeq j) = false)
      ∧ ((p.decoder 0).running = none ∧ p.nextDecode 0 = some j ∧ p.slotOutcome j = none)
      ∧ (l.nextDecode 0 = some j ∧ l.slotOutcome j = some 4)
      ∧ ((r.decoder 0).running = some (j, 0) ∧ r.now ≤ r.jobLimit j ∧ (instant r 11).jobLimit j + 2 ≤ (instant r 11).now
        ∧ (instant r 10).shareLeft 0 (jobCarrier j) = 0)
      ∧ ((p.decoder 0).pending.find? (fun k => jobSeq k == jobSeq j) = some j
        ∧ (p.decoder 0).running.map (fun r => jobSeq r.1) ≠ some (jobSeq j) ∧ (instant p 10).jobLimit j < (instant p 10).now)
      ∧ (∀ k ∈ (p.decoder 0).landed, jobSeq k ≠ jobSeq j)
      ∧ (o.carrierField 0 0 1 = 0 ∧ o.fullSlot 0 0 + 16 ≤ o.slotNow 0) := by decide +kernel

/-- An occasion at which the carrier may transmit, one without lock and a slot that began without it; descriptors in time at the bound, of a
slot that is taken, and too late; candidates that pass
and that fail. -/
theorem witness_DecodersAndTransmission_transmission :
    let s := ((carrying (configured [(0x510000, record [(0x10, 1), (0x0E, 1)])]) { on := true, slots := [{ slot0 with synced := true }], verdict := 1, candidate := some (0, 1) }).onTb
      (fun t => { t with lock := .locked })).onRadioDoor 0 (fun x => { x with link := .up })
    let desc := fun (n : Byte) => List.replicate 8 0 ++ [n] ++ List.replicate 55 0
    (s.curSlot 0 = some { slot0 with synced := true } ∧ s.carrierField 0 0x10 1 ≠ 0 ∧ slot0.n % s.carrierField 0 0x10 1 = 0 ∧ s.tb.lock = .locked
        ∧ (s.radioDoor (s.carrierDoor 0)).link = .up ∧ (s.radioDoor (s.carrierDoor 0)).txStopped = false ∧ s.carrierField 0 0x0E 1 = 1)
      ∧ (live.tb.lock ≠ .locked ∧ slot0.synced = false)
      ∧ ((s.carrier 0).on = true ∧ (desc 2).length = 64 ∧ s.txInTime 0 (s.fullSlot 0 (fieldAt (desc 2) 8 4)) = true
        ∧ fieldAt (desc 2) 4 1 = 0 ∧ fieldAt (desc 2) 5 1 ≤ 1
        ∧ (let z := s.onCarrier 0 (fun x => { x with txs := [{ slot := s.fullSlot 0 (fieldAt (desc 2) 8 4), bytes := desc 2 }] })
           z.txInTime 0 (z.fullSlot 0 (fieldAt (desc 2) 8 4)) = true ∧ ∃ t ∈ (z.carrier 0).txs, t.slot = z.fullSlot 0 (fieldAt (desc 2) 8 4))
        ∧ (∀ t ∈ (s.carrier 0).txs, t.slot ≠ s.fullSlot 0 (fieldAt (desc 2) 8 4)) ∧ s.txInTime 0 (s.fullSlot 0 (fieldAt (desc 1) 8 4)) = false)
      ∧ ((s.carrier 0).verdict = 1 ∧ (s.carrier 0).candidate = some (0, 1) ∧ crc32c (s.bankBytes 0 1) = (0 : Word).toNat ∧ crc32c (s.bankBytes 0 1) ≠ (1 : Word).toNat) := by
  decide +kernel

/-! ## Memory and faults -/

/-- An access by the island. -/
def access0 (addr len : Nat) (write : Option Bytes) : Access := ⟨.island, addr, len, write, false, 0, none⟩

/-- Writes to the Reservoir's last byte and past it, by its own address and by the own node's, by an engine for a context; to registers; to a Pond not yet initialised, to a Lake page kept for retirement (refused), to a reserved address,
and to and from another node; a register of violations free and taken. -/
theorem witness_MemoryAccessesComplete :
    let s := live
    let cold := live.onMem (fun m => { m with pondReady := false })
    let top := resBase + 0x4000000 - 1
    s.up = true ∧ (s.isMemory top = true ∧ (s.shutter .island (s.partOf .island) top 1 true).1 = true ∧ s.mustWait top 1 = false
        ∧ (access0 top 1 (some [7])).write.isSome = true)
      ∧ (cold.isMemory pondBase = true ∧ (cold.shutter .island (cold.partOf .island) pondBase 4 true).1 = true ∧ cold.mustWait pondBase 4 = true)
      ∧ (s.isMemory (0x8000000 - 4) = true ∧ (s.shutter .island (s.partOf .island) (0x8000000 - 4) 4 true).1 = false)
      ∧ (s.isMemory top = true ∧ s.isMemory (top + 2 - 1) = false)
      ∧ (s.homeAddr top = top ∧ s.homeAddr (2 ^ 47 + top) = top)
      ∧ ((⟨.engine 3 5, top, 2, none, false, 0, some 9⟩ : Access).ctx = some 9 ∧ (∀ p src, (access0 top 2 none).by_ ≠ .engine p src))
      ∧ (s.isMemory 0x2000000000 = false ∧ s.placeOf 0x2000000000 ≠ .reserved)
      ∧ s.placeOf 0x1FFFFFFFFF = .reserved ∧ s.placeOf (2 ^ 47 + 3 * 2 ^ 44 + 8) = .remote 3 8
      ∧ (resBase ≤ top ∧ top + 1 ≤ resBase + 0x4000000 ∧ (access0 top 1 (some [7])).upset = 0 ∧ s.mem.synd = [] ∧ ([7] : Bytes).length = 1)
      ∧ s.mem.violSrc.getLsbD 32 = false ∧ (BitVec.ofNat 64 (2 ^ 32)).getLsbD 32 = true := by decide +kernel

/-- A read of the context table, wherever Config puts it in the Lake and outside the pages kept for retirement. -/
theorem witness_MemoryAccessesComplete_table (h : Config.ctxTableBase + 0x1000000 ≤ 0x200000000) (h' : live.reachesReserve Config.ctxTableBase 8 = false) :
    live.isMemory Config.ctxTableBase = true ∧ live.isMemory (Config.ctxTableBase + 8 - 1) = true
      ∧ (live.shutter .island 0 Config.ctxTableBase 8 false).1 = true ∧ live.mustWait Config.ctxTableBase 8 = false := by
  have p : ∀ a, a < 0x200000000 → live.placeOf a = .lake (a / 0x8000000) (a % 0x8000000) := fun a l => if_pos l
  have l0 : Config.ctxTableBase < 0x200000000 := by omega
  have l7 : Config.ctxTableBase + 8 - 1 < 0x200000000 := by omega
  refine ⟨?_, ?_, ?_, ?_⟩
  · rw [State.isMemory, p _ l0]
  · rw [State.isMemory, p _ l7]
  · rw [State.shutter, h']
    rfl
  · rw [State.mustWait, p _ l0]
    exact List.any_eq_false.mpr (fun i _ h => Bool.noConfusion (h.symm.trans rfl))

/-- Banks with 7 and with 8 refreshes postponed; channels with 2 and with 3 alerts; channels with 1 and with 2 failed trainings. -/
theorem witness_LakeUpkeepCompletes :
    live.up = true ∧ sget 0 ({ postponed := [(3, 7)] } : LakeCh).postponed 3 < 8 ∧ 8 ≤ sget 0 ({ postponed := [(3, 8)] } : LakeCh).postponed 3
      ∧ (live.lake 0).state < 2 ∧ ({ alerts := 2 } : LakeCh).alerts < 3 ∧ 3 ≤ ({ alerts := 3 } : LakeCh).alerts
      ∧ ((live.lake 0).trained = false ∧ (live.lake 0).state = 0 ∧ ({ attempts := 1 } : LakeCh).attempts < 2 ∧ 2 ≤ ({ attempts := 2 } : LakeCh).attempts) := by decide

/-- An address of each tier; a clean word, one with a wrong bit, and one not correctable; a unit being copied; LPDDR channels at their
second and at their third failure, and memory below and at the wanted group. -/
theorem witness_MemoryUpkeepCompletes :
    let w := live.onMem (fun m => { m with waiting := [access0 (lpBase + 0x10000000) 8 none], lpTop := 0xA00000000, lpMark := lpBase + 0x10000000 })
    let v := live.onMem (fun m => { m with lpTop := 0xA00000000, lpMark := lpBase + 0x10000000 })
    (live.up = true ∧ live.inTier .lake 0 = true ∧ live.inTier .pond pondBase = true ∧ live.inTier .reservoir resBase = true)
      ∧ decodeSyndrome 0 = .clean ∧ decodeSyndrome 1 = .correct 0 ∧ decodeSyndrome 0x80 = .ue
      ∧ ((live.onLake 0 (fun l => { l with copying := some 5 })).lake 0).copying = some 5
      ∧ ((8 : BitVec 4) ≠ 0 ∧ (∀ k, k < 4 → (8 : BitVec 4).getLsbD k = true → [2, 2, 2, 1].getD k 0 < 2) ∧ (∀ k, k < 4 → [2, 2, 2, 1].getD k 0 < 3)
        ∧ ∃ k, k < 4 ∧ 3 ≤ ((List.range 4).map (fun k => [2, 2, 2, 2].getD k 0 + (if (8 : BitVec 4).getLsbD k then 1 else 0))).getD k 0)
      ∧ (w.mem.lpMark < w.mem.lpTop ∧ w.lpWanted = some ((lpBase + 0x10000000) / 512)) ∧ (v.mem.lpMark < v.mem.lpTop ∧ v.lpWanted = none) := by
  decide +kernel

/-- A report of the fabric and one of core 63; a pulse that has run 10 us; an admitted injection and one not; a core of the island that
reloads; a heartbeat that is late; a watchdog that has run out. -/
theorem witness_FaultAndIslandCommands :
    let r : ReportIn := { origin := 0x8C, group := 35, code := 0, cls := 4, blame := none, ctx := 0, part := 0, detail := 0 }
    let f := live.onBoot (fun b => { b with bootsel := 7 })
    let h := instant { live with tb := { live.tb with framesOn := true } } 25002
    let g := instant (live.onIsl (fun i => { i with wdLast := [some 0, none, none, none, none, none] })) (live.cfg 0x710003 * 1000000 + 2)
    (live.aonUp = true ∧ r.cls.toNat ≤ 4 ∧ r.group.toNat < 36 ∧ live.coreOf r.origin = none)
      ∧ (live.coreOf 63 = some 63 ∧ (3 : BitVec 6).toNat < 4 ∧ (14 : BitVec 8).toNat < 15)
      ∧ (instant (live.onFc (fun c => { c with altPulse := some 0 })) 10000).fc.altPulse = some 0
      ∧ (injectSource (.app 11) = some 0x8B ∧ f.injectOk (BitVec.ofNat 64 (0 * 2 ^ 44)) = true ∧ live.injectOk 0 = false)
      ∧ (live.isl.tmrOut = none ∧ (live.onIsl (fun i => { i with tmrOut := some 0 })).isl.tmrOut = some 0 ∧ (0 : Fin 3) ≠ 1)
      ∧ (h.up = true ∧ h.heartbeatLate = true)
      ∧ (g.up = true ∧ g.isl.wdLast.getD 0 none = some 0 ∧ 0 + g.cfg 0x710003 * 1000000 + 2 ≤ g.now) := by decide +kernel

/-- A record of a class in slot 0. -/
def rec0 (cls : BitVec 3) (active : Bool) : FaultRec := { time := 0, seq := 5, origin := 0, code := 0, cls := cls, active := active, group := 0, made := 0 }

/-- An empty collector and one with a Latch bit; devices running and in another state, with a core that holds work; records that a clear
meets: none, another number, not clearable by its origin, too early at 63 ns, active, and free at 64 ns. -/
theorem witness_FaultsAreCollectedAndCleared :
    let s := fun (c : BitVec 3) (a : Bool) => live.onFc (fun f => { f with slots := [(0, rec0 c a)] })
    (live.fc.freeSlot = some 0 ∧ live.fc.waiting = [] ∧ live.fc.status = 0 ∧ (live.onFc (fun f => { f with status := 1 })).fc.status ≠ 0
        ∧ (2 : BitVec 3).toNat ≤ 2 ∧ (35 : BitVec 6).toNat < 36)
      ∧ (live.dict.state = .run ∧ live.dict.state ≠ .safe ∧ 0 < (first live runner).cores.length ∧ ((first live runner).core 0).busy = true
        ∧ ((first live runner).core 0).preemptAt = none)
      ∧ (sfind live.fc.slots 0 = none ∧ sfind (s 2 false).fc.slots 0 = some (rec0 2 false) ∧ (rec0 2 false).seq ≠ 6)
      ∧ (mayClear 1 2 = true ∧ mayClear 1 3 = false)
      ∧ ((instant (s 2 true) 63).now < (rec0 2 true).made + 64 ∧ (rec0 2 true).made + 64 ≤ (instant (s 2 true) 64).now)
      ∧ ((instant (s 2 false) 64).clearResult 1 0 5 = 0 ∧ (instant (s 2 true) 64).clearResult 1 0 5 ≠ 0) := by decide

/-! ## Boot and the transition -/

/-- An image of one empty section (an island binary) with a key made for this test; its signature and digests were computed apart from the
model. -/
def image0 : Bytes :=
  [71, 77, 73, 90, 1, 0, 1] ++ List.replicate 25 0 ++ List.replicate 32 32
    ++ beBytes 64 0xc749061668652e26040e008fdd5eb77a344a417b7fce19dba575da57cc372a9ef2df5db2d144e9454504c622b51cf38f5006206eb579ff7da6976eff5fbe6480
    ++ List.replicate 256 0
    ++ beBytes 64 0xcfc1aa280eb35359d2d296ba3edd9593b653ecd8ef70af9aabd36e6bc8454d087d8947881e6a8fdfd0508264cb9cae0442693f483533c906fd2b1606473f0bce
    ++ List.replicate 64 0
    ++ [1] ++ List.replicate 7 0 ++ [1] ++ List.replicate 23 0
    ++ beBytes 32 0x1ab21d8355cfa17f8e61194831e81a8f22bec8c728fefb747ed035eb5082aa2b

/-- A flash that holds it in slot A. -/
def flash0 : Flash :=
  { slotA := (image0.zipIdx.filter (fun b => b.1 != 0xFF)).map (fun b => (b.2, b.1))
    rootHash := [beBytes 32 0x12e86bd2a01ba2d5e5571b9d0aa897bf2e669eec0a15be56c84b2ae18ae4b61d] }

/-- The image is valid: header, key, signature and section. -/
theorem image0_parts : flash0.headerOk false = true ∧ flash0.keyOk false = true ∧ flash0.sectionOk false 0 = true ∧ flash0.sections false = 1 := by
  decide +kernel

/-- The slot passes every check of R487. (That the signature holds is a closed computation of some hundred thousand modular products, too
long for the kernel here; it was evaluated, outside the package, and is true.) -/
theorem image0_valid (h : flash0.signatureOk false = true) : flash0.judge false true = 0 := by
  have p := image0_parts
  have b : flash0.badSection false (fun i => flash0.sectionPhase false i == 0) = none := by
    rw [Flash.badSection, p.2.2.2, List.find?_eq_none]
    intro i h
    have e : i = 0 := by simpa using h
    rw [e, p.2.2.1]
    simp
  have r : ¬ fieldAt (flash0.header false) 0x10 1 < flash0.rollback := Nat.not_lt_zero _
  rw [Flash.judge, p.1, p.2.1, h, if_neg r, b]
  rfl

/-- A table of one entry of partition 1 and eight golden slots; its CRC was computed apart from the model. -/
def table0 : Bytes :=
  [67, 83, 1, 0, 132, 0, 0, 0, 1, 0, 0, 0, 8] ++ List.replicate 47 0 ++ [229, 210, 87, 70]
    ++ List.replicate 128 255 ++ [0, 0, 0, 0, 184, 11, 0, 0, 255] ++ List.replicate 7 0 ++ [1, 0, 0, 0, 184, 11, 0, 0, 0, 255] ++ List.replicate 6 0
    ++ [2, 0, 0, 0, 184, 11, 0, 0, 0, 0, 255, 0, 0, 0, 0, 0, 3, 0, 0, 0, 184, 11, 0, 0, 0, 0, 0, 255, 0, 0, 0, 0, 4, 0, 0, 0, 184, 11]
    ++ List.replicate 6 0 ++ [255, 0, 0, 0, 5, 0, 0, 0, 184, 11]
    ++ List.replicate 7 0 ++ [255, 0, 0, 6, 0, 0, 0, 184, 11] ++ List.replicate 8 0 ++ [255, 0, 7, 0, 0, 0, 184, 11] ++ List.replicate 9 0 ++ [255, 0, 0, 0, 1, 64, 13, 3, 0, 232, 3] ++ List.replicate 6 0 ++ [255, 255, 255, 255] ++ List.replicate 12 0

/-- A device in CONFIG that has passed the exercise and holds the table and partition 1. -/
def ready : State :=
  { live with
    fc := { live.fc with fnExercise := 1 }
    dict := { live.dict with
              state := .config
              vals := [(kSchedule, table0), (kPartition 1, [0, 0, 1, 0, 0x90, 0xD0, 3, 0, 1] ++ List.replicate 23 0), (0x230001, [0])] }
    sched := { live.sched with table := some (parseSchedule table0) } }

/-- The bytes that the table's CRC covers. -/
def covered0 : Bytes := table0.take 0x3C ++ [0, 0, 0, 0] ++ table0.drop 0x40

/-- The running CRC of R299 over a part of bytes. -/
def crcOver (c : Nat) (bs : Bytes) : Nat := bs.foldl (fun c b => crcSteps 0x82F63B78 8 (c ^^^ b.toNat)) c

/-- The table's CRC, in four parts. -/
theorem table0_crc : crc32c covered0 = 0x4657D2E5 := by
  have e : covered0 = covered0.take 88 ++ ((covered0.drop 88).take 88 ++ ((covered0.drop 176).take 88 ++ covered0.drop 264)) := by decide +kernel
  have a : crcOver 0xFFFFFFFF (covered0.take 88) = 0x1F28133A := by decide +kernel
  have b : crcOver 0x1F28133A ((covered0.drop 88).take 88) = 0x4077D533 := by decide +kernel
  have c : crcOver 0x4077D533 ((covered0.drop 176).take 88) = 0x9994E3A3 := by decide +kernel
  have d : crcOver 0x9994E3A3 (covered0.drop 264) = 0xB9A82D1A := by decide +kernel
  have f : crcOver 0xFFFFFFFF covered0 = 0xB9A82D1A := by
    rw [e, crcOver, List.foldl_append, List.foldl_append, List.foldl_append]
    rw [crcOver] at a b c d
    rw [a, b, c, d]
  rw [crcOver] at f
  rw [crc32c, f]
  decide

/-- The table's form is good. -/
theorem table0_form : ready.tableFormOk table0 = true := by
  have c := table0_crc
  unfold covered0 at c
  unfold State.tableFormOk State.headFormOk
  rw [c]
  decide +kernel

/-- The other checks hold. -/
theorem table0_rest : ∀ n ∈ (List.range 13).map (· + 2), ready.tableCheck table0 (parseSchedule table0) n = true := by decide +kernel

/-- A table that passes each check is accepted. -/
theorem checkTable_of_checks {s : State} {b : Bytes} (h : s.tableFormOk b = true)
    (r : ∀ n ∈ (List.range 13).map (· + 2), s.tableCheck b (parseSchedule b) n = true) : s.checkTable b = (aOk, 0) := by
  have h1 : s.tableCheck b (parseSchedule b) 1 = true := by
    unfold State.tableCheck
    exact h
  have hn : ∀ n ∈ (List.range 14).map (· + 1), s.tableCheck b (parseSchedule b) n = true := by
    intro n m
    obtain ⟨k, hk, rfl⟩ := List.mem_map.mp m
    have l := List.mem_range.mp hk
    rcases Nat.eq_zero_or_pos k with e | e
    · rw [e]
      exact h1
    · exact r (k + 1) (List.mem_map.mpr ⟨k - 1, List.mem_range.mpr (by omega), by omega⟩)
  unfold State.checkTable
  rw [List.find?_eq_none.mpr (fun n m => by rw [hn n m]; exact Bool.false_ne_true)]

/-- The table passes every check of R303. -/
theorem table0_checked : ready.checkTable table0 = (aOk, 0) := checkTable_of_checks table0_form table0_rest

/-- Every check of R493 holds: the device enters RUN. -/
theorem ready_enters : ready.transitionFails = none := by
  have t : ready.entry kSchedule = table0 := by decide +kernel
  have a : ready.tableAgrees (parseSchedule table0) = true := by decide +kernel
  have b : ready.pinnedFit (parseSchedule table0) = true := by decide +kernel
  have c : ready.unfairRegion = none ∧ ready.phase1Done = true ∧ ready.addressFails = none ∧ ready.remapAllFailed.2 = true ∧ ready.sharesFit = true := by
    decide +kernel
  have d : (parseSchedule table0).build = ready.boot.build := by decide +kernel
  have g : ¬ fieldAt (ready.entry kGoldenImage) 0x40080 4 < ready.cfg 0x230001 := by decide +kernel
  have k : ready.sched.table = some (parseSchedule table0) := rfl
  have f : ready.fc.fnExercise = 1 := rfl
  have h := table0_checked
  generalize ready = s at *
  simp [State.transitionFails, f, k, t, h, a, b, c.1, c.2.1, c.2.2.1, c.2.2.2.1, c.2.2.2.2, d, Nat.not_lt.mp g]

/-! ## Time, power and temperature -/

/-- Rails that are watched; islands with a monitor, of class 4 and of class 3; a device in standby that asks for it, and one whose entry is due. -/
theorem witness_MonitorsAndWaking :
    live.aonUp = true ∧ live.up = true ∧ (State.reset.up = false ∧ (2 : Fin 9) = 2)
      ∧ (unitInGroup 10 srcSched = true ∧ 64 ≤ srcSched ∧ srcSched ≠ srcTb ∧ unitInGroup 10 srcIsland = true ∧ srcIsland ≠ srcFc)
      ∧ (let s := (live.onPwr (fun p => { p with state := .standby })).onPins (fun p => { p with stbyReq := true })
         s.pwr.state = .standby ∧ s.pins.stbyReq = true)
      ∧ (live.pwr.state ≠ .standby ∧ (live.onPwr (fun p => { p with req := some true })).pwr.req.isSome = true) := by decide

/-- A first measurement, one that keeps the step, jumps at and beyond 100 us, silence of 1 s, 10 s of good measurements
with the source still heard, PPS as the source and none, and a PPS edge. -/
theorem witness_TimebaseCommandsComplete :
    let locked := live.onTb (fun t => { t with lock := .locked, lastMeas := some 0, lastHeard := some 0 })
    let held := live.onTb (fun t => { t with lock := .holdover, steadySince := some 0 })
    let pps : State := { live with dict := { live.dict with claims := [(0x25, { function := 1 })] } }
    let late := (instant held 10000000000).onTb (fun t => { t with lastHeard := some 9999999999 })
    let byPps := (pps.onTb (fun t => { t with src := 2, hasRun := true }))
    (live.aonUp = true ∧ live.tb.src ≠ 3 ∧ live.tb.hasRun = false ∧ live.tb.stepped = false ∧ live.tb.now % 2 = 0)
      ∧ (locked.tb.lock = .locked ∧ locked.tb.jump 100000 ≤ 100000 ∧ 100000 < locked.tb.jump 100001)
      ∧ (locked.tb.lastHeard = some 0 ∧ 0 + 1000000002 ≤ (instant locked 1000000002).now)
      ∧ (held.tb.lock = .holdover ∧ held.tb.steadySince = some 0 ∧ 0 + 10000000000 ≤ (instant held 10000000000).now)
      ∧ (late.tb.lock = .holdover ∧ late.tb.lastHeard = some 9999999999 ∧ late.now ≤ 9999999999 + 1000000000)
      ∧ (byPps.tb.src = 2 ∧ byPps.claimedWith 0x25 1 = true ∧ byPps.ppsUsed = true ∧ byPps.tb.hasRun = true ∧ byPps.tb.lock ≠ .holdover)
      ∧ (live.onTb (fun t => { t with src := 3 })).sourceHeard = false ∧ pps.claimedWith 0x25 1 = true := by decide

/-- A claimed PPS_OUT at a second and 100 ms later, an FSYNC output at its instant and at its pulse's end, a captured edge, and a tick. -/
theorem witness_TimedBallsComplete :
    let s : State := { framed [] with dict := { live.dict with claims := [(3, { function := 2 }), (0x24, { function := 1 })] } }
    (s.aonUp = true ∧ s.claimedWith 0x24 1 = true ∧ s.now % 1000000000 = 0)
      ∧ ((s.onPins (fun p => { p with ppsOut := true })).pins.ppsOut = true ∧ 100000000 ≤ (instant s 100000000).now % 1000000000)
      ∧ (s.up = true ∧ s.inFrames = true ∧ s.now = s.thisFrame + s.tb.fsyncOffset.getD 3 0 ∧ s.tb.fsyncEdge.getD 3 0 + s.tb.fsyncWidth.getD 3 0 ≤ s.now)
      ∧ s.claimedWith 3 2 = true ∧ s.atTickStart = true := by decide

/-- Estimates above a cap of 10 W, at it, within 2 W below, and 2 W below for less than and for 1 ms; the instants of an evaluation and of
a correction. -/
theorem witness_PowerIsCapped :
    let p : Power := { level := 8, lowSince := some 0 }
    p.level ≤ 8 ∧ 10 * 1000 < 10001 ∧ (10000 ≤ 10 * 1000 ∧ 10 * 1000 < 8001 + 2000) ∧ (8000 + 2000 ≤ 10 * 1000 ∧ p.lowSince = some 0 ∧ 0 + 1000000 ≤ 1000000)
      ∧ (∀ t, p.lowSince = some t → 999999 < t + 1000000) ∧ live.up = true ∧ live.now % 10000 = 0 ∧ live.now % 1000000 = 0 := by
  refine ⟨by decide, by decide, by decide, by decide, ?_, by decide, by decide, by decide⟩
  rintro t ⟨⟩
  decide

/-- A band that is due; rails at their second and third failure, and one that answers; samples of every sensor, one of them at
118 degC; sensors at 110 degC and at
105 degC. -/
theorem witness_VoltageAndTemperature :
    let s := live.onPwr (fun p => { p with avs := 1, target := [] })
    let hot := instant (live.onPwr (fun p => { p with thermalCap := some 20, die := 1760 :: List.replicate 39 0 })) 1000000
    let cool := instant (live.onPwr (fun p => { p with thermalCap := some 20, die := List.replicate 40 1680 })) 10000000
    s.bandDue = true ∧ (live.pwr.avsFails.getD 0 0 + 1 ≠ 3 ∧ ([2, 0] : List Nat).getD 0 0 + 1 = 3)
      ∧ (live.onPwr (fun p => { p with avs := 2 })).pwr.avs = 2
      ∧ (live.now % 100000 = 0 ∧ (List.replicate 40 (0 : Int)).length = 40 ∧ (List.replicate 8 (0 : Int)).length = 8)
      ∧ (hot.pwr.thermalCap = some 20 ∧ hot.pwr.lastStep + 1000000 ≤ hot.now ∧ (sensorAt hot.pwr.failed hot.pwr.die 1760).isSome = true)
      ∧ (cool.pwr.thermalCap = some 20 ∧ cool.pwr.lastStep + 10000000 ≤ cool.now ∧ sensorAt cool.pwr.failed cool.pwr.die 1681 = none)
      ∧ ((List.replicate 39 (0 : Int) ++ [1888]).length = 40 ∧ 118 * 16 ≤ (List.replicate 39 (0 : Int) ++ [1888]).getD 39 0
        ∧ 39 ∉ live.pwr.failed ∧ bit live.pwr.reported 1 = false) := by decide

/-! ## The fabric -/

/-- The device with its first link in this state. -/
def linked (l : FabLink) : State := live.onFab (fun x => { x with links := [l, {}, {}] })

/-- Links that train, for the first and the second time and in the test; that carry flits, in order and not, at a retry's end and after
silence; and that stand in quarantine, 10 s after their entry and 1 ms after their test. -/
theorem witness_LinksAndFlits :
    let f : Flit := { crcOk := true, credited := true, vc := 0, hop := 0, lseq := 0, ack := 0, crVc := 0, crHop := 0, crCnt := 0 }
    let l := linked { state := 2, retry := [(0, 0)] }
    let q := instant (linked { state := 3, returns := 2 }) 10000000000
    let t := instant (linked { state := 3, testing := true }) 1000000
    live.up = true ∧ (live.link 0).state = 0 ∧ (live.link 0).testing = false ∧ ((linked { state := 1 }).link 0).trainFails = 0
      ∧ 1 ≤ ((linked { state := 1, trainFails := 1 }).link 0).trainFails ∧ ((linked { state := 1, testing := true }).link 0).testing = true
      ∧ (l.linkLive 0 = true ∧ f.crcOk = true ∧ f.lseq = (l.link 0).rxSeq ∧ f.credited = true ∧ ({ f with lseq := 1 } : Flit).lseq ≠ (l.link 0).rxSeq)
      ∧ ((l.link 0).retry.head? = some (0, 0) ∧ expired (instant l 100000000).now (0 + l.cfg 0x160007) = true ∧ (l.link 0).heard + 4000 ≤ (instant l 4000).now)
      ∧ (q.up = true ∧ (q.link 0).state = 3 ∧ (q.link 0).testing = false ∧ (q.link 0).quarAt + 10000000000 ≤ q.now ∧ (q.link 0).returns < 3)
      ∧ ((t.link 0).state = 3 ∧ (t.link 0).testing = true ∧ (t.link 0).quarAt + 1000000 ≤ t.now) := by decide

/-- A transaction of 64 bytes. -/
def txn0 (op : BitVec 8) (dst : BitVec 3) (e2e : Word) : Txn :=
  { op := op, flags := 0, len := if op = 4 then 0 else 64, tag := if op = 5 then 1 else 0, srcId := 0, addr := 0, dst := dst, src := 1, hops := 2, part := 0, e2e := e2e, sseq := 0, pktBytes := 0,
    out := 0, dctr := 0, dcore := 0, data := if op = 2 ∨ op = 4 then [] else List.replicate 64 0 }

/-- Transactions for this node in order, received before, 512 and 513 ahead, of a throttled source, and for another node that can be reached; well-formed ones of each OP and a
malformed one. -/
theorem witness_TransactionsComplete :
    let s := (linked { state := 2 }).onFab (fun x => { x with nodes := 0x05 })
    (s.doorTakes 0 = true ∧ s.up = true ∧ (txn0 1 0 0).dst = s.fab.nodeId ∧ (txn0 1 0 0).e2e = (s.e2eOf 1 0).expect)
      ∧ 2 ^ 31 < ((txn0 1 0 0xFFFFFFFF).e2e - (s.e2eOf 1 0).expect).toNat
      ∧ (∀ x ∈ (s.e2eOf 1 0).ahead, x.e2e ≠ (txn0 1 0 512).e2e) ∧ ((txn0 1 0 512).e2e - (s.e2eOf 1 0).expect).toNat ≤ 512
      ∧ (512 < ((txn0 1 0 513).e2e - (s.e2eOf 1 0).expect).toNat ∧ ((txn0 1 0 513).e2e - (s.e2eOf 1 0).expect).toNat ≤ 2 ^ 31)
      ∧ ((txn0 1 2 0).dst ≠ s.fab.nodeId ∧ (txn0 1 2 0).hops < 3 ∧ s.reachable (txn0 1 2 0).dst.toNat = true)
      ∧ (∀ op ∈ [1, 2, 3, 4, 5], malformed op (txn0 (BitVec.ofNat 8 op) 0 0) = false) ∧ malformed 2 (txn0 1 0 0) = true
      ∧ (let z := s.onFab (fun x => { x with viols := [{ key := (1, 0, 0), throttledSince := some 0, admitted := 2 ^ 32 }] })
         violThrottled (1, 0, 0) z.fab.viols = true ∧ z.cfg 0x16000A ≤ (violOf (1, 0, 0) z.fab.viols).admitted)
      ∧ violThrottled (1, 0, 0) s.fab.viols = false ∧ (s.e2eOf 7 1).held = [] := by decide

/-- HELLOs of another node, of a twin, with another frame and again; a LINK_STATE not held yet; 1 ms without a change; a join time that is
over. -/
theorem witness_DiscoveryCompletes :
    let s := linked { state := 2 }
    let h : Hello := { ident := s.ident + 1, strap := 0, node := none, door := 0, frameTicks := s.cfg kFrameTicks, frameOrigin := 0, expect := 0 }
    let q := instant (live.onFab (fun x => { x with lastChange := some 0 })) 1000000
    live.up = true ∧ (s.linkLive 0 = true ∧ (s.link 0).hello = none ∧ s.isTwin h = false ∧ h.frameTicks = s.cfg kFrameTicks
        ∧ h.frameOrigin = s.frameOrigin ∧ s.fab.state ≠ 3)
      ∧ s.isTwin { h with ident := s.ident } = true ∧ ({ h with frameTicks := 1 } : Hello).frameTicks ≠ s.cfg kFrameTicks
      ∧ ((s.onLink 0 (fun l => { l with hello := some h })).linkLive 0 = true
        ∧ ((s.onLink 0 (fun l => { l with hello := some h })).link 0).hello = some h)
      ∧ ((⟨s.ident + 1, 0, none, []⟩ : LinkStateRec).ident ≠ s.ident ∧ s.fab.db.contains ⟨s.ident + 1, 0, none, []⟩ = false)
      ∧ (q.fab.lastChange = some 0 ∧ q.fab.state ≠ 3 ∧ q.statesComplete = true ∧ 0 + 1000000 ≤ q.now) ∧ live.joinOver = true := by decide +kernel

/-! ## Boot, security and the dictionary -/

/-- A client on CAN door F and its request for an entry, in a CAN XL frame of KDP_SDT to KDP_ADDR. -/
def ask (key : Nat) : Req :=
  { client := ⟨.f, 0, 0⟩, tid := 1, index := BitVec.ofNat 16 (key / 256), sub := BitVec.ofNat 8 key, crc := 0
    can := some ⟨true, BitVec.ofNat 8 (live.cfg 0x140001), BitVec.ofNat 8 (live.cfg 0x140004), []⟩ }

/-- An epoch that is due, a commit in progress, a quote that waits, a nonce 60 s old; jobs of the verification ring: one that lands, one to
judge with a further one, and the 64th result. -/
theorem witness_SecurityCommandsComplete :
    let e := instant (live.onTb (fun t => { t with synced := true })) 5
    let due := e.onFlash (fun f => { f with ar0 := some { f.act with staged := some true, epoch := 5 } })
    let c := live.onSec (fun x => { x with commit := some (⟨.f, 0, 0⟩, 1, 1), quoteQueue := [⟨⟨.f, 0, 0⟩, 1, [], 0⟩], nonce := some ([], 0) })
    let j : Bytes := List.replicate 192 0
    let k : Bytes := 1 :: List.replicate 191 0
    let v := live.onSec (fun x => { x with landed := [j, k] })
    (due.up = true ∧ due.epochDue = true) ∧ (c.sec.commit = some (⟨.f, 0, 0⟩, 1, 1) ∧ c.sec.quoteQueue = [⟨⟨.f, 0, 0⟩, 1, [], 0⟩]
        ∧ c.sec.nonce = some ([], 0) ∧ 0 + 60000000000 < (instant c 60000000002).now)
      ∧ (j.length = 192 ∧ serialAfter live.sec.jobNext (jobSeq j) = false ∧ live.sec.landed.any (fun y => jobSeq y == jobSeq j) = false)
      ∧ (v.sec.nextJob = some j ∧ ({ v.sec with jobNext := 1, landed := [k] } : Security).nextJob.isSome = true ∧ (63 : Nat) < 64 ∧ 64 ≤ 63 + 1) := by decide +kernel

/-- A section of this phase and digest in slot A, booted. -/
def staged (phase : Byte) (digest : Bytes) (st : DevState) : State :=
  let row : Bytes := [6, phase] ++ List.replicate 30 0 ++ digest
  { live with
    flash := { live.flash with slotA := ([(6, 1), (7, 0)] ++ (row.zipIdx.filter (fun b => b.1 != 0xFF)).map (fun b => (512 + b.2, b.1))) }
    boot := { live.boot with slot := some false }
    dict := { live.dict with state := st } }

/-- SM3 of no bytes, computed apart from the model. -/
def emptyDigest : Bytes := beBytes 32 0x1ab21d8355cfa17f8e61194831e81a8f22bec8c728fefb747ed035eb5082aa2b

/-- PORST_N high before its fall and low before its rise; a slot under judgement; the phases of the exercise; sections of phase 1 and 2
with a good and a bad digest; a transition that ends with a failure. (A valid slot is
image0_valid, a transition without one ready_enters.) -/
theorem witness_ResetAndBootComplete :
    let ex : ExPhase → Bool → State := fun p ok =>
      (live.onBoot (fun b => { b with stage := .exercise })).onFc (fun c => { c with exercise := p, exerciseOk := ok })
    let tr : State := { live with dict := { live.dict with state := .config, transition := some (⟨.f, 0, 0⟩, 1) } }
    (live.pins.porstN = true ∧ 2000 ≤ 2000 ∧ State.reset.pins.porstN = false ∧ (0 : BitVec 3) ≠ 3 ∧ live.flash.idCheckOk = true ∧ live.boot.bootsel ≠ 3
        ∧ live.flash.act.staged = none ∧ flash0.act.active = false ∧ live.up = true ∧ 1999 < 2000 ∧ live.awaitsNodes = false)
      ∧ (let r := live.onBoot (fun b => { b with stage := .romCheck false false })
         r.up = true ∧ r.boot.stage = .romCheck false false)
      ∧ ((ex .release true).exercising .release = true ∧ (ex .latch true).exercising .latch = true ∧ (ex .latch true).fc.exerciseOk = true
        ∧ (ex .latch false).fc.exerciseOk = false ∧ (ex .latch true).dict.state ≠ .safe ∧ (ex .latch true).enterSafe.dict.state = .safe
        ∧ ((ex .latch true).onFc (fun c => { c with exercise := .done, altPulse := some 0 })).faultNLow = true)
      ∧ ((staged 1 emptyDigest .config).nextSection 1 = some 0 ∧ (staged 1 emptyDigest .config).flash.sectionOk false 0 = true
        ∧ (staged 1 [0] .config).nextSection 1 = some 0 ∧ (staged 1 [0] .config).flash.sectionOk false 0 = false)
      ∧ ((staged 2 emptyDigest .run).nextSection 2 = some 0 ∧ (staged 2 emptyDigest .run).inRun = true
        ∧ (staged 2 emptyDigest .run).flash.sectionOk false 0 = true ∧ (staged 2 [0] .run).flash.sectionOk false 0 = false)
      ∧ (tr.dict.transition = some (⟨.f, 0, 0⟩, 1) ∧ tr.missingNodes = [] ∧ tr.dict.state = .config ∧ tr.transitionFails = some (aState, 0x700004)) := by
  decide +kernel

/-- Frame starts before and after the first; a second's end; an entry that is due; a release that is ready. -/
theorem witness_FramesAndStandbyComplete :
    let r := live.onPwr (fun p => { p with req := some false })
    let z := live.onPwr (fun p => { p with state := .standby })
    (live.up = true ∧ live.inRun = true ∧ live.atFrameStart = true ∧ live.tb.framesOn = false ∧ live.tb.runFrame0 ≤ live.frameAt live.now)
      ∧ (framed []).tb.framesOn = true ∧ (framed []).atFrameStart = true
      ∧ ((instant live 1000000000).up = true ∧ (instant live 1000000000).now % 1000000000 = 0 ∧ 0 < (instant live 1000000000).now)
      ∧ r.entryDue = some false ∧ (z.aonUp = true ∧ z.wakeReady = true) := by decide

/-- A client that is heard and one whose CAN frame is another's, RESPONSEs awaited and not; requests that name each entry of a row of its own. -/
theorem witness_DictionaryRequestsComplete :
    let p : State := { live with dict := { live.dict with peerTx := [(3, 0)] } }
    let f : CanFrame := ⟨false, 0, 0, [1]⟩
    live.heard (ask 0) = true ∧ (live.heard { ask 0 with can := some f } = false ∧ live.served { ask 0 with can := some f }.client = true) ∧ p.awaits ⟨.p, 3, 0⟩ = true ∧ p.awaits ⟨.p, 4, 0⟩ = false
      ∧ (∀ k ∈ [kGptpPort, 0x710101, 0x710106, 0x448000, 0x44BF00, kCarrierOn, 0x503001, 0x503002, 0x531001, 0x531004, 0x533004, kStateReq, 0x040000,
          0x040700, 0x910001, 0x912002, 0x940001, 0x940002, 0x9F0001, 0x9F0002, 0x803001, kPwrCap], reqKey (ask k) = k)
      ∧ (∀ k ∈ [0x010000, 0x930001, 0x931101], reqRow (ask k) = k) := by decide +kernel

/-- An admitted request for KDP_SDT, read and written in CONFIG, a read of an entry that does not exist, and one that is refused. -/
theorem witness_ReadsAndWritesAnswer :
    let s : State := { live with dict := { live.dict with state := .config } }
    let q : Req := { ask 0x140001 with client := ⟨.s, 0, 0⟩ }
    let a := (s.admitReq q).1
    (s.admitReq q).2 = true ∧ (findEntry (reqKey q)).isSome = true ∧ a.readVerdict q.client.origin (reqKey q) = 0
      ∧ ((findEntry (reqKey q)).map (fun e => (a.entryValue (reqKey q) e).length)) = some 1
      ∧ ((s.admitReq { q with index := 0xFFFF }).2 = true ∧ findEntry (reqKey { q with index := 0xFFFF }) = none)
      ∧ ((findEntry (reqKey (ask 0x448000))).isSome = true ∧ a.readVerdict q.client.origin 0x448000 ≠ 0)
      ∧ (flashKey (reqKey q) = false ∧ a.openVerdict q.client.origin (reqKey q) = 0
        ∧ (findEntry (reqKey q)).all (fun e => (a.contentVerdict (Origin.code q.client.origin) (reqKey q) e [0x41]).code == 0
            && a.actVerdict (Origin.code q.client.origin) q.client.logWho e [0x41] == 0) = true) := by decide +kernel

/-- Values that meet the conditions of the entries that act. -/
theorem witness_CommitsHaveTheirEffect :
    (∀ k ∈ [0x180001, 0x448000, 0x500002, 0x503001, 0x531001, 0x533001, 0x710101, 0x803001, 0x000005, 0x010000, 0x040000, 0x910001, 0x912002, 0x930001,
        0x931101, 0x201000, 0x700001, 0x700002, 0x911000, 0x9F0100, kPwrCap, 0x9F0001], ((findEntry k).map (·.first)) = some k)
      ∧ leNat [1] = 1 ∧ fieldAt ([0, 0] : Bytes) 0 2 ≠ 0xFFFF ∧ fieldAt ([0xFF, 0xFF] : Bytes) 0 2 = 0xFFFF ∧ sfind live.dict.claims 0 = none
      ∧ leNat [1] ≠ live.flash.rollback := by decide +kernel

/-- Clients that are served; an idle transfer, a late peer, timers that are due without and with a claimed ball, a pulse's end; a register;
logs short of and at their length. -/
theorem witness_RegistersAndExpiries :
    let t : Transfer := { client := ⟨.f, 0, 0⟩, tid := 1, key := 0, isWrite := false, length := 0, content := [], lastFrame := 0, reqCrc := 0, opening := [] }
    let s : State := { live with dict := { live.dict with
      transfers := [t], peerTx := [(3, 0)], claims := [(4, { function := 1 }), (0x100, { function := 0 }), (0x101, { function := 1 })]
      timers := [(0, { en := true, nextFire := some 0, ball := 0xFFFF }), (1, { en := true, nextFire := some 0, ball := 4, pulseEnd := some 0 })] } }
    live.served (slotClient 12) = true ∧ live.served ⟨.f, 0, 0⟩ = true
      ∧ ((instant s 60000000000).transferIdle ⟨.f, 0, 0⟩ 1 = true ∧ (instant s 60000000000).peerLate 3 = true)
      ∧ (s.timerDue 0 = true ∧ s.timerDrives 0 = false ∧ s.timerDue 1 = true ∧ s.timerDrives 1 = true ∧ s.pulseDue 1 = true)
      ∧ live.isRegister 0x2000020000 = true ∧ live.dict.changes.length < 65536 := by decide +kernel

/-- A change log that is full. -/
theorem witness_RegistersAndExpiries_full (c : Change) : (List.replicate 65536 c).length = 65536 := List.length_replicate

/-! ## Well-formedness: each check refuses an ill-formed command beside a well-formed one -/

/-- A request of a client with this TID. -/
def req (c : Client) (tid : BitVec 16) : Req := { client := c, tid := tid, index := 0, sub := 0, crc := 0 }

/-- Identities of R448 at their bounds, and TID 0 on the window. -/
theorem wf_clients :
    wellFormed (.read (req ⟨.f, 511, 0⟩ 1)) = true ∧ wellFormed (.read (req ⟨.f, 512, 0⟩ 1)) = false ∧ wellFormed (.read (req ⟨.f, 0, 1⟩ 1)) = false
      ∧ wellFormed (.read (req ⟨.l, 11, 0⟩ 0)) = true ∧ wellFormed (.read (req ⟨.l, 12, 0⟩ 0)) = false ∧ wellFormed (.read (req ⟨.l, 0, 0⟩ 1)) = false
      ∧ wellFormed (.read (req ⟨.s, 2 ^ 128 - 1, 65535⟩ 1)) = true ∧ wellFormed (.read (req ⟨.s, 2 ^ 128, 0⟩ 1)) = false
      ∧ wellFormed (.read (req ⟨.s, 0, 65536⟩ 1)) = false ∧ wellFormed (.read (req ⟨.y, 0, 0⟩ 0)) = true ∧ wellFormed (.read (req ⟨.y, 1, 0⟩ 0)) = false
      ∧ wellFormed (.read (req ⟨.y, 0, 0⟩ 2)) = false ∧ wellFormed (.read (req ⟨.p, 7, 0⟩ 1)) = true ∧ wellFormed (.read (req ⟨.p, 8, 0⟩ 1)) = false
      ∧ wellFormed (.kdpTransferExpiry ⟨.p, 8, 0⟩ 1) = false := by decide

/-- A payload longer than a carrier's frame. -/
theorem wf_payloads :
    wellFormed (.write (req ⟨.l, 0, 0⟩ 0) (List.replicate 128 0)) = true ∧ wellFormed (.write (req ⟨.l, 0, 0⟩ 0) (List.replicate 129 0)) = false
      ∧ wellFormed (.seg (req ⟨.l, 0, 0⟩ 0) 0 (List.replicate 129 0)) = false ∧ wellFormed (.claim (req ⟨.y, 0, 0⟩ 0) (List.replicate 129 0)) = false
      ∧ wellFormed (.timerWrite (req ⟨.y, 0, 0⟩ 0) 0 (List.replicate 129 0)) = false := by decide +kernel

/-- Accesses outside the map, of no byte, and with other bytes than their length. -/
theorem wf_accesses :
    wellFormed (.memoryAccess ⟨.island, 2 ^ 48 - 1, 1, none, false, 0, none⟩) = true ∧ wellFormed (.memoryAccess ⟨.island, 2 ^ 48, 1, none, false, 0, none⟩) = false
      ∧ wellFormed (.memoryAccess ⟨.island, 0, 0, none, false, 0, none⟩) = false ∧ wellFormed (.memoryAccess ⟨.island, 0, 2, some [1], false, 0, none⟩) = false
      ∧ wellFormed (.memoryAccess ⟨.island, 0, 1, none, true, 0, none⟩) = false
      ∧ wellFormed (.scrubRead .lake 4 0 false) = true ∧ wellFormed (.scrubRead .lake 2 0 false) = false
      ∧ wellFormed (.registerWrite .island 8 0) = true ∧ wellFormed (.registerWrite .island 4 0) = false := by decide

/-- A flit of virtual channel 3, a report of no group and of class 5, an entry index and a golden slot out of range. -/
theorem wf_numbers :
    let f : Flit := { crcOk := true, credited := true, vc := 2, hop := 0, lseq := 0, ack := 0, crVc := 2, crHop := 0, crCnt := 0 }
    let r : ReportIn := { origin := 0, group := 35, code := 0, cls := 4, blame := none, ctx := 0, part := 0, detail := 0 }
    wellFormed (.flitData 0 f) = true ∧ wellFormed (.flitData 0 { f with vc := 3 }) = false ∧ wellFormed (.flitIdle 0 { f with crVc := 3 }) = false
      ∧ wellFormed (.faultReport r) = true ∧ wellFormed (.faultReport { r with group := 36 }) = false ∧ wellFormed (.faultReport { r with cls := 5 }) = false
      ∧ wellFormed (.release 65535) = true ∧ wellFormed (.release 65536) = false ∧ wellFormed (.goldenDrain 15) = true ∧ wellFormed (.goldenCheck 16) = false := by
  decide

/-- Lists of another length than their rule gives, and a symbol past the slot. -/
theorem wf_lengths :
    wellFormed (.gridSymbol 0 13 []) = true ∧ wellFormed (.gridSymbol 0 14 []) = false ∧ wellFormed (.gridSymbol 0 13 [0]) = false
      ∧ wellFormed (.syncDetection 0 0 [0] [0] 0) = false ∧ wellFormed (.syncDetection 0 0 (List.replicate 4 0) [] 0) = false
      ∧ wellFormed (.decoderJobLand 0 (List.replicate 63 0)) = false ∧ wellFormed (.txDescriptorLand 0 (List.replicate 65 0)) = false
      ∧ wellFormed (.secJobLand (List.replicate 191 0)) = false ∧ wellFormed (.thermalSample (List.replicate 39 0) (List.replicate 8 0)) = false
      ∧ wellFormed (.csi2Line 0 0 0x2A 65536 [] true true .ok) = false ∧ wellFormed (.csi2Line 0 0 0x2A 1 [[65536]] true true .ok) = false
      ∧ wellFormed (.ethFrameReceive { frame0 with bytes := 0, payload := [1] }) = false := by decide +kernel

/-! ## Worked values: the check value of CRC32C, the standard's example of SM3, and an end-to-end step from the queue -/

/-- CRC32C of "123456789" and SM3 of "abc", from their standards. -/
theorem value_digests :
    crc32c [0x31, 0x32, 0x33, 0x34, 0x35, 0x36, 0x37, 0x38, 0x39] = 0xE3069283
      ∧ sm3 [0x61, 0x62, 0x63] = beBytes 32 0x66c7f0f462eeedd9d1f2d46bdc10e4e24167c4875cf2f7a2297da02b8f4ba8e0 := by decide +kernel

/-- SETX of X5 to 15 at the front of the queue, R67: X5 holds 15, the PC moves on, and the command is gone. -/
theorem value_setx_from_queue :
    ∃ t, step { running 0x6500000000000F with pending := [.setx 0 5 15] } = .next t
      ∧ (t.core 0).x.getD 5 0 = 15 ∧ (t.core 0).pc = 1 ∧ t.pending = [] := ⟨_, rfl, by decide, by decide, rfl⟩

/-- From reset: PORST_N rises, the image of slot A is judged, and its exercise begins; a core command before that has no effect. -/
theorem value_boot_from_reset :
    ∃ t, exec (.porstNRise 0 1) State.reset = .next t ∧ t.boot.stage = .romCheck false false ∧ t.fab.nodeId = 1
      ∧ exec (.start .island 0 2) State.reset = .next State.reset := ⟨_, rfl, by decide, by decide, rfl⟩

end Sys2Proof.Tests
end

section
/-! The arithmetic of time and numbers, R22 and R37: what the comparisons of stream numbers and the clock of frames and ticks say as
arithmetic on naturals, and the statements that follow. -/

namespace Sys2Proof.Machine

/-! ## Serial numbers, R22 -/

/-- The difference that R22 reads, (a - b) mod 2^32. -/
theorem word_sub_toNat (a b : Word) : (a - b).toNat = (a.toNat + 2 ^ 32 - b.toNat) % 2 ^ 32 := by
  rw [BitVec.toNat_sub]
  congr 1
  have hb := b.isLt
  omega

theorem word_eq_iff_sub_toNat (a b : Word) : a = b ↔ (a - b).toNat = 0 := by
  rw [← BitVec.toNat_inj, word_sub_toNat]
  have ha := a.isLt
  have hb := b.isLt
  omega

/-- The difference taken the other way is the complement to 2^32. -/
theorem word_sub_toNat_swap (a b : Word) : (b - a).toNat = (2 ^ 32 - (a - b).toNat) % 2 ^ 32 := by
  rw [word_sub_toNat, word_sub_toNat]
  have ha := a.isLt
  have hb := b.isLt
  omega

theorem serialAfter_iff (a b : Word) : serialAfter a b = true ↔ 1 ≤ (a - b).toNat ∧ (a - b).toNat ≤ 2 ^ 31 - 1 := by
  simp only [serialAfter, Bool.and_eq_true, decide_eq_true_eq, Nat.lt_iff_add_one_le, Nat.zero_add]

/-- b is after a, read off the difference a - b: the upper of the four ranges. -/
theorem serialAfter_swap_iff (a b : Word) : serialAfter b a = true ↔ 2 ^ 31 + 1 ≤ (a - b).toNat := by
  rw [serialAfter_iff, word_sub_toNat_swap]
  have hd := (a - b).isLt
  omega

theorem serialUnordered_iff (a b : Word) : serialUnordered a b = true ↔ (a - b).toNat = 2 ^ 31 := by
  simp only [serialUnordered, beq_iff_eq]

/-- Settles O7: the model compares by the word a - b, whose value is the difference d of R22. -/
theorem serialNumbersCompare : Obligations.SerialNumbersCompare := by
  unfold Obligations.SerialNumbersCompare
  intro a b d hd
  rw [← word_sub_toNat] at hd
  subst hd
  exact ⟨word_eq_iff_sub_toNat a b, serialAfter_iff a b, serialAfter_swap_iff a b, serialUnordered_iff a b⟩

/-! ## Frames and ticks, R37 -/

/-- A tick of a frame begins before the frame ends. -/
theorem State.tickOffset_lt_frameLen {s : State} {t : Nat} (ht : t < s.cfg kFrameTicks) : 250000 * t < s.frameLen := by
  unfold State.frameLen
  omega

theorem State.frameLen_pos {s : State} (h : 0 < s.cfg kFrameTicks) : 0 < s.frameLen :=
  State.tickOffset_lt_frameLen h

/-- An instant x ns after the start of frame f, counted from FRAME_ORIGIN. -/
theorem State.frameStartOf_add_sub_origin (s : State) (f x : Nat) :
    s.frameStartOf f + x - s.frameOrigin = x + f * s.frameLen := by
  unfold State.frameStartOf
  omega

/-- Each instant less than one frame after the start of frame f lies in frame f. -/
theorem State.frameAt_frameStartOf_add {s : State} {x : Nat} (f : Nat) (hx : x < s.frameLen) :
    s.frameAt (s.frameStartOf f + x) = f := by
  rw [State.frameAt, State.frameStartOf_add_sub_origin, Nat.add_mul_div_right _ _ (Nat.zero_lt_of_lt hx),
    Nat.div_eq_of_lt hx, Nat.zero_add]

/-- Within a frame the tick counts whole 250,000 ns from the frame's start. -/
theorem State.tickAt_frameStartOf_add {s : State} {x : Nat} (f : Nat) (hx : x < s.frameLen) :
    s.tickAt (s.frameStartOf f + x) = x / 250000 := by
  have horigin : ¬ s.frameStartOf f + x < s.frameOrigin := by
    unfold State.frameStartOf
    omega
  rw [State.tickAt, if_neg horigin, State.frameStartOf_add_sub_origin, Nat.add_mul_mod_self_right, Nat.mod_eq_of_lt hx]

/-- Ticks run from 0 to FRAME_TICKS - 1, before FRAME_ORIGIN too. -/
theorem State.tickAt_lt {s : State} (i : Nat) (h : 0 < s.cfg kFrameTicks) : s.tickAt i < s.cfg kFrameTicks := by
  unfold State.tickAt
  split
  · exact h
  · have hmod : (i - s.frameOrigin) % s.frameLen < s.cfg kFrameTicks * 250000 := Nat.mod_lt _ (State.frameLen_pos h)
    exact Nat.div_lt_of_lt_mul (by rwa [Nat.mul_comm])

/-- FRAME_ORIGIN and FRAME_TICKS are all that a frame boundary depends on. -/
theorem State.frameStartOf_congr {s u : State} (f : Nat) (horigin : s.frameOrigin = u.frameOrigin)
    (hticks : s.cfg kFrameTicks = u.cfg kFrameTicks) : s.frameStartOf f = u.frameStartOf f := by
  rw [State.frameStartOf, State.frameStartOf, State.frameLen, State.frameLen, horigin, hticks]

/-- Settles O9: tick t of frame f begins less than one frame after the frame's start, so the clock reads f and t there. -/
theorem framesAndTicksBegin : Obligations.FramesAndTicksBegin := by
  unfold Obligations.FramesAndTicksBegin
  refine ⟨fun s f t ht => ?_, fun s i h => State.tickAt_lt i h, fun s u f => State.frameStartOf_congr f⟩
  have hx := State.tickOffset_lt_frameLen ht
  refine ⟨?_, State.frameAt_frameStartOf_add f hx, ?_⟩
  · rw [State.frameStartOf, State.frameLen, Nat.mul_assoc]
  · rw [State.tickAt_frameStartOf_add f hx, Nat.mul_div_cancel_left t (by decide)]

end Sys2Proof.Machine
end

section
/-! The mixing function of the Spring's store batches, R225: the words of the model read as naturals modulo 2^64. -/

namespace Sys2Proof.Machine

/-- The fold of R225, the upper bits of a word onto the lower ones: on naturals the shift is a division by 2^n. -/
theorem word64_xor_ushiftRight_toNat (z : Word64) (n : Nat) : (z ^^^ (z >>> n)).toNat = z.toNat ^^^ z.toNat / 2 ^ n := by
  rw [BitVec.toNat_xor, BitVec.toNat_ushiftRight, Nat.shiftRight_eq_div_pow]

/-- A fold followed by a multiplication, the round that R225 takes twice, with the product modulo 2^64. -/
theorem word64_mixRound_toNat (z c : Word64) (n : Nat) :
    ((z ^^^ (z >>> n)) * c).toNat = ((z.toNat ^^^ z.toNat / 2 ^ n) * c.toNat) % 2 ^ 64 := by
  rw [BitVec.toNat_mul, word64_xor_ushiftRight_toNat]

/-- Settles O10: mix64 is two rounds and a last fold, each read on naturals. -/
theorem mixingFunction : Obligations.MixingFunction := by
  unfold Obligations.MixingFunction
  intro z
  rw [mix64, word64_xor_ushiftRight_toNat, word64_mixRound_toNat, word64_mixRound_toNat]
  rfl

end Sys2Proof.Machine
end

section
/-! What every command keeps. The lemmas on the shared operations stand in Laws/; here the branches of each command that has several
are followed once, and `exec_answers` puts the commands together. -/

namespace Sys2Proof.Machine

/-- The command answers a next state, and from s to that state what `Kept` says is kept. -/
def Answers (s : State) (o : Host.Outcome State Fault Refusal) : Prop := ∃ t, o = .next t ∧ Kept s t

variable {s t u : State}

theorem Answers.next (h : Kept s t) : Answers s (.next t) := ⟨t, rfl, h⟩

/-- A command whose event does not occur leaves the state (log 14). -/
theorem Kept.when {c : Prop} [Decidable c] (h : Kept s t) : Kept s (if c then t else s) := by
  split
  · exact h
  · exact .rfl'

/-- A request has its effect where the server hears it, and passes on otherwise (R457). -/
theorem Kept.whenHeard {c : Prop} [Decidable c] {q : Req} (h : Kept s t) : Kept s (if c then t else s.passOn q) := by
  split
  · exact h
  · exact .passOn .rfl'

theorem Kept.ite {c : Prop} [Decidable c] (ht : Kept s t) (hu : Kept s u) : Kept s (if c then t else u) := by
  split
  · exact ht
  · exact hu

theorem Power.Ok.answered {p : Power} (h : p.Ok) : p.answered.Ok := by
  unfold Power.answered
  split
  · exact h
  · exact ⟨h.level, h.clock, h.unmet⟩

/-! ## Boot, reset and standby -/

theorem execSlotCheckComplete_answers (readOk : Bool) : Answers s (execSlotCheckComplete readOk s) := by
  refine .next ?_
  split
  · exact .when (.slotJudged .rfl')
  · exact .rfl'

theorem execExerciseClear_answers (high : Bool) : Answers s (execExerciseClear high s) :=
  have h : Kept s (s.onFc (fun c => { c with exercise := .done, altPulse := some s.now })) := .fcSame .rfl' rfl rfl rfl
  .next (.when (.ite h.exercisePassed h.exerciseFailed))

theorem execPhase1SectionRead_answers (sec : BitVec 6) : Answers s (execPhase1SectionRead sec s) := by
  refine .next ?_
  split
  · exact .rfl'
  · exact .when (.ite (.goOnStored (.useSection .rfl')) (.onBoot (.warmReset (.markBad .rfl'))))

theorem execPhase2SectionRead_answers (sec : BitVec 6) : Answers s (execPhase2SectionRead sec s) := by
  refine .next ?_
  split
  · exact .rfl'
  · exact .when (.ite (.useSection .rfl') (.raise (.markBad (.onBoot .rfl'))))

theorem execRunTransitionComplete_answers : Answers s (execRunTransitionComplete s) := by
  refine .next ?_
  split
  · exact .rfl'
  · exact .when (.finishTransition (.ite .rfl' (.loseMissing .rfl')))

theorem execStandbyEntry_answers : Answers s (execStandbyEntry s) := by
  refine .next ?_
  split
  · exact .standbySequence .rfl'
  · exact .rfl'

/-! ## Time, monitors, power and temperature -/

theorem execClockMonitorAlarm_answers (v : ClockUnit) : Answers s (execClockMonitorAlarm v s) := by
  refine .next (.when ?_)
  cases v with
  | core n => exact .withdrawGroupOf (.ccErr .rfl')
  | gen g => exact .withdrawGenerator (.raise .rfl')
  | island src => exact .when (.ite (.raise (.tbSame (.raise .rfl') rfl)) (.raise .rfl'))

theorem execVoltageMonitorAlarm_answers (rail : Fin 9) (outOfRange : Bool) : Answers s (execVoltageMonitorAlarm rail outOfRange s) := by
  cases outOfRange with
  | false => exact .next (.when (.raise (.pwrSame .rfl' rfl rfl rfl)))
  | true => exact .next (.when (.raise (.pwrSame .rfl' rfl rfl rfl)))

theorem execPpsInEdge_answers : Answers s (execPpsInEdge s) :=
  have h : Kept s ((s.logEvent srcTb 0 .ppsIn [s.now]).onTb (fun t => { t with ppsSeen := true, lastPps := some t.now })) :=
    .tbSame (.logEvent .rfl') rfl
  .next (.when (.ite h.measure h))

theorem execCapEvaluate_answers (estimate : Nat) : Answers s (execCapEvaluate estimate s) :=
  have h : Kept s ((s.chargeEnergy (s.pwr.corrected estimate)).onPwr
      (fun p => p.evaluate s.now (s.pwr.corrected estimate) s.effectiveCap)) :=
    .onPwr (.chargeEnergy .rfl') (fun hp => hp.evaluate _ _ _)
  .next (.when (.ite h.logEvent h))

theorem execPowerCorrection_answers (current0 current1 : Nat) : Answers s (execPowerCorrection current0 current1 s) :=
  .next (.when (.fresh1 (.onPwr .rfl' fun hp => ⟨hp.answered.level, hp.answered.clock, hp.answered.unmet⟩)))

theorem execAvsBandUpdate_answers (confirmed : Bool) : Answers s (execAvsBandUpdate confirmed s) := by
  refine .next (.when ?_)
  have h : Kept s (((s.emit (.avs 0 (Config.avsVoltage 0 (nextBand s.pwr.band s.pwr.tjMax)))).emit
      (.avs 1 (Config.avsVoltage 1 (nextBand s.pwr.band s.pwr.tjMax)))).onPwr (fun p => if confirmed then p.answered else p)) := by
    refine .onPwr (.emit (.emit .rfl')) fun hp => ?_
    split
    · exact hp.answered
    · exact hp
  exact .ite (.pwrSame h rfl rfl rfl) h

theorem execAvsTransactionFail_answers (rail : BitVec 1) : Answers s (execAvsTransactionFail rail s) :=
  have h : Kept s (s.onPwr (fun p => { p with avsFails := setAt p.avsFails rail.toNat (s.pwr.avsFails.getD rail.toNat 0 + 1) })) :=
    .pwrSame .rfl' rfl rfl rfl
  .next (.when (.ite (.raise (.pwrSame h rfl rfl rfl)) h))

theorem execThermalSample_answers (die lake : List Int) : Answers s (execThermalSample die lake s) := by
  refine .next (.when (.foldl ?_ fun u r h => .ite h h.lakeHeat))
  have measured : ∀ u, Kept s u → Kept s (u.onPwr fun p =>
      { p with tjMax := (hottest p.failed die).getD p.tjMax, tjPeak := max p.tjPeak ((hottest p.failed die).getD p.tjMax) }) :=
    fun _ h => h.pwrSame rfl rfl rfl
  have h2 := measured _ (Kept.failSensors (Kept.pwrSame
    (f := fun p => { p with die := die, lake := lake, deviating := deviateRuns p (die ++ lake) }) (Kept.rfl' (s := s)) rfl rfl rfl))
  have h3 := Kept.threshold (k := 0) (deg := 110) (code := 0) (cls := 0) h2
    fun u (h : Kept s u) => h.onPwr (f := fun p => p.beginThermal u.now) (fun hp => hp.beginThermal _)
  exact (h3.threshold fun _ => Kept.fullThrottle).threshold fun _ h => h

theorem execThermalCapStep_answers : Answers s (execThermalCapStep s) :=
  .next (.ite (.pwrSame .rfl' rfl rfl rfl) (.when (.pwrSame .rfl' rfl rfl rfl)))

/-! ## Tile programs and moves -/

theorem execIllegalInstruction_answers (n : BitVec 6) : Answers s (execIllegalInstruction n s) := by
  unfold execIllegalInstruction
  cases e : s.fetch n.toNat with
  | idle => exact .next .rfl'
  | outside off => exact .next (.coreFault .rfl')
  | bad t a => exact .next (.consumerUe (.fetchBad .rfl' e))
  | word t w =>
    have h : Kept s t := .fetchWord .rfl' e
    exact .next (.ite h.coreFault .rfl')

theorem execWaitSeqRetire_answers (n : BitVec 6) : Answers s (execWaitSeqRetire n s) := by
  refine .next ?_
  dsimp only
  split
  · exact .rfl'
  · exact .when (.onCore .rfl')

theorem execSignal_answers (n : BitVec 6) (out : BitVec 4) (dctr dcore : BitVec 6) (dnode : BitVec 3) :
    Answers s (execSignal n out dctr dcore dnode s) :=
  .next (.ite .rfl' (.issue .rfl' fun _ h => h.issueSignal))

theorem execPassStart_answers (n : BitVec 6) : Answers s (execPassStart n s) := by
  refine .next ?_
  dsimp only
  split
  · exact .when (.startPass (.onCore .rfl'))
  · exact .rfl'

theorem execInterlockRelease_answers (n : BitVec 6) : Answers s (execInterlockRelease n s) := by
  refine .next ?_
  split
  · exact .when (.retryInstr .rfl')
  · exact .rfl'

theorem execTileMoveStart_answers (n : BitVec 6) (engine : Bool) : Answers s (execTileMoveStart n engine s) := by
  refine .next ?_
  dsimp only
  split
  · exact .when (.takeDesc (.onCore .rfl'))
  · exact .rfl'

theorem execTileMoveLand_answers (n : BitVec 6) (engine : Bool) : Answers s (execTileMoveLand n engine s) := by
  refine .next ?_
  split
  · exact .when (.landMove .rfl')
  · exact .rfl'

theorem execVoidFill_answers (n : BitVec 6) : Answers s (execVoidFill n s) :=
  .next (.when (.foldl (.foldl (.onCore .rfl') fun _ _ h => h.sendPacket) fun _ _ h => h.voidStream))

/-! ## Cores and groups -/

theorem execTileBoundaryReached_answers (n : BitVec 6) : Answers s (execTileBoundaryReached n s) := by
  refine .next (.ite ?_ (.when (.saveCore .rfl')))
  dsimp only
  refine .ite (.coreFault ?_) (.ite (.saveCore ?_) ?_) <;>
  · refine .splitHere (.compareSigs ?_)
    split
    · exact .applyGroup (.onCore .rfl')
    · exact .onCore .rfl'

theorem execTileOverrun_answers (n : BitVec 6) : Answers s (execTileOverrun n s) := by
  refine .next ?_
  split
  · exact .when (.coreFault .rfl')
  · exact .rfl'

theorem execGroupChangeApply_answers (n : BitVec 6) : Answers s (execGroupChangeApply n s) := by
  refine .next ?_
  split
  · exact .when (.applyGroup .rfl')
  · exact .rfl'

theorem execGroupPortDecide_answers (g : BitVec 5) (c0 c1 c2 : Word64) : Answers s (execGroupPortDecide g c0 c1 c2 s) := by
  refine .next (.when ?_)
  split
  · exact .emit .rfl'
  · exact .memberDeviates (.emit .rfl')
  · exact .groupMismatch .rfl'

theorem execResyncCopyStart_answers (g : BitVec 5) : Answers s (execResyncCopyStart g s) := by
  refine .next ?_
  split
  · exact .when (.resyncTo .rfl')
  · exact .rfl'

theorem execResyncCopyLanded_answers (g : BitVec 5) : Answers s (execResyncCopyLanded g s) := by
  refine .next ?_
  split
  · exact .when (.resyncTo (.landCopy .rfl'))
  · exact .rfl'

theorem execResyncStateSend_answers (g : BitVec 5) : Answers s (execResyncStateSend g s) := by
  refine .next ?_
  split
  · exact .when (.resyncTo (.landCopy .rfl'))
  · exact .rfl'

theorem execResyncRestart_answers (g : BitVec 5) : Answers s (execResyncRestart g s) := by
  refine .next ?_
  split
  · exact .when (.groupRestarts .rfl')
  · exact .rfl'

/-! ## The schedule -/

theorem execRelease_answers (e : Nat) : Answers s (execRelease e s) := by
  refine .next ?_
  split
  · exact .when (.makeRelease .rfl')
  · exact .rfl'

theorem execRadioEntry_answers (e : Nat) : Answers s (execRadioEntry e s) := by
  refine .next ?_
  split
  · exact .when (.makeRelease .rfl')
  · exact .rfl'

theorem execContinueEntry_answers (e : Nat) : Answers s (execContinueEntry e s) := by
  refine .next ?_
  split
  · refine .when ?_
    split
    · exact .when (.resumeOn .rfl')
    · exact .rfl'
  · exact .rfl'

theorem execPoolEntry_answers (e : Nat) : Answers s (execPoolEntry e s) := by
  refine .next ?_
  split
  · exact .when (.servePool .rfl')
  · exact .rfl'

theorem execEntryEnd_answers (e : Nat) : Answers s (execEntryEnd e s) := by
  refine .next ?_
  split
  · exact .when (.foldl .rfl' fun _ _ h => h.preemptCore)
  · exact .rfl'

theorem execSlackResume_answers (n : BitVec 6) : Answers s (execSlackResume n s) := by
  refine .next (.when ?_)
  split
  · exact .resumeOn .rfl'
  · split
    · exact .startJob .rfl'
    · exact .rfl'

theorem execHeldReleaseStart_answers (e : Nat) : Answers s (execHeldReleaseStart e s) := by
  refine .next ?_
  split
  · exact .when (.startHeld (.rejoin .rfl'))
  · exact .rfl'

theorem execGoldenDrain_answers (slot : Nat) : Answers s (execGoldenDrain slot s) := by
  refine .next ?_
  split
  · exact .when (.onSched (.stopCopies (.foldl .rfl' fun _ _ h => h.preemptCore)))
  · exact .rfl'

theorem execGoldenSlotStart_answers (slot : Nat) : Answers s (execGoldenSlotStart slot s) := by
  refine .next ?_
  split
  · exact .when (.onSched (.foldl .rfl' fun _ _ h => .startGolden (.ite h.coreFault h)))
  · exact .rfl'

theorem execGoldenCheck_answers (slot : Nat) : Answers s (execGoldenCheck slot s) := by
  refine .next ?_
  split
  · exact .when (.onSched (.foldl .rfl' fun _ _ h => h.checkGolden))
  · exact .rfl'

theorem execSegmentEnd_answers (n : BitVec 6) (sig : Word64) : Answers s (execSegmentEnd n sig s) :=
  have h : Kept s ((s.chargeCore n.toNat).onCore n.toNat (fun c => { c.wiped with segsDone := (s.core n.toNat).segsDone + 1 })) :=
    .onCore (.chargeCore .rfl')
  .next (.when (.ite (.withdrawCore (.raise h.onSched)) (.ite h.testSetDone h)))

theorem execDeadlineCheck_answers (d : DeadlineOf) : Answers s (execDeadlineCheck d s) := by
  refine .next (.when ?_)
  cases d with
  | entry e =>
    dsimp only
    split
    · exact .checkRelease .rfl'
    · exact .rfl'
  | job p q =>
    dsimp only
    split
    · exact .missJob .rfl'
    · exact .rfl'

/-! ## Command records -/

theorem execCmdNop_answers (part : BitVec 4) (seq : Word) : Answers s (execCmdNop part seq s) := by
  refine .next ?_
  split
  · exact .rfl'
  · exact .carry .rfl' fun _ h => h.complete

theorem execRunJob_answers (part : BitVec 4) (seq : Word) : Answers s (execRunJob part seq s) := by
  refine .next ?_
  split
  · exact .rfl'
  · exact .carry .rfl' fun _ h => .servePools (.requestLoad h.onSched)

theorem execOpen_answers (part : BitVec 4) (seq : Word) : Answers s (execOpen part seq s) := by
  refine .next ?_
  split
  · exact .rfl'
  · exact .carry .rfl' fun _ h => h.allocCtx

theorem execFork_answers (part : BitVec 4) (seq : Word) : Answers s (execFork part seq s) := by
  refine .next ?_
  split
  · exact .rfl'
  · exact .carry .rfl' fun _ h => h.forkCtx

theorem execLeave_answers (part : BitVec 4) (seq : Word) : Answers s (execLeave part seq s) := by
  refine .next ?_
  split
  · exact .rfl'
  · exact .carry .rfl' fun _ h => .onCtx h.onCtxEntry

theorem execBlock_answers (part : BitVec 4) (seq : Word) : Answers s (execBlock part seq s) := by
  refine .next ?_
  split
  · exact .rfl'
  · exact .carry .rfl' fun _ h => .onCtx h.onCtxEntry

theorem execUnblock_answers (part : BitVec 4) (seq : Word) : Answers s (execUnblock part seq s) := by
  refine .next ?_
  split
  · exact .rfl'
  · exact .carry .rfl' fun _ h => .onCtx h.onCtxEntry

theorem execCmdTeardown_answers (part : BitVec 4) (seq : Word) : Answers s (execCmdTeardown part seq s) := by
  refine .next ?_
  split
  · exact .rfl'
  · refine .carry .rfl' fun t h => .complete ?_
    split
    · exact .ite h.tearCtx h.tearJob
    · exact h.tearCtx

theorem execModelLoad_answers (part : BitVec 4) (seq : Word) : Answers s (execModelLoad part seq s) := by
  refine .next ?_
  split
  · exact .rfl'
  · exact .carry .rfl' fun _ h => .ite (.complete h.useModel) h.requestLoad

theorem execModelLoadComplete_answers : Answers s (execModelLoadComplete s) := by
  refine .next ?_
  split
  · exact .rfl'
  · refine .when ?_
    split
    · exact .rfl'
    · rename_i e
      exact .servePools (.modelLoaded (.makeRoom .rfl' e))

theorem execModelPin_answers (part : BitVec 4) (seq : Word) : Answers s (execModelPin part seq s) := by
  refine .next ?_
  split
  · exact .rfl'
  · exact .carry .rfl' fun _ h => .complete h.onSched

theorem execSplitPair_answers (part : BitVec 4) (seq : Word) : Answers s (execSplitPair part seq s) := by
  refine .next ?_
  split
  · exact .rfl'
  · exact .carry .rfl' fun _ h => .ite (.finishSplit h.onGroup) h.onGroup

theorem execReformPair_answers (part : BitVec 4) (seq : Word) : Answers s (execReformPair part seq s) := by
  refine .next ?_
  split
  · exact .rfl'
  · exact .carry .rfl' fun _ h => .onCore h.onGroup

theorem execCtxQuery_answers (part : BitVec 4) (seq : Word) : Answers s (execCtxQuery part seq s) := by
  refine .next ?_
  split
  · exact .rfl'
  · exact .carry .rfl' fun _ h => h.complete

/-! ## Contexts -/

theorem execStepBoundary_answers (part : BitVec 4) (model : Word) (appends : List (BitVec 18 × Nat)) (report : StepReport) :
    Answers s (execStepBoundary part model appends report s) :=
  .next (.when (.ite (.stepBoundary (.updateScales .rfl')) (.ite .rfl' (.onCtx .rfl'))))

theorem execSwapOutComplete_answers (ctx : BitVec 18) : Answers s (execSwapOutComplete ctx s) :=
  .next (.when (.resumeBoundary (.when (.finishSwapOut .rfl'))))

theorem execStepDecisionReceive_answers (model : Word) (d : StepDecision) : Answers s (execStepDecisionReceive model d s) :=
  .next (.when (.applyDecision (.updateScales (.dictSame .rfl' rfl))))

theorem execStepDecisionTimeout_answers (part : BitVec 4) (model : Word) : Answers s (execStepDecisionTimeout part model s) :=
  .next (.when (.raiseCtx (.logEvent (.onCtx .rfl'))))

/-! ## The Spring -/

theorem execCsi2FrameStart_answers (door : BitVec 3) (vc : BitVec 4) (ecc : EccResult) : Answers s (execCsi2FrameStart door vc ecc s) :=
  .next (.when (.ite (.unmatchedPacket .rfl') (.ite (.eccDrop .rfl')
    (.pruneSamples (.foldl (.eccNote .rfl') fun _ _ h => h.startCamera)))))

theorem execCsi2Line_answers (door : BitVec 3) (vc : BitVec 4) (dt : BitVec 6) (wc : Nat) (pixels : List (List Nat))
    (crcOk comparable : Bool) (ecc : EccResult) : Answers s (execCsi2Line door vc dt wc pixels crcOk comparable ecc s) := by
  refine .next (.when ?_)
  split
  · exact .unmatchedPacket .rfl'
  · exact .ite (.cameraViolation .rfl') (.cameraLine (.eccNote .rfl'))

theorem execCsi2FrameEnd_answers (door : BitVec 3) (vc : BitVec 4) (ecc : EccResult) : Answers s (execCsi2FrameEnd door vc ecc s) :=
  .next (.when (.ite (.unmatchedPacket .rfl') (.ite (.eccDrop .rfl')
    (.pruneSamples (.foldl (.eccNote .rfl') fun _ _ h => h.endCamera)))))

theorem execEthFrameReceive_answers (f : EthFrame) : Answers s (execEthFrameReceive f s) := by
  refine .next (.when (.ite ?_ (.ite (.springViolation (.onSpring .rfl')) ?_)))
  · dsimp only
    split
    · exact .streamCount (.onSpring .rfl')
    · exact .onSpring .rfl'
  · split
    · exact .emit (.onSpring .rfl')
    · exact .ite (.springViolation (.onSpring .rfl')) (.udpSegment (.onSpring .rfl'))

theorem execDecodeStart_answers (dec : BitVec 1) : Answers s (execDecodeStart dec s) := by
  refine .next (.when ?_)
  dsimp only
  split
  · exact .skipStale .rfl'
  · exact .onSpring (.skipStale .rfl')

theorem execDecodeComplete_answers (dec : BitVec 1) : Answers s (execDecodeComplete dec s) := by
  refine .next (.when ?_)
  split
  · exact .freeDecoder .rfl'
  · exact .when (.finishDecode .rfl')

theorem execDecodeBudgetExpiry_answers (dec : BitVec 1) : Answers s (execDecodeBudgetExpiry dec s) := by
  refine .next (.when ?_)
  split
  · exact .freeDecoder .rfl'
  · exact .when (.pruneSamples (.logEvent (.onSample (.freeDecoder .rfl'))))

/-! ## The radio -/

theorem execSysrefEdge_answers (door : BitVec 1) (displaced : Bool) : Answers s (execSysrefEdge door displaced s) := by
  refine .next (.when ?_)
  split
  · exact .when (.onRadioDoor .rfl')
  · exact .when (.radioViolation .rfl')
  · exact .rfl'

theorem execJesdLinkError_answers (door : BitVec 1) (crc12 : Bool) : Answers s (execJesdLinkError door crc12 s) :=
  .next (.when (.foldl (.radioViolation .rfl') fun _ _ h => h.onCurSlot))

theorem execJesdAlignmentLoss_answers (door : BitVec 1) (elastic : Bool) : Answers s (execJesdAlignmentLoss door elastic s) := by
  have h := Kept.foldl (f := fun t c => t.onCurSlot c (fun x => { x with lost := true })) (l := s.doorCarriers door.toNat)
    (Kept.onRadioDoor (d := door.toNat) (f := fun x => { x with link := .aligning, aligned := false, ts := none })
      (Kept.radioViolation (d := door.toNat) (what := if elastic then 3 else 2) (Kept.rfl' (s := s)))) fun _ _ h => h.onCurSlot
  exact .next (.when (.ite h h.logEvent))

theorem execSyncDetection_answers (c : BitVec 2) (chip : Word) (ant0 ant1 : Bytes) (power : Int) :
    Answers s (execSyncDetection c chip ant0 ant1 power s) := by
  refine .next ?_
  split
  · exact .rfl'
  · exact .when (.detect .rfl')

theorem execGridSymbol_answers (c : BitVec 2) (symbol : BitVec 4) (samples : Bytes) : Answers s (execGridSymbol c symbol samples s) := by
  refine .next ?_
  split
  · exact .rfl'
  · refine .when (.ite (.writeSlot ?_) ?_) <;> exact .emit (.onCarrier (.onSlot (.engineWrite .rfl')))

theorem execRfTxListStart_answers (door : BitVec 1) : Answers s (execRfTxListStart door s) := by
  refine .next ?_
  split
  · exact .rfl'
  · exact .when (.runList .rfl')

theorem execDecoderJobStart_answers (engine : BitVec 1) : Answers s (execDecoderJobStart engine s) := by
  refine .next (.when ?_)
  split
  · exact .rfl'
  · split
    · exact .cutJob (.onDecoder .rfl')
    · exact .onDecoder (.onDecoder .rfl')

theorem execDecoderJobComplete_answers (engine : BitVec 1) : Answers s (execDecoderJobComplete engine s) := by
  refine .next ?_
  split
  · exact .rfl'
  · exact .when (.ite (.finishDecodeJob (.endJob .rfl')) (.finishEncodeJob (.endJob .rfl')))

theorem execDecoderDeadline_answers (engine : BitVec 1) (seq : Word) : Answers s (execDecoderDeadline engine seq s) := by
  refine .next (.when ?_)
  split
  · exact .ite (.when (.cutJob (.endJob .rfl'))) (.abandon .rfl')
  · exact .abandon .rfl'

theorem execDecoderShareStop_answers (engine : BitVec 1) : Answers s (execDecoderShareStop engine s) := by
  refine .next ?_
  split
  · exact .rfl'
  · exact .when (.cutJob (.endJob .rfl'))

theorem execPsfchOccasion_answers (c : BitVec 2) : Answers s (execPsfchOccasion c s) := by
  refine .next ?_
  split
  · exact .rfl'
  · exact .when (.ite (.sendFeedback .rfl') (.onCarrier .rfl'))

theorem execTxDescriptorLand_answers (c : BitVec 2) (desc : Bytes) : Answers s (execTxDescriptorLand c desc s) :=
  .next (.when (.ite (.txReport .rfl') (.ite (.txReport .rfl') (.onCarrier .rfl'))))

theorem execValidationComplete_answers (c : BitVec 2) (mustPass : Bool) (candidate active : Nat) :
    Answers s (execValidationComplete c mustPass candidate active s) := by
  refine .next ?_
  split
  · exact .when (.ite (.onCarrier .rfl') (.radioCount (.onCarrier .rfl')))
  · exact .rfl'

/-! ## Memory -/

theorem execLpddrTrainingComplete_answers (failed : BitVec 4) (installed : BitVec 2) :
    Answers s (execLpddrTrainingComplete failed installed s) :=
  .next (.when (.ite (.memSame .rfl' rfl rfl)
    (.ite (.memSame .rfl' rfl rfl) (.toRecovery (.onBoot (.memSame .rfl' rfl rfl))))))

theorem execMemoryInitComplete_answers (reservoir : Bool) : Answers s (execMemoryInitComplete reservoir s) := by
  cases reservoir with
  | false => exact .next (.when (.serveWaiting (.memSame .rfl' rfl rfl)))
  | true => exact .next (.when (.serveWaiting (.memSame .rfl' rfl rfl)))

theorem execLpInitAdvance_answers : Answers s (execLpInitAdvance s) := by
  refine .next (.when ?_)
  split
  · exact .serveWaiting (.memSame .rfl' rfl rfl)
  · exact .serveWaiting (.memSame .rfl' rfl rfl)

theorem execRetirementCopyComplete_answers (ch : BitVec 6) : Answers s (execRetirementCopyComplete ch s) := by
  refine .next ?_
  split
  · exact .when (.serveWaiting (.lakeReport (.logEvent (.onFlash (.onLake
      (.onMem (.readMem .rfl') fun hm => hm.copyRange _ _ _)) ⟨le_refl _, ⟨rfl, rfl, rfl, rfl⟩, ⟨rfl, rfl, rfl⟩⟩))))
  · exact .rfl'

/-! ## Faults and the island -/

theorem execFaultReport_answers (r : ReportIn) : Answers s (execFaultReport r s) := by
  refine .next (.when (.unitReaction (.report ?_)))
  split
  · exact .when (.onCore .rfl')
  · exact .rfl'

theorem execAltPulseEnd_answers : Answers s (execAltPulseEnd s) := by
  refine .next ?_
  split
  · exact .when (.fcSame .rfl' rfl rfl rfl)
  · exact .rfl'

/-- A pin's release clears ACTIVE of records and moves none to another group. -/
theorem execErrorPinRelease_answers (origin : BitVec 12) (group : BitVec 6) (code : Byte) :
    Answers s (execErrorPinRelease origin group code s) := by
  refine .next (.when (.onFc .rfl' fun h => h.more (fun kv hk => ?_) rfl fun _ hg => hg))
  obtain ⟨kv', hk', rfl⟩ := List.mem_map.1 hk
  refine ⟨kv', hk', ?_⟩
  split
  · rfl
  · rfl

theorem execIslandTmrDeviate_answers (k : Fin 3) : Answers s (execIslandTmrDeviate k s) := by
  refine .next (.when ?_)
  split
  · exact .raise (.onIsl .rfl')
  · exact .ite .rfl' (.raise .rfl')

theorem execWatchdogExpiry_answers (pair : Fin 6) : Answers s (execWatchdogExpiry pair s) := by
  refine .next ?_
  split
  · exact .when (.watchdogFault (.onIsl .rfl'))
  · exact .rfl'

/-! ## The fabric -/

theorem execLinkTrainComplete_answers (door : Fin 3) (ok : Bool) : Answers s (execLinkTrainComplete door ok s) :=
  .next (.when (.ite (.onLink .rfl')
    (.ite (.linksChanged (.emit (.logEvent (.onFab (.onLink .rfl'))))) (.ite (.quarantine .rfl') (.onLink .rfl')))))

theorem execFlitData_answers (door : Fin 3) (f : Flit) : Answers s (execFlitData door f s) :=
  .next (.when (.ite (.discardFlit (.onLink .rfl')) (.ite (.replayEvent (.discardFlit .rfl')) (.takeAck (.onLink .rfl')))))

theorem execFlitIdle_answers (door : Fin 3) (f : Flit) : Answers s (execFlitIdle door f s) :=
  .next (.when (.ite (.takeAck (.onLink .rfl')) (.onLink .rfl')))

theorem execFabRetryTimeout_answers (door : Fin 3) : Answers s (execFabRetryTimeout door s) := by
  refine .next ?_
  split
  · exact .when (.resendFrom .rfl')
  · exact .rfl'

theorem execQuarantineTestEnd_answers (door : Fin 3) (failed : Bool) : Answers s (execQuarantineTestEnd door failed s) :=
  .next (.when (.ite (.onLink .rfl') (.linksChanged (.logEvent (.onLink .rfl')))))

theorem execHello_answers (door : Fin 3) (h : Hello) : Answers s (execHello door h s) := by
  refine .next (.ite .rfl' ?_)
  split
  · exact .ite .rfl' (.linkDown .rfl')
  · exact .ite (.duplicate (.onLink .rfl')) (.ite (.logEvent (.onLink (.onLink .rfl'))) (.ite (.onLink .rfl') (.linksChanged (.onLink .rfl'))))

theorem execLinkState_answers (door : Fin 3) (r : LinkStateRec) : Answers s (execLinkState door r s) :=
  .next (.when (.ite (.duplicate (.flood (.onFab .rfl'))) (.recomputeRoutes (.flood (.onFab .rfl')))))

theorem execDiscoveryEnd_answers : Answers s (execDiscoveryEnd s) := by
  refine .next ?_
  split
  · exact .when (.recomputeRoutes (.foldl (.onFab .rfl') fun _ _ h => h.logEvent))
  · exact .rfl'

/-! ## The dictionary and security -/

theorem execKdpFrameDiscard_answers (c : Client) (tid : BitVec 16) (flaw : FrameFlaw) : Answers s (execKdpFrameDiscard c tid flaw s) := by
  refine .next (.when ?_)
  cases flaw with
  | crcOrLength => exact .kdpViolation .rfl'
  | reserved => exact .breakTransfer .rfl'
  | tooLong => exact .breakTransfer .rfl'

theorem execTimerFire_answers (n : BitVec 3) : Answers s (execTimerFire n s) :=
  .next (.when (.ite (.onTimer (.driveMfio (.onTimer (.emit .rfl')))) (.onTimer (.emit .rfl'))))

/-- A blown bit raises the anti-rollback counter, and the rest of the OTP stays. -/
theorem execRollbackBitBlown_answers : Answers s (execRollbackBitBlown s) := by
  refine .next ?_
  split
  · exact .rfl'
  · have h : Kept s (s.onFlash (fun f => { f with rollback := f.rollback + 1 })) :=
      .onFlash .rfl' ⟨Nat.le_succ _, ⟨rfl, rfl, rfl, rfl⟩, ⟨rfl, rfl, rfl⟩⟩
    exact .when (.ite h (.finishTx h.onSec))

theorem execQuoteSigned_answers : Answers s (execQuoteSigned s) := by
  refine .next ?_
  split
  · exact .rfl'
  · exact .when (.finishTx (.fresh1 (.onSec .rfl')))

theorem execSecJobComplete_answers : Answers s (execSecJobComplete s) := by
  refine .next ?_
  split
  · exact .rfl'
  · exact .when (.ite (.onSec (.emit (.onSec (.writeResult .rfl')))) (.onSec (.writeResult .rfl')))

/-! ## All commands -/

/-- Every command answers a next state and keeps what `Kept` lists. Commands whose one branch is a shared operation stand first, by
that operation; the others follow by their lemmas. -/
theorem exec_answers (i : Instr) (s : State) : Answers s (exec i s) := by
  cases i with
  | porstNRise => exact .next (.ite .rfl' (.beginBoot (.onPins .rfl')))
  | porstNFall => exact .next (.when (.heldReset .rfl'))
  | warmReset => exact .next (.when (.warmReset .rfl'))
  | lakeTrainingComplete => exact .next (.when (.ite (.onLake .rfl') (.ite (.onLake .rfl') (.onBoot (.onLake .rfl')))))
  | exerciseReadback | exerciseLatch => exact .next (.when (.fcSame .rfl' rfl rfl rfl))
  | timebaseMeasurement => exact .next (.when (.measure .rfl'))
  | sourceSilenceTimeout => exact .next (.when (.setLock (.tbSame .rfl' rfl)))
  | holdoverExit => exact .next (.when (.setLock .rfl'))
  | ppsOutEdge | ppsOutFall => exact .next (.when (.onPins .rfl'))
  | write | gptpPort | wdKick | batchNext | carrierOn | rfSpiXfer | rxSubmit | rxRevert | stateReq | claim | timerWrite | actEpoch
    | rollbackCommit | quoteReq | mrExtend | dbgResponse | recSlot | recReboot | pwrStateReq | pwrCap =>
    exact .next (.whenHeard (.write .rfl'))
  | tickStart => exact .next (.when (.emit (.onIsl .rfl')))
  | heartbeatTimeout => exact .next (.when (.heartbeatMiss (.onIsl .rfl')))
  | frameStart => exact .next (.when (.ite (.adoptRois (.nextFrame .rfl')) (.when (.adoptRois (.tbSame .rfl' rfl)))))
  | fsyncEdge => exact .next (.when (.driveFsync (.tbSame .rfl' rfl)))
  | violationSecondEnd => exact .next (.when (.endViolSeconds .rfl'))
  | packetLand => exact .next (.when (.landPacket .rfl'))
  | nop | tileEnd | jump | loop | setlc | setx | addx | addxr | mulxi => exact .next (.scalarOp .rfl')
  | halt => exact .next (.when (.issue .rfl' fun _ h => h.haltCore))
  | waitSeq => exact .next (.issue .rfl' fun _ h => h.onCore)
  | mloadw => exact .next (.issue .rfl' fun _ h => h.issueLoad)
  | mpass => exact .next (.issue .rfl' fun _ h => h.issuePass)
  | passComplete => exact .next (.when (.completePass .rfl'))
  | drainComplete => exact .next (.when (.endDrain .rfl'))
  | tmv => exact .next (.issue .rfl' fun _ h => h.issueMove)
  | vadd | vsub | vmul | vfma | vmin | vmax | vcmp | vsel | viadd | vimul | vand | vor | vshift | vred | vbcast | vsfu =>
    exact .next (.vecOp .rfl')
  | vcvt => exact .next (.issue .rfl' fun _ h => h.convert)
  | vld => exact .next (.issue .rfl' fun _ h => h.loadLanes)
  | vst => exact .next (.issue .rfl' fun _ h => h.storeLanes)
  | start => exact Kept.execStart .rfl'
  | resume => exact Kept.execResume .rfl'
  | preempt => exact Kept.execPreempt .rfl'
  | teardown => exact Kept.execTeardown .rfl'
  | golden => exact Kept.execGolden .rfl'
  | reset => exact Kept.execReset .rfl'
  | ccGroupWrite => exact Kept.execCcGroupWrite .rfl'
  | occupantPreempt => exact .next (.when (.foldl .rfl' fun _ _ h => h.preemptCore))
  | goldenTestEnd => exact .next (.when (.onCore (.chargeCore .rfl')))
  | segmentStart => exact .next (.when (.onCore .rfl'))
  | remapStart => exact .next (.when (.startRemap .rfl'))
  | remapComplete | remapTimeout => exact .next (.when (.finishRemap .rfl'))
  | submit => exact .next (.when (.emit (.submitRead .rfl')))
  | cqFaultClear => exact .next (.when (.retryHeld .rfl'))
  | swapInComplete => exact .next (.when (.finishSwapIn .rfl'))
  | batchClose => exact .next (.when (.onBatch (.closeSlots (.forgetSamples .rfl'))))
  | batchRecordWrite => exact .next (.when (.finishBatch .rfl'))
  | jesdAlign => exact .next (.when (.onRadioDoor .rfl'))
  | slotBoundary => exact .next (.when (.slotBoundary .rfl'))
  | agcWindowEnd => exact .next (.when (.agcMeasure .rfl'))
  | agcSettleEnd | agcSymbolEnd => exact .next (.when (.onCurSlot .rfl'))
  | decoderJobLand => exact .next (.when (.onDecoder .rfl'))
  | harqBufferExpiry => exact .next (.when (.onCarrier .rfl'))
  | memoryAccess => exact .next (.when (.access .rfl'))
  | pageIdleClose | refreshDue => exact .next (.when (.onLake .rfl'))
  | lakeAlert =>
    exact .next (.when (.ite (.lakeReport (.logEvent (.onLake (.lakeCount .rfl')))) (.lakeReport (.logEvent (.onLake .rfl')))))
  | scrubRead => exact .next (.when (.scrubPassEnd (.scrubWord (.onMem .rfl' fun h => h.upset _ _))))
  | attributionTimeout => exact .next (.when (.promoteDue .rfl'))
  | fcClear => exact Kept.execFcClear .rfl'
  | fcInject => exact Kept.execFcInject .rfl'
  | fcAltSw => exact Kept.execFcAltSw .rfl'
  | overflowClear => exact Kept.execOverflowClear .rfl'
  | islandReloadComplete => exact .next (.when (.onIsl .rfl'))
  | flitNak => exact .next (.when (.resendFrom (.takeAck (.onLink .rfl'))))
  | linkSilenceTimeout => exact .next (.when (.linkDown .rfl'))
  | quarantineExpiry => exact .next (.when (.onLink .rfl'))
  | fabWrite | fabRead | readResp | fabSignal | fabError => exact .next (.when (.fabArrive .rfl'))
  | e2eAck => exact .next (.when (.issueHeld (.issueHeld (.onE2e .rfl'))))
  | e2eAckTimer => exact .next (.when (.onFab (.foldl .rfl' fun _ _ h => h.emit)))
  | fabJoinTimeout => exact .next (.when (.loseMissing .rfl'))
  | read | dbgChallenge => exact .next (.whenHeard (.read .rfl'))
  | openRead => exact .next (.whenHeard (.openRead .rfl'))
  | openWrite => exact .next (.whenHeard (.openWrite .rfl'))
  | seg => exact .next (.whenHeard (.seg .rfl'))
  | end_ => exact .next (.whenHeard (.endTransfer .rfl'))
  | describe => exact .next (.whenHeard (.describe .rfl'))
  | abort => exact .next (.whenHeard (.abortTransfer .rfl'))
  | response => exact .next (.whenHeard (.ite (.peerDone (.peerMarginal .rfl')) (.kdpViolation .rfl')))
  | dwWordAccess => exact .next (.when (.dwWord .rfl'))
  | kdpTransferExpiry => exact .next (.when (.serverAbort .rfl'))
  | kdpPeerTimeout => exact .next (.when (.emit (.peerDone .rfl')))
  | kdpDupExpiry => exact .next (.when (.dictSame .rfl' rfl))
  | timerPulseEnd => exact .next (.when (.onTimer (.driveMfio .rfl')))
  | epochPass => exact .next (.when (.passEpoch .rfl'))
  | dbgNonceExpiry | secJobLand => exact .next (.when (.onSec .rfl'))
  | wakeIn => exact .next (.when (.ite (.logEvent (.onPins .rfl')) (.when (.logEvent (.pwrSame .rfl' rfl rfl rfl)))))
  | wakeRelease => exact .next (.when (.beginBoot (.onPins (.resetDomains .rfl'))))
  | avsRetry => exact .next (.when (.pwrSame .rfl' rfl rfl rfl))
  | mfioEdgeCapture => exact .next (.when (.logEvent .rfl'))
  | registerWrite => exact .next (.when (.regWrite .rfl'))
  | vddAonLoss => exact .next (.heldReset .rfl')
  | refclkLoss => exact .next (.when (.tbSame .rfl' rfl))
  | fsyncPulseEnd => exact .next (.when (.driveFsync .rfl'))
  | flashProgramDone => exact .next (.when (.flashDone .rfl'))
  | slotCheckComplete => exact execSlotCheckComplete_answers ..
  | lpddrTrainingComplete => exact execLpddrTrainingComplete_answers ..
  | memoryInitComplete => exact execMemoryInitComplete_answers ..
  | lpInitAdvance => exact execLpInitAdvance_answers ..
  | phase1SectionRead => exact execPhase1SectionRead_answers ..
  | phase2SectionRead => exact execPhase2SectionRead_answers ..
  | exerciseClear => exact execExerciseClear_answers ..
  | clockMonitorAlarm => exact execClockMonitorAlarm_answers ..
  | voltageMonitorAlarm => exact execVoltageMonitorAlarm_answers ..
  | ppsInEdge => exact execPpsInEdge_answers ..
  | voidFill => exact execVoidFill_answers ..
  | illegalInstruction => exact execIllegalInstruction_answers ..
  | waitSeqRetire => exact execWaitSeqRetire_answers ..
  | signal => exact execSignal_answers ..
  | passStart => exact execPassStart_answers ..
  | interlockRelease => exact execInterlockRelease_answers ..
  | tileMoveStart => exact execTileMoveStart_answers ..
  | tileMoveLand => exact execTileMoveLand_answers ..
  | tileBoundaryReached => exact execTileBoundaryReached_answers ..
  | tileOverrun => exact execTileOverrun_answers ..
  | groupChangeApply => exact execGroupChangeApply_answers ..
  | groupPortDecide => exact execGroupPortDecide_answers ..
  | resyncCopyStart => exact execResyncCopyStart_answers ..
  | resyncCopyLanded => exact execResyncCopyLanded_answers ..
  | resyncStateSend => exact execResyncStateSend_answers ..
  | resyncRestart => exact execResyncRestart_answers ..
  | release => exact execRelease_answers ..
  | continueEntry => exact execContinueEntry_answers ..
  | poolEntry => exact execPoolEntry_answers ..
  | radioEntry => exact execRadioEntry_answers ..
  | entryEnd => exact execEntryEnd_answers ..
  | slackResume => exact execSlackResume_answers ..
  | heldReleaseStart => exact execHeldReleaseStart_answers ..
  | goldenDrain => exact execGoldenDrain_answers ..
  | goldenSlotStart => exact execGoldenSlotStart_answers ..
  | goldenCheck => exact execGoldenCheck_answers ..
  | segmentEnd => exact execSegmentEnd_answers ..
  | deadlineCheck => exact execDeadlineCheck_answers ..
  | cmdNop => exact execCmdNop_answers ..
  | runJob => exact execRunJob_answers ..
  | open_ => exact execOpen_answers ..
  | fork => exact execFork_answers ..
  | leave => exact execLeave_answers ..
  | block => exact execBlock_answers ..
  | unblock => exact execUnblock_answers ..
  | cmdTeardown => exact execCmdTeardown_answers ..
  | modelLoad => exact execModelLoad_answers ..
  | modelLoadComplete => exact execModelLoadComplete_answers ..
  | modelPin => exact execModelPin_answers ..
  | splitPair => exact execSplitPair_answers ..
  | reformPair => exact execReformPair_answers ..
  | ctxQuery => exact execCtxQuery_answers ..
  | stepBoundary => exact execStepBoundary_answers ..
  | swapOutComplete => exact execSwapOutComplete_answers ..
  | stepDecisionReceive => exact execStepDecisionReceive_answers ..
  | stepDecisionTimeout => exact execStepDecisionTimeout_answers ..
  | csi2FrameStart => exact execCsi2FrameStart_answers ..
  | csi2Line => exact execCsi2Line_answers ..
  | csi2FrameEnd => exact execCsi2FrameEnd_answers ..
  | ethFrameReceive => exact execEthFrameReceive_answers ..
  | decodeStart => exact execDecodeStart_answers ..
  | decodeComplete => exact execDecodeComplete_answers ..
  | decodeBudgetExpiry => exact execDecodeBudgetExpiry_answers ..
  | sysrefEdge => exact execSysrefEdge_answers ..
  | jesdLinkError => exact execJesdLinkError_answers ..
  | jesdAlignmentLoss => exact execJesdAlignmentLoss_answers ..
  | syncDetection => exact execSyncDetection_answers ..
  | gridSymbol => exact execGridSymbol_answers ..
  | rfTxListStart => exact execRfTxListStart_answers ..
  | decoderJobStart => exact execDecoderJobStart_answers ..
  | decoderJobComplete => exact execDecoderJobComplete_answers ..
  | decoderDeadline => exact execDecoderDeadline_answers ..
  | decoderShareStop => exact execDecoderShareStop_answers ..
  | psfchOccasion => exact execPsfchOccasion_answers ..
  | txDescriptorLand => exact execTxDescriptorLand_answers ..
  | validationComplete => exact execValidationComplete_answers ..
  | retirementCopyComplete => exact execRetirementCopyComplete_answers ..
  | faultReport => exact execFaultReport_answers ..
  | altPulseEnd => exact execAltPulseEnd_answers ..
  | islandTmrDeviate => exact execIslandTmrDeviate_answers ..
  | watchdogExpiry => exact execWatchdogExpiry_answers ..
  | linkTrainComplete => exact execLinkTrainComplete_answers ..
  | flitData => exact execFlitData_answers ..
  | flitIdle => exact execFlitIdle_answers ..
  | fabRetryTimeout => exact execFabRetryTimeout_answers ..
  | quarantineTestEnd => exact execQuarantineTestEnd_answers ..
  | hello => exact execHello_answers ..
  | linkState => exact execLinkState_answers ..
  | discoveryEnd => exact execDiscoveryEnd_answers ..
  | runTransitionComplete => exact execRunTransitionComplete_answers ..
  | timerFire => exact execTimerFire_answers ..
  | rollbackBitBlown => exact execRollbackBitBlown_answers ..
  | quoteSigned => exact execQuoteSigned_answers ..
  | secJobComplete => exact execSecJobComplete_answers ..
  | standbyEntry => exact execStandbyEntry_answers ..
  | capEvaluate => exact execCapEvaluate_answers ..
  | powerCorrection => exact execPowerCorrection_answers ..
  | avsBandUpdate => exact execAvsBandUpdate_answers ..
  | avsTransactionFail => exact execAvsTransactionFail_answers ..
  | thermalSample => exact execThermalSample_answers ..
  | thermalCapStep => exact execThermalCapStep_answers ..
  | errorPinRelease => exact execErrorPinRelease_answers ..
  | kdpFrameDiscard => exact execKdpFrameDiscard_answers ..

end Sys2Proof.Machine
end

section
/-! The block as a whole: the state after reset, a step with and without a command, and what every step keeps. -/

namespace Sys2Proof.Machine

/-- Settles O3: each command answers with a state from which `Kept` holds, and that state is the only one it answers with. -/
theorem commandsAnswerAndLeaveTheQueue : Obligations.CommandsAnswerAndLeaveTheQueue := by
  unfold Obligations.CommandsAnswerAndLeaveTheQueue
  refine ⟨fun c s => ?_, fun c s t h => ?_⟩
  · obtain ⟨t, ht, -⟩ := exec_answers c s
    exact ⟨t, ht⟩
  · obtain ⟨u, hu, kept⟩ := exec_answers c s
    cases hu.symm.trans h
    exact kept.queue

/-- Settles O1: a step with a command in the queue is that command's arm, by the definition of `step`. -/
theorem stepRunsTheFrontCommand : Obligations.StepRunsTheFrontCommand := by
  unfold Obligations.StepRunsTheFrontCommand
  intro c rest s
  rfl

/-- On an empty queue a step is `idle`. -/
theorem step_of_pending_nil {s : State} (h : s.pending = []) : step s = idle s := by
  rw [step, h]

/-- THROTTLE_NS runs exactly while a throttle level is in force, R525. -/
theorem idle_of_time_left {s : State} (hup : s.pins.porstN = true) (ht : s.tb.now + 2 < 2 ^ 64) :
    idle s = .next { s with
      tb := { s.tb with now := s.tb.now + 2 }
      sched := { s.sched with detectNs := s.sched.detectNs + 2 * s.detectingPairs }
      pwr := { s.pwr with throttleNs := if s.pwr.level = 0 then s.pwr.throttleNs else s.pwr.throttleNs + 2 } } := by
  rw [idle, if_pos hup, if_pos ht]
  by_cases hl : s.pwr.level = 0
  · rw [if_neg (by omega), if_pos hl]
  · rw [if_pos (by omega), if_neg hl]

theorem idle_of_porstN_low {s : State} (h : s.pins.porstN = false) : idle s = .next s := by
  simp [idle, h]

theorem idle_of_time_over {s : State} (hup : s.pins.porstN = true) (ht : 2 ^ 64 ≤ s.tb.now + 2) : idle s = .fault .deviceTimeEnd := by
  rw [idle, if_pos hup, if_neg (not_lt.mpr ht)]

/-- Settles O2: the three cases of `idle`, which divide the states with an empty queue. -/
theorem emptyQueueIsTwoNanoseconds : Obligations.EmptyQueueIsTwoNanoseconds := by
  unfold Obligations.EmptyQueueIsTwoNanoseconds
  refine ⟨fun s hq hup ht => ?_, fun s hq hup => ?_, fun s hq hup ht => ?_⟩
  · rw [step_of_pending_nil hq, idle_of_time_left hup ht]
  · rw [step_of_pending_nil hq, idle_of_porstN_low hup]
  · rw [step_of_pending_nil hq, idle_of_time_over hup ht]

/-- The state after reset has no record in the collector, level 0 and an empty memory. -/
theorem State.reset_inv : State.reset.Inv where
  time := rfl
  pwr := .reset
  fc := ⟨fun _ h => absurd h List.not_mem_nil, Nat.zero_le _⟩
  dict := Nat.zero_le _
  mem := rfl
  cores := rfl

/-- Settles O4. -/
theorem resetMeetsTheInvariant : Obligations.ResetMeetsTheInvariant := by
  unfold Obligations.ResetMeetsTheInvariant
  exact ⟨State.reset_inv, rfl, rfl, rfl, rfl, rfl, rfl, rfl⟩

/-- What a step keeps: a granule of device time is even, and the counters of elapsed time are in no invariant. -/
theorem idle_keeps {s t : State} (h : idle s = .next t) :
    (s.Inv → t.Inv) ∧ s.events <+: t.events ∧ s.sent <+: t.sent ∧ s.flash.OtpLe t.flash := by
  unfold idle at h
  split at h
  · split at h
    · cases h
      refine ⟨fun hs => ⟨?_, ?_, hs.fc, hs.dict, hs.mem, hs.cores⟩, List.prefix_rfl, List.prefix_rfl, .rfl'⟩
      · have ht : s.tb.now % 2 = 0 := hs.time
        show (s.tb.now + 2) % 2 = 0
        omega
      · dsimp only
        split
        · exact ⟨hs.pwr.level, hs.pwr.clock, hs.pwr.unmet⟩
        · exact hs.pwr
    · cases h
  · cases h
    exact ⟨id, List.prefix_rfl, List.prefix_rfl, .rfl'⟩

/-- `Kept` carries the invariant, unit by unit. -/
theorem Kept.inv {s t : State} (h : Kept s t) (hs : s.Inv) : t.Inv :=
  ⟨h.time hs.time, h.pwr hs.pwr, h.fc hs.fc, h.dict hs.dict, h.mem hs.mem, h.cores hs.cores⟩

/-- A step takes a command off the queue, which no other unit shows, or lets time pass. -/
theorem step_keeps {s t : State} (h : step s = .next t) :
    (s.Inv → t.Inv) ∧ s.events <+: t.events ∧ s.sent <+: t.sent ∧ s.flash.OtpLe t.flash := by
  unfold step at h
  split at h
  · exact idle_keeps h
  · rename_i c rest _
    obtain ⟨u, hu, kept⟩ := exec_answers c { s with pending := rest }
    cases hu.symm.trans h
    exact ⟨fun hs => kept.inv ⟨hs.time, hs.pwr, hs.fc, hs.dict, hs.mem, hs.cores⟩, kept.events, kept.sent, kept.otp⟩

/-- Settles O5, from `step_keeps`. -/
theorem everyStepKeepsTheInvariant : Obligations.EveryStepKeepsTheInvariant := by
  unfold Obligations.EveryStepKeepsTheInvariant
  exact fun _ _ hs h => (step_keeps h).1 hs

/-- Settles O6, from `step_keeps`. -/
theorem stepsNeverTakeBack : Obligations.StepsNeverTakeBack := by
  unfold Obligations.StepsNeverTakeBack
  exact fun _ _ h => (step_keeps h).2

/-! ## Event records, R27 -/

/-- A number is never before itself in 48-bit serial arithmetic. -/
theorem serialBefore48_self (a : Nat) : serialBefore48 a a = false := by
  rw [serialBefore48, Nat.add_sub_cancel_left, Nat.mod_self]
  rfl

/-- Two different numbers whose difference is not half of 2^48: one of the two differences lies below the half, and the other, its
complement, above. -/
theorem serialBefore48_swap {a b : Nat} (ha : a < 2 ^ 48) (hb : b < 2 ^ 48) (hne : a ≠ b) (hhalf : (a + 2 ^ 48 - b) % 2 ^ 48 ≠ 2 ^ 47) :
    serialBefore48 a b = !serialBefore48 b a := by
  rw [Bool.eq_not_iff, Ne, Bool.eq_iff_iff]
  simp only [serialBefore48, Bool.and_eq_true, decide_eq_true_eq]
  omega

/-- Settles O8: the stamps decide, then the sources, then the numbers. -/
theorem eventMergeDecidesEveryPair : Obligations.EventMergeDecidesEveryPair := by
  unfold Obligations.EventMergeDecidesEveryPair
  refine ⟨fun a => ?_, fun a b ha hb hwindow => ?_⟩
  · simp [eventBefore, serialBefore48_self]
  · unfold eventBefore
    by_cases ht : a.time = b.time
    · by_cases hsrc : a.source = b.source
      · obtain ⟨hne, hhalf⟩ := hwindow ht hsrc
        simpa [ht, hsrc] using serialBefore48_swap ha hb hne hhalf
      · simp only [ht, hsrc, Ne.symm hsrc, ne_eq, not_true_eq_false, not_false_eq_true, if_true, if_false]
        rw [← decide_not, decide_eq_decide]
        omega
    · simp only [ht, Ne.symm ht, ne_eq, not_false_eq_true, if_true]
      rw [← decide_not, decide_eq_decide]
      omega

end Sys2Proof.Machine
end

section
/-! Bytes and words of memory: a write of bytes, the check bits of the words that it touches, and the correction of one flipped bit. -/

namespace Sys2Proof.Machine

/-! ## Bytes -/

theorem length_leBytes (n v : Nat) : (leBytes n v).length = n := by
  induction n generalizing v with
  | zero => rfl
  | succ n ih => rw [leBytes, List.length_cons, ih]

/-- Bytes written as a number and read back as one: the number modulo 2^(8n). -/
theorem leNat_leBytes (n v : Nat) : leNat (leBytes n v) = v % 256 ^ n := by
  induction n generalizing v with
  | zero => simp [leBytes, leNat, Nat.mod_one]
  | succ n ih =>
    rw [leBytes, leNat, ih, BitVec.toNat_ofNat, Nat.pow_succ' (n := n), Nat.mod_mul]

theorem Mem.byte_setBytes_outside (m : Mem) {a x : Nat} {bs : Bytes} (h : x < a ∨ a + bs.length ≤ x) :
    (m.setBytes a bs).byte x = m.byte x := by
  induction bs generalizing m a with
  | nil => rfl
  | cons b bs ih =>
    rw [List.length_cons] at h
    rw [Mem.setBytes, ih _ (by omega), Mem.byte_setByte_other _ _ (by omega)]

theorem Mem.byte_setBytes_inside (m : Mem) (a : Nat) {bs : Bytes} {i : Nat} (h : i < bs.length) :
    (m.setBytes a bs).byte (a + i) = bs[i] := by
  induction bs generalizing m a i with
  | nil => exact absurd h (Nat.not_lt_zero i)
  | cons b bs ih =>
    rw [Mem.setBytes]
    cases i with
    | zero => rw [Mem.byte_setBytes_outside _ (.inl (by omega)), Nat.add_zero, Mem.byte_setByte_same]; rfl
    | succ i =>
      have hi : i < bs.length := Nat.lt_of_succ_lt_succ h
      have e : a + (i + 1) = a + 1 + i := by omega
      rw [e]
      exact ih _ _ hi

theorem Mem.bytes_setBytes (m : Mem) (a : Nat) (bs : Bytes) : (m.setBytes a bs).bytes a bs.length = bs := by
  refine List.ext_getElem (by simp [Mem.bytes]) fun i _ hi => ?_
  simp only [Mem.bytes, List.getElem_map, List.getElem_range, Mem.byte_setBytes_inside m a hi]

@[simp] theorem Mem.synd_setBytes (m : Mem) (a : Nat) (bs : Bytes) : (m.setBytes a bs).synd = m.synd := by
  induction bs generalizing m a with
  | nil => rfl
  | cons b bs ih => rw [Mem.setBytes, ih]; rfl

/-! ## A write of bytes, R337 -/

/-- The check of one word changes no byte of another word. -/
theorem Mem.byte_rewrite_outside (m : Mem) (poisoned : Bool) (a n : Nat) {w x : Nat} (h : x < 4 * w ∨ 4 * w + 4 ≤ x) :
    (m.rewrite poisoned a n w).byte x = m.byte x := by
  unfold Mem.rewrite
  split
  · rfl
  · split
    · rfl
    · split
      · rfl
      · exact Mem.byte_setBytes_outside m (by rwa [length_leBytes])
      · rfl

/-- A poisoned write marks its words and moves no data. -/
theorem Mem.byte_rewrite_poisoned (m : Mem) (a n w x : Nat) : (m.rewrite true a n w).byte x = m.byte x := rfl

theorem Mem.byte_foldl {α : Type} {f : Mem → α → Mem} {l : List α} {m : Mem} {x : Nat}
    (h : ∀ t, ∀ y ∈ l, (f t y).byte x = t.byte x) : (l.foldl f m).byte x = m.byte x := by
  induction l generalizing m with
  | nil => rfl
  | cons y l ih =>
    rw [List.foldl_cons, ih fun t z hz => h t z (List.mem_cons_of_mem _ hz), h m y List.mem_cons_self]

/-- The words that a range of bytes touches. -/
theorem mem_wordsOf {a n w : Nat} : w ∈ wordsOf a n ↔ 0 < n ∧ a / 4 ≤ w ∧ 4 * w < a + n := by
  unfold wordsOf
  split
  · simp only [List.not_mem_nil, false_iff]
    omega
  · simp only [List.mem_map, List.mem_range]
    constructor
    · rintro ⟨k, hk, rfl⟩
      omega
    · intro h
      exact ⟨w - a / 4, by omega, by omega⟩

/-- The bytes that a write leaves: those outside the words it touches, and all outside its bytes where no word's rest changes. -/
theorem Mem.byte_write_outside {m : Mem} {a x : Nat} {bs : Bytes} {poisoned : Bool} (hx : x < a ∨ a + bs.length ≤ x)
    (hrest : m.synd ≠ [] → poisoned = false → x < a / 4 * 4 ∨ (a + bs.length + 3) / 4 * 4 ≤ x) :
    (m.write a bs poisoned).byte x = m.byte x := by
  rw [Mem.write, Mem.byte_setBytes_outside _ hx]
  split
  · rfl
  · rename_i hc
    refine Mem.byte_foldl fun t w hw => ?_
    cases poisoned with
    | true => exact Mem.byte_rewrite_poisoned ..
    | false =>
      have := hrest (by simpa using hc) rfl
      rw [mem_wordsOf] at hw
      exact Mem.byte_rewrite_outside _ _ _ _ (by omega)

/-- Settles O11. -/
theorem memoryWriteIsReadBack : Obligations.MemoryWriteIsReadBack := by
  unfold Obligations.MemoryWriteIsReadBack
  intro m a bs poisoned
  refine ⟨fun h => Mem.Ok.write (m := m) h a bs poisoned, Mem.bytes_setBytes _ a bs, fun x hx => ?_, fun h x hx => ?_⟩
  · exact Mem.byte_write_outside (by omega) fun _ _ => hx
  · exact Mem.byte_write_outside hx fun hne => absurd h hne

/-! ## The code of R347 and R348 -/

/-- The column of a data bit is what the check bits of that bit alone are, R347. -/
theorem eccColumns_eq : eccColumns = (List.range 32).map (fun j => checkBits (1#32 <<< j)) := by decide

theorem mem_eccColumns {y : BitVec 8} : y ∈ eccColumns ↔ ∃ j, j < 32 ∧ y = checkBits (1#32 <<< j) := by
  rw [eccColumns_eq]
  simp only [List.mem_map, List.mem_range, eq_comm]

/-- The syndromes of one check bit in error. -/
theorem mem_checkBitSyndromes {y : BitVec 8} :
    y ∈ ([1, 2, 4, 8, 16, 32, 64] : List (BitVec 8)) ↔ ∃ i, i < 7 ∧ y = 1#8 <<< i := by
  have h : ([1, 2, 4, 8, 16, 32, 64] : List (BitVec 8)) = (List.range 7).map (fun i => 1#8 <<< i) := by decide
  rw [h]
  simp only [List.mem_map, List.mem_range, eq_comm]

theorem decodeSyndrome_checkBit : ∀ i < 7, decodeSyndrome (1#8 <<< i) = .correct 0 := by decide

theorem decodeSyndrome_column : ∀ j < 32, decodeSyndrome (checkBits (1#32 <<< j)) = .correct (1#32 <<< j) := by decide

/-- Below bit 7 the table of R348 has five entries, tried in this order. -/
theorem decodeSyndrome_cases {y : BitVec 8} (hy : y.toNat < 128) :
    y = 0 ∧ decodeSyndrome y = .clean
    ∨ y = 0x7F ∧ decodeSyndrome y = .poison
    ∨ (∃ i, i < 7 ∧ y = 1#8 <<< i) ∧ decodeSyndrome y = .correct 0
    ∨ (∃ j, j < 32 ∧ y = checkBits (1#32 <<< j) ∧ decodeSyndrome y = .correct (1#32 <<< j))
    ∨ (y ≠ 0 ∧ y ≠ 0x7F ∧ (∀ i, i < 7 → y ≠ 1#8 <<< i) ∧ ∀ j, j < 32 → y ≠ checkBits (1#32 <<< j)) ∧ decodeSyndrome y = .ue := by
  by_cases h0 : y = 0
  · subst h0
    exact .inl ⟨rfl, rfl⟩
  by_cases hp : y = 0x7F
  · subst hp
    exact .inr (.inl ⟨rfl, rfl⟩)
  by_cases hc : ∃ i, i < 7 ∧ y = 1#8 <<< i
  · obtain ⟨i, hi, rfl⟩ := hc
    exact .inr (.inr (.inl ⟨⟨i, hi, rfl⟩, decodeSyndrome_checkBit i hi⟩))
  by_cases hd : ∃ j, j < 32 ∧ y = checkBits (1#32 <<< j)
  · obtain ⟨j, hj, rfl⟩ := hd
    exact .inr (.inr (.inr (.inl ⟨j, hj, rfl, decodeSyndrome_column j hj⟩)))
  · have h7 : y.getLsbD 7 = false := by
      rw [BitVec.getLsbD, Nat.testBit_lt_two_pow hy]
    have hf : eccColumns.findIdx? (· == y) = none := by
      rw [List.findIdx?_eq_none_iff]
      intro x hx
      have hne : y ∉ eccColumns := fun h => hd (mem_eccColumns.1 h)
      simpa using fun e : x = y => hne (e ▸ hx)
    refine .inr (.inr (.inr (.inr ⟨⟨h0, hp, fun i hi e => hc ⟨i, hi, e⟩, fun j hj e => hd ⟨j, hj, e⟩⟩, ?_⟩)))
    rw [decodeSyndrome, if_neg h0, h7, if_neg Bool.false_ne_true, if_neg hp, if_neg (mt mem_checkBitSyndromes.1 hc), hf]

/-- No column of a data bit is all of 0, 0x7F and no check bit's syndrome, so that the five entries exclude each other. -/
theorem eccColumn_ne : ∀ j < 32, checkBits (1#32 <<< j) ≠ 0 ∧ checkBits (1#32 <<< j) ≠ 0x7F := by decide

theorem checkBit_ne : ∀ i < 7, 1#8 <<< i ≠ 0 ∧ 1#8 <<< i ≠ 0x7F := by decide

/-! ## Words -/

/-- A word stored at its place reads back. -/
theorem Mem.word_setBytes (m : Mem) (w : Nat) (v : Word) : (m.setBytes (4 * w) (leBytes 4 v.toNat)).word w = v := by
  have h := Mem.bytes_setBytes m (4 * w) (leBytes 4 v.toNat)
  rw [length_leBytes] at h
  rw [Mem.word, h, leNat_leBytes]
  exact BitVec.eq_of_toNat_eq (by rw [BitVec.toNat_ofNat]; have := v.isLt; omega)

/-- The check bits play no part in reading a word. -/
theorem Mem.word_withSynd (m : Mem) (y : Sparse (BitVec 8)) (w : Nat) : ({ m with synd := y } : Mem).word w = m.word w := rfl

theorem Mem.word_upset {m : Mem} {w : Nat} {u : BitVec 40} (h : u ≠ 0) : (m.upset w u).word w = m.word w ^^^ u.truncate 32 := by
  rw [Mem.upset, if_neg h, Mem.word_withSynd, Mem.word_setBytes]

theorem Mem.synd_upset {m : Mem} {w : Nat} {u : BitVec 40} (h : u ≠ 0) :
    sget 0 (m.upset w u).synd w = sget 0 m.synd w ^^^ (u >>> 32).truncate 8 ^^^ checkBits (u.truncate 32) := by
  rw [Mem.upset, if_neg h, sget_sset, if_pos rfl]

theorem sget_sdel_same {α : Type} (d : α) (m : Sparse α) (i : Nat) : sget d (sdel m i) i = d := by
  rw [sget, sfind_sdel_same]
  rfl

/-- A correctable word is corrected, R350: the flipped bits are turned back and its check bits are its own. -/
theorem Mem.fix_of_correct {m : Mem} {w : Nat} {f : Word} (h : decodeSyndrome (sget 0 m.synd w) = .correct f) :
    (m.fix w).word w = m.word w ^^^ f ∧ sget 0 (m.fix w).synd w = 0 := by
  rw [Mem.fix, h]
  exact ⟨by rw [Mem.word_withSynd, Mem.word_setBytes], sget_sdel_same ..⟩

/-- One flipped bit of a codeword is a data bit or a check bit. -/
theorem flippedBit_data : ∀ j < 32, (1#40 <<< j) ≠ 0 ∧ (1#40 <<< j).truncate 32 = 1#32 <<< j
    ∧ ((1#40 <<< j : BitVec 40) >>> 32).truncate 8 = 0#8 := by
  decide

theorem flippedBit_check : ∀ i < 7, (1#40 <<< (32 + i)) ≠ 0 ∧ (1#40 <<< (32 + i)).truncate 32 = 0#32
    ∧ ((1#40 <<< (32 + i) : BitVec 40) >>> 32).truncate 8 = 1#8 <<< i := by
  decide

/-- The syndrome of one flipped bit names that bit. -/
theorem Mem.decodeSyndrome_upset {m : Mem} {w j : Nat} (hs : sget 0 m.synd w = 0) (hj : j < 39) :
    decodeSyndrome (sget 0 (m.upset w (1#40 <<< j)).synd w) = .correct ((1#40 <<< j).truncate 32) ∧ (1#40 <<< j) ≠ 0 := by
  rcases Nat.lt_or_ge j 32 with h | h
  · obtain ⟨hne, hd, hc⟩ := flippedBit_data j h
    rw [Mem.synd_upset hne, hs, hd, hc]
    exact ⟨by simpa using decodeSyndrome_column j h, hne⟩
  · obtain ⟨i, rfl⟩ := Nat.exists_eq_add_of_le h
    obtain ⟨hne, hd, hc⟩ := flippedBit_check i (by omega)
    rw [Mem.synd_upset hne, hs, hd, hc]
    have h0 : checkBits 0#32 = 0 := by decide
    exact ⟨by simpa [h0] using decodeSyndrome_checkBit i (by omega), hne⟩

/-- A write of one whole word touches that word alone. -/
theorem wordsOf_wholeWord (w : Nat) : wordsOf (4 * w) 4 = [w] := by
  have h : (4 * w + 4 - 1) / 4 + 1 - 4 * w / 4 = 1 := by omega
  have h4 : 0 + 4 * w / 4 = w := by omega
  rw [wordsOf, if_neg (by decide), h, List.range_one, List.map_singleton, h4]

/-- The check bits after a write of one whole word, R337 and R349. -/
theorem Mem.synd_write_wholeWord (m : Mem) (w : Nat) {bs : Bytes} (hl : bs.length = 4) (poisoned : Bool) :
    sget 0 (m.write (4 * w) bs poisoned).synd w = if poisoned then 0x7F else 0 := by
  rw [Mem.write, Mem.synd_setBytes, hl, wordsOf_wholeWord]
  cases poisoned with
  | true => simp [Mem.rewrite, Mem.poisonWord, sget_sset]
  | false =>
    cases hm : m.synd with
    | nil => simp [hm, sget, sfind]
    | cons p t => simp [hm, Mem.rewrite, sget_sdel_same]

/-- Settles O12: the table by its five entries, which exclude each other; a whole write by its check bits; a flipped bit by its syndrome. -/
theorem wordsAreCorrected : Obligations.WordsAreCorrected := by
  unfold Obligations.WordsAreCorrected
  refine ⟨fun y hy => ⟨?_, ?_, ?_, ?_, ?_⟩, fun m w bs hl => ⟨?_, ?_⟩, fun m w j hs hj => ?_⟩
  · rcases decodeSyndrome_cases hy with ⟨rfl, h⟩ | ⟨rfl, h⟩ | ⟨⟨i, hi, rfl⟩, h⟩ | ⟨j, hj, rfl, h⟩ | ⟨⟨h0, -⟩, h⟩
    · exact iff_of_true h rfl
    · exact iff_of_false (by rw [h]; nofun) (by decide)
    · exact iff_of_false (by rw [h]; nofun) (checkBit_ne i hi).1
    · exact iff_of_false (by rw [h]; nofun) (eccColumn_ne j hj).1
    · exact iff_of_false (by rw [h]; nofun) h0
  · rcases decodeSyndrome_cases hy with ⟨rfl, h⟩ | ⟨rfl, h⟩ | ⟨⟨i, hi, rfl⟩, h⟩ | ⟨j, hj, rfl, h⟩ | ⟨⟨-, hp, -⟩, h⟩
    · exact iff_of_false (by rw [h]; nofun) (by decide)
    · exact iff_of_true h rfl
    · exact iff_of_false (by rw [h]; nofun) (checkBit_ne i hi).2
    · exact iff_of_false (by rw [h]; nofun) (eccColumn_ne j hj).2
    · exact iff_of_false (by rw [h]; nofun) hp
  · rintro ⟨i, hi, rfl⟩
    exact decodeSyndrome_checkBit i hi
  · rintro j hj rfl
    exact decodeSyndrome_column j hj
  · rcases decodeSyndrome_cases hy with ⟨rfl, h⟩ | ⟨rfl, h⟩ | ⟨⟨i, hi, rfl⟩, h⟩ | ⟨j, hj, rfl, h⟩ | ⟨hu, h⟩
    · exact iff_of_false (by rw [h]; nofun) fun hu => hu.1 rfl
    · exact iff_of_false (by rw [h]; nofun) fun hu => hu.2.1 rfl
    · exact iff_of_false (by rw [h]; nofun) fun ⟨_, _, hc, _⟩ => hc i hi rfl
    · exact iff_of_false (by rw [h]; nofun) fun ⟨_, _, _, hd⟩ => hd j hj rfl
    · exact iff_of_true h hu
  · rw [Mem.synd_write_wholeWord m w hl]
    rfl
  · rw [Mem.synd_write_wholeWord m w hl]
    rfl
  · obtain ⟨hd, hne⟩ := Mem.decodeSyndrome_upset (m := m) hs hj
    obtain ⟨hw, hy⟩ := Mem.fix_of_correct hd
    refine ⟨?_, hy⟩
    rw [hw, Mem.word_upset hne, BitVec.xor_assoc, BitVec.xor_self, BitVec.xor_zero]

end Sys2Proof.Machine
end

section
/-! The sequencer and the vector unit: what an instruction that issues does, and what it leaves. -/

namespace Sys2Proof.Machine

/-! ## Fetch and issue -/

/-- Without a bad word a read of memory changes nothing and finds nothing. -/
theorem State.readMem_of_synd_nil {s : State} (h : s.mem.synd = []) (a n : Nat) : s.readMem a n = (s, s.peek a n, none) := by
  rw [State.readMem, h]
  rfl

/-- Without a bad word a fetch changes nothing, R350 and R360. -/
theorem State.fetch_of_synd_nil {s t : State} {n : Nat} {w : Word64} (h : s.mem.synd = []) (hf : s.fetch n = .word t w) : t = s := by
  simp only [State.fetch, State.readMem_of_synd_nil h] at hf
  cases hp : (s.core n).prog with
  | none => simp [hp] at hf
  | some p =>
    rw [hp] at hf
    dsimp only at hf
    split at hf
    · cases hf
    · split at hf
      · cases hf
      · exact ((Fetched.word.inj hf).1).symm

/-- An instruction that issues has its effect on the state after its fetch. -/
theorem State.issue_of_issues {s t : State} {n : BitVec 6} {i : Instr} (h : s.Issues n i t) (effect : State → State) :
    s.issue n i effect = effect t := by
  obtain ⟨w, hf, hd⟩ := h
  rw [State.issue, hf]
  exact if_pos hd

theorem State.scalarOp_of_issues {s t : State} {n : BitVec 6} {i : Instr} (h : s.Issues n i t) (f : Core → Core) :
    s.scalarOp n i f = t.onCore n.toNat (fun c => f c.next) :=
  State.issue_of_issues h _

theorem State.vecOp_of_issues {s t : State} {n : BitVec 6} {i : Instr} (h : s.Issues n i t) (vd : BitVec 5) (f : Core → List Word) :
    s.vecOp n i vd f = t.onCore n.toNat (fun c => (c.setLanes vd (f c)).onward) :=
  State.issue_of_issues h _

/-- Without a bad word an instruction has its effect or leaves the state. -/
theorem State.issue_of_synd_nil {s : State} (h : s.mem.synd = []) (n : BitVec 6) (i : Instr) (effect : State → State) :
    s.issue n i effect = effect s ∨ s.issue n i effect = s := by
  unfold State.issue
  split
  · rename_i t w hf
    rw [State.fetch_of_synd_nil h hf]
    split
    · exact .inl rfl
    · exact .inr rfl
  · exact .inr rfl

/-! ## Control instructions -/

theorem waitOver_iff (k : Counter) (v : Word) : waitOver k v = true ↔ k.seqDone = v ∨ serialAfter k.seqDone v = true := by
  rw [waitOver, decide_eq_true_eq, serialAfter_iff, word_eq_iff_sub_toNat]
  omega

/-- LOOP leaves the loop when the count before it was 1: LC is decremented before the test. -/
theorem loopCount_eq_zero_iff (v : BitVec 16) : v - 1 = 0 ↔ v = 1 := by
  bv_omega

/-- Settles O13: each instruction is `scalarOp` with its own change of the core. -/
theorem controlInstructionsComplete : Obligations.ControlInstructionsComplete := by
  unfold Obligations.ControlInstructionsComplete
  refine ⟨fun s t n => ⟨?nop, ?tileEnd, ?jump, ?loop, ?setlc, ?setx, ?addx, ?addxr, ?mulxi, ?waitSeq⟩, ?retire⟩
  case nop => exact fun h => congrArg _ (State.scalarOp_of_issues h _)
  case tileEnd => exact fun h => congrArg _ (State.scalarOp_of_issues h _)
  case jump => exact fun _ h => congrArg _ (State.scalarOp_of_issues h _)
  case loop =>
    intro lc target h
    show execLoop n lc target s = _
    rw [execLoop, State.scalarOp_of_issues h]
    simp only [Core.lcount, Core.next, Core.onward, loopCount_eq_zero_iff]
  case setlc => exact fun _ _ h => congrArg _ (State.scalarOp_of_issues h _)
  case setx => exact fun _ _ h => congrArg _ (State.scalarOp_of_issues h _)
  case addx => exact fun _ _ h => congrArg _ (State.scalarOp_of_issues h _)
  case addxr => exact fun _ _ _ h => congrArg _ (State.scalarOp_of_issues h _)
  case mulxi => exact fun _ _ _ h => congrArg _ (State.scalarOp_of_issues h _)
  case waitSeq => exact fun _ _ _ _ h => congrArg _ (State.issue_of_issues h _)
  case retire =>
    intro s n k v hup hst htb hpre hheld hwait hover
    have hw := (waitOver_iff ((s.core n.toNat).awaited k) v).2 hover
    show execWaitSeqRetire n s = _
    simp only [execWaitSeqRetire, hwait, hup, hst, htb, hpre, hheld, hw]
    rfl

/-- Settles O14. -/
theorem fetchHaltAndIllegalWords : Obligations.FetchHaltAndIllegalWords := by
  unfold Obligations.FetchHaltAndIllegalWords
  refine ⟨fun s t n i hm ⟨w, hf, _⟩ => State.fetch_of_synd_nil hm hf, fun s t n h hq => ⟨?_, fun c => ?_⟩, fun s t n => ⟨?_, ?_, ?_⟩⟩
  · show execHalt n s = _
    rw [execHalt, if_pos hq, State.issue_of_issues h]
    rfl
  · refine ⟨rfl, rfl, rfl, rfl, fun p hp => ?_, rfl, rfl, rfl, rfl, rfl⟩
    simp only [Core.halted, hp]
  · intro w hf hd
    show execIllegalInstruction n s = _
    rw [execIllegalInstruction, hf]
    simp only [hd, Option.isNone_none, if_true]
  · intro off hf
    show execIllegalInstruction n s = _
    rw [execIllegalInstruction, hf]
  · intro a hf
    show execIllegalInstruction n s = _
    rw [execIllegalInstruction, hf]

/-- Settles O16: each word's fields evaluate. -/
theorem tileWordsDecode : Obligations.TileWordsDecode := by
  unfold Obligations.TileWordsDecode
  exact fun n => ⟨rfl, rfl, rfl, rfl, rfl, rfl, rfl, rfl, rfl, rfl⟩

/-! ## The frame of control and lane instructions -/

/-- What an instruction without a Pond operand and without a packet may change of its core. -/
def Core.SameButRegisters (c d : Core) : Prop :=
  d = { c with pc := d.pc, atTb := d.atTb, x := d.x, lc := d.lc, v := d.v, waitOn := d.waitOn, tileEndPending := d.tileEndPending }

theorem Core.SameButRegisters.of (c : Core) {pc : Nat} {atTb tileEndPending : Bool} {x : List Word} {lc : List (BitVec 16)} {v : Sparse Word}
    {waitOn : Option (BitVec 4 × Word)} : c.SameButRegisters
      { c with pc := pc, atTb := atTb, x := x, lc := lc, v := v, waitOn := waitOn, tileEndPending := tileEndPending } :=
  rfl

theorem Core.SameButRegisters.setLanes_next (c : Core) (vd : BitVec 5) (ws : List Word) : c.SameButRegisters (c.setLanes vd ws).next :=
  .of c

/-- Each such instruction issues with a change of its core within that frame. -/
theorem exec_of_onlyCore {i : Instr} {n : BitVec 6} (h : i.onlyCore = some n) (s : State) :
    ∃ f, exec i s = .next (s.issue n i (fun t => t.onCore n.toNat f)) ∧ ∀ c : Core, c.SameButRegisters (f c) := by
  unfold Instr.onlyCore at h
  split at h
  case h_27 vd vs1 vs2 vs3 imm =>
    split at h
    · rename_i hk
      cases h
      refine ⟨fun c => (c.setLanes vd (lanes1 vs1 (vcvtLane (Config.vcvtKind (imm.toNat % 16))) c)).next, ?_,
        fun c => .setLanes_next c vd _⟩
      show execVcvt n vd vs1 vs2 vs3 imm s = _
      simp only [execVcvt, State.convert, hk, if_true]
    · cases h
  case h_28 => cases h
  all_goals
    cases h
    exact ⟨_, rfl, fun c => .of c⟩

/-- A core beyond the device's stays the empty one. -/
theorem State.core_onCore_self (s : State) (n : Nat) (f : Core → Core) :
    (s.onCore n f).core n = f (s.core n) ∨ (s.onCore n f).core n = s.core n := by
  by_cases h : n < s.cores.length
  · exact .inl (State.core_onCore_same s n f h)
  · refine .inr ?_
    have h' : (s.onCore n f).cores.length ≤ n := by rw [State.onCore_length]; omega
    rw [State.core, State.core, List.getD_eq_default _ _ h', List.getD_eq_default _ _ (by omega)]

/-- Settles O15: the instruction has its effect, which `exec_of_onlyCore` bounds, or it does not issue. -/
theorem scalarAndLaneFrame : Obligations.ScalarAndLaneFrame := by
  unfold Obligations.ScalarAndLaneFrame
  intro s t n i hm hi ht
  obtain ⟨f, hexec, hf⟩ := exec_of_onlyCore hi s
  cases hexec.symm.trans ht
  rcases State.issue_of_synd_nil hm n i (fun t => t.onCore n.toNat f) with h | h
  · rw [h]
    refine ⟨rfl, fun m hne => State.core_onCore_other s f hne, ?_⟩
    rcases State.core_onCore_self s n.toNat f with hc | hc
    · rw [hc]
      exact hf _
    · rw [hc]
  · rw [h]
    exact ⟨rfl, fun _ _ => rfl, rfl⟩

end Sys2Proof.Machine
end

section
/-! Vector registers, their loads and stores, and the lane operations. -/

namespace Sys2Proof.Machine

/-! ## Registers as lanes -/

/-- Entries set one after another at consecutive keys read back, and other keys read as before. -/
theorem sget_foldl_sset_range {α : Type} [DecidableEq α] (d : α) (m : Sparse α) (base n j : Nat) (g : Nat → α) :
    sget d ((List.range n).foldl (fun m l => sset d m (base + l) (g l)) m) j
      = if base ≤ j ∧ j < base + n then g (j - base) else sget d m j := by
  induction n with
  | zero => rw [if_neg (by omega)]; rfl
  | succ n ih =>
    rw [List.range_succ, List.foldl_append, List.foldl_cons, List.foldl_nil, sget_sset, ih]
    rcases Nat.lt_trichotomy j (base + n) with h | h | h
    · rw [if_neg (by omega)]
      exact if_congr (by omega) rfl rfl
    · subst h
      rw [if_pos rfl, if_pos (by omega), Nat.add_sub_cancel_left]
    · rw [if_neg (by omega), if_neg (by omega), if_neg (by omega)]

theorem Core.lanes_setLanes_same (c : Core) (r : BitVec 5) (ws : List Word) :
    (c.setLanes r ws).lanes r = (List.range 64).map (fun l => ws.getD l 0) := by
  refine List.map_congr_left fun l hl => ?_
  rw [List.mem_range] at hl
  rw [Core.setLanes, sget_foldl_sset_range, if_pos (by omega), Nat.add_sub_cancel_left]

theorem Core.lanes_setLanes_other (c : Core) {q r : BitVec 5} (ws : List Word) (h : q ≠ r) : (c.setLanes r ws).lanes q = c.lanes q := by
  refine List.map_congr_left fun l hl => ?_
  rw [List.mem_range] at hl
  have hne : q.toNat ≠ r.toNat := fun e => h (BitVec.eq_of_toNat_eq e)
  rw [Core.setLanes, sget_foldl_sset_range, if_neg (by omega)]

theorem map_range_getD {α : Type} (ws : List α) (d : α) : (List.range ws.length).map (fun l => ws.getD l d) = ws := by
  refine List.ext_getElem (by simp) fun i _ hi => ?_
  simp [hi]

theorem Core.length_lanes (c : Core) (r : BitVec 5) : (c.lanes r).length = 64 := by simp [Core.lanes]

/-! ## Pond operands -/

/-- An instruction that meets no pending range has its effect, and nothing is held back. -/
theorem State.interlock_of_free {s : State} {n : Nat} {rs : List Range} (h : (s.core n).conflicts rs = false) (i : Instr)
    (effect : State → State) : s.interlock n i rs effect = effect (s.onCore n (fun c => { c with held := none })) := by
  rw [State.interlock, h]
  rfl

/-- An operand without a bad word is read, and what follows takes its bytes. -/
theorem State.withPond_of_reads {s u : State} {n off len : Nat} {bs : Bytes}
    (h : s.Reads (pondBase + s.logical n * 0x400000 + off) len u bs) (k : State → Bytes → State) : s.withPond n off len k = k u bs := by
  unfold State.Reads at h
  rw [State.withPond, h]
  rfl

/-- A write of whole words needs no read before it, R337. -/
theorem State.mergeReads_wholeWords (s : State) {a n : Nat} (ha : a % 4 = 0) (hn : n % 4 = 0) : s.mergeReads a n = s := by
  unfold State.mergeReads
  split
  · rfl
  · have h : (wordsOf a n).filter (fun w => !(decide (a ≤ 4 * w) && decide (4 * w + 4 ≤ a + n))) = [] := by
      rw [List.filter_eq_nil_iff]
      intro w hw
      rw [mem_wordsOf] at hw
      simp only [Bool.not_eq_true, Bool.not_eq_false', Bool.and_eq_true, decide_eq_true_eq]
      omega
    rw [h]
    rfl

/-- A write of whole words to a core's own Pond changes memory alone. -/
theorem State.pondWrite_wholeWords (s : State) (n : Nat) {off : Nat} {bs : Bytes} (poisoned : Bool) (ho : off % 4 = 0)
    (hn : bs.length % 4 = 0) : s.pondWrite n off bs poisoned = s.onMem (fun m => m.write (pondAt n off) bs poisoned) := by
  rw [State.pondWrite, State.mergeReads_wholeWords s (by unfold pondBase; omega) hn]

theorem length_lanesBytes (ws : List Word) : ((ws.map (fun w => leBytes 4 w.toNat)).flatten).length = 4 * ws.length := by
  induction ws with
  | nil => rfl
  | cons w ws ih =>
    rw [List.map_cons, List.flatten_cons, List.length_append, length_leBytes, ih, List.length_cons]
    omega

/-- VST's bytes. -/
def Core.laneBytes (c : Core) (r : BitVec 5) : Bytes := ((c.lanes r).map (fun w => leBytes 4 w.toNat)).flatten

theorem Core.length_laneBytes (c : Core) (r : BitVec 5) : (c.laneBytes r).length = 256 := by
  rw [Core.laneBytes, length_lanesBytes, Core.length_lanes]

/-- VLD of a free range of the program's region whose bytes read well. -/
theorem State.loadLanes_of_reads {t u : State} {n : BitVec 6} {r : BitVec 5} {granule : BitVec 16} {bs : Bytes}
    (hin : (t.core n.toNat).inRegion (granule.toNat * 64) 256 = true)
    (hfree : (t.core n.toNat).conflicts [pondRange 1 false (granule.toNat * 64) 256] = false)
    (hread : (t.onCore n.toNat (fun c => { c with held := none })).Reads
      (pondBase + t.logical n.toNat * 0x400000 + granule.toNat * 64) 256 u bs) :
    t.loadLanes n r granule = u.onCore n.toNat (fun c =>
      (c.setLanes r ((List.range 64).map (fun l => BitVec.ofNat 32 (fieldAt bs (4 * l) 4)))).onward) := by
  rw [State.loadLanes, hin, Bool.not_true, if_neg Bool.false_ne_true, State.interlock_of_free hfree, State.withPond_of_reads hread]
  rfl

/-- What VST leaves: `bs` in the core's own Pond and in its unit's CRC, and the PC moved on. -/
def State.stored (t : State) (n off : Nat) (bs : Bytes) : State :=
  (((t.onCore n (fun c => { c with held := none })).onMem (fun m => m.write (pondAt n off) bs false)).onCore n
    (fun c => c.signUnit 1 bs)).next n

/-- VST of a free range of the program's region stores the register's bytes. -/
theorem State.storeLanes_of_free {t : State} {n : BitVec 6} {r : BitVec 5} {granule : BitVec 16}
    (hin : (t.core n.toNat).inRegion (granule.toNat * 64) 256 = true)
    (hfree : (t.core n.toNat).conflicts [pondRange 1 true (granule.toNat * 64) 256] = false) :
    t.storeLanes n r granule
      = t.stored n.toNat (granule.toNat * 64) (((t.onCore n.toNat (fun c => { c with held := none })).core n.toNat).laneBytes r) := by
  rw [State.storeLanes, hin, Bool.not_true, if_neg Bool.false_ne_true, State.interlock_of_free hfree]
  show (State.onCore (State.pondWrite _ n.toNat (granule.toNat * 64) (Core.laneBytes _ r) false) _ _).next _ = _
  rw [State.pondWrite_wholeWords _ _ _ (by omega) (by rw [Core.length_laneBytes])]
  rfl

theorem State.stored_frame (t : State) (n off : Nat) (bs : Bytes) :
    t.stored n off bs = { t with cores := (t.stored n off bs).cores, mem := (t.stored n off bs).mem } := rfl

theorem State.stored_mem (t : State) (n off : Nat) (bs : Bytes) : (t.stored n off bs).mem = t.mem.write (pondAt n off) bs false := rfl

theorem State.stored_core_other (t : State) {n m : Nat} (off : Nat) (bs : Bytes) (hm : m ≠ n) :
    (t.stored n off bs).core m = t.core m := by
  simp only [State.stored, State.next, State.core_onCore_other _ _ hm, State.core_onMem]

theorem State.stored_core_same {t : State} {n : Nat} (off : Nat) (bs : Bytes) (h : n < t.cores.length) :
    (t.stored n off bs).core n = (({ t.core n with held := none } : Core).signUnit 1 bs).next := by
  have h' : n < (t.onCore n (fun c => { c with held := none })).cores.length := by rwa [State.onCore_length]
  rw [State.stored, State.next, State.core_onCore_same _ _ _ (by rwa [State.onCore_length]), State.core_onCore_same _ _ _ (by exact h')]
  exact congrArg (fun c : Core => (c.signUnit 1 bs).next) (State.core_onCore_same t n _ h)

theorem Mem.bytes_write (m : Mem) (a : Nat) (bs : Bytes) (poisoned : Bool) : (m.write a bs poisoned).bytes a bs.length = bs :=
  Mem.bytes_setBytes _ a bs

/-- The store of VST: its bytes, what it leaves, and the core that goes on. -/
theorem State.storeLanes_effect {t : State} {n : BitVec 6} {r : BitVec 5} {granule : BitVec 16}
    (hin : (t.core n.toNat).inRegion (granule.toNat * 64) 256 = true)
    (hfree : (t.core n.toNat).conflicts [pondRange 1 true (granule.toNat * 64) 256] = false) :
    let u := t.storeLanes n r granule
    (n.toNat < t.cores.length → u.mem.bytes (pondAt n.toNat (granule.toNat * 64)) 256 = (t.core n.toNat).laneBytes r)
    ∧ (∀ a, a < pondAt n.toNat (granule.toNat * 64) ∨ pondAt n.toNat (granule.toNat * 64) + 256 ≤ a → u.mem.byte a = t.mem.byte a)
    ∧ u = { t with cores := u.cores, mem := u.mem } ∧ (∀ m, m ≠ n.toNat → u.core m = t.core m)
    ∧ (n.toNat < t.cores.length → (u.core n.toNat).pc = ((t.core n.toNat).pc + 1) % 65536 ∧ (u.core n.toNat).v = (t.core n.toNat).v
        ∧ (u.core n.toNat).x = (t.core n.toNat).x) := by
  rw [State.storeLanes_of_free hin hfree]
  generalize hbs : ((t.onCore n.toNat (fun c => { c with held := none })).core n.toNat).laneBytes r = bs
  have hlen : bs.length = 256 := hbs ▸ Core.length_laneBytes _ r
  refine ⟨fun h => ?_, fun a ha => ?_, State.stored_frame .., fun m hm => State.stored_core_other _ _ _ hm, fun h => ?_⟩
  · rw [State.core_onCore_same t _ _ h] at hbs
    rw [State.stored_mem, ← hlen, Mem.bytes_write]
    exact hbs.symm
  · rw [State.stored_mem]
    exact Mem.byte_write_outside (by rw [hlen]; exact ha) (fun _ _ => by rw [hlen]; unfold pondAt pondBase at ha ⊢; omega)
  · rw [State.stored_core_same _ _ h]
    exact ⟨rfl, rfl, rfl⟩

/-- Settles O17: registers by their lanes, VLD by the bytes read, VST by `storeLanes_effect`. -/
theorem vectorRegistersLoadAndStore : Obligations.VectorRegistersLoadAndStore := by
  unfold Obligations.VectorRegistersLoadAndStore
  refine ⟨fun c r ws hl => ⟨?_, fun q hq => Core.lanes_setLanes_other c ws hq, rfl⟩, fun s t n r granule hin => ⟨?_, ?_⟩⟩
  · rw [Core.lanes_setLanes_same, ← hl, map_range_getD]
  · intro h hfree u bs hread
    exact congrArg _ ((State.issue_of_issues h _).trans (State.loadLanes_of_reads hin hfree hread))
  · intro h hfree
    exact ⟨_, congrArg Host.Outcome.next (State.issue_of_issues h _), State.storeLanes_effect hin hfree⟩

/-! ## Lane operations -/

/-- Lane by lane over three registers, one lane at a time. -/
theorem lanes3_eq_map (vs1 vs2 vs3 : BitVec 5) (f : Word → Word → Word → Word) (c : Core) :
    lanes3 vs1 vs2 vs3 f c
      = (List.range 64).map (fun l => f ((c.lanes vs1).getD l 0) ((c.lanes vs2).getD l 0) ((c.lanes vs3).getD l 0)) := by
  refine List.ext_getElem (by simp [lanes3, Core.length_lanes]) fun i hi _ => ?_
  have h64 : i < 64 := by simpa [lanes3, Core.length_lanes] using hi
  simp [lanes3, Core.length_lanes, h64]

theorem State.vecOp3_of_issues {s t : State} {n : BitVec 6} {i : Instr} (h : s.Issues n i t) (vd vs1 vs2 vs3 : BitVec 5)
    (f : Word → Word → Word → Word) :
    s.vecOp n i vd (lanes3 vs1 vs2 vs3 f) = t.onCore n.toNat (fun c => (c.setLanes vd ((List.range 64).map (fun l =>
      f ((c.lanes vs1).getD l 0) ((c.lanes vs2).getD l 0) ((c.lanes vs3).getD l 0)))).onward) := by
  rw [State.vecOp_of_issues h]
  simp only [lanes3_eq_map]

/-- Settles O18: each operation is `vecOp` with its own lanes; VCVT by the three kinds of conversion. -/
theorem laneOperationsComplete : Obligations.LaneOperationsComplete := by
  unfold Obligations.LaneOperationsComplete
  intro s t n vd vs1 vs2 vs3 imm
  refine ⟨?vadd, ?vsub, ?vmul, ?vfma, ?vmin, ?vmax, ?vcmp, ?vsel, ?vcvt, ⟨?plain, ?free, ?counted⟩, ?viadd, ?vimul, ?vand, ?vor, ?vshift,
    ?vred, ?vbcast, ?vsfu⟩
  case vfma => exact fun h => congrArg _ (State.vecOp3_of_issues h ..)
  case vsel => exact fun h => congrArg _ (State.vecOp3_of_issues h ..)
  case vcvt => exact fun h => congrArg _ (State.issue_of_issues h _)
  case plain =>
    intro hk
    rw [State.convert, if_pos hk]
    rfl
  case free =>
    intro hk hg
    rw [State.convert, if_neg (by omega), State.convertScaled, hg]
    rfl
  case counted =>
    intro hk g u bs hg hin hfree hread
    rw [State.convert, if_neg (by omega), State.convertScaled, hg]
    dsimp only
    rw [hin, Bool.not_true, if_neg Bool.false_ne_true, State.interlock_of_free hfree, State.withPond_of_reads hread]
    rfl
  case vred =>
    intro h
    refine ⟨_, congrArg Host.Outcome.next (State.vecOp_of_issues h _ _), fun hn => ⟨?_, ?_⟩⟩
    · rw [State.core_onCore_same _ _ _ hn]
      show List.getD (Core.lanes (Core.setLanes _ _ _) _) _ _ = _
      rw [Core.lanes_setLanes_same]
      rfl
    · rw [State.core_onCore_same _ _ _ hn]
      rfl
  all_goals exact fun h => congrArg _ (State.vecOp_of_issues h _ _)

end Sys2Proof.Machine
end

section
/-! What an accepted write commits. -/

namespace Sys2Proof.Machine

/-! ## The active record -/

/-- A record one number on is the newer one, R481. -/
theorem serialAfter_succ (q : Word) : serialAfter (q + 1#32) q = true := by
  rw [serialAfter_iff]
  have h : (q + 1#32 - q).toNat = 1 := by bv_omega
  omega

theorem serialAfter_of_succ (q : Word) : serialAfter q (q + 1#32) = false := by
  rw [Bool.eq_false_iff, ne_eq, serialAfter_iff]
  have h : (q - (q + 1#32)).toNat = 2 ^ 32 - 1 := by bv_omega
  omega

/-- The record written is the active one: it carries the next number, and goes where the older one stood. -/
theorem Flash.act_writeAct (f : Flash) (g : ActRecord → ActRecord) : (f.writeAct g).act = { g f.act with seq := f.act.seq + 1 } := by
  cases h0 : f.ar0 with
  | none =>
    cases h1 : f.ar1 with
    | none => simp [Flash.writeAct, Flash.inAr0, Flash.act, h0, h1]
    | some b => simp [Flash.writeAct, Flash.inAr0, Flash.act, h0, h1, serialAfter_of_succ]
  | some a =>
    cases h1 : f.ar1 with
    | none => simp [Flash.writeAct, Flash.inAr0, Flash.act, h0, h1, serialAfter_succ]
    | some b =>
      cases h : serialAfter b.seq a.seq with
      | false => simp [Flash.writeAct, Flash.inAr0, Flash.act, h0, h1, h, serialAfter_succ]
      | true => simp [Flash.writeAct, Flash.inAr0, Flash.act, h0, h1, h, serialAfter_of_succ]

theorem State.applyEpoch_epoch (s : State) (n : Nat) : (s.applyEpoch n).flash.act.epoch = n := by
  unfold State.applyEpoch
  dsimp only
  split
  · simp [State.passEpoch, State.writeAct, Flash.act_writeAct]
  · simp [State.writeAct, Flash.act_writeAct]

/-! ## Pins, balls and timers -/

theorem State.enablePins_tb (s : State) (o who : Nat) (tid : BitVec 16) (owner : Nat) (pins : List Nat) :
    (s.enablePins o who tid owner pins).tb = s.tb := by
  unfold State.enablePins
  refine foldl_tb fun t r => ?_
  split
  · rfl
  · simp

theorem State.disablePins_tb (s : State) (o who : Nat) (tid : BitVec 16) (owner : Nat) (pins : List Nat) :
    (s.disablePins o who tid owner pins).tb = s.tb := by
  unfold State.disablePins
  refine foldl_tb fun t r => ?_
  split
  · split
    · simp
    · rfl
  · rfl

theorem State.applyGptp_src (s : State) (o who : Nat) (tid : BitVec 16) (v : Bytes) : (s.applyGptp o who tid v).tb.src = leNat v := by
  unfold State.applyGptp
  dsimp only
  split
  · rw [State.enablePins_tb]
    rfl
  · rw [State.disablePins_tb]
    rfl

theorem State.applyClaim_claimed {s : State} {r : Nat} (o : Nat) {v : Bytes} (hv : fieldAt v 0 2 ≠ 0xFFFF)
    (hfree : sfind s.dict.claims r = none) : sfind (s.applyClaim o r v).dict.claims r = some (s.claimRecord o v) := by
  rw [State.applyClaim, if_neg hv, hfree]
  exact sfind_sput_same ..

theorem State.applyClaim_released {s : State} {r : Nat} (o : Nat) {v : Bytes} (hv : fieldAt v 0 2 = 0xFFFF) :
    sfind (s.applyClaim o r v).dict.claims r = none := by
  rw [State.applyClaim, if_pos hv]
  split
  next h => exact Option.isNone_iff_eq_none.1 h
  next => exact sfind_sdel_same ..

theorem State.timer_onTimer (s : State) (n : Nat) (f : Timer → Timer) : (s.onTimer n f).timer n = f (s.timer n) := by
  show sget {} (sset {} s.dict.timers n _) n = _
  rw [sget_sset, if_pos rfl]
  rfl

theorem State.applyTimer_settings (s : State) (n : Nat) (v : Bytes) :
    let t := (s.applyTimer n v).timer n
    t.first = fieldAt v 0 8 ∧ t.period = fieldAt v 8 4 ∧ t.width = fieldAt v 12 4 ∧ t.ball = fieldAt v 26 2
      ∧ t.en = (fieldAt v 28 1 == 1) := by
  rw [State.applyTimer]
  simp only [State.timer_onTimer, and_self]

theorem State.kick_watchdog (s : State) (i : Nat) (v : BitVec 16) :
    (s.kick i v).isl.wdValue = setAt s.isl.wdValue i v ∧ (s.kick i v).isl.wdLast = setAt s.isl.wdLast i (some s.now) := by
  unfold State.kick
  dsimp only
  split
  · exact ⟨rfl, rfl⟩
  · simp [State.watchdogFault]

theorem Boot.mrOf_extend (b : Boot) (n : Nat) (x : Bytes) : (b.extend n x).mrOf n = sm3 (b.mrOf n ++ x) := by
  rw [Boot.extend, Boot.mrOf, sget, sfind_sput_same]
  rfl

/-! ## The commit -/

section
variable {s t : State} {c : Client} {o : Nat} {tid : BitVec 16} {key : Nat} {e : Entry} {v : Bytes}

theorem State.commitValue_of_A (h : s.commitA o c.logWho tid e.first (e.pos key) v = some t) : s.commitValue c o tid key e v = t := by
  rw [State.commitValue, h]
  rfl

theorem State.commitValue_of_B (ha : s.commitA o c.logWho tid e.first (e.pos key) v = none)
    (h : s.commitB c o tid e.first (e.pos key) key v = some t) : s.commitValue c o tid key e v = t := by
  rw [State.commitValue, ha, h]
  rfl

end

/-- Settles O59: the row of each entry, and what its operation does. -/
theorem commitsHaveTheirEffect : Obligations.CommitsHaveTheirEffect := by
  unfold Obligations.CommitsHaveTheirEffect
  intro s c o tid key e v t i n
  refine ⟨fun h => ?gptp, fun h => ?store, fun h => ?carriers, fun h => ?spi, fun h => ?bank, fun h hn => ?revert, fun h => ?kick,
    fun h => ?power, fun h => ?transition, fun h hv hf => ?claim, fun h hv => ?release, fun h => ?timer, fun h => ?epoch, fun h hn => ?rollback,
    fun h => ?quote, fun h => ?extend, fun h => ?schedule, fun h => ?threshold, fun h => ?alt, fun h => ?stage, fun h => ?image,
    fun h => ?plain⟩
  case gptp =>
    have ht : t = s.applyGptp o c.logWho tid v := State.commitValue_of_A (by rw [h]; rfl)
    rw [ht, State.applyGptp_src]
  case store => exact State.commitValue_of_A (by rw [h]; rfl)
  case carriers => exact State.commitValue_of_A (by rw [h]; rfl)
  case spi => exact State.commitValue_of_A (by rw [h]; rfl)
  case bank => exact State.commitValue_of_A (by rw [h]; rfl)
  case revert =>
    refine State.commitValue_of_A ?_
    rw [h]
    exact congrArg some (if_pos hn)
  case kick =>
    have ht : t = s.kick i (BitVec.ofNat 16 n) := State.commitValue_of_A (by rw [h]; rfl)
    rw [ht]
    exact State.kick_watchdog ..
  case power => rw [show t = s.onPwr (fun p => { p with req := some (n == 2) }) from State.commitValue_of_A (by rw [h]; rfl)]; rfl
  case transition =>
    rw [show t = s.onDict (fun d => { d with transition := some (c, tid) }) from State.commitValue_of_B (by rw [h]; rfl) (by rw [h]; rfl)]
    rfl
  case claim =>
    rw [show t = s.applyClaim o i v from State.commitValue_of_B (by rw [h]; rfl) (by rw [h]; rfl)]
    exact State.applyClaim_claimed o hv hf
  case release =>
    rw [show t = s.applyClaim o i v from State.commitValue_of_B (by rw [h]; rfl) (by rw [h]; rfl)]
    exact State.applyClaim_released o hv
  case timer =>
    rw [show t = (s.setEntry key v).applyTimer i v from State.commitValue_of_B (by rw [h]; rfl) (by rw [h]; rfl)]
    exact State.applyTimer_settings ..
  case epoch =>
    rw [show t = s.applyEpoch n from State.commitValue_of_B (by rw [h]; rfl) (by rw [h]; rfl)]
    exact State.applyEpoch_epoch ..
  case rollback =>
    have ht : t = s.onSec (fun x => { x with commit := some (c, tid, n) }) := by
      refine State.commitValue_of_B (by rw [h]; rfl) ?_
      rw [h]
      exact congrArg some (if_neg hn)
    rw [ht]
    rfl
  case quote =>
    have ht : t = s.onSec (fun x => { x with quoteQueue := x.quoteQueue ++
      [{ client := c, tid := tid, nonce := slice v 0 32, mask := BitVec.ofNat 8 (fieldAt v 32 1) }] }) :=
      State.commitValue_of_B (by rw [h]; rfl) (by rw [h]; rfl)
    rw [ht]
    rfl
  case extend =>
    rw [show t = s.onBoot (fun b => b.extend (fieldAt v 0 1) (slice v 4 32)) from State.commitValue_of_B (by rw [h]; rfl) (by rw [h]; rfl)]
    exact Boot.mrOf_extend ..
  case schedule =>
    have ht : t = (s.setEntry kSchedule v).onSched (fun x => { x with table := some (parseSchedule v) }) :=
      State.commitValue_of_A (by rw [h]; rfl)
    rw [ht]
    rfl
  case threshold => rw [show t = s.onFc (fun x => { x with threshold := n }) from State.commitValue_of_A (by rw [h]; rfl)]; rfl
  case alt => rw [show t = s.onFc (fun x => { x with altClass := n }) from State.commitValue_of_A (by rw [h]; rfl)]; rfl
  case stage => exact State.commitValue_of_B (by rw [h]; rfl) (by rw [h]; rfl)
  case image => exact State.commitValue_of_B (by rw [h]; rfl) (by rw [h]; rfl)
  case plain =>
    simp only [List.mem_cons, List.not_mem_nil, or_false, not_or] at h
    have ha : s.commitA o c.logWho tid e.first i v = none := by simp [State.commitA, h]
    have hb : s.commitB c o tid e.first i key v = none := by simp [State.commitB, h]
    show State.commitValue .. = _
    rw [State.commitValue, ha, hb]
    rfl

end Sys2Proof.Machine
end

section
/-! Counters, signals, packets and void packets. -/

namespace Sys2Proof.Machine

/-! ## The landed window, R72 -/

/-- One place of the window: a landed number at its start lets SEQ_DONE pass it. -/
def slideOne (c : Counter) (_ : Nat) : Counter :=
  if c.landed.getLsbD 0 then { c with landed := c.landed >>> 1, seqDone := c.seqDone + 1 } else c

/-- Sliding passes the longest run of landed numbers, as far as the places it is given. -/
theorem foldl_slideOne (l : List Nat) (c : Counter) :
    ∃ j, j ≤ l.length ∧ (∀ i, i < j → c.landed.getLsbD i = true) ∧ (j < l.length → (c.landed >>> j).getLsbD 0 = false)
      ∧ l.foldl slideOne c = { c with landed := c.landed >>> j, seqDone := c.seqDone + BitVec.ofNat 32 j } := by
  induction l generalizing c with
  | nil => exact ⟨0, le_refl _, fun _ h => absurd h (Nat.not_lt_zero _), fun h => absurd h (Nat.not_lt_zero _), by simp⟩
  | cons a l ih =>
    obtain ⟨j, hj, hset, hstop, hfold⟩ := ih (slideOne c a)
    rw [List.foldl_cons, hfold]
    cases hc : c.landed.getLsbD 0 with
    | false =>
      rw [slideOne, hc, if_neg Bool.false_ne_true] at hset ⊢
      have hj0 : j = 0 := by
        by_contra h
        have := hset 0 (Nat.pos_of_ne_zero h)
        rw [hc] at this
        exact Bool.false_ne_true this
      subst hj0
      exact ⟨0, Nat.zero_le _, fun _ h => absurd h (Nat.not_lt_zero _), fun _ => by simpa using hc, rfl⟩
    | true =>
      rw [slideOne, hc, if_pos rfl] at hset hstop ⊢
      refine ⟨j + 1, Nat.succ_le_succ hj, fun i hi => ?_, fun h => ?_, ?_⟩
      · cases i with
        | zero => exact hc
        | succ i => simpa [Nat.add_comm] using hset i (by omega)
      · have := hstop (Nat.lt_of_succ_lt_succ h)
        simpa [Nat.add_comm] using this
      · simp only [← BitVec.shiftRight_add, Nat.add_comm 1 j, Counter.mk.injEq, and_true]
        rw [BitVec.add_assoc, Nat.add_comm j 1, BitVec.ofNat_add]
        rfl

theorem landOn_eq (k : Counter) (seq : Word) (void : Bool) :
    landOn k seq void =
      if 2 ^ 31 + 1 ≤ (seq - k.seqDone).toNat ∨ ((seq - k.seqDone).toNat ≤ 63 ∧ k.landed.getLsbD (seq - k.seqDone).toNat = true) then
        ({ k with dups := k.dups + 1 }, false)
      else if 63 < (seq - k.seqDone).toNat then ({ k with viols := k.viols + 1 }, true)
      else ((List.range 64).foldl slideOne { k with
        landed := k.landed ||| (1#64 <<< (seq - k.seqDone).toNat), voids := if void then k.voids + 1 else k.voids }, false) := rfl

/-! ## Sending -/

theorem State.sendPacket_own {s : State} {n : Nat} (o : BitVec 4) (seq : Word) {x : Dest} (void : Bool) (hs : s.speaks n = true)
    (hx : x.node = s.fab.nodeId) :
    s.sendPacket n o seq x void = s.emit (.packet x.core.toNat x.bank.toNat x.ctr.toNat seq.toNat void) := by
  rw [State.sendPacket, hs, Bool.not_true, if_neg Bool.false_ne_true, if_pos hx]

/-- Settles O19: the three cases of `landOn`, and SIGNAL's packet on the own node. -/
theorem countersAndSignals : Obligations.CountersAndSignals := by
  unfold Obligations.CountersAndSignals
  refine ⟨fun k seq void d hd => ?_, ?_⟩
  · rw [← word_sub_toNat] at hd
    rw [landOn_eq, ← hd]
    refine ⟨fun h => if_pos h, fun h1 h2 => ?_, fun h1 h2 => ?_⟩
    · rw [if_neg (by omega), if_pos h1]
    · intro l
      obtain ⟨j, hj, hset, hstop, hfold⟩ := foldl_slideOne (List.range 64) { k with
        landed := k.landed ||| (1#64 <<< d), voids := if void then k.voids + 1 else k.voids }
      rw [List.length_range] at hj hstop
      refine ⟨j, hj, hset, ?_, ?_⟩
      · rcases Nat.lt_or_ge j 64 with h | h
        · exact hstop h
        · rw [BitVec.getLsbD_ushiftRight]
          exact BitVec.getLsbD_of_ge _ _ (by omega)
      · rw [if_neg (by rw [h2]; simp; omega), if_neg (by omega), hfold]
  · intro s t n out dctr dcore dnode p h hq hp d x hok hnode hspeaks
    show execSignal n out dctr dcore dnode s = _
    rw [execSignal, hq, if_neg Bool.false_ne_true, State.issue_of_issues h, State.issueSignal, hp]
    dsimp only
    rw [hok, Bool.not_true, if_neg Bool.false_ne_true, State.sendPacket_own _ _ _ (by exact hspeaks) (by exact hnode)]
    have hcore : (destOf dnode.toNat dcore.toNat dctr.toNat).core.toNat = dcore.toNat := by simp [destOf]
    have hbank : (destOf dnode.toNat dcore.toNat dctr.toNat).bank.toNat = dctr.toNat / 16 := by
      simp [destOf, bits]; omega
    have hctr : (destOf dnode.toNat dcore.toNat dctr.toNat).ctr.toNat = dctr.toNat % 16 := by simp [destOf]
    rw [hcore, hbank, hctr]
    rfl

/-! ## Landing and void packets -/

theorem State.landPacket_free {s : State} {p : Packet} (h : ∀ r ∈ s.sched.remaps, r.logical ≠ p.core) :
    s.landPacket p = (s.packetTargets p.core.toNat).foldl (fun t n => t.landAt n p) s := by
  rw [State.landPacket, if_neg]
  simpa using h

/-- A packet for a core that is being remapped waits for the remap's end, R298. -/
theorem State.landPacket_held {s : State} {p : Packet} (h : ∃ r ∈ s.sched.remaps, r.logical = p.core) :
    s.landPacket p = { s with sched := { s.sched with remaps := s.sched.remaps.map (fun r =>
      if r.logical = p.core then { r with heldPackets := r.heldPackets ++ [p] } else r) } } := by
  rw [State.landPacket, if_pos (by simpa using h)]
  simp only [beq_iff_eq]
  rfl

/-- Void packets to a core of the own node leave over the mesh, in the order of their numbers. -/
theorem State.foldl_sendPacket_own {n : Nat} (o : BitVec 4) {x : Dest} (f : Nat → Word) (l : List Nat) (s : State)
    (hs : s.speaks n = true) (hx : x.node = s.fab.nodeId) :
    l.foldl (fun t i => t.sendPacket n o (f i) x true) s
      = { s with sent := s.sent ++ l.map (fun i => .packet x.core.toNat x.bank.toNat x.ctr.toNat (f i).toNat true) } := by
  induction l generalizing s with
  | nil => rw [List.map_nil, List.append_nil]; rfl
  | cons i l ih =>
    rw [List.foldl_cons, State.sendPacket_own o (f i) true hs hx, ih _ (by exact hs) (by exact hx), List.map_cons, List.append_cons]
    rfl

/-- Settles O23: the two cases of landing, and the packets of one stream's voids. -/
theorem packetsAndVoids : Obligations.PacketsAndVoids := by
  unfold Obligations.PacketsAndVoids
  refine ⟨fun s p hup => ⟨fun h => ?_, fun h => ?_⟩, fun s n hup => ⟨?_, fun bank o last d hs hd hnode => ?_⟩⟩
  · show execPacketLand p s = _
    rw [execPacketLand, if_pos hup, State.landPacket_free h]
  · show execPacketLand p s = _
    rw [execPacketLand, if_pos hup, State.landPacket_held h]
  · show execVoidFill n s = _
    rw [execVoidFill, if_pos hup]
  · intro x hk
    rw [State.voidStream]
    simp only [hd]
    rw [if_neg (Nat.not_le.2 hk), State.foldl_sendPacket_own o _ _ s hs hnode]
    rfl

end Sys2Proof.Machine
end

section
/-! The queues of a core's units: preloads, passes, drains and tile moves. -/

namespace Sys2Proof.Machine

/-! ## Queueing -/

theorem updAt_updAt {α : Type} (l : List α) (n : Nat) (f g : α → α) : updAt (updAt l n f) n g = updAt l n (fun x => g (f x)) :=
  List.modify_modify_eq f g n l

theorem State.onCore_onCore (s : State) (n : Nat) (f g : Core → Core) : (s.onCore n f).onCore n g = s.onCore n (fun c => g (f c)) := by
  rw [State.onCore, State.onCore_cores, updAt_updAt]
  rfl

/-- What a change of a core keeps of every core, that core has afterwards, whatever its number. -/
theorem State.core_onCore_keeps {α : Type} (get : Core → α) (s : State) (n : Nat) (f : Core → Core) (h : ∀ c, get (f c) = get c) :
    get ((s.onCore n f).core n) = get (s.core n) := by
  rcases State.core_onCore_self s n f with e | e
  · rw [e, h]
  · rw [e]

theorem State.issueLoad_of_reads {t u : State} {n : BitVec 6} {shape fmt : BitVec 4} {quad : BitVec 2} {block : BitVec 16} {bs : Bytes}
    (hpair : pairOk shape.toNat fmt.toNat = true) (hin : (t.core n.toNat).inRegion (block.toNat * 64) (weightBytes shape.toNat) = true)
    (hroom : (t.core n.toNat).mq.length < 4)
    (hfree : (t.core n.toNat).conflicts [pondRange 4 false (block.toNat * 64) (weightBytes shape.toNat)] = false)
    (hread : (t.onCore n.toNat (fun c => { c with held := none })).Reads
      (pondBase + t.logical n.toNat * 0x400000 + block.toNat * 64) (weightBytes shape.toNat) u bs) :
    t.issueLoad n shape fmt quad block = u.onCore n.toNat (fun c =>
      ({ c.onward with mq := c.mq ++ [.load { shape := shape, fmt := fmt, quad := quad, bytes := bs }
                                        [pondRange 4 false (block.toNat * 64) (weightBytes shape.toNat)]] } : Core).preload) := by
  unfold State.issueLoad
  dsimp only
  rw [hpair, Bool.not_true, if_neg Bool.false_ne_true, hin, Bool.not_true, if_neg Bool.false_ne_true, if_neg (Nat.not_le.2 hroom),
    State.interlock_of_free hfree, State.withPond_of_reads hread]
  rfl

/-- A pass whose ranges are free and whose norm is in range joins its queue. -/
theorem State.queuePass_of_free {u : State} {n : BitVec 6} {a : PassArgs} {p : Program} {table : Bytes} {pro : Option Bytes}
    (hfree : (u.core n.toNat).conflicts (passRanges a p table (pro.map parseEntry)) = false)
    (hnorm : ∀ e, pro.map parseEntry = some e → normOk (u.pondReader n.toNat) e ((u.core n.toNat).x.getD 1 0) = true) :
    u.queuePass n a p table pro = u.onCore n.toNat (fun c =>
      { c.onward with held := none, mq := c.mq ++ [.pass (a.toPass table pro (passRanges a p table (pro.map parseEntry)))] }) := by
  unfold State.queuePass
  dsimp only
  have hx : ((u.onCore n.toNat (fun c => { c with held := none })).core n.toNat).x = (u.core n.toNat).x :=
    State.core_onCore_keeps Core.x u n.toNat _ (fun _ => rfl)
  rw [State.interlock_of_free hfree, hx, if_pos, State.onCore_onCore]
  · rfl
  · cases he : pro.map parseEntry with
    | none => rfl
    | some e => exact hnorm e he

theorem State.issuePassOf_of_reads {t u : State} {n : BitVec 6} {a : PassArgs} {p : Program} {table : Bytes} {pro : Option Bytes}
    (hcover : p.chainCount = 0 ∨ p.covers p.chainTable (192 * p.chainCount) = true)
    (hfree : (t.core n.toNat).conflicts (if p.chainCount = 0 then [] else [pondRange 4 false p.chainTable (192 * p.chainCount)]) = false)
    (hread : (t.onCore n.toNat (fun c => { c with held := none })).Reads
      (pondBase + t.logical n.toNat * 0x400000 + p.chainTable) (192 * p.chainCount) u table)
    (hchain : checkChains a p table = some pro) (hstray : a.strays p table (pro.map parseEntry) = none) :
    t.issuePassOf n a p = u.queuePass n a p table pro := by
  unfold State.issuePassOf
  dsimp only
  rw [if_neg (by rcases hcover with h | h <;> simp [h]), State.interlock_of_free hfree, State.withPond_of_reads hread]
  simp only [hchain, hstray]

theorem State.issuePass_of_room {t : State} {n : BitVec 6} {a : PassArgs} {p : Program} (hp : (t.core n.toNat).prog = some p)
    (hpair : pairOk a.shape.toNat a.fmt.toNat = true) (hrows : rowsOk a.shape.toNat a.quad.toNat a.arow.toNat a.m = true)
    (hroom : (t.core n.toNat).mq.length < 4) : t.issuePass n a = t.issuePassOf n a p := by
  rw [State.issuePass, hp]
  dsimp only
  rw [hpair, Bool.not_true, if_neg Bool.false_ne_true, hrows, Bool.not_true, if_neg Bool.false_ne_true, if_neg (Nat.not_le.2 hroom)]

/-- Settles O20: each instruction finds its range free, reads its operand and joins its queue. -/
theorem matrixAndMoveInstructionsQueue : Obligations.MatrixAndMoveInstructionsQueue := by
  unfold Obligations.MatrixAndMoveInstructionsQueue
  intro s t n free pond
  refine ⟨?load, ?pass, ?move⟩
  case load =>
    intro shape fmt quad block u bs h hpair hin hroom hfree hread
    exact congrArg Host.Outcome.next ((State.issue_of_issues h _).trans (State.issueLoad_of_reads hpair hin hroom hfree hread))
  case pass =>
    intro a p u table pro h hp hpair hrows hroom hcover hfree hread hchain hstray hfree2 hnorm
    refine congrArg Host.Outcome.next ((State.issue_of_issues h _).trans ?_)
    rw [State.issuePass_of_room hp hpair hrows hroom, State.issuePassOf_of_reads hcover hfree hread hchain hstray,
      State.queuePass_of_free hfree2 hnorm]
  case move =>
    intro engine desc u bs h hin hroom hfree hread d ext rs hfree2
    refine congrArg Host.Outcome.next ((State.issue_of_issues h _).trans ?_)
    unfold State.issueMove
    dsimp only
    rw [hin, Bool.not_true, if_neg Bool.false_ne_true, if_neg (Nat.not_le.2 hroom), State.interlock_of_free hfree,
      State.withPond_of_reads hread, State.interlock_of_free hfree2, State.onCore_onCore]
    rfl

/-! ## Passes and drains -/

theorem State.startPass_of_reads {s t : State} {n : Nat} {p : Pass} {rest : List MatrixOp} (h : s.touchPond n p.reads = (t, none)) :
    s.startPass n p rest =
      let c := t.core n
      let known := findWeights c.planes.1 p
      let x := p.run (t.pondReader n) ((known.map (·.bytes)).getD (Config.freeBytes t.fresh (weightBytes p.shape.toNat))) c.acc
      let t1 := (if known.isNone then t.fresh1 else t).onCore n (fun c => c.started p rest x.1.1)
      let t2 := (x.2.map (fun g => addCounts (t.pondReader n) g.1 g.2)).foldl (fun u e => u.pondWrite n e.1 e.2 false) t1
      if x.1.2 then t2.ccErr n eSat n else t2 := by
  rw [State.startPass, h]
  rfl

theorem State.endDrain_of_reads {s t : State} {n : Nat} {p : Pass} {rest : List Pass} (hd : (s.core n).draining = p :: rest)
    (h : s.touchPond n (drainReads (s.pondReader n) (parseEntry p.epilogue) p) = (t, none)) (parityOk : Bool) :
    s.endDrain n parityOk =
      let ws := drainWrites (t.pondReader n) (parseEntry p.epilogue) p ((t.core n).drainedRows p)
      let u := (t.unitWrites n 0 ws (!parityOk)).onCore n (fun c =>
        { c with draining := rest, accBusy := setAt c.accBusy (if p.abuf then 1 else 0) false })
      if parityOk then u.beginDrain n else u.coreFault n eAccPar n := by
  rw [State.endDrain, hd]
  dsimp only
  rw [h]
  rfl

/-- Settles O21: the held instruction, the start and end of a pass, and the end of a drain. -/
theorem passesRunAndDrain : Obligations.PassesRunAndDrain := by
  unfold Obligations.PassesRunAndDrain
  refine ⟨fun s n hup hbusy => ⟨fun i hi => ?retry, fun r granule u bs hheld hin hfree hread => ?load⟩,
    fun s t n hup hbusy => ⟨fun p rest hfront hbuf hread => ?start, fun p rest hp => ?complete⟩,
    fun s t n abuf parityOk p rest hup hbusy hd ha hread => ?drain⟩
  case retry =>
    show execInterlockRelease n s = _
    rw [execInterlockRelease, hi]
    dsimp only
    rw [hup, hbusy]
    rfl
  case load =>
    show execInterlockRelease n s = _
    rw [execInterlockRelease, hheld]
    dsimp only
    rw [hup, hbusy]
    exact congrArg Host.Outcome.next (State.loadLanes_of_reads hin hfree hread)
  case start =>
    show execPassStart n s = _
    rw [execPassStart]
    dsimp only
    rw [hfront]
    dsimp only
    rw [hup, hbusy, hbuf, State.startPass_of_reads hread]
    rfl
  case complete =>
    show execPassComplete n s = _
    rw [execPassComplete, hup, hbusy, State.completePass, hp]
    dsimp only
    cases p.drain <;> cases (s.core n.toNat).draining <;> rfl
  case drain =>
    show execDrainComplete n abuf parityOk s = _
    rw [execDrainComplete, hup, hbusy, hd, List.head?_cons, Option.map_some, ha, State.endDrain_of_reads hd hread, ha]
    simp

/-! ## Tile moves -/

/-- A descriptor that reads well and passes every check begins its move. -/
theorem State.takeDesc_of_good {s t : State} {n : Nat} {engine : Bool} {g : BitVec 16} {p : Program} {b : Bytes} (rs : List Range)
    (hread : s.Reads (pondBase + s.logical n * 0x400000 + g.toNat * 64) 64 t b)
    (hfields : (parseDesc b).fieldsOk engine = true)
    (hcover : (t.descOf b).mode = 0 ∨ (t.descOf b).mode = 4 ∨ p.covers (t.descOf b).ext 64 = true)
    (hmode : t.modeOk n (t.descOf b) (t.pondReader n (t.descOf b).ext 64) (t.codedOf n (t.descOf b)) = true)
    (hstream : (t.descOf b).out = 0xFF
      ∨ (t.core n).streamOk p (t.descOf b).out (destOf (parseDesc b).dnode (t.descOf b).dcore (t.descOf b).dctr) = true)
    (hheader : t.badHeader n (t.descOf b) (t.pondReader n (t.descOf b).ext 64) = false)
    (hsources : ∀ q, q ∈ (t.descOf b).sources (t.pondReader n (t.descOf b).ext 64) (t.codedOf n (t.descOf b)) → t.pieceFault n false q = none)
    (hreach : t.leaves (t.descOf b) = true → t.reachable (t.targetNode (t.descOf b)) = true)
    (htargets : t.leaves (t.descOf b) = false →
      ∀ q, q ∈ (t.descOf b).targets (t.pondReader n (t.descOf b).ext 64) (t.codedOf n (t.descOf b)) → t.pieceFault n true q = none) :
    s.takeDesc n engine g rs p
      = t.beginMove n engine b rs ((t.descOf b).sources (t.pondReader n (t.descOf b).ext 64) (t.codedOf n (t.descOf b))) p := by
  rw [State.takeDesc, State.withPond_of_reads hread]
  dsimp only
  rw [hfields, Bool.not_true, if_neg Bool.false_ne_true, if_neg (by rcases hcover with h | h | h <;> simp [h]), hmode, Bool.not_true,
    if_neg Bool.false_ne_true, if_neg (by rcases hstream with h | h <;> simp [h]), hheader, if_neg Bool.false_ne_true,
    List.findSome?_eq_none_iff.2 hsources]
  dsimp only
  rw [if_neg Bool.false_ne_true]
  cases hl : t.leaves (t.descOf b) with
  | true => rw [if_pos rfl, if_pos (hreach hl)]
  | false => rw [if_neg Bool.false_ne_true, List.findSome?_eq_none_iff.2 (htargets hl)]

/-- Settles O22: a good descriptor begins its move; a move lands, or is refused, once nothing is waited for. -/
theorem tileMovesStartAndLand : Obligations.TileMovesStartAndLand := by
  unfold Obligations.TileMovesStartAndLand
  refine ⟨?start, ?land⟩
  case start =>
    intro s t n engine p g rs rest b hup hbusy hp hq hidle s1 hread d ext coded hfields hcover hmode hstream hheader hsources hreach htargets
    show execTileMoveStart n engine s = _
    rw [execTileMoveStart]
    dsimp only
    rw [hp, hq]
    dsimp only
    rw [hup, hbusy, hidle]
    exact congrArg Host.Outcome.next
      (State.takeDesc_of_good rs hread hfields hcover hmode hstream hheader hsources hreach htargets)
  case land =>
    intro s n engine m hup hm hneed d ext hwait
    have hexec : exec (.tileMoveLand n engine) s = .next (s.landMove n.toNat engine m) := by
      show execTileMoveLand n engine s = _
      rw [execTileMoveLand, hm]
      dsimp only
      rw [hup, hneed, List.any_eq_false.2 (fun q hq => by rw [hwait q hq]; exact Bool.false_ne_true)]
      rfl
    rw [hexec, State.landMove]
    refine ⟨fun ws hh hws => ?_, fun hh hws => ?_, fun hh => ?_⟩
    · simp only [hh, Bool.false_eq_true, if_false]
      rw [hws]
      rfl
    · simp only [hh, Bool.false_eq_true, if_false]
      rw [hws]
    · simp only [hh, if_true]

end Sys2Proof.Machine
end

section
/-! CC_CTL: the commands of a core, and the start of a program. -/

namespace Sys2Proof.Machine

/-! ## The command bits -/

/-- A write with exactly command bit k sets that bit. -/
theorem ctlHas_of_bits {v : Word64} {k : Nat} (h : bits v.toNat 5 0 = 2 ^ k) : ctlHas v k = true := by
  have hm : (v.toNat % 2 ^ 6).testBit k = true := by
    have : v.toNat % 2 ^ 6 = 2 ^ k := by simpa [bits] using h
    rw [this, Nat.testBit_two_pow_self]
  rw [Nat.testBit_mod_two_pow, Bool.and_eq_true] at hm
  rw [ctlHas, ← BitVec.testBit_toNat]
  exact hm.2

section
variable {s : State} {by_ : Initiator} {l k : Nat} {v : Word64}

/-- An accepted command stores the fields of the write and has its effect on the core that carries the logical one. -/
theorem State.ctlWrite_of_accepted (effect : State → Nat → State) (hby : mayControl by_ = true) (hv : bits v.toNat 5 0 = 2 ^ k)
    (ha : s.ctlAccepted (s.phys l) k v = true) :
    s.ctlWrite by_ l k v effect = effect (s.onCore (s.phys l) (fun c => c.ctlFields v)) (s.phys l) := by
  rw [State.ctlWrite, hby, ha, Bool.not_true, if_neg Bool.false_ne_true, if_neg (by simp [hv])]

theorem State.ctlWrite_of_refused (effect : State → Nat → State) (hby : mayControl by_ = true)
    (h : bits v.toNat 5 0 ≠ 2 ^ k ∨ s.ctlAccepted (s.phys l) k v = false) :
    s.ctlWrite by_ l k v effect = s.ccErr (s.phys l) eCmd (s.phys l) := by
  rw [State.ctlWrite, hby, Bool.not_true, if_neg Bool.false_ne_true, if_pos (by rcases h with h | h <;> simp [h])]

theorem State.ctlWrite_of_foreign (effect : State → Nat → State) (hby : mayControl by_ = false) :
    s.ctlWrite by_ l k v effect = s.busFault by_ (0x2001000000 + l * 0x10000) := by
  rw [State.ctlWrite, hby]
  rfl

end

/-- A command row is `ctlWrite` with its own effect, once its bit is written. -/
def IsCommand (i : Instr) (s : State) (by_ : Initiator) (l k : Nat) (v : Word64) : Prop :=
  ∃ effect, exec i s = .next (s.ctlWrite by_ l k v effect)

/-- What a row answers when the core does not take the command. -/
theorem IsCommand.refuses {i : Instr} {s : State} {by_ : Initiator} {l k : Nat} {v : Word64} (h : IsCommand i s by_ l k v) :
    (mayControl by_ = true → (bits v.toNat 5 0 ≠ 2 ^ k ∨ s.ctlAccepted (s.phys l) k v = false) →
      exec i s = .next (s.ccErr (s.phys l) eCmd (s.phys l)))
    ∧ (mayControl by_ = false → exec i s = .next (s.busFault by_ (0x2001000000 + l * 0x10000))) := by
  obtain ⟨effect, he⟩ := h
  rw [he]
  exact ⟨fun hby hr => by rw [State.ctlWrite_of_refused effect hby hr], fun hby => by rw [State.ctlWrite_of_foreign effect hby]⟩

/-- The row of each command. -/
theorem isCommand_of_bit {s : State} {by_ : Initiator} {l : BitVec 6} {v : Word64} (hup : s.up = true) :
    ∀ x ∈ ([(.reset by_ l v, 0), (.start by_ l v, 1), (.preempt by_ l v, 2), (.resume by_ l v, 3), (.teardown by_ l v, 4),
      (.golden by_ l v, 5)] : List (Instr × Nat)), v.getLsbD x.2 = true → IsCommand x.1 s by_ l.toNat x.2 v := by
  simp only [List.forall_mem_cons]
  refine ⟨fun h => ⟨State.resetCore, ?_⟩,
    fun h => ⟨fun t m => t.startCore m (t.core m).ctlHdr (t.core m).ctlCtx (t.core m).ctlPart t.runFrameNo, ?_⟩,
    fun h => ⟨State.preemptCore, ?_⟩, fun h => ⟨fun t m => t.resumeSaved m (t.core m).ctlHdr, ?_⟩, fun h => ⟨State.teardownCore, ?_⟩,
    fun h => ⟨fun t m => t.onCore m (fun c => { c.wiped with st := .golden, variant := some (t.frameAt t.now % 16) }), ?_⟩,
    fun _ h => absurd h List.not_mem_nil⟩
  · show execReset by_ l v s = _
    rw [execReset, hup, ctlHas, h]; rfl
  · show execStart by_ l v s = _
    rw [execStart, hup, ctlHas, h]; rfl
  · show execPreempt by_ l v s = _
    rw [execPreempt, hup, ctlHas, h]; rfl
  · show execResume by_ l v s = _
    rw [execResume, hup, ctlHas, h]; rfl
  · show execTeardown by_ l v s = _
    rw [execTeardown, hup, ctlHas, h]; rfl
  · show execGolden by_ l v s = _
    rw [execGolden, hup, ctlHas, h]; rfl

/-! ## What each command does -/

/-- A change of a core is what it does to that core as it stands. -/
theorem State.onCore_congr {s : State} {n : Nat} {f g : Core → Core} (h : f (s.core n) = g (s.core n)) : s.onCore n f = s.onCore n g := by
  have hc : s.cores.modify n f = s.cores.modify n g := by
    refine List.ext_getElem (by simp) fun i hi _ => ?_
    rw [List.length_modify] at hi
    rw [List.getElem_modify, List.getElem_modify]
    split
    next hni =>
      subst hni
      have hcore : s.core n = s.cores[n] := by rw [State.core, List.getD_eq_getElem _ _ hi]
      rw [← hcore, h]
    next => rfl
  rw [State.onCore, updAt, hc]
  rfl

theorem Core.requested_of_busy {c : Core} (h : c.busy = true) (now : Nat) :
    c.requested now = if c.preemptAt = none then { c with preemptAt := some now, st := if c.st = .running then .draining else c.st } else c := by
  rw [Core.requested, h]
  cases c.preemptAt <;> simp

/-- Updating entries at different keys one after another: each key's entry changes once. -/
theorem sget_foldl_supd {α : Type} [DecidableEq α] (d : α) (base : Nat) (f : Nat → α → α) {l : List Nat} (hl : l.Nodup) (m : Sparse α) (o : Nat) :
    sget d (l.foldl (fun m i => supd d m (base + i) (f i)) m) (base + o)
      = if o ∈ l then f o (sget d m (base + o)) else sget d m (base + o) := by
  induction l generalizing m with
  | nil => rfl
  | cons a l ih =>
    obtain ⟨ha, hl⟩ := List.nodup_cons.1 hl
    rw [List.foldl_cons, ih hl]
    by_cases hoa : o = a
    · subst hoa
      rw [if_neg ha, if_pos List.mem_cons_self, supd, sget_sset, if_pos rfl]
    · rw [supd, sget_sset, if_neg (fun h => hoa (Nat.add_left_cancel h))]
      simp [hoa]

theorem maskList_nodup (w v : Nat) : (maskList w v).Nodup := List.Nodup.filter _ List.nodup_range

theorem mem_maskList {w o : Nat} {v : BitVec w} (h : o < w) : o ∈ maskList w v.toNat ↔ v.getLsbD o = true := by
  rw [maskList, List.mem_filter, List.mem_range, BitVec.getLsbD, Nat.testBit_eq_decide_div_mod_eq]
  simp [bit, h]

/-- Opening a program's streams changes the streams alone. -/
theorem openStreams_eq (c : Core) (bank outMask : Nat) (tab : Bytes) :
    openStreams c bank outMask tab = { c with outs := (maskList 16 outMask).foldl (fun m o => supd {} m (bank * 16 + o)
      (fun x => { x with dest := some (x.dest.getD (outEntry tab o).2), base := x.next, count := (outEntry tab o).1 })) c.outs } := by
  unfold openStreams
  generalize maskList 16 outMask = l
  induction l generalizing c with
  | nil => rfl
  | cons o l ih => rw [List.foldl_cons, ih, List.foldl_cons]

theorem openStreams_v (c : Core) (bank outMask : Nat) (tab : Bytes) : (openStreams c bank outMask tab).v = c.v := by rw [openStreams_eq]

theorem openStreams_ctrs (c : Core) (bank outMask : Nat) (tab : Bytes) : (openStreams c bank outMask tab).ctrs = c.ctrs := by
  rw [openStreams_eq]

/-- A stream opened: its release base is the next number, its count and, if it had none, its destination the table's. -/
theorem openStreams_out {c : Core} {bank : Nat} {outMask : BitVec 16} {tab : Bytes} {o : Nat} (ho : o < 16) (hm : outMask.getLsbD o = true) :
    (openStreams c bank outMask.toNat tab).out bank o = { c.out bank o with
      dest := some ((c.out bank o).dest.getD (outEntry tab o).2), base := (c.out bank o).next, count := (outEntry tab o).1 } := by
  rw [openStreams_eq]
  have h := sget_foldl_supd ({} : Outbound) (bank * 16)
    (fun o x => { x with dest := some (x.dest.getD (outEntry tab o).2), base := x.next, count := (outEntry tab o).1 })
    (maskList_nodup 16 outMask.toNat) c.outs o
  rw [if_pos ((mem_maskList ho).2 hm)] at h
  exact h

theorem outTableOk_dest {c : Core} {bank : Nat} {outMask : BitVec 16} {tab : Bytes} (h : outTableOk c bank outMask.toNat tab = true) {o : Nat}
    (ho : o < 16) (hm : outMask.getLsbD o = true) : (c.out bank o).dest.getD (outEntry tab o).2 = (outEntry tab o).2 := by
  rw [outTableOk, List.all_eq_true] at h
  have h' := h o ((mem_maskList ho).2 hm)
  rw [Bool.and_eq_true] at h'
  cases hd : (c.out bank o).dest with
  | none => rfl
  | some x => simpa [hd] using h'.2

/-- The core that a good header starts. -/
def Core.launched (c : Core) (p : Program) (tab : Bytes) (ctx : BitVec 18) (runFrame : Nat) (step : Word) (now : Nat) : Core :=
  { openStreams c p.bank.toNat p.outMask.toNat tab with
    st := .running, ctx := ctx, pc := p.entry, atTb := false, prog := some p, x := BitVec.ofNat 32 runFrame :: step :: List.replicate 14 0
    lc := List.replicate 4 0, since := some now, preemptAt := none, waitOn := none, tileEndPending := false, held := none }

theorem State.startCore_of_good {s t u : State} {n : Nat} {hdr : BitVec 16} {ctx : BitVec 18} {part : BitVec 4} {h code : Bytes} (runFrame : Nat)
    (h1 : (s.onCore n (fun c => { c with ctlHdr := hdr, ctlCtx := ctx, ctlPart := part })).pondRead n (hdr.toNat * 64) 64 = (t, h, false))
    (h2 : t.pondRead n (hdr.toNat * 64 + 64) (8 * min (parseHeader hdr h).length 65536) = (u, code, false))
    (hh : headerOk (parseHeader hdr h) h code ctx ((u.pondRead n (fieldAt h 0x30 4) 128).1.core n).mode = true)
    (ho : outTableOk ((u.pondRead n (fieldAt h 0x30 4) 128).1.core n) (parseHeader hdr h).bank.toNat (parseHeader hdr h).outMask.toNat
      (u.pondRead n (fieldAt h 0x30 4) 128).2.1 = true) :
    s.startCore n hdr ctx part runFrame = (u.pondRead n (fieldAt h 0x30 4) 128).1.onCore n (fun c =>
      c.launched (parseHeader hdr h) (u.pondRead n (fieldAt h 0x30 4) 128).2.1 ctx runFrame (s.ctxOf ctx.toNat).step s.now) := by
  unfold State.startCore
  dsimp only
  rw [h1]
  dsimp only
  rw [h2]
  dsimp only
  rw [hh, ho]
  rfl

/-- Settles O24: accepted and refused commands by `ctlWrite`, and START by the header it reads. -/
theorem coreCommandsComplete : Obligations.CoreCommandsComplete := by
  unfold Obligations.CoreCommandsComplete
  refine ⟨fun s by_ l v hup hby => ?accepted, fun s by_ l v hup => ⟨fun x hx hbit => (isCommand_of_bit hup x hx hbit).refuses,
    fun hbit hby h => ?notIdle, fun hbit hby h => ?notBusy, rfl, fun _ => rfl, fun _ => rfl, fun _ => rfl⟩, ?started⟩
  case accepted =>
    intro n t
    refine ⟨fun hb hst => ?_, fun hb hst => ?_, fun hb hst => ?_, fun hb hst hsaved => ?_, fun hb hst => ?_, fun hb hst => ?_⟩
    · show execReset by_ l v s = _
      rw [execReset, hup, ctlHas_of_bits hb, State.ctlWrite_of_accepted _ hby hb (by simpa [State.ctlAccepted] using hst),
        ← State.core_onCore_keeps Core.work s n (fun c => c.ctlFields v) (fun _ => rfl)]
      rfl
    · show execStart by_ l v s = _
      rw [execStart, hup, ctlHas_of_bits hb, State.ctlWrite_of_accepted _ hby hb (by simpa [State.ctlAccepted] using hst)]
      rfl
    · have hbusy : ((s.onCore n (fun c => c.ctlFields v)).core n).busy = true := by
        rw [State.core_onCore_keeps Core.busy s n (fun c => c.ctlFields v) (fun _ => rfl)]
        rcases hst with h | h <;> rw [Core.busy, h] <;> rfl
      show execPreempt by_ l v s = _
      rw [execPreempt, hup, ctlHas_of_bits hb, State.ctlWrite_of_accepted _ hby hb (by simpa [State.ctlAccepted] using hst)]
      exact congrArg Host.Outcome.next (State.onCore_congr (Core.requested_of_busy hbusy _))
    · show execResume by_ l v s = _
      rw [execResume, hup, ctlHas_of_bits hb,
        State.ctlWrite_of_accepted _ hby hb (by simpa [State.ctlAccepted] using ⟨hst, hsaved⟩)]
      rfl
    · show execTeardown by_ l v s = _
      rw [execTeardown, hup, ctlHas_of_bits hb, State.ctlWrite_of_accepted _ hby hb (by simpa [State.ctlAccepted] using hst)]
      rfl
    · show execGolden by_ l v s = _
      rw [execGolden, hup, ctlHas_of_bits hb, State.ctlWrite_of_accepted _ hby hb (by simpa [State.ctlAccepted] using hst)]
      rfl
  case notIdle =>
    refine ((isCommand_of_bit (l := l) hup (.start by_ l v, 1) (by simp) hbit).refuses.1 hby (h.imp id fun h => ?_))
    simpa [State.ctlAccepted] using h
  case notBusy =>
    refine ((isCommand_of_bit (l := l) hup (.teardown by_ l v, 4) (by simp) hbit).refuses.1 hby (h.imp id fun h => ?_))
    simpa [State.ctlAccepted] using h
  case started =>
    intro s t u n hdr ctx part runFrame h code tab s0 h1 p h2 htab w hh ho hn c
    subst htab
    have hc : c = (w.core n).launched p (u.pondRead n (fieldAt h 0x30 4) 128).2.1 ctx runFrame (s.ctxOf ctx.toNat).step s.now := by
      show (s.startCore n hdr ctx part runFrame).core n = _
      rw [State.startCore_of_good runFrame h1 h2 hh ho, State.core_onCore_same _ _ _ hn]
    rw [hc]
    refine ⟨rfl, rfl, rfl, rfl, rfl, rfl, openStreams_v .., openStreams_ctrs .., fun o ho' hm => ?_⟩
    have hout := openStreams_out (c := w.core n) (bank := p.bank.toNat) (tab := (u.pondRead n (fieldAt h 0x30 4) 128).2.1) ho' hm
    show (Core.out (openStreams _ _ _ _) _ _).dest = _ ∧ (Core.out (openStreams _ _ _ _) _ _).count = _
      ∧ (Core.out (openStreams _ _ _ _) _ _).base = _
    rw [hout, outTableOk_dest ho ho' hm]
    exact ⟨rfl, rfl, rfl⟩

end Sys2Proof.Machine
end

section
/-! Preemption, resumption and what a teardown or RESET leaves. -/

namespace Sys2Proof.Machine

/-! ## What reports leave of the cores -/

/-- What a report or the end of an account may change of a core: CC_ERR, and that the core is to stop. -/
def Core.SameProgram (c d : Core) : Prop :=
  d = { c with err := d.err, firstPc := d.firstPc, st := d.st, preemptAt := d.preemptAt, since := d.since }

theorem Core.SameProgram.rfl' (c : Core) : c.SameProgram c := rfl

theorem Core.SameProgram.trans {c d e : Core} (h : c.SameProgram d) (k : d.SameProgram e) : c.SameProgram e := by
  unfold Core.SameProgram at *
  rw [k, h]

/-- The cores go on with their programs, on the same physical cores. -/
structure Undisturbed (s t : State) : Prop where
  map : t.sched.coreMap = s.sched.coreMap
  length : t.cores.length = s.cores.length
  core : ∀ n, (s.core n).SameProgram (t.core n)

namespace Undisturbed

theorem rfl' (s : State) : Undisturbed s s := ⟨rfl, rfl, fun _ => Core.SameProgram.rfl' _⟩

theorem trans {s t u : State} (h : Undisturbed s t) (k : Undisturbed t u) : Undisturbed s u :=
  ⟨k.map.trans h.map, k.length.trans h.length, fun n => (h.core n).trans (k.core n)⟩

/-- Nothing of the cores or of the schedule engine changed. -/
theorem of_eq {s t : State} (hc : t.cores = s.cores) (hs : t.sched = s.sched) : Undisturbed s t :=
  ⟨by rw [hs], by rw [hc], fun n => by rw [State.core, State.core, hc]; exact Core.SameProgram.rfl' _⟩

theorem ofOnCore (s : State) (n : Nat) {f : Core → Core} (h : ∀ c : Core, c.SameProgram (f c)) : Undisturbed s (s.onCore n f) := by
  refine ⟨rfl, State.onCore_length .., fun m => ?_⟩
  by_cases hm : m = n
  · subst hm
    rcases State.core_onCore_self s m f with e | e
    · rw [e]; exact h _
    · rw [e]; exact Core.SameProgram.rfl' _
  · rw [State.core_onCore_other _ f hm]; exact Core.SameProgram.rfl' _

theorem enterSafe (s : State) : Undisturbed s s.enterSafe := by
  unfold State.enterSafe
  split
  · exact rfl' s
  · refine ⟨rfl, List.length_map _, fun n => ?_⟩
    by_cases hn : n < s.cores.length
    · simp only [State.core, List.getD_eq_getElem?_getD, List.getElem?_map, List.getElem?_eq_getElem hn, Option.map_some, Option.getD_some]
      split <;> rfl
    · simp only [State.core, List.getD_eq_getElem?_getD, List.getElem?_map, List.getElem?_eq_none (Nat.not_lt.1 hn), Option.map_none]
      rfl

theorem react (s : State) (cls : Nat) : Undisturbed s (s.react cls) := by
  unfold State.react
  split
  · split
    · exact of_eq (State.setDevState_cores ..) (State.setDevState_sched ..)
    · exact rfl' s
  · split
    · exact enterSafe s
    · exact rfl' s

theorem report (s : State) (r : ReportIn) : Undisturbed s (s.report r) := by
  rw [State.report, State.reportWith]
  refine Undisturbed.trans ?_ (react _ _)
  cases r.blame with
  | none => exact of_eq (by simp) (by simp)
  | some u =>
    dsimp only
    split <;> exact of_eq (by simp) (by simp)

theorem ccErr (s : State) (n b detail : Nat) : Undisturbed s (s.ccErr n b detail) :=
  (ofOnCore s n (f := (·.setErr b)) (fun _ => rfl)).trans (report _ _)

end Undisturbed

/-! ## Words of a Pond and beyond -/

/-- A place that is not in a memory. -/
def Place.Elsewhere : Place → Prop
  | .lake _ _ | .lpddr _ | .reservoir _ | .pond _ _ => False
  | _ => True

/-- From the Ponds on, an address is a Pond's or no memory's. -/
theorem State.placeOf_of_pondBase_le {s : State} {a : Nat} (h : pondBase ≤ a) : (∃ l off, s.placeOf a = .pond l off) ∨ (s.placeOf a).Elsewhere := by
  unfold pondBase at h
  unfold State.placeOf
  rw [if_neg (by omega), if_neg (by unfold lpBase; omega), if_neg (by unfold resBase; omega)]
  by_cases hp : pondBase ≤ a ∧ a < pondBase + 0x10000000
  · rw [if_pos hp]
    exact .inl ⟨_, _, rfl⟩
  · rw [if_neg hp]
    right
    iterate 7 refine iteInduction (motive := Place.Elsewhere) (fun _ => trivial) (fun _ => ?_)
    trivial

/-- What counting a corrected word from the Ponds on does to the memory: the Ponds' own counter. -/
def Place.countCe (m : Mem) : Place → Mem
  | .pond _ _ => { m with sramCe := m.sramCe + 1 }
  | _ => m

/-- What counting an uncorrectable word from the Ponds on does to the memory. -/
def Place.countUe (m : Mem) : Place → Mem
  | .pond _ _ => { m with sramUe := m.sramUe + 1 }
  | _ => m

section
variable {s : State} {a : Nat}

theorem State.reportCe_effect (h : pondBase ≤ a) : Undisturbed s (s.reportCe a) ∧ (s.reportCe a).mem = (s.placeOf a).countCe s.mem := by
  rw [State.reportCe]
  rcases State.placeOf_of_pondBase_le (s := s) h with ⟨l, off, hp⟩ | hp
  · rw [hp]
    dsimp only
    exact ⟨Undisturbed.trans (t := s.onMem (fun m => { m with sramCe := m.sramCe + 1 })) (.of_eq rfl rfl) (Undisturbed.ccErr ..), by rw [State.ccErr_mem]; rfl⟩
  · generalize s.placeOf a = p at hp
    cases p with
    | lake | lpddr | reservoir | pond => exact hp.elim
    | _ => exact ⟨.rfl' s, rfl⟩

theorem State.reportUe_effect (h : pondBase ≤ a) : Undisturbed s (s.reportUe a) ∧ (s.reportUe a).mem = (s.placeOf a).countUe s.mem := by
  rw [State.reportUe]
  rcases State.placeOf_of_pondBase_le (s := s) h with ⟨l, off, hp⟩ | hp
  · rw [hp]
    exact ⟨.of_eq rfl rfl, rfl⟩
  · generalize s.placeOf a = p at hp
    cases p with
    | lake | lpddr | reservoir | pond => exact hp.elim
    | _ => exact ⟨.rfl' s, rfl⟩

theorem State.reportPoison_effect (h : pondBase ≤ a) : s.reportPoison a = s := by
  rw [State.reportPoison]
  rcases State.placeOf_of_pondBase_le (s := s) h with ⟨l, off, hp⟩ | hp
  · rw [hp]
  · generalize s.placeOf a = p at hp
    cases p with
    | lake | lpddr | reservoir | pond => exact hp.elim
    | _ => rfl

theorem Undisturbed.readWord (h : pondBase ≤ a) : Undisturbed s (s.readWord a).1 := by
  unfold State.readWord
  dsimp only
  split
  · exact .rfl' s
  · exact Undisturbed.trans (t := s.onMem (·.fix (s.store a / 4))) (.of_eq rfl rfl) (State.reportCe_effect h).1
  · exact (State.reportUe_effect h).1
  · exact (State.reportPoison_effect h).symm ▸ .rfl' s

end

/-- Two states with the same memory and the same places of the Ponds. -/
structure SameStore (s t : State) : Prop where
  mem : s.mem = t.mem
  map : s.sched.coreMap = t.sched.coreMap

section
variable {s t : State} {a : Nat}

theorem SameStore.placeOf (h : SameStore s t) : s.placeOf a = t.placeOf a := by
  unfold State.placeOf
  rw [h.mem]

theorem State.store_of_pondBase_le (ha : pondBase ≤ a) : s.store a =
    if pondBase ≤ a ∧ a < pondBase + 0x10000000 then
      pondBase + s.phys ((a - pondBase) / 0x400000) * 0x400000 + (a - pondBase) % 0x400000
    else a := by
  unfold pondBase at ha
  rw [State.store, if_neg (by omega)]

theorem SameStore.store (h : SameStore s t) (ha : pondBase ≤ a) : s.store a = t.store a := by
  have hphys : ∀ l, s.phys l = t.phys l := fun l => by rw [State.phys, State.phys, h.map]
  rw [State.store_of_pondBase_le ha, State.store_of_pondBase_le ha, hphys]

theorem SameStore.readWord (h : SameStore s t) (ha : pondBase ≤ a) : SameStore (s.readWord a).1 (t.readWord a).1 := by
  refine ⟨?_, by rw [(Undisturbed.readWord ha).map, (Undisturbed.readWord ha).map, h.map]⟩
  unfold State.readWord
  dsimp only
  rw [h.store ha, h.mem]
  have hp := h.placeOf (a := a)
  split
  · exact h.mem
  · rw [(State.reportCe_effect ha).2, (State.reportCe_effect ha).2]
    have hf : SameStore (s.onMem (·.fix (t.store a / 4))) (t.onMem (·.fix (t.store a / 4))) :=
      ⟨congrArg (·.fix (t.store a / 4)) h.mem, h.map⟩
    rw [hf.placeOf, hf.mem]
  · rw [(State.reportUe_effect ha).2, (State.reportUe_effect ha).2, hp, h.mem]
  · rw [State.reportPoison_effect ha, State.reportPoison_effect ha, h.mem]

end

/-- The reads that a merge needs, word by word. -/
theorem foldl_readWord {l : List Nat} (hl : ∀ w ∈ l, pondBase ≤ 4 * w) (s t : State) :
    Undisturbed s (l.foldl (fun u w => (u.readWord (4 * w)).1) s)
    ∧ (SameStore s t → SameStore (l.foldl (fun u w => (u.readWord (4 * w)).1) s) (l.foldl (fun u w => (u.readWord (4 * w)).1) t)) := by
  induction l generalizing s t with
  | nil => exact ⟨.rfl' s, id⟩
  | cons w l ih =>
    obtain ⟨hw, hl⟩ := List.forall_mem_cons.1 hl
    have hi := ih hl (s.readWord (4 * w)).1 (t.readWord (4 * w)).1
    exact ⟨(Undisturbed.readWord hw).trans hi.1, fun h => hi.2 (h.readWord hw)⟩

theorem State.mergeReads_effect {a n : Nat} (ha : pondBase ≤ a) (s t : State) :
    Undisturbed s (s.mergeReads a n) ∧ (SameStore s t → SameStore (s.mergeReads a n) (t.mergeReads a n)) := by
  have hl : ∀ w ∈ (wordsOf a n).filter (fun w => !(decide (a ≤ 4 * w) && decide (4 * w + 4 ≤ a + n))), pondBase ≤ 4 * w := by
    intro w hw
    obtain ⟨_, hw, _⟩ := mem_wordsOf.1 (List.mem_filter.1 hw).1
    unfold pondBase at ha ⊢
    omega
  have hf := foldl_readWord hl s t
  unfold State.mergeReads
  constructor
  · split
    · exact .rfl' s
    · exact hf.1
  · intro h
    rw [h.mem]
    split
    · exact h
    · exact hf.2 h

theorem State.pondWrite_effect (s t : State) (n off : Nat) (bs : Bytes) (poisoned : Bool) :
    Undisturbed s (s.pondWrite n off bs poisoned)
    ∧ (SameStore s t → (s.pondWrite n off bs poisoned).mem = (t.pondWrite n off bs poisoned).mem) := by
  have ha : pondBase ≤ pondBase + s.logical n * 0x400000 + off := by omega
  have he := State.mergeReads_effect (n := bs.length) ha s t
  refine ⟨he.1.trans (.of_eq rfl rfl), fun h => ?_⟩
  have hl : s.logical n = t.logical n := by rw [State.logical, State.logical, h.map]
  rw [State.pondWrite, State.pondWrite, ← hl]
  exact congrArg (fun m => Mem.write m (pondAt n off) bs poisoned) (he.2 h).mem

end Sys2Proof.Machine
end

section
/-! A saved program's bytes, and preemption and resumption. -/

namespace Sys2Proof.Machine

/-! ## Fields of a block of bytes -/

theorem slice_append_right (a b : Bytes) (off n : Nat) : slice (a ++ b) (a.length + off) n = slice b off n := by
  rw [slice, slice, ← List.drop_drop, List.drop_left]

theorem slice_append_left {a : Bytes} (b : Bytes) {off n : Nat} (h : off + n ≤ a.length) : slice (a ++ b) off n = slice a off n := by
  rw [slice, slice, List.drop_append_of_le_length (by omega), List.take_append_of_le_length (by rw [List.length_drop]; omega)]

theorem slice_self (a : Bytes) : slice a 0 a.length = a := by rw [slice, List.drop_zero, List.take_length]

theorem length_flatten_map_range {g : Nat → Bytes} {k : Nat} (hg : ∀ i, (g i).length = k) (m : Nat) :
    (((List.range m).map g).flatten).length = m * k := by
  induction m with
  | zero => simp
  | succ m ih => rw [List.range_succ, List.map_append, List.flatten_append, List.length_append, ih]; simp [hg, Nat.add_mul]

/-- Entry i of a table whose entries have k bytes each. -/
theorem slice_table {g : Nat → Bytes} {k : Nat} (hg : ∀ i, (g i).length = k) {m i : Nat} (hi : i < m) (post : Bytes) :
    slice (((List.range m).map g).flatten ++ post) (i * k) k = g i := by
  induction m generalizing post with
  | zero => exact absurd hi (Nat.not_lt_zero i)
  | succ m ih =>
    rw [List.range_succ, List.map_append, List.flatten_append, List.append_assoc]
    rcases Nat.lt_succ_iff_lt_or_eq.1 hi with h | h
    · exact ih h _
    · subst h
      have hs := slice_append_right (((List.range i).map g).flatten) ([g i].flatten ++ post) 0 k
      rw [length_flatten_map_range hg, Nat.add_zero] at hs
      rw [List.map_singleton, hs, slice_append_left _ (by simp [hg])]
      have := slice_self (g i)
      rw [hg] at this
      simpa using this

/-- A number of a table of little-endian numbers, wherever the table stands. -/
theorem fieldAt_table (pre post : Bytes) (k m : Nat) (v : Nat → Nat) {i : Nat} (hi : i < m) :
    fieldAt (pre ++ (((List.range m).map (fun i => leBytes k (v i))).flatten ++ post)) (pre.length + i * k) k = v i % 256 ^ k := by
  rw [fieldAt, slice_append_right, slice_table (fun _ => length_leBytes k _) hi, leNat_leBytes]

theorem length_fitBytes (n : Nat) (bs : Bytes) : (fitBytes n bs).length = n := by
  rw [fitBytes, List.length_append, List.length_take, List.length_replicate]
  omega

theorem ofNat_toNat_mod {w m : Nat} (x : BitVec w) (h : m = 2 ^ w) : BitVec.ofNat w (x.toNat % m) = x := by
  subst h
  rw [Nat.mod_eq_of_lt x.isLt, BitVec.ofNat_toNat, BitVec.setWidth_eq]

/-! ## The layout of a saved program, R82 -/

section
variable (c : Core) (p : Program) (fill : Bytes)

def Core.savedX : Bytes := ((List.range 16).map (fun i => leBytes 4 (c.x.getD i 0).toNat)).flatten

def Core.savedLc : Bytes := ((List.range 4).map (fun i => leBytes 2 (c.lc.getD i 0).toNat)).flatten

def Core.savedBases : Bytes := ((List.range 16).map (fun o => leBytes 4 (c.out p.bank.toNat o).base.toNat)).flatten

theorem Core.saveBytes_eq : c.saveBytes p fill
    = (leBytes 4 c.pc ++ fitBytes 4 fill) ++ (c.savedX ++ (c.savedLc ++ (c.savedBases p ++ (fitBytes 112 (fill.drop 4) ++ c.vectorBytes)))) := by
  simp only [Core.saveBytes, Core.savedX, Core.savedLc, Core.savedBases, List.append_assoc]

theorem Core.length_savedX : c.savedX.length = 64 := length_flatten_map_range (fun _ => length_leBytes 4 _) 16

theorem Core.length_savedLc : c.savedLc.length = 8 := length_flatten_map_range (fun _ => length_leBytes 2 _) 4

theorem Core.length_savedBases : (c.savedBases p).length = 64 := length_flatten_map_range (fun _ => length_leBytes 4 _) 16

theorem Core.saveBytes_pc : fieldAt (c.saveBytes p fill) 0 4 = c.pc % 256 ^ 4 := by
  rw [Core.saveBytes_eq, fieldAt, List.append_assoc, slice_append_left _ (by rw [length_leBytes])]
  have h := slice_self (leBytes 4 c.pc)
  rw [length_leBytes] at h
  rw [h, leNat_leBytes]

theorem Core.saveBytes_x {i : Nat} (hi : i < 16) : BitVec.ofNat 32 (fieldAt (c.saveBytes p fill) (8 + 4 * i) 4) = c.x.getD i 0 := by
  have h := fieldAt_table (leBytes 4 c.pc ++ fitBytes 4 fill)
    (c.savedLc ++ (c.savedBases p ++ (fitBytes 112 (fill.drop 4) ++ c.vectorBytes))) 4 16 (fun i => (c.x.getD i 0).toNat) hi
  rw [List.length_append, length_leBytes, length_fitBytes, Nat.mul_comm i] at h
  rw [Core.saveBytes_eq, Core.savedX, h]
  exact ofNat_toNat_mod _ (by decide)

theorem Core.saveBytes_lc {i : Nat} (hi : i < 4) : BitVec.ofNat 16 (fieldAt (c.saveBytes p fill) (72 + 2 * i) 2) = c.lc.getD i 0 := by
  have h := fieldAt_table ((leBytes 4 c.pc ++ fitBytes 4 fill) ++ c.savedX)
    (c.savedBases p ++ (fitBytes 112 (fill.drop 4) ++ c.vectorBytes)) 2 4 (fun i => (c.lc.getD i 0).toNat) hi
  rw [List.length_append, List.length_append, length_leBytes, length_fitBytes, Core.length_savedX, Nat.mul_comm i] at h
  rw [Core.saveBytes_eq, ← List.append_assoc _ c.savedX, Core.savedLc, h]
  exact ofNat_toNat_mod _ (by decide)

theorem Core.saveBytes_base {o : Nat} (ho : o < 16) :
    BitVec.ofNat 32 (fieldAt (c.saveBytes p fill) (80 + 4 * o) 4) = (c.out p.bank.toNat o).base := by
  have h := fieldAt_table ((leBytes 4 c.pc ++ fitBytes 4 fill) ++ c.savedX ++ c.savedLc)
    (fitBytes 112 (fill.drop 4) ++ c.vectorBytes) 4 16 (fun o => (c.out p.bank.toNat o).base.toNat) ho
  rw [List.length_append, List.length_append, List.length_append, length_leBytes, length_fitBytes, Core.length_savedX, Core.length_savedLc,
    Nat.mul_comm o] at h
  rw [Core.saveBytes_eq, ← List.append_assoc _ c.savedX, ← List.append_assoc _ c.savedLc, Core.savedBases, h]
  exact ofNat_toNat_mod _ (by decide)

theorem Core.saveBytes_v {i : Nat} (hi : i < 2048) : BitVec.ofNat 32 (fieldAt (c.saveBytes p fill) (256 + 4 * i) 4) = sget 0 c.v i := by
  have h := fieldAt_table ((leBytes 4 c.pc ++ fitBytes 4 fill) ++ c.savedX ++ c.savedLc ++ c.savedBases p ++ fitBytes 112 (fill.drop 4))
    [] 4 2048 (fun i => (sget 0 c.v i).toNat) hi
  simp only [List.length_append, length_leBytes, length_fitBytes, Core.length_savedX, Core.length_savedLc, Core.length_savedBases,
    List.append_nil, Nat.mul_comm i] at h
  rw [Core.saveBytes_eq, ← List.append_assoc _ c.savedX, ← List.append_assoc _ c.savedLc, ← List.append_assoc _ (c.savedBases p),
    ← List.append_assoc _ (fitBytes 112 _), Core.vectorBytes, h]
  exact ofNat_toNat_mod _ (by decide)

end

/-! ## A program restored -/

/-- Entries of a table listed by number, zeros left out. -/
theorem sget_filter_table (f : Nat → Word) (l : List Nat) (j : Nat) :
    sget 0 ((l.map (fun i => (i, f i))).filter (fun e => e.2 != 0)) j = if j ∈ l then f j else 0 := by
  induction l with
  | nil => rfl
  | cons i l ih =>
    rw [List.map_cons, List.filter_cons]
    by_cases hf : f i = 0
    · rw [if_neg (by simp [hf]), ih]
      by_cases hj : j = i
      · subst hj; simp [hf]
      · simp [hj]
    · rw [if_pos (by simpa using hf)]
      by_cases hj : j = i
      · subst hj; simp [sget, sfind]
      · simpa [sget, sfind, hj] using ih

/-- The streams that a restored program finds. -/
def Core.restoredOuts (c : Core) (v : Saved) (b : Bytes) : Sparse Outbound :=
  ((List.range 16).filter (fun o => v.prog.outMask.getLsbD o)).foldl (fun m o => supd {} m (v.prog.bank.toNat * 16 + o)
    (fun x => { x with base := BitVec.ofNat 32 (fieldAt b (80 + 4 * o) 4), count := (v.bases.getD o (0, 0)).2 })) c.outs

theorem Core.restored_eq (c : Core) (v : Saved) (b : Bytes) : c.restored v b = { c with
    outs := c.restoredOuts v b
    pc := fieldAt b 0 4 % 65536
    x := (List.range 16).map (fun i => BitVec.ofNat 32 (fieldAt b (8 + 4 * i) 4))
    lc := (List.range 4).map (fun i => BitVec.ofNat 16 (fieldAt b (72 + 2 * i) 2))
    v := ((List.range 2048).map (fun i => (i, BitVec.ofNat 32 (fieldAt b (256 + 4 * i) 4)))).filter (fun e => e.2 != 0) } := by
  unfold Core.restored Core.restoredOuts
  rw [← List.foldl_filter]
  generalize (List.range 16).filter (fun o => v.prog.outMask.getLsbD o) = l
  induction l generalizing c with
  | nil => rfl
  | cons o l ih => rw [List.foldl_cons, List.foldl_cons]; exact ih _

theorem Core.restored_out {c : Core} {v : Saved} {b : Bytes} {o : Nat} (ho : o < 16) (hm : v.prog.outMask.getLsbD o = true) :
    (c.restored v b).out v.prog.bank.toNat o = { c.out v.prog.bank.toNat o with
      base := BitVec.ofNat 32 (fieldAt b (80 + 4 * o) 4), count := (v.bases.getD o (0, 0)).2 } := by
  have h := sget_foldl_supd ({} : Outbound) (v.prog.bank.toNat * 16)
    (fun o x => { x with base := BitVec.ofNat 32 (fieldAt b (80 + 4 * o) 4), count := (v.bases.getD o (0, 0)).2 })
    (List.Nodup.filter (fun o => v.prog.outMask.getLsbD o) (List.nodup_range (n := 16))) c.outs o
  rw [if_pos (List.mem_filter.2 ⟨List.mem_range.2 ho, hm⟩)] at h
  rw [Core.restored_eq]
  exact h

section
variable (c d : Core) (v : Saved) (p : Program) (fill : Bytes)

theorem Core.restored_pc (h : d.pc < 65536) : (c.restored v (d.saveBytes p fill)).pc = d.pc := by
  rw [Core.restored_eq]
  show fieldAt _ 0 4 % 65536 = _
  rw [Core.saveBytes_pc]
  omega

theorem Core.restored_x {i : Nat} (hi : i < 16) : (c.restored v (d.saveBytes p fill)).x.getD i 0 = d.x.getD i 0 := by
  rw [Core.restored_eq, ← d.saveBytes_x p fill hi]
  simp [hi]

theorem Core.restored_lc {i : Nat} (hi : i < 4) : (c.restored v (d.saveBytes p fill)).lc.getD i 0 = d.lc.getD i 0 := by
  rw [Core.restored_eq, ← d.saveBytes_lc p fill hi]
  simp [hi]

theorem Core.restored_lanes (r : BitVec 5) : (c.restored v (d.saveBytes p fill)).lanes r = d.lanes r := by
  refine List.map_congr_left fun l hl => ?_
  rw [List.mem_range] at hl
  have hi : r.toNat * 64 + l < 2048 := by omega
  rw [Core.restored_eq]
  dsimp only
  rw [sget_filter_table, if_pos (List.mem_range.2 hi), Core.saveBytes_v _ _ _ hi]

end

/-! ## Saving and resuming -/

theorem Undisturbed.accounted (s : State) (q : Nat) (g : Acct → Acct) (f : Sched → Sched) (hf : ∀ x, (f x).coreMap = x.coreMap) :
    Undisturbed s ((s.onAcct q g).onSched f) :=
  ⟨hf _, rfl, fun _ => Core.SameProgram.rfl' _⟩

theorem State.chargeCore_effect (s : State) (n : Nat) :
    Undisturbed s (s.chargeCore n) ∧ (s.chargeCore n).mem = s.mem ∧ (s.chargeCore n).fresh = s.fresh := by
  unfold State.chargeCore
  split
  · exact ⟨.rfl' s, rfl, rfl⟩
  · dsimp only
    refine ⟨Undisturbed.trans (Undisturbed.accounted s _ _ _ fun _ => ?_) (.ofOnCore _ n fun _ => ?_), rfl, rfl⟩
    · rfl
    · rfl

/-- The state in which a saved program gives up its core: its account is made and its bytes are written. -/
def State.toLeave (s : State) (n : Nat) (p : Program) : State :=
  ((s.chargeCore n).fresh1).pondWrite n p.saveArea ((s.core n).saveBytes p (Config.freeBytes s.fresh 116)) false

theorem State.toLeave_undisturbed (s : State) (n : Nat) (p : Program) : Undisturbed s (s.toLeave n p) :=
  (State.chargeCore_effect s n).1.trans (Undisturbed.trans (t := (s.chargeCore n).fresh1) (.of_eq rfl rfl) (State.pondWrite_effect _ s _ _ _ _).1)

theorem State.toLeave_mem (s : State) (n : Nat) (p : Program) :
    (s.toLeave n p).mem = (s.pondWrite n p.saveArea ((s.core n).saveBytes p (Config.freeBytes s.fresh 116)) false).mem :=
  (State.pondWrite_effect _ s _ _ _ _).2 ⟨(State.chargeCore_effect s n).2.1, (State.chargeCore_effect s n).1.map⟩

/-- A core whose program was saved. -/
def Core.left (c : Core) (p : Program) : Core :=
  { c with st := .idle, ctx := 0, prog := none, work := none, preemptAt := none, atTb := false, waitOn := none, since := none,
           tileEndPending := false, saved := c.saved.filter (fun v => v.hdr != p.hdr) ++ [c.toSave p] }

theorem State.saveCore_eq {s : State} {n : Nat} {p : Program} (hp : (s.core n).prog = some p) :
    ∃ f q g, s.saveCore n = (((s.toLeave n p).onCore n (fun c => c.left p)).onSched f).onAcct q g := by
  rw [State.saveCore, hp]
  exact ⟨_, _, _, rfl⟩

theorem State.onAcct_units (s : State) (f : Sched → Sched) (q : Nat) (g : Acct → Acct) :
    ((s.onSched f).onAcct q g).cores = s.cores ∧ ((s.onSched f).onAcct q g).mem = s.mem := ⟨rfl, rfl⟩

theorem State.saveCore_effect {s : State} {n : Nat} {p : Program} (hp : (s.core n).prog = some p) (hn : n < s.cores.length) :
    (s.saveCore n).cores.length = s.cores.length ∧ (s.saveCore n).core n = ((s.toLeave n p).core n).left p
    ∧ (s.saveCore n).mem = (s.toLeave n p).mem := by
  obtain ⟨f, q, g, h⟩ := State.saveCore_eq hp
  obtain ⟨hcores, hmem⟩ := State.onAcct_units ((s.toLeave n p).onCore n (fun c => c.left p)) f q g
  have hlen := (s.toLeave_undisturbed n p).length
  rw [h, hmem]
  refine ⟨?_, ?_, rfl⟩
  · rw [hcores, State.onCore_length, hlen]
  · rw [State.core, hcores]
    exact State.core_onCore_same _ _ _ (by rw [hlen]; exact hn)

theorem Core.find_left (c : Core) (p : Program) : (c.left p).saved.find? (fun v => v.hdr == p.hdr) = some (c.toSave p) := by
  show List.find? _ (_ ++ [c.toSave p]) = _
  rw [List.find?_append, List.find?_eq_none.2 (fun v hv => by simpa using (List.mem_filter.1 hv).2)]
  simp [Core.toSave]

/-- A core with restored registers that runs what it saved. -/
def Core.back (r : Core) (v : Saved) (hdr : BitVec 16) (saved : List Saved) (now : Nat) : Core :=
  { r with
    st := .running, ctx := v.prog.ctx, ctlCtx := v.prog.ctx, ctlHdr := hdr, ctlPart := v.part, prog := some v.prog, work := v.work,
    atTb := false, since := some now, preemptAt := none, saved := saved }

theorem State.resumeCore_core {s : State} {n : Nat} {hdr : BitVec 16} {b : Bytes} {v : Saved}
    (hv : (s.core n).saved.find? (fun v => v.hdr == hdr) = some v) (hn : n < s.cores.length) :
    (s.resumeCore n hdr b).core n = ((s.core n).restored v b).back v hdr ((s.core n).saved.filter (fun w => w.hdr != hdr)) s.now := by
  rw [State.resumeCore, hv]
  show (State.onCore s n _).core n = _
  rw [State.core_onCore_same _ _ _ hn]
  rfl

theorem Core.back_fields (r : Core) (v : Saved) (hdr : BitVec 16) (saved : List Saved) (now : Nat) :
    let e := r.back v hdr saved now
    (e.st = .running ∧ e.prog = some v.prog ∧ e.ctx = v.prog.ctx ∧ e.ctlPart = v.part ∧ e.atTb = false ∧ e.preemptAt = none)
    ∧ e.pc = r.pc ∧ e.x = r.x ∧ e.lc = r.lc ∧ (∀ q, e.lanes q = r.lanes q) ∧ ∀ k o, e.out k o = r.out k o :=
  ⟨⟨rfl, rfl, rfl, rfl, rfl, rfl⟩, rfl, rfl, rfl, fun _ => rfl, fun _ _ => rfl⟩

/-- A core that gives up its program and resumes it: the registers as saved, the rest as the program left it. -/
theorem Core.back_left {c d : Core} (h : c.SameProgram d) (p : Program) (fill : Bytes) (saved : List Saved) (now : Nat)
    (hpc : c.pc < 65536) :
    let e := ((d.left p).restored (d.toSave p) (c.saveBytes p fill)).back (d.toSave p) p.hdr saved now
    e.st = .running ∧ e.pc = c.pc ∧ (∀ i, i < 16 → e.x.getD i 0 = c.x.getD i 0) ∧ (∀ i, i < 4 → e.lc.getD i 0 = c.lc.getD i 0)
    ∧ (∀ r, e.lanes r = c.lanes r)
    ∧ (∀ o, o < 16 → p.outMask.getLsbD o = true →
        (e.out p.bank.toNat o).base = (c.out p.bank.toNat o).base ∧ (e.out p.bank.toNat o).count = (c.out p.bank.toNat o).count)
    ∧ e.prog = some p ∧ e.ctx = p.ctx ∧ e.ctlPart = c.ctlPart ∧ e.atTb = false ∧ e.preemptAt = none := by
  have hpart : d.ctlPart = c.ctlPart := by rw [h]
  have houts : (d.left p).outs = c.outs := by rw [h]; rfl
  obtain ⟨⟨hst, hprog, hctx, hp, htb, hpre⟩, hpc', hx, hlc, hlanes, hout⟩ :=
    Core.back_fields ((d.left p).restored (d.toSave p) (c.saveBytes p fill)) (d.toSave p) p.hdr saved now
  dsimp only
  rw [hpc', hx, hlc]
  refine ⟨hst, Core.restored_pc _ c _ p fill hpc, fun i hi => Core.restored_x _ c _ p fill hi, fun i hi => Core.restored_lc _ c _ p fill hi,
    fun r => (hlanes r).trans (Core.restored_lanes _ c _ p fill r), fun o ho hm => ?_, hprog, hctx, hp.trans hpart, htb, hpre⟩
  have hr := Core.restored_out (c := d.left p) (v := d.toSave p) (b := c.saveBytes p fill) ho hm
  have hcount : ((d.toSave p).bases.getD o (0, 0)).2 = (c.out p.bank.toNat o).count := by
    have : d.outs = c.outs := houts
    simp [Core.toSave, ho, Core.out, this]
  rw [hout, show p.bank = (d.toSave p).prog.bank from rfl, hr, Core.saveBytes_base c p fill ho, hcount]
  exact ⟨rfl, rfl⟩

/-- Settles O25: `saveCore_effect` and `back_left` for preemption; what a teardown and RESET leave stands in their definitions. -/
theorem preemptionAndTeardown : Obligations.PreemptionAndTeardown := by
  unfold Obligations.PreemptionAndTeardown
  refine ⟨fun s n p fill hp hn hpc => ?_, fun c hc => ⟨fun d hd => ?_, rfl, rfl, rfl, rfl, rfl, rfl, rfl⟩⟩
  · intro u v
    obtain ⟨hlen, hcore, hmem⟩ := State.saveCore_effect hp hn
    have hsame := (s.toLeave_undisturbed n p).core n
    have hv := State.resumeCore_core (b := (s.core n).saveBytes p fill) (by rw [hcore]; exact Core.find_left _ p)
      (show n < u.cores.length by rw [hlen]; exact hn)
    rw [hcore] at hv
    obtain ⟨hst, hpc', hx, hlc, hlanes, hout, hrest⟩ := Core.back_left hsame p fill _ u.now hpc
    rw [show v.core n = _ from hv, show u.core n = _ from hcore]
    exact ⟨rfl, rfl, rfl, hmem.trans (s.toLeave_mem n p), hst, hpc', hx, hlc, hlanes, hout, hrest⟩
  · have hst : ((if c.st == .withdrawn then .withdrawn else .idle) : CcState) = .idle := by simp [hc]
    rcases List.mem_cons.1 hd with rfl | hd
    · exact ⟨hst, rfl, rfl, rfl, rfl, rfl, rfl, rfl, rfl, rfl, rfl, rfl, rfl, fun p hp => by rw [Core.torn, hp], rfl, rfl, rfl, rfl, rfl⟩
    · rw [List.mem_singleton.1 hd]
      exact ⟨hst, rfl, rfl, rfl, rfl, rfl, rfl, rfl, rfl, rfl, rfl, rfl, rfl, fun p hp => by rw [Core.wiped, hp], rfl, rfl, rfl, rfl, rfl⟩

end Sys2Proof.Machine
end

section
/-! CC_ERR, tile boundaries, group changes and the group port. -/

namespace Sys2Proof.Machine

/-! ## CC_ERR -/

theorem Core.getLsbD_setErr (c : Core) {b : Nat} (hb : b < 15) (k : Nat) : (c.setErr b).err.getLsbD k = (c.err.getLsbD k || decide (k = b)) := by
  show (c.err ||| (1#15 <<< b)).getLsbD k = _
  rw [BitVec.getLsbD_or, BitVec.getLsbD_shiftLeft, BitVec.getLsbD_one]
  congr 1
  by_cases h : k = b
  · subst h; simp [hb]
  · by_cases hk : k < b
    · simp [h, hk]
    · simp [h]; omega

/-! ## Groups at a boundary -/

theorem State.compareSigs_of_ungrouped {s : State} {n : Nat} (h : s.groupOf (s.logical n) = none) : s.compareSigs n = s := by
  rw [State.compareSigs, h]

theorem State.splitHere_of_ungrouped {s : State} {n : Nat} (h : s.groupOf (s.logical n) = none) : s.splitHere n = s := by
  rw [State.splitHere, h]

/-- A core at its boundary: the signature is latched, and the group's business is done. -/
def State.atTileBoundary (s : State) (n : Nat) : State :=
  let t := s.onCore n (fun c =>
    { c.latchSig with atTb := true, tileEndPending := false, st := if c.waitOn.isSome then .waiting else .running })
  let g := match (s.core n).groupHeld with
    | some v => t.applyGroup n v
    | none => t
  (g.compareSigs n).splitHere n

theorem execTileBoundaryReached_of_reached {s : State} {n : BitVec 6} (hup : s.up = true) (h : (s.core n.toNat).reachesTb = true) :
    exec (.tileBoundaryReached n) s = .next (
      let u := s.atTileBoundary n.toNat
      if (u.core n.toNat).waitUnordered then u.coreFault n.toNat eSeqViol n.toNat
      else if (u.core n.toNat).preemptAt.isSome && (u.core n.toNat).busy then u.saveCore n.toNat else u) := by
  show execTileBoundaryReached n s = _
  rw [execTileBoundaryReached]
  dsimp only
  rw [hup, h]
  rfl

/-- Settles O26: the bits of CC_ERR, the boundary by what the core was waiting for, and the overrun. -/
theorem tileBoundariesAndFaults : Obligations.TileBoundariesAndFaults := by
  unfold Obligations.TileBoundariesAndFaults
  refine ⟨fun c b hb => ⟨?_, fun k hk => ?_, fun h => if_pos h, fun h => if_neg h, rfl⟩, fun s n hup => ⟨fun h => ?_, fun htb hbusy hp => ?_⟩,
    fun s n t hup hp hbusy htb hlate => ?_⟩
  · rw [Core.getLsbD_setErr c hb]; simp
  · rw [Core.getLsbD_setErr c hb]; simp [hk]
  · intro t g u
    have hu : s.atTileBoundary n.toNat = u := rfl
    rw [execTileBoundaryReached_of_reached hup h, hu]
    refine ⟨fun hw => ?_, fun hw hpre => ?_, fun hw hpre hbusy => ?_, fun hheld hgroup => ?_⟩
    · simp only [hw, if_true]
    · simp only [hw, hpre]
      rfl
    · simp only [hw, hpre, hbusy]
      rfl
    · have hg : g = t := by
        show (match (s.core n.toNat).groupHeld with | some v => t.applyGroup n.toNat v | none => t) = t
        rw [hheld]
      show (g.compareSigs n.toNat).splitHere n.toNat = t
      rw [hg, State.compareSigs_of_ungrouped hgroup, State.splitHere_of_ungrouped hgroup]
  · show execTileBoundaryReached n s = _
    have hr : (s.core n.toNat).reachesTb = false := by simp [Core.reachesTb, htb]
    rw [execTileBoundaryReached]
    dsimp only
    rw [hup, hr, htb, hbusy, hp]
    rfl
  · show execTileOverrun n s = _
    rw [execTileOverrun, hp]
    dsimp only
    rw [hup, hbusy, htb, decide_eq_true hlate]
    rfl

/-! ## CC_GROUP and the group port -/

theorem getLsbD_groupBits (old v : Word64) (i : Nat) :
    (groupBits old v).getLsbD i = ((v.getLsbD i && decide (i < 24)) || (old.getLsbD i && decide (i = 25))) := by
  have hbits : ∀ i : Fin 64, (0xFFFFFF#64 : Word64).getLsbD i = decide (i.val < 24) ∧ (0x2000000#64 : Word64).getLsbD i = decide (i.val = 25) := by
    decide
  have h : (0xFFFFFF#64 : Word64).getLsbD i = decide (i < 24) ∧ (0x2000000#64 : Word64).getLsbD i = decide (i = 25) := by
    by_cases hi : i < 64
    · exact hbits ⟨i, hi⟩
    · rw [BitVec.getLsbD_of_ge _ _ (by omega), BitVec.getLsbD_of_ge _ _ (by omega), decide_eq_false (by omega), decide_eq_false (by omega)]
      exact ⟨rfl, rfl⟩
  rw [groupBits, BitVec.getLsbD_or, BitVec.getLsbD_and, BitVec.getLsbD_and, h.1, h.2]

/-- The port's answer to a vote. -/
def State.portAnswers (s : State) (g : Nat) (v : Vote) : State :=
  match v with
  | .agree v => s.emit (.groupWord g v)
  | .majority v m => (s.emit (.groupWord g v)).memberDeviates g m 0
  | .none => s.groupMismatch g (if (s.groupRt g).active.length = 3 then 1 else 0)

theorem execGroupPortDecide_of_whole {s : State} {g : BitVec 5} {a b c : Word64} (hup : s.up = true) (hs : (s.groupRt g.toNat).split = false)
    (h : 2 ≤ (s.groupRt g.toNat).active.length) : exec (.groupPortDecide g a b c) s
      = .next (s.portAnswers g.toNat (decide377 ((s.groupRt g.toNat).active.map (fun m => (m, ([a, b, c] : List Word64).getD m 0))))) := by
  show execGroupPortDecide g a b c s = _
  rw [execGroupPortDecide, hup, hs, decide_eq_true h]
  rfl

/-- Settles O27: a group change by where the core stands, and the port's answer by how the copies agree. -/
theorem groupsChangeAndCompare : Obligations.GroupsChangeAndCompare := by
  unfold Obligations.GroupsChangeAndCompare
  refine ⟨fun s v hup => ?_, fun s g a b c hup hs => ?_⟩
  · intro applied
    have happlied : ∀ n, applied n = s.applyGroup n v := fun _ => rfl
    simp only [happlied]
    refine ⟨fun by_ l hby hat => ?_, fun by_ l hby hat => ?_, fun n hheld hat => ?_, fun old => ⟨?_, fun i hi => ?_, ?_, fun i hi => ?_⟩⟩
    · show execCcGroupWrite by_ l v s = _
      rw [execCcGroupWrite, if_pos hup]
      dsimp only
      rw [hby, hat]
      rfl
    · show execCcGroupWrite by_ l v s = _
      rw [execCcGroupWrite, if_pos hup]
      dsimp only
      rw [hby, hat]
      rfl
    · show execGroupChangeApply n s = _
      rw [execGroupChangeApply, hheld]
      dsimp only
      rw [hup, hat]
      rfl
    · rw [getLsbD_groupBits]; simp
    · rw [getLsbD_groupBits, decide_eq_true hi, decide_eq_false (by omega : ¬ i = 25)]; simp
    · rw [getLsbD_groupBits]; simp
    · rw [getLsbD_groupBits, decide_eq_false (by omega : ¬ i < 24), decide_eq_false (by omega : ¬ i = 25)]; simp
  · intro released
    refine ⟨fun ha => ?_, fun i j ha => ?_⟩
    · have hexec := execGroupPortDecide_of_whole (a := a) (b := b) (c := c) hup hs (by rw [ha]; decide)
      have hv : decide377 ((s.groupRt g.toNat).active.map (fun m => (m, ([a, b, c] : List Word64).getD m 0)))
          = decide377 [(0, a), (1, b), (2, c)] := by rw [ha]; rfl
      rw [hv] at hexec
      rw [hexec]
      refine ⟨fun h1 h2 => ?_, fun h1 h2 => ?_, fun h1 h2 => ?_, fun h1 h2 => ?_, fun h1 h2 h3 => ?_⟩
      · rw [decide377, if_pos h1, if_pos h2]; rfl
      · rw [decide377, if_pos h1, if_neg (fun h => h2 (h1.trans h))]; rfl
      · rw [decide377, if_neg h2, if_neg (fun h => h2 (h1.trans h.symm)), if_pos h1]; rfl
      · rw [decide377, if_neg h2, if_pos h1]; rfl
      · rw [decide377, if_neg h1, if_neg h3, if_neg h2, State.portAnswers, ha]; rfl
    · intro x y
      have hexec := execGroupPortDecide_of_whole (a := a) (b := b) (c := c) hup hs (by rw [ha]; exact le_refl 2)
      have hv : decide377 ((s.groupRt g.toNat).active.map (fun m => (m, ([a, b, c] : List Word64).getD m 0)))
          = decide377 [(i, x), (j, y)] := by rw [ha]; rfl
      rw [hv] at hexec
      rw [hexec]
      refine ⟨fun h => ?_, fun h => ?_⟩
      · rw [decide377, if_pos h]; rfl
      · rw [decide377, if_neg h, State.portAnswers, ha]; rfl

end Sys2Proof.Machine
end

section
/-! What memory traffic leaves of the schedule engine; completions; the re-synchronisation of a group. -/

namespace Sys2Proof.Machine

/-! ## The schedule engine under memory traffic -/

/-- The schedule engine goes on as it was, or releases nothing more (R403). -/
def SchedKept (s t : State) : Prop := t.sched = { s.sched with stopped := t.sched.stopped }

namespace SchedKept

variable {s t u : State}

theorem rfl' (s : State) : SchedKept s s := rfl

theorem of_eq (h : t.sched = s.sched) : SchedKept s t := by
  unfold SchedKept
  rw [h]

theorem trans (h : SchedKept s t) (k : SchedKept t u) : SchedKept s u := by
  unfold SchedKept at *
  rw [k, h]

theorem ite {c : Prop} [Decidable c] (h : SchedKept s t) (k : SchedKept s u) : SchedKept s (if c then t else u) := by
  split
  · exact h
  · exact k

theorem foldl {α : Type} {f : State → α → State} (hf : ∀ t x, SchedKept t (f t x)) (l : List α) (s : State) : SchedKept s (l.foldl f s) := by
  induction l generalizing s with
  | nil => exact rfl' s
  | cons x l ih => exact (hf s x).trans (ih _)

theorem react (s : State) (cls : Nat) : SchedKept s (s.react cls) := by
  unfold State.react
  split
  · split
    · exact of_eq (State.setDevState_sched ..)
    · exact rfl' s
  · split
    · unfold State.enterSafe
      split
      · exact rfl' s
      · rfl
    · exact rfl' s

theorem report (s : State) (r : ReportIn) : SchedKept s (s.report r) := by
  rw [State.report, State.reportWith]
  refine SchedKept.trans ?_ (react _ _)
  cases r.blame with
  | none => exact of_eq (by simp)
  | some u =>
    dsimp only
    split <;> exact of_eq (by simp)

theorem raise (s : State) (loc group code cls detail : Nat) : SchedKept s (s.raise loc group code cls detail) := report s _

theorem raiseCtx (s : State) (loc group code cls ctx part detail : Nat) : SchedKept s (s.raiseCtx loc group code cls ctx part detail) := report s _

theorem ccErr (s : State) (n b detail : Nat) : SchedKept s (s.ccErr n b detail) := (of_eq rfl : SchedKept s (s.onCore n _)).trans (report _ _)

theorem retireUnit (s : State) (ch u : Nat) : SchedKept s (s.retireUnit ch u) := by
  unfold State.retireUnit
  refine ite (rfl' s) (ite ?_ (ite (of_eq rfl) (of_eq rfl)))
  exact (of_eq rfl : SchedKept s (s.lakeCount ch 6)).trans (raise _ _ _ _ _ _)

theorem lakeCe (s : State) (ch u granule : Nat) : SchedKept s (s.lakeCe ch u granule) := by
  have h : SchedKept s (((s.lakeCount ch 0).lakeReport ch 0 1 granule).onLake ch (fun l => { l with ceTable := ceCount l.ceTable u })) :=
    (of_eq rfl : SchedKept s (s.lakeCount ch 0)).trans ((raise _ _ _ _ _ _).trans (of_eq rfl))
  unfold State.lakeCe
  dsimp only
  split
  · exact h.trans (retireUnit _ _ _)
  · exact h

/-- A counter of the memory and a report. -/
theorem countRaise (s : State) (f : Mem → Mem) (loc group code cls detail : Nat) : SchedKept s ((s.onMem f).raise loc group code cls detail) :=
  (of_eq rfl : SchedKept s (s.onMem f)).trans (raise _ _ _ _ _ _)

theorem reportCe (s : State) (a : Nat) : SchedKept s (s.reportCe a) := by
  unfold State.reportCe
  split
  · exact lakeCe _ _ _ _
  · exact countRaise _ _ _ _ _ _ _
  · exact countRaise _ _ _ _ _ _ _
  · exact (of_eq rfl : SchedKept s (s.onMem _)).trans (ccErr _ _ _ _)
  · exact rfl' s

theorem reportUe (s : State) (a : Nat) : SchedKept s (s.reportUe a) := by
  unfold State.reportUe
  split
  · exact countRaise _ _ _ _ _ _ _
  · exact countRaise _ _ _ _ _ _ _
  · exact countRaise _ _ _ _ _ _ _
  · exact of_eq rfl
  · exact rfl' s

theorem reportPoison (s : State) (a : Nat) : SchedKept s (s.reportPoison a) := by
  unfold State.reportPoison
  split
  · exact countRaise _ _ _ _ _ _ _
  · exact countRaise _ _ _ _ _ _ _
  · exact rfl' s

theorem readWord (s : State) (a : Nat) : SchedKept s (s.readWord a).1 := by
  unfold State.readWord
  dsimp only
  split
  · exact rfl' s
  · exact (of_eq rfl : SchedKept s (s.onMem _)).trans (reportCe _ _)
  · exact reportUe _ _
  · exact reportPoison _ _

theorem mergeReads (s : State) (a n : Nat) : SchedKept s (s.mergeReads a n) := by
  unfold State.mergeReads
  split
  · exact rfl' s
  · exact foldl (fun t w => readWord t (4 * w)) _ _

theorem poke (s : State) (a : Nat) (bs : Bytes) (poisoned : Bool) : SchedKept s (s.poke a bs poisoned) := (mergeReads s _ _).trans (of_eq rfl)

theorem busWrite (s : State) (by_ : Initiator) (a : Nat) (bs : Bytes) (poisoned : Bool) : SchedKept s (s.busWrite by_ a bs poisoned) := by
  unfold State.busWrite
  refine ite (ite (poke _ _ _ _) ?_) (poke _ _ _ _)
  refine SchedKept.trans (ite (poke _ _ _ _) (foldl (fun t n => poke t _ _ _) _ _)) (foldl (fun t n => ?_) _ _)
  exact of_eq rfl

theorem lakeTouch (s : State) (ch off : Nat) : SchedKept s (s.lakeTouch ch off) := of_eq (State.onLake_sched ..)

theorem touch (s : State) (a : Nat) (write : Bool) : SchedKept s (s.touch a write) := by
  unfold State.touch
  generalize s.placeOf a = p
  cases p with
  | lake ch off => exact lakeTouch s ch off
  | lpddr off => exact ite (of_eq rfl) (rfl' s)
  | _ => exact rfl' s

theorem charge (s : State) (part a n : Nat) : SchedKept s (s.charge part a n) := by
  unfold State.charge
  split
  · exact of_eq rfl
  · exact rfl' s

theorem louvre (s : State) (part a n : Nat) (write : Bool) : SchedKept s (s.louvre part a n write) := by
  unfold State.louvre
  refine foldl (fun t x => ?_) _ _
  exact (charge t part x.1 x.2).trans (touch _ _ _)

theorem refuse (s : State) (by_ : Initiator) (part a : Nat) (write : Bool) (q : Option Nat) : SchedKept s (s.refuse by_ part a write q) := by
  unfold State.refuse
  exact SchedKept.trans (of_eq (State.onMem_sched ..)) (raiseCtx _ _ _ _ _ _ _ _)

theorem engineWrite (s : State) (ebit src a : Nat) (bs : Bytes) : SchedKept s (s.engineWrite ebit src a bs).1 := by
  unfold State.engineWrite
  dsimp only
  split
  · split
    · exact (busWrite _ _ _ _ _).trans (louvre _ _ _ _ _)
    · exact (busWrite _ _ _ _ _).trans (louvre _ _ _ _ _)
    · exact (busWrite _ _ _ _ _).trans (louvre _ _ _ _ _)
    · exact (busWrite _ _ _ _ _).trans (louvre _ _ _ _ _)
    · exact raise _ _ _ _ _ _
  · exact (refuse _ _ _ _ _ _).trans (of_eq rfl)

end SchedKept

/-! ## Completions -/

theorem State.window_onWindow (s : State) (p : Nat) (f : Window → Window) : (s.onWindow p f).window p = f (s.window p) := by
  show sget {} (sset {} s.sched.windows p _) p = _
  rw [sget_sset, if_pos rfl]
  rfl

theorem State.window_of_schedKept {s t : State} (h : SchedKept s t) (p : Nat) : t.window p = s.window p := by
  rw [State.window, h]
  rfl

/-- A window after a completion that landed. -/
def Window.landed (w : Window) (c : Completion) : Window :=
  let r := advanceDone (w.doneAhead.length + 1) w.cmplDone (w.doneAhead ++ [c.seq])
  { w with cmds := w.cmds.filter (fun x => x.seq != c.seq), pending := w.pending - 1, cmplLast := c.seq, cmplDone := r.1, doneAhead := r.2 }

theorem State.completeLanded_eq (s : State) (p : Nat) (c : Completion) :
    s.completeLanded p c = if (s.window p).irqEn && c.irq
      then (s.onWindow p (fun w => w.landed c)).emit (.msi (s.window p).msiAddr.toNat (s.window p).msiData.toNat)
      else s.onWindow p (fun w => w.landed c) := by
  have hw := State.window_onWindow s p (fun w => w.landed c)
  have h : s.completeLanded p c =
      if ((s.onWindow p (fun w => w.landed c)).window p).irqEn && c.irq
      then (s.onWindow p (fun w => w.landed c)).emit (.msi ((s.onWindow p (fun w => w.landed c)).window p).msiAddr.toNat
        ((s.onWindow p (fun w => w.landed c)).window p).msiData.toNat)
      else s.onWindow p (fun w => w.landed c) := rfl
  rw [h, hw]
  rfl

/-- A completion that landed: the window goes on without its command, and the MSI is sent where it is asked for. -/
theorem State.completeLanded_effect (s : State) (p : Nat) (c : Completion) :
    let u := s.completeLanded p c
    let w := s.window p
    u.window p = w.landed c ∧ u.mem = s.mem
    ∧ u.sent = (if w.irqEn && c.irq then s.sent ++ [.msi w.msiAddr.toNat w.msiData.toNat] else s.sent)
    ∧ u.sched.groups = s.sched.groups ∧ u.sched.resyncs = s.sched.resyncs := by
  have hw := State.window_onWindow s p (fun w => w.landed c)
  dsimp only
  rw [State.completeLanded_eq]
  split
  · exact ⟨hw, rfl, rfl, rfl, rfl⟩
  · exact ⟨hw, rfl, rfl, rfl, rfl⟩

/-- The ring takes completions. -/
def Window.takes (w : Window) : Prop := w.cqFault = false ∧ 8 ≤ w.cqLog2.toNat ∧ w.cqLog2.toNat ≤ 16

theorem State.writeCompletion_of_takes {s t : State} {p : Nat} {c : Completion} (h : (s.window p).takes)
    (ht : s.engineWrite 3 srcSched ((s.window p).cqBase.toNat * 64 + 16 * (c.seq.toNat % 2 ^ (s.window p).cqLog2.toNat)) (completionBytes c)
      = (t, true)) : s.writeCompletion p c = t.completeLanded p c := by
  obtain ⟨h1, h2, h3⟩ := h
  unfold State.writeCompletion
  dsimp only
  rw [if_neg (by simp [h1]; omega), ht, if_pos rfl]

theorem State.writeCompletion_held {s : State} {p : Nat} (c : Completion)
    (h : (s.window p).cqFault = true ∨ (s.window p).cqLog2.toNat < 8 ∨ 16 < (s.window p).cqLog2.toNat) :
    s.writeCompletion p c = s.onWindow p (fun x => { x with cqFault := true, heldCq := x.heldCq ++ [c] }) := by
  unfold State.writeCompletion
  dsimp only
  rw [if_pos]
  rcases h with h | h | h <;> simp [h]

theorem State.writeCompletion_groups (s : State) (p : Nat) (c : Completion) :
    (s.writeCompletion p c).sched.groups = s.sched.groups ∧ (s.writeCompletion p c).sched.resyncs = s.sched.resyncs := by
  unfold State.writeCompletion
  dsimp only
  split
  · exact ⟨rfl, rfl⟩
  · have hk := SchedKept.engineWrite s 3 srcSched ((s.window p).cqBase.toNat * 64 + 16 * (c.seq.toNat % 2 ^ (s.window p).cqLog2.toNat)) (completionBytes c)
    have hg : ∀ t : State, SchedKept s t → t.sched.groups = s.sched.groups ∧ t.sched.resyncs = s.sched.resyncs :=
      fun t h => ⟨by rw [h], by rw [h]⟩
    obtain ⟨h1, h2⟩ := hg _ hk
    split
    · obtain ⟨_, _, _, hgroups, hresyncs⟩ := State.completeLanded_effect
        (s.engineWrite 3 srcSched ((s.window p).cqBase.toNat * 64 + 16 * (c.seq.toNat % 2 ^ (s.window p).cqLog2.toNat)) (completionBytes c)).1 p c
      exact ⟨hgroups.trans h1, hresyncs.trans h2⟩
    · exact ⟨h1, h2⟩

theorem State.complete_groups (s : State) (p : Nat) (seq : Word) (status result : Nat) :
    (s.complete p seq status result).sched.groups = s.sched.groups := by
  unfold State.complete
  split
  · rfl
  · exact (State.writeCompletion_groups ..).1

/-! ## Re-synchronisation -/

theorem State.groupRt_onGroup (s : State) (g : Nat) (f : GroupRt → GroupRt) : (s.onGroup g f).groupRt g = f (s.groupRt g) := by
  show sget {} (sset {} s.sched.groups g _) g = _
  rw [sget_sset, if_pos rfl]
  rfl

theorem foldl_onCore_sched {α : Type} (n : α → Nat) (f : α → Core → Core) (l : List α) (s : State) :
    (l.foldl (fun t x => t.onCore (n x) (f x)) s).sched = s.sched := by
  induction l generalizing s with
  | nil => rfl
  | cons x l ih => exact ih _

theorem State.formGroup_sched (s : State) (g : Nat) : (s.formGroup g).sched = s.sched := by
  unfold State.formGroup
  split
  · rfl
  · exact foldl_onCore_sched ..

theorem State.setDetect_sched (s : State) (ns : List Nat) (b : Bool) : (s.setDetect ns b).sched = s.sched := by
  unfold State.setDetect
  exact foldl_onCore_sched ..

theorem State.groupCmdDone_groupRt (s : State) (g : Nat) : (s.groupCmdDone g).groupRt g = { s.groupRt g with cmd := none } := by
  unfold State.groupCmdDone
  split
  next h => rw [← h]
  next c h =>
    rw [State.groupRt, State.complete_groups]
    exact State.groupRt_onGroup ..

/-- A group after its restart: every member that ran and the one restored run, and the counter rises but for a re-formed pair. -/
theorem State.groupRestarts_effect (s : State) (g m donor : Nat) (st : ResyncSt) :
    let u := s.groupRestarts g (m, donor, st)
    (u.groupRt g).resync = none ∧ ((s.groupRt g).split = false → u.sched.resyncs = s.sched.resyncs + 1)
    ∧ (u.groupRt g).active = (List.range (s.groupPhys g).length).filter (fun i => (s.groupRt g).active.contains i || i == m) := by
  unfold State.groupRestarts
  dsimp only
  generalize (List.range (s.groupPhys g).length).filter (fun i => (s.groupRt g).active.contains i || i == m) = all
  generalize hs2 : State.onGroup (s.onCore _ _) g _ = s2
  have hrt : s2.groupRt g = { (s.groupRt g) with active := all, resync := none, split := false, lakeLine := none } := by
    rw [← hs2, State.groupRt_onGroup]
    rfl
  have hres : s2.sched.resyncs = s.sched.resyncs := by rw [← hs2]; rfl
  cases (s.groupRt g).split with
  | true =>
    simp only [if_true]
    have h3 : ∀ ns b, ((s2.formGroup g).setDetect ns b).groupRt g = s2.groupRt g := fun ns b => by
      rw [State.groupRt, State.setDetect_sched, State.formGroup_sched, State.groupRt]
    rw [State.groupCmdDone_groupRt, h3, hrt]
    exact ⟨rfl, fun h => Bool.noConfusion h, rfl⟩
  | false =>
    simp only [Bool.false_eq_true, if_false]
    have h3 : ∀ ns b, (s2.setDetect ns b).sched = s2.sched := fun ns b => State.setDetect_sched ..
    refine ⟨?_, fun _ => ?_, ?_⟩
    · rw [State.groupRt, State.logEvent_sched]
      show (sget {} (State.sched (State.setDetect s2 _ _)).groups g).resync = none
      rw [h3]
      exact congrArg GroupRt.resync hrt
    · rw [State.logEvent_sched]
      show (State.sched (State.setDetect s2 _ _)).resyncs + 1 = _
      rw [h3, hres]
    · rw [State.groupRt, State.logEvent_sched]
      show (sget {} (State.sched (State.setDetect s2 _ _)).groups g).active = _
      rw [h3]
      exact congrArg GroupRt.active hrt

/-- Settles O28: each stage of the re-synchronisation, and the restart by `groupRestarts_effect`. -/
theorem resynchronisationMovesOn : Obligations.ResynchronisationMovesOn := by
  unfold Obligations.ResynchronisationMovesOn
  intro s g m donor hup stage
  refine ⟨fun h hd => ?_, fun h => ?_, fun h hd => ?_, fun h => ?_⟩
  · show execResyncCopyStart g s = _
    rw [execResyncCopyStart, h]
    dsimp only
    rw [hup, hd]
    rfl
  · show execResyncCopyLanded g s = _
    rw [execResyncCopyLanded, h]
    dsimp only
    rw [hup]
    rfl
  · show execResyncStateSend g s = _
    rw [execResyncStateSend, h]
    dsimp only
    rw [hup, hd]
    rfl
  · refine ⟨s.groupRestarts g.toNat (m, donor, .stateSent), ?_, State.groupRestarts_effect s g.toNat m donor _⟩
    show execResyncRestart g s = _
    rw [execResyncRestart, h]
    dsimp only
    rw [hup]
    rfl

end Sys2Proof.Machine
end

section
/-! The schedule: completions and loads, releases and entries. -/

namespace Sys2Proof.Machine

/-! ## Completions and loads -/

theorem length_completionBytes (c : Completion) : (completionBytes c).length = 16 := by
  simp [completionBytes, length_leBytes]

/-- Settles O34: a completion that its ring takes, one that it does not, and the load at the head of the queue. -/
theorem completionsAndLoadsLand : Obligations.CompletionsAndLoadsLand := by
  unfold Obligations.CompletionsAndLoadsLand
  refine ⟨?completions, fun s t l rest hup hl hroom => ?_⟩
  case completions =>
    intro s part seq status result x p w k hx
    have hcomplete : s.complete p seq status result = s.writeCompletion p k := by
      rw [State.complete, show (s.window p).cmds.find? (fun y => y.seq == seq) = some x from hx]
    refine ⟨fun t hfault hlo hhi ht => ?_, fun h => ?_, length_completionBytes k, fun hup hfault => ?_⟩
    · intro u
      have hu : u = t.completeLanded p k := hcomplete.trans (State.writeCompletion_of_takes ⟨hfault, hlo, hhi⟩ ht)
      have hkept : SchedKept s t := by
        have h := SchedKept.engineWrite s 3 srcSched (w.cqBase.toNat * 64 + 16 * (seq.toNat % 2 ^ w.cqLog2.toNat)) (completionBytes k)
        rwa [ht] at h
      have hw : t.window p = w := State.window_of_schedKept hkept p
      obtain ⟨hwin, hmem, hsent, -, -⟩ := State.completeLanded_effect t p k
      rw [hw] at hwin hsent
      rw [hu, hwin]
      exact ⟨rfl, rfl, rfl, hfault, hmem, hsent⟩
    · rw [hcomplete, State.writeCompletion_held k h]
    · show execCqFaultClear part s = _
      rw [execCqFaultClear, hup, show (s.window part.toNat).cqFault = true from hfault]
      rfl
  · show execModelLoadComplete s = _
    rw [execModelLoadComplete, hl]
    dsimp only
    rw [if_pos hup, hroom]

/-! ## Releases and entries -/

/-- What one release makes: running, held with its model asked for, or not made. -/
theorem State.makeRelease_cases (s : State) (e : Nat) (w : WorkEntry) :
    let u := s.rejoin w
    let f := u.frameAt u.now
    let add := fun (r : Rel) => u.onSched (fun x => { x with rels := x.rels ++ [r] })
    (u.entryLost w = false → u.startable w = true → s.makeRelease e w =
      ((add (u.releaseOf e w .running)).startOn (u.entryPhys w) w.modelId w.prog w.ctx w.part (f - u.tb.runFrame0) (.rel e f)).unlessRefused e f)
    ∧ (u.entryLost w = false → u.startable w = false → s.makeRelease e w = (add (u.releaseOf e w .held)).requestLoad w.modelId none w.part)
    ∧ (u.entryLost w = true → s.makeRelease e w = add (u.releaseOf e w .notMade)) := by
  unfold State.makeRelease
  dsimp only
  refine ⟨fun hl hs => ?_, fun hl hs => ?_, fun hl => ?_⟩
  · rw [hl, hs, if_neg Bool.false_ne_true, if_pos rfl]
    rfl
  · rw [hl, hs, if_neg Bool.false_ne_true, if_neg Bool.false_ne_true]
    rfl
  · rw [hl, if_pos rfl]
    rfl

/-- Settles O29: each entry at its instant, the slack, and the preemption of an occupant. -/
theorem releasesAndEntries : Obligations.ReleasesAndEntries := by
  unfold Obligations.ReleasesAndEntries
  refine ⟨fun s e w hw => ?releases, ⟨fun s e w hw hstart => ⟨fun r hk hc hcont hpre hsa => ?cont, ?pool⟩,
    fun s n hup hfr hstop hfree => ⟨fun v hv => ?resume, fun j hv hj => ?background⟩⟩,
    fun s n hup hfr hbusy hocc => ?occupant, fun s e w hw hup hfr hnow => ?entryEnd⟩
  case releases =>
    intro u f add made
    have hmade : made (s.makeRelease e w) := s.makeRelease_cases e w
    refine ⟨fun hs hk hc => ⟨_, ?_, hmade⟩, fun hs hk => ⟨_, ?_, hmade⟩, fun r hr hup hrun hstop hsa => ?_⟩
    · show execRelease e s = _
      rw [execRelease, hw]
      dsimp only
      rw [hs, hk, hc]
      rfl
    · show execRadioEntry e s = _
      rw [execRadioEntry, hw]
      dsimp only
      rw [hs, hk]
      rfl
    · show execHeldReleaseStart e s = _
      rw [execHeldReleaseStart, hw, hr]
      dsimp only
      rw [hup, hrun, hstop, show (s.rejoin w).startable w = true from hsa]
      rfl
  case cont =>
    show execContinueEntry e s = _
    rw [execContinueEntry, hw]
    dsimp only
    rw [hstart, hk, hc, hcont]
    dsimp only
    rw [hpre, hsa]
    rfl
  case pool =>
    intro u hk hsa
    have hexec : exec (.poolEntry e) s = .next (s.servePool w) := by
      show execPoolEntry e s = _
      rw [execPoolEntry, hw]
      dsimp only
      rw [hstart, hk]
      rfl
    have hserve : s.servePool w = match u.preemptedJob w.part (u.entryPhys w) with
        | some j => u.resumeOn (u.entryPhys w) (u.hdrOf j.model j.prog)
        | none => match u.nextJob w.part with
          | some j => u.startJob j (u.entryPhys w)
          | none => u := if_pos hsa
    refine ⟨fun j hj => ?_, fun j hp hj => ?_⟩
    · rw [hexec, hserve, hj]
      rfl
    · rw [hexec, hserve, hp, hj]
  case resume =>
    have hall : (s.workers n.toNat).all (fun m => s.coreFree m && s.occupantAt m s.now == .slack) = true := by
      simpa using hfree
    show execSlackResume n s = _
    rw [execSlackResume, hup, hfr, hstop, hall, hv]
    rfl
  case background =>
    have hall : (s.workers n.toNat).all (fun m => s.coreFree m && s.occupantAt m s.now == .slack) = true := by
      simpa using hfree
    show execSlackResume n s = _
    rw [execSlackResume, hup, hfr, hstop, hall, hv, hj]
    rfl
  case occupant =>
    have hnew : s.newOccupant n.toNat = true := by
      rw [State.newOccupant]
      rcases hocc with h | ⟨i, w, h, hs⟩
      · rw [h]
      · rw [h]
        dsimp only
        rw [hs]
        rfl
    show execOccupantPreempt n s = _
    rw [execOccupantPreempt, hup, hfr, hbusy, hnew]
    rfl
  case entryEnd =>
    show execEntryEnd e s = _
    rw [execEntryEnd, hw]
    dsimp only
    have hslack : s.slackAllowed w.part = decide (s.pwr.level = 0 ∨ s.rated w.part = true) := by
      rw [State.slackAllowed, Bool.decide_or, Bool.decide_eq_true]
      rfl
    rw [hup, hfr, hnow, hslack]
    by_cases h : s.pwr.level = 0 ∨ s.rated w.part = true
    · rw [if_pos h, decide_eq_true h]
      simp
    · rw [if_neg h, decide_eq_false h]
      simp only [beq_self_eq_true, Bool.and_true, Bool.not_false, if_true]
      rfl

end Sys2Proof.Machine
end

section
/-! Golden tests, self-test segments, remaps and deadlines. -/

namespace Sys2Proof.Machine

/-! ## Golden tests, segments and remaps -/

theorem State.checkGolden_pass {s : State} {n frame v : Nat} (hv : (s.core n).variant = some v)
    (hst : (s.core n).st = .idle ∨ (s.core n).st = .resync) (hsig : (s.core n).sig = s.isl.expected.getD v 0) :
    s.checkGolden n frame = (s.onCore n (fun c => { c with variant := none })).onCore n (fun c => { c with goldenLast := frame }) := by
  unfold State.checkGolden
  dsimp only
  rw [if_pos]
  rcases hst with h | h <;> simp [h, hv, hsig]

theorem State.checkGolden_fail {s : State} {n frame v : Nat} (hv : (s.core n).variant = some v)
    (h : ¬ ((s.core n).st = .idle ∨ (s.core n).st = .resync) ∨ (s.core n).sig ≠ s.isl.expected.getD v 0) :
    s.checkGolden n frame = ((((s.onCore n (fun c => { c with variant := none })).onSched (fun x =>
      { x with goldenFail := x.goldenFail + 1 })).raise n 33 0 3 n).withdrawCore n) := by
  unfold State.checkGolden
  dsimp only
  rw [if_neg]
  rw [Bool.and_eq_true, Bool.or_eq_true, beq_iff_eq, beq_iff_eq, beq_iff_eq, hv, Option.getD_some]
  rintro ⟨hst, hsig⟩
  exact h.elim (fun h => h hst) (fun h => h hsig)

/-- Settles O30: each event of the golden slots, the segments and the remaps under its own condition. -/
theorem testsAndRemaps : Obligations.TestsAndRemaps := by
  unfold Obligations.TestsAndRemaps
  refine ⟨⟨fun s slot g hg hup => ⟨fun hfr hslot hat => ?drain, fun hfr hat => ?slotStart, fun haon hover hle => ?check⟩,
      fun s n sig hup hst => ?testEnd, fun s n frame v hv => ⟨State.checkGolden_pass hv, State.checkGolden_fail hv⟩⟩,
    fun s n hup => ⟨fun hfr hfree hsegs hallowed hfits => ?segStart, ?segEnd⟩,
    fun s n hup => ⟨fun hrun hnone hwork hplan hplaces => ?remap, fun bad hr => ?complete, fun hlate => ?timeout⟩⟩
  case drain =>
    have hc : s.sched.goldenSlots.contains slot = false := by simpa using hslot
    have hs : (s.slotStarts g).contains (s.now + 3000) = true := by simpa [State.slotStarts] using hat
    show execGoldenDrain slot s = _
    rw [execGoldenDrain, hg]
    dsimp only
    rw [hup, hfr, hc, hs]
    rfl
  case slotStart =>
    show execGoldenSlotStart slot s = _
    rw [execGoldenSlotStart, hg]
    dsimp only
    rw [hup, hfr, show (s.now == s.thisFrame + g.from_) = true from beq_iff_eq.2 hat]
    rfl
  case check =>
    show execGoldenCheck slot s = _
    rw [execGoldenCheck, hg]
    dsimp only
    rw [haon, hup, hover, if_pos hle]
    rfl
  case testEnd =>
    show execGoldenTestEnd n sig s = _
    rw [execGoldenTestEnd, hup, hst]
    rfl
  case segStart =>
    show execSegmentStart n s = _
    rw [execSegmentStart, hup, hfr, hfree, decide_eq_true hsegs, hallowed, hfits]
    rfl
  case segEnd =>
    intro sig hst k t
    have hexec : exec (.segmentEnd n sig) s = .next (
        if sig.toNat ≠ s.segSig k then
          ((t.onSched (fun x => { x with selftestFail := x.selftestFail + 1 })).raise n.toNat 34 0 3 n.toNat).withdrawCore n.toNat
        else if s.cfg 0x230001 ≤ k + 1 then t.testSetDone n.toNat else t) := by
      show execSegmentEnd n sig s = _
      rw [execSegmentEnd, hup, hst]
      rfl
    rw [hexec]
    refine ⟨fun h1 h2 => ?_, fun h1 h2 => ?_, fun h => ?_⟩
    · rw [if_neg (not_not.2 h1), if_neg (Nat.not_le.2 h2)]
    · rw [if_neg (not_not.2 h1), if_pos h2]
    · rw [if_pos h]
  case remap =>
    have hany : s.sched.remaps.any (fun r => r.old == n) = false := by simpa using hnone
    have hempty : (s.remapPlan n.toNat).isEmpty = false := by simpa using hplan
    show execRemapStart n s = _
    rw [execRemapStart, hup, hrun, hany, hwork, hempty, hplaces]
    rfl
  case complete =>
    have hempty : (s.remapsOf n.toNat).isEmpty = false := by simpa using hr
    show execRemapComplete n bad s = _
    rw [execRemapComplete, hup, hempty]
    rfl
  case timeout =>
    have hany : (s.remapsOf n.toNat).any (fun r => expired s.now (r.since + 5000)) = true := by
      simpa [expired] using hlate
    show execRemapTimeout n s = _
    rw [execRemapTimeout, hup, hany]
    rfl

/-! ## Deadlines -/

/-- A job that missed its deadline, by the cores that carry it. -/
theorem State.missJob_eq (s : State) (j : Job) : s.missJob j =
    let ns := (j.core.map (fun c => s.members c.toNat)).getD []
    let s0 := if j.st = .running then ns.foldl State.chargeCore s else s
    let s1 := s0.onSched (fun x => { x with jobs := x.jobs.filter (fun y => !(y.part == j.part && y.seq == j.seq)) })
    let s2 := match j.st with
      | .running => ns.foldl State.teardownCore s1
      | .preempted => s1.discardOn ns (s.hdrOf j.model j.prog) j.ctx.toNat j.part.toNat
      | _ => s1
    (s2.complete j.part.toNat j.seq 8 (s0.jobNs j)).missed j.part.toNat j.ctx.toNat 0xFFFF (s.frameAt s.now) := by
  unfold State.missJob
  cases j.core <;> rfl

/-- Settles O31: a release by how it completed, a job by what it is doing. -/
theorem deadlinesAreChecked : Obligations.DeadlinesAreChecked := by
  unfold Obligations.DeadlinesAreChecked
  intro s hup hrun
  refine ⟨fun e w r hw hr => ?release, fun p q j hj => ?job⟩
  case release =>
    intro gone
    have hexec : exec (.deadlineCheck (.entry e)) s = .next (s.checkRelease r w) := by
      show execDeadlineCheck (.entry e) s = _
      rw [execDeadlineCheck, hup, hrun, Bool.and_self, if_pos rfl, hw, hr]
    rw [hexec, State.checkRelease]
    refine ⟨fun t ht hle => ?_, fun t ht hlt => ?_, fun hnone => ?_⟩
    · have hm : marginal t r.deadline = decide (r.deadline - t ≤ 64) := by rw [marginal, decide_eq_true hle, Bool.true_and]
      rw [ht]
      dsimp only
      rw [if_pos hle, hm]
      simp only [decide_eq_true_eq]
      rfl
    · rw [ht]
      dsimp only
      rw [if_neg (Nat.not_le.2 hlt)]
    · rw [hnone]
  case job =>
    intro ns gone ends
    have hexec : exec (.deadlineCheck (.job p q)) s = .next (s.missJob j) := by
      have hj' : s.sched.jobs.find? (fun j => j.part == p && j.seq == q && j.deadline != 0 && expired s.now j.deadline) = some j := hj
      show execDeadlineCheck (.job p q) s = _
      rw [execDeadlineCheck, hup, hrun, Bool.and_self, if_pos rfl, hj']
    rw [hexec, State.missJob_eq]
    have hskip : j.st ≠ .running → j.st ≠ .preempted → (match j.st with
        | .running => ns.foldl State.teardownCore (gone s)
        | .preempted => (gone s).discardOn ns (s.hdrOf j.model j.prog) j.ctx.toNat j.part.toNat
        | _ => gone s) = gone s := by
      intro h1 h2
      cases hst : j.st with
      | running => exact absurd hst h1
      | preempted => exact absurd hst h2
      | _ => rfl
    refine ⟨fun h => ?_, fun h => ?_, fun h1 h2 => ?_⟩
    · rw [h]
      rfl
    · rw [h]
      rfl
    · dsimp only
      rw [if_neg h1]
      exact congrArg (fun t => Host.Outcome.next (ends t (s.jobNs j))) (hskip h1 h2)

end Sys2Proof.Machine
end

section
/-! SUBMIT and the commands of the records it accepts. -/

namespace Sys2Proof.Machine

/-! ## SUBMIT -/

/-- The window of a record that SUBMIT accepts. -/
def Window.accepting (w : Window) (h : Nat) (v : Word64) (c : Cmd) : Window :=
  { w with subStat := sset 0 w.subStat h v, subNext := w.subNext + 1, pending := w.pending + 1, cmds := w.cmds ++ [c] }

/-- The record that stands in a slot. -/
def Window.record (w : Window) (h : Nat) : Cmd :=
  { seq := w.subNext, w0 := w.recWord h 0, w1 := w.recWord h 1, w2 := w.recWord h 2, w3 := w.recWord h 3 }

theorem State.onWindow_onWindow_window (s : State) (p : Nat) (f g : Window → Window) :
    ((s.onWindow p f).onWindow p g).window p = g (f (s.window p)) := by
  rw [State.window_onWindow, State.window_onWindow]

/-- SUBMIT without a reason to refuse: the record is in the window; one of no command is completed at once. -/
theorem State.submitRead_accepted {s : State} {p h : Nat} (hr : s.submitRefusal p h = 0) :
    ∃ u : State, u.window p = (s.window p).accepting h (BitVec.ofNat 64 (2 ^ 32 + (s.window p).subNext.toNat)) ((s.window p).record h)
      ∧ u.sent = s.sent
      ∧ s.submitRead p h = if 0x0C < bits ((s.window p).record h).w0.toNat 7 0 then u.complete p (s.window p).subNext 11 0 else u := by
  have hv : s.submitValue p h = BitVec.ofNat 64 (2 ^ 32 + (s.window p).subNext.toNat) := by rw [State.submitValue, if_pos hr]
  unfold State.submitRead
  dsimp only
  rw [if_neg (not_not.2 hr), hv]
  refine ⟨_, ?window, ?sent, rfl⟩
  case window => exact State.onWindow_onWindow_window ..
  case sent => rfl

theorem State.submitRead_refused {s : State} {p h : Nat} (hr : s.submitRefusal p h ≠ 0) :
    (s.submitRead p h).window p
      = { s.window p with subStat := sset 0 (s.window p).subStat h (BitVec.ofNat 64 (place (s.submitRefusal p h) 40)), refused := true }
    ∧ (s.submitRead p h).sent = s.sent := by
  have hv : s.submitValue p h = BitVec.ofNat 64 (place (s.submitRefusal p h) 40) := by rw [State.submitValue, if_neg hr]
  unfold State.submitRead
  dsimp only
  rw [if_pos hr, hv]
  exact ⟨State.onWindow_onWindow_window .., rfl⟩

theorem execSubmit_of_up {s : State} (hup : s.up = true) (part : BitVec 4) (slot : Fin 12) : exec (.submit part slot) s
    = .next ((s.submitRead part.toNat slot.val).emit
      (.regData (0x2000010000 + part.toNat * 0x1000 + 0x128 + slot.val * 0x40) (s.submitValue part.toNat slot.val))) := by
  show execSubmit part slot s = _
  rw [execSubmit, if_pos hup]

/-! ## Records taken up -/

theorem State.carry_of_status {s : State} {part : BitVec 4} {seq : Word} {status : Nat} (effect : State → State) (h : status ≠ 0) :
    s.carry part seq status effect = (s.takeCmd part seq).complete part.toNat seq status 0 := by
  rw [State.carry, if_neg h]

theorem State.carry_of_good {s : State} {part : BitVec 4} {seq : Word} {status : Nat} (effect : State → State) (h : status = 0) :
    s.carry part seq status effect = effect (s.takeCmd part seq) := by
  rw [State.carry, if_pos h]

section
variable {s : State} {part : BitVec 4} {seq : Word} {c : Cmd}

/-- A record's command carries it when it waits: with a bad status it completes, with a good one it has its effect. -/
def Carries (s : State) (part : BitVec 4) (seq : Word) (i : Instr) (status : Nat) (effect : State → State) : Prop :=
  exec i s = .next (s.carry part seq status effect)

theorem Carries.bad {i : Instr} {status : Nat} {effect : State → State} (h : Carries s part seq i status effect) (hs : status ≠ 0) :
    exec i s = .next ((s.takeCmd part seq).complete part.toNat seq status 0) :=
  h.trans (congrArg Host.Outcome.next (State.carry_of_status effect hs))

theorem Carries.good {i : Instr} {status : Nat} {effect : State → State} (h : Carries s part seq i status effect) (hs : status = 0) :
    exec i s = .next (effect (s.takeCmd part seq)) :=
  h.trans (congrArg Host.Outcome.next (State.carry_of_good effect hs))

theorem cmdNop_carries (h : s.cmdOf part seq 0x00 = some c) :
    Carries s part seq (.cmdNop part seq) (if c.form 0 0 0 then 0 else 1) (fun t => t.complete part.toNat seq 0 0) := by
  show execCmdNop part seq s = _
  rw [execCmdNop, h]

/-- The job that a RUN_JOB record asks for. -/
def Cmd.job (c : Cmd) (part : BitVec 4) (seq : Word) : Job :=
  { part := part, seq := seq, model := BitVec.ofNat 32 c.w1.toNat, prog := bits c.w1.toNat 47 32, prio := bits c.w1.toNat 55 48,
    arg := bits c.w2.toNat 47 0, deadline := c.w3.toNat, ctx := BitVec.ofNat 18 c.ctx, irq := c.w0.getLsbD 8, st := .queued }

theorem runJob_carries (h : s.cmdOf part seq 0x01 = some c) :
    Carries s part seq (.runJob part seq) (s.runJobStatus part.toNat c) (fun t =>
      ((t.onSched (fun x => { x with jobs := x.jobs ++ [c.job part seq] })).requestLoad (BitVec.ofNat 32 c.w1.toNat) none part.toNat).servePools) := by
  show execRunJob part seq s = _
  rw [execRunJob, h]
  rfl

theorem open_carries (h : s.cmdOf part seq 0x02 = some c) :
    Carries s part seq (.open_ part seq) (s.openStatus part.toNat c) (fun t => t.allocCtx part seq (openCtx part c)) := by
  show execOpen part seq s = _
  rw [execOpen, h]

theorem fork_carries (h : s.cmdOf part seq 0x03 = some c) :
    Carries s part seq (.fork part seq) (s.forkStatus part.toNat c) (fun t => t.forkCtx part seq c) := by
  show execFork part seq s = _
  rw [execFork, h]

theorem leave_carries (h : s.cmdOf part seq 0x04 = some c) :
    Carries s part seq (.leave part seq) (if c.form 0 0 0 then s.ctxStatus part.toNat c.ctx else 1) (fun t =>
      (t.onCtxEntry c.ctx (fun x => { x with leave := true })).onCtx (fun x =>
        { x with waiters := x.waiters ++ [(BitVec.ofNat 18 c.ctx, part, seq, 4)] })) := by
  show execLeave part seq s = _
  rw [execLeave, h]

theorem block_carries (h : s.cmdOf part seq 0x05 = some c) :
    Carries s part seq (.block part seq) (s.blockStatus part.toNat c) (fun t =>
      (t.onCtxEntry c.ctx (fun x => { x with wantBlock := some c.w1.toNat })).onCtx (fun x =>
        { x with waiters := x.waiters ++ [(BitVec.ofNat 18 c.ctx, part, seq, 5)] })) := by
  show execBlock part seq s = _
  rw [execBlock, h]

theorem unblock_carries (h : s.cmdOf part seq 0x06 = some c) :
    Carries s part seq (.unblock part seq) (s.unblockStatus part.toNat c) (fun t =>
      (t.onCtxEntry c.ctx (fun x => { x with wantUnblock := true })).onCtx (fun x =>
        { x with waiters := x.waiters ++ [(BitVec.ofNat 18 c.ctx, part, seq, 6)] })) := by
  show execUnblock part seq s = _
  rw [execUnblock, h]

/-- What TEARDOWN tears down: the job that the record names, or its context. -/
def State.tearNamed (t : State) (part : BitVec 4) (c : Cmd) : State :=
  match t.jobOf part (BitVec.ofNat 32 c.w1.toNat) with
  | some j => if bits c.w1.toNat 31 0 = 0 then t.tearCtx c.ctx else t.tearJob j
  | none => t.tearCtx c.ctx

theorem State.tearNamed_ctx {t : State} (part : BitVec 4) {c : Cmd} (h : bits c.w1.toNat 31 0 = 0) : t.tearNamed part c = t.tearCtx c.ctx := by
  unfold State.tearNamed
  split
  · rw [if_pos h]
  · rfl

theorem State.tearNamed_job {t : State} {part : BitVec 4} {c : Cmd} {j : Job} (h : bits c.w1.toNat 31 0 ≠ 0)
    (hj : t.jobOf part (BitVec.ofNat 32 c.w1.toNat) = some j) : t.tearNamed part c = t.tearJob j := by
  rw [State.tearNamed, hj]
  exact if_neg h

theorem cmdTeardown_carries (h : s.cmdOf part seq 0x07 = some c) :
    Carries s part seq (.cmdTeardown part seq) (s.teardownStatus part c) (fun t => (t.tearNamed part c).complete part.toNat seq 0 0) := by
  show execCmdTeardown part seq s = _
  rw [execCmdTeardown, h]
  rfl

theorem modelLoad_carries (h : s.cmdOf part seq 0x08 = some c) :
    Carries s part seq (.modelLoad part seq) (s.modelLoadStatus part.toNat c) (fun t =>
      if t.resident (BitVec.ofNat 32 c.w1.toNat) then (t.useModel (BitVec.ofNat 32 c.w1.toNat)).complete part.toNat seq 0 0
      else t.requestLoad (BitVec.ofNat 32 c.w1.toNat) (some (part, seq)) part.toNat) := by
  show execModelLoad part seq s = _
  rw [execModelLoad, h]

theorem modelPin_carries (h : s.cmdOf part seq 0x09 = some c) :
    Carries s part seq (.modelPin part seq) (s.modelPinStatus part.toNat c) (fun t =>
      (t.onSched (fun x => { x with models := x.models.map (fun k =>
        if k.id = BitVec.ofNat 32 c.w1.toNat then { k with pinned := c.w1.getLsbD 32 } else k) })).complete part.toNat seq 0 0) := by
  show execModelPin part seq s = _
  rw [execModelPin, h]

theorem splitPair_carries (h : s.cmdOf part seq 0x0A = some c) :
    Carries s part seq (.splitPair part seq) (s.splitStatus part.toNat c) (fun t =>
      let u := t.onGroup (bits c.w1.toNat 4 0) (fun x => { x with cmd := some (part, seq) })
      if u.pairAtBoundary (bits c.w1.toNat 4 0) then u.finishSplit (bits c.w1.toNat 4 0) else u) := by
  show execSplitPair part seq s = _
  rw [execSplitPair, h]

theorem reformPair_carries (h : s.cmdOf part seq 0x0B = some c) :
    Carries s part seq (.reformPair part seq) (s.reformStatus part.toNat c) (fun t =>
      (t.onGroup (bits c.w1.toNat 4 0) (fun x => { x with cmd := some (part, seq), resync := some (1, 0, .waitTb) })).onCore
        ((t.groupPhys (bits c.w1.toNat 4 0)).getD 1 0)
        (fun k => { k with group := groupWord 1 (((t.groupEntry (bits c.w1.toNat 4 0)).map (·.gclk)).getD 0) 1 (t.groupPhys (bits c.w1.toNat 4 0)),
                           st := .resync })) := by
  show execReformPair part seq s = _
  rw [execReformPair, h]

theorem ctxQuery_carries (h : s.cmdOf part seq 0x0C = some c) :
    Carries s part seq (.ctxQuery part seq)
      (if !c.form 0 0 0 then 1 else if (s.ctxOf c.ctx).st != CtxState.free && (s.ctxOf c.ctx).part != part then 3 else 0)
      (fun t => t.complete part.toNat seq 0 ((s.ctxOf c.ctx).st.code + flagAt ((s.ctxOf c.ctx).marked || (s.ctxOf c.ctx).st == CtxState.blocked) 8)) := by
  show execCtxQuery part seq s = _
  rw [execCtxQuery, h]

end

/-- Settles O32: SUBMIT by its refusal, and each command by the status of its record. -/
theorem submitAcceptsOrRefuses : Obligations.SubmitAcceptsOrRefuses := by
  unfold Obligations.SubmitAcceptsOrRefuses
  refine ⟨fun s part slot hup => ?submit, fun s part seq c => ?status⟩
  case submit =>
    intro p w at_ c
    have hexec := execSubmit_of_up hup part slot
    refine ⟨fun hr hop => ?_, fun hr hop => ?_, fun hr => ?_⟩
    · obtain ⟨u, hwin, hsent, hu⟩ := State.submitRead_accepted hr
      have hv : s.submitValue p slot.val = BitVec.ofNat 64 (2 ^ 32 + w.subNext.toNat) := if_pos hr
      rw [if_neg (show ¬ 0x0C < bits (((s.window p).record slot.val).w0).toNat 7 0 from Nat.not_lt.2 hop)] at hu
      refine ⟨_, hexec, ?_⟩
      rw [show s.submitRead part.toNat slot.val = u from hu, show s.submitValue part.toNat slot.val = _ from hv]
      have hw : (u.emit (.regData at_ (BitVec.ofNat 64 (2 ^ 32 + w.subNext.toNat)))).window p = u.window p := rfl
      refine ⟨congrArg (· ++ _) hsent, ?_⟩
      rw [hw, hwin]
      refine ⟨rfl, rfl, rfl, ?_⟩
      show sget 0 (sset 0 w.subStat slot.val _) slot.val = _
      rw [sget_sset, if_pos rfl]
    · obtain ⟨u, hwin, -, hu⟩ := State.submitRead_accepted hr
      have hv : s.submitValue p slot.val = BitVec.ofNat 64 (2 ^ 32 + w.subNext.toNat) := if_pos hr
      rw [if_pos (show 0x0C < bits (((s.window p).record slot.val).w0).toNat 7 0 from hop)] at hu
      refine ⟨u, ?_, ?_⟩
      · rw [hexec, show s.submitRead part.toNat slot.val = _ from hu, show s.submitValue part.toNat slot.val = _ from hv]
      · rw [hwin]
        exact ⟨rfl, rfl, rfl⟩
    · obtain ⟨hwin, hsent⟩ := State.submitRead_refused hr
      have hv : s.submitValue p slot.val = BitVec.ofNat 64 (place (s.submitRefusal p slot.val) 40) := if_neg hr
      refine ⟨_, hexec, ?_⟩
      rw [show s.submitValue part.toNat slot.val = _ from hv]
      have hw : ((s.submitRead p slot.val).emit (.regData at_ (BitVec.ofNat 64 (place (s.submitRefusal p slot.val) 40)))).window p
          = (s.submitRead p slot.val).window p := rfl
      refine ⟨congrArg (· ++ _) hsent, ?_⟩
      rw [hw, hwin]
      exact ⟨rfl, rfl, rfl, rfl⟩
  case status =>
    intro p done
    refine ⟨?rows, fun hform => ⟨fun h => ?_, fun h => ?_, fun h => ?_⟩, fun hform hst h => ?_, fun hform hst hpart h => ?_⟩
    case rows =>
      simp only [List.forall_mem_cons]
      exact ⟨fun h hs => (runJob_carries h).bad hs, fun h hs => (open_carries h).bad hs, fun h hs => (fork_carries h).bad hs,
        fun h hs => (block_carries h).bad hs, fun h hs => (unblock_carries h).bad hs, fun h hs => (cmdTeardown_carries h).bad hs,
        fun h hs => (modelLoad_carries h).bad hs, fun h hs => (modelPin_carries h).bad hs, fun h hs => (splitPair_carries h).bad hs,
        fun h hs => (reformPair_carries h).bad hs, fun _ h => absurd h List.not_mem_nil⟩
    · have hc := cmdNop_carries h
      rw [hform, if_neg Bool.false_ne_true] at hc
      exact hc.bad Nat.one_ne_zero
    · have hc := leave_carries h
      rw [hform, if_neg Bool.false_ne_true] at hc
      exact hc.bad Nat.one_ne_zero
    · have hc := ctxQuery_carries h
      rw [hform, Bool.not_false, if_pos rfl] at hc
      exact hc.bad Nat.one_ne_zero
    · have hc := leave_carries h
      rw [hform, if_pos rfl] at hc
      exact hc.bad hst
    · have hc := ctxQuery_carries h
      rw [hform, Bool.not_true, if_neg Bool.false_ne_true, if_pos (by simp [hst, hpart])] at hc
      exact hc.bad (by decide)

/-- Settles O33: each command with a good record, by what it carries. -/
theorem commandsComplete : Obligations.CommandsComplete := by
  unfold Obligations.CommandsComplete
  intro s part seq c t p waits m job wait
  refine ⟨fun h hform => ?_, fun h hs => (runJob_carries h).good hs, fun h hs => (open_carries h).good hs, fun h hs => (fork_carries h).good hs,
    fun h hform hs => ?_, fun h hs => (block_carries h).good hs, fun h hs => (unblock_carries h).good hs,
    fun h hs => ⟨fun hb => ?_, fun j hb hj => ?_⟩, fun h hs => (modelLoad_carries h).good hs, fun h hs => (modelPin_carries h).good hs,
    fun h hs => (splitPair_carries h).good hs, fun h hs => (reformPair_carries h).good hs, fun h hform hs => ?_⟩
  · have hc := cmdNop_carries h
    rw [hform, if_pos rfl] at hc
    exact hc.good rfl
  · have hc := leave_carries h
    rw [hform, if_pos rfl] at hc
    exact hc.good hs
  · rw [(cmdTeardown_carries h).good hs, State.tearNamed_ctx part hb]
  · rw [(cmdTeardown_carries h).good hs, State.tearNamed_job hb hj]
  · have hc := ctxQuery_carries h
    have hno : ¬ ((s.ctxOf c.ctx).st != CtxState.free && (s.ctxOf c.ctx).part != part) = true := by
      rcases hs with hs | hs <;> simp [hs]
    rw [hform, Bool.not_true, if_neg Bool.false_ne_true, if_neg hno] at hc
    exact hc.good rfl

end Sys2Proof.Machine
end

section
/-! Context events and the reference counts of pages. -/

namespace Sys2Proof.Machine

/-! ## The context table under memory traffic -/

theorem State.readWord_ctx (s : State) (a : Nat) : (s.readWord a).1.ctx = s.ctx := by
  unfold State.readWord
  dsimp only
  split
  · rfl
  · rw [State.reportCe_ctx, State.onMem_ctx]
  · rw [State.reportUe_ctx]
  · rw [State.reportPoison_ctx]

theorem State.mergeReads_ctx (s : State) (a n : Nat) : (s.mergeReads a n).ctx = s.ctx := by
  unfold State.mergeReads
  split
  · rfl
  · exact foldl_ctx fun t w => State.readWord_ctx t (4 * w)

theorem State.poke_ctx (s : State) (a : Nat) (bs : Bytes) (poisoned : Bool) : (s.poke a bs poisoned).ctx = s.ctx := State.mergeReads_ctx ..

theorem foldl_readWord_ctx (l : List Nat) (x : State × Option Nat) :
    (l.foldl (fun (x : State × Option Nat) w =>
      ((x.1.readWord (4 * w)).1, if (x.1.readWord (4 * w)).2 && x.2.isNone then some (4 * w) else x.2)) x).1.ctx = x.1.ctx := by
  induction l generalizing x with
  | nil => rfl
  | cons w l ih => rw [List.foldl_cons, ih, State.readWord_ctx]

theorem State.readMem_ctx (s : State) (a n : Nat) : (s.readMem a n).1.ctx = s.ctx := by
  unfold State.readMem
  split
  · rfl
  · exact foldl_readWord_ctx _ _

/-! ## Pages -/

theorem pageNo_inj {c ch : BitVec 6} {i j : Nat} (hi : i < 2 ^ 25) (hj : j < 2 ^ 25) (h : pageNo c j = pageNo ch i) : (c, j) = (ch, i) := by
  unfold pageNo at h
  have hc : c.toNat = ch.toNat := by omega
  rw [BitVec.eq_of_toNat_eq hc, show j = i by omega]

section
variable {x : Contexts} {ch : BitVec 6} {i o n : Nat}

theorem sharePage_of_held (h : sfind x.pages (pageNo ch i) = some (o, n)) :
    sharePage x (.lake ch i) = { x with pages := sput x.pages (pageNo ch i) (o, n + 1) } := by
  rw [sharePage, h]

theorem dropPage_of_held (h : sfind x.pages (pageNo ch i) = some (o, n)) :
    dropPage x (.lake ch i) = { x with pages := if n ≤ 1 then sdel x.pages (pageNo ch i) else sput x.pages (pageNo ch i) (o, n - 1) } := by
  rw [dropPage, h]

end

/-- Giving up a page changes nothing of the contexts themselves. -/
theorem dropPage_table (x : Contexts) (p : Page) : (dropPage x p).table = x.table := by
  unfold dropPage
  split
  · split <;> rfl
  · rfl

/-! ## Swapping in -/

theorem State.ctxOf_onCtxEntry (s : State) (id : Nat) (f : Ctx → Ctx) : (s.onCtxEntry id f).ctxOf id = f (s.ctxOf id) := by
  show sget {} (sset {} s.ctx.table id _) id = _
  rw [sget_sset, if_pos rfl]
  rfl

theorem State.writeRows_ctx (s : State) (id : Nat) : (s.writeRows id).ctx = s.ctx := by
  refine foldl_ctx fun t b => ?_
  unfold State.writeRow
  dsimp only
  split
  · rfl
  · exact State.poke_ctx ..

/-- Pages copied and given up: the contexts stand as they did. -/
theorem foldl_copyPage_ctxOf (l : List (Page × Page)) (s : State) (id : Nat) :
    (l.foldl (fun t q => (t.copyPage q.1 q.2).onCtx (fun x => dropPage x q.1)) s).ctxOf id = s.ctxOf id := by
  induction l generalizing s with
  | nil => rfl
  | cons q l ih =>
    rw [List.foldl_cons, ih]
    show sget {} (dropPage (State.readMem s _ _).1.ctx q.1).table id = _
    rw [dropPage_table, State.readMem_ctx]
    rfl

theorem State.finishSwapIn_ctxOf (s : State) (id : Nat) :
    ((s.finishSwapIn id).ctxOf id).st = (if (s.ctxOf id).marked then .blocked else .resident)
    ∧ ((s.finishSwapIn id).ctxOf id).marked = false ∧ ((s.finishSwapIn id).ctxOf id).incoming = [] := by
  unfold State.finishSwapIn
  dsimp only
  rw [State.ctxOf, State.writeRows_ctx]
  change (State.ctxOf (State.onCtxEntry _ id _) id).st = _ ∧ (State.ctxOf (State.onCtxEntry _ id _) id).marked = _
    ∧ (State.ctxOf (State.onCtxEntry _ id _) id).incoming = _
  rw [State.ctxOf_onCtxEntry, foldl_copyPage_ctxOf]
  exact ⟨rfl, rfl, rfl⟩

/-- Settles O35: the boundary on the leader and elsewhere, the swaps, the decision and its timeout; pages by their counts. -/
theorem contextsAndPages : Obligations.ContextsAndPages := by
  unfold Obligations.ContextsAndPages
  refine ⟨fun s hup => ⟨?boundary, fun ctx h => ?swapOut, fun ctx h => ⟨s.finishSwapIn ctx.toNat, ?swapIn, s.finishSwapIn_ctxOf ctx.toNat⟩,
    ?decision, ?timeout⟩, fun x ch i o n hi h hn => ?pages⟩
  case boundary =>
    intro part model appends written reports hrun hres hwait hheld
    have hdue : s.boundaryDue part.toNat model = true := by
      have hany : s.ctx.heldSteps.any (fun h => h.1.toNat == part.toNat && h.2 == model) = false := by
        rw [List.any_eq_false]
        intro h hm hp
        rw [Bool.and_eq_true, beq_iff_eq, beq_iff_eq] at hp
        exact hheld h hm ⟨BitVec.eq_of_toNat_eq hp.1, hp.2⟩
      rw [State.boundaryDue, hup, hrun, hres, hwait, hany]
      rfl
    have hexec : ∀ t, execStepBoundary part model appends ⟨written, reports⟩ s = t →
        exec (.stepBoundary part model appends ⟨written, reports⟩) s = t := fun _ h => h
    refine ⟨fun hlead => ?_, fun hother hawait => ?_⟩
    · intro u free
      have hall : reports.all (fun r => decide (s.fab.nodeId.toNat < r.1.toNat)) = true := by simpa using hlead
      refine hexec _ ?_
      rw [execStepBoundary, if_pos hdue, if_pos hall, State.stepBoundary, BitVec.ofNat_toNat, BitVec.setWidth_eq]
    · have hall : ¬ reports.all (fun r => decide (s.fab.nodeId.toNat < r.1.toNat)) = true := by simpa using hother
      have hany : s.ctx.awaiting.any (fun h => h.1 == part && h.2.1 == model) = false := by simpa using hawait
      refine hexec _ ?_
      rw [execStepBoundary, if_pos hdue, if_neg hall, hany]
      rfl
  case swapOut =>
    show execSwapOutComplete ctx s = _
    rw [execSwapOutComplete, if_pos hup, h]
    rfl
  case swapIn =>
    show execSwapInComplete ctx s = _
    rw [execSwapInComplete, hup, h]
    rfl
  case decision =>
    intro model d hrun hwait late
    show execStepDecisionReceive model d s = _
    rw [execStepDecisionReceive, hup, hrun, hwait]
    rfl
  case timeout =>
    intro part model t hrun ht hlate
    show execStepDecisionTimeout part model s = _
    rw [execStepDecisionTimeout, hup, hrun, ht, Option.any_some, expired, decide_eq_true hlate]
    rfl
  case pages =>
    rw [sharePage_of_held h, dropPage_of_held h]
    refine ⟨?_, ?_, fun h1 => ?_, fun c j hj hne => ⟨?_, ?_⟩⟩
    · simp only [Contexts.count, sfind_sput_same]
      rfl
    · simp only [Contexts.count]
      split
      · rw [sfind_sdel_same]
        show 0 = n - 1
        omega
      · rw [sfind_sput_same]
        rfl
    · dsimp only
      rw [if_pos (by omega), sfind_sdel_same]
    all_goals have hno : pageNo c j ≠ pageNo ch i := fun he => hne (pageNo_inj hi hj he)
    · simp only [Contexts.count, sfind_sput_other _ _ hno]
    · simp only [Contexts.count]
      split
      · rw [sfind_sdel_other _ hno]
      · rw [sfind_sput_other _ _ hno]

end Sys2Proof.Machine
end

section
/-! Camera packets, Ethernet frames, payload decoders and batches. -/

namespace Sys2Proof.Machine

/-! ## Camera packets -/

theorem State.eccNote_ok (s : State) (door vc : Nat) : s.eccNote door vc .ok = s := rfl

theorem execCsi2FrameStart_of_streams {s : State} {door : BitVec 3} {vc : BitVec 4} (hup : s.up = true)
    (hn : s.cameraStreams door.toNat vc.toNat ≠ []) (ecc : EccResult) : exec (.csi2FrameStart door vc ecc) s = .next (
      if ecc = .bad then s.eccDrop door.toNat vc.toNat
      else ((s.cameraStreams door.toNat vc.toNat).foldl (fun t n => t.startCamera door.toNat vc.toNat n)
        (s.eccNote door.toNat vc.toNat ecc)).pruneSamples) := by
  show execCsi2FrameStart door vc ecc s = _
  rw [execCsi2FrameStart, if_pos hup]
  dsimp only
  rw [if_neg (by simpa using hn)]

theorem execCsi2FrameEnd_of_streams {s : State} {door : BitVec 3} {vc : BitVec 4} (hup : s.up = true)
    (hn : s.cameraStreams door.toNat vc.toNat ≠ []) (ecc : EccResult) : exec (.csi2FrameEnd door vc ecc) s = .next (
      if ecc = .bad then s.eccDrop door.toNat vc.toNat
      else ((s.cameraStreams door.toNat vc.toNat).foldl State.endCamera (s.eccNote door.toNat vc.toNat ecc)).pruneSamples) := by
  show execCsi2FrameEnd door vc ecc s = _
  rw [execCsi2FrameEnd, if_pos hup]
  dsimp only
  rw [if_neg (by simpa using hn)]

theorem execCsi2Line_of_stream {s : State} {door : BitVec 3} {vc : BitVec 4} {dt : BitVec 6} {n : Nat} (hup : s.up = true)
    (hn : s.cameraStream door.toNat vc.toNat dt.toNat = some n) (wc : Nat) (pixels : List (List Nat)) (crcOk comparable : Bool) (ecc : EccResult) :
    exec (.csi2Line door vc dt wc pixels crcOk comparable ecc) s = .next (
      if ecc = .bad then s.cameraViolation door.toNat vc.toNat n (some 1)
      else (s.eccNote door.toNat vc.toNat ecc).cameraLine door.toNat vc.toNat n dt.toNat wc pixels crcOk comparable) := by
  show execCsi2Line door vc dt wc pixels crcOk comparable ecc s = _
  rw [execCsi2Line, if_pos hup, hn]

section
variable {s : State} {door vc n dt wc : Nat} {x : Sample}

theorem State.startCamera_of_counted (h : s.openCamera n = none) (hc : s.captureCounts (s.cameraCapture n) = true) :
    s.startCamera door vc n = (s.onStream n (fun r => { r with dropLines := false })).openSample
      { stream := BitVec.ofNat 7 n, seq := 0, capture := s.cameraCapture n, openedAt := s.now, settled := true } := by
  unfold State.startCamera
  rw [h]
  dsimp only
  rw [if_pos hc]

theorem State.cameraLine_incomparable (hx : s.openCamera n = some x) (pixels : List (List Nat)) (crcOk : Bool) :
    s.cameraLine door vc n dt wc pixels crcOk false = s.cameraViolation door vc n (some 8) := by
  rw [State.cameraLine, hx]
  rfl

/-- A line of another length, or beyond the frame's lines, is a violation. -/
theorem State.cameraLine_misshapen (hx : s.openCamera n = some x)
    (h : 8 * wc ≠ s.streamField n 0x1C 2 * pixelBits dt ∨ s.streamHeight n ≤ x.lines) (pixels : List (List Nat)) (crcOk : Bool) :
    s.cameraLine door vc n dt wc pixels crcOk true = s.cameraViolation door vc n (some 2) := by
  rw [State.cameraLine, hx]
  dsimp only
  rw [Bool.not_true, if_neg Bool.false_ne_true]
  by_cases hwc : 8 * wc = s.streamField n 0x1C 2 * pixelBits dt
  · rw [if_neg (not_not.2 hwc), if_pos (h.resolve_left (not_not.2 hwc))]
  · rw [if_pos hwc]

/-- A line that passes every check is converted, released and counted. -/
theorem State.cameraLine_good (hx : s.openCamera n = some x) (hwc : 8 * wc = s.streamField n 0x1C 2 * pixelBits dt)
    (hlines : x.lines < s.streamHeight n) (hr : x.reason = 0) (pixels : List (List Nat)) :
    s.cameraLine door vc n dt wc pixels true true =
      (((s.streamCount n 14 (convertLine (s.streamProfile n) dt pixels).2).releaseLine x x.lines
        (fitBytes (s.streamField n 0x1C 2 * s.pixelBytes n) (convertLine (s.streamProfile n) dt pixels).1)).onSample n x.seq
          (fun y => { y with lines := y.lines + 1 })) := by
  rw [State.cameraLine, hx]
  dsimp only
  rw [Bool.not_true, if_neg Bool.false_ne_true, if_neg (not_not.2 hwc), if_neg (Nat.not_le.2 hlines), if_neg (not_not.2 hr), if_pos rfl]

end

/-! ## Ethernet frames -/

/-- A frame of an origin that is not beyond its allowance. -/
theorem execEthFrameReceive_admitted {s : State} {f : EthFrame} (hup : s.up = true)
    (h : (violOf (ethOrigin f) s.spring.viols).throttledSince = none ∨ (violOf (ethOrigin f) s.spring.viols).admitted < s.cfg 0x400003) :
    let t := s.onSpring (fun x => { x with viols := violRequest (ethOrigin f) true x.viols })
    exec (.ethFrameReceive f) s = .next (
      if !f.fcsOk || decide (f.bytes < 64) || decide (9022 < f.bytes) then t.springViolation (ethOrigin f) (8 + f.door.val) (s.ethStream f) 0
      else match s.ethStream f with
        | none => t.emit (.toNetwork f.door.val f.payload)
        | some k => if !f.ipOk || f.fragment || !f.udpOk then t.springViolation (ethOrigin f) (8 + f.door.val) (some k) 0
            else t.udpSegment k f) := by
  intro t
  show execEthFrameReceive f s = _
  rw [execEthFrameReceive, if_pos hup]
  dsimp only
  have hno : ¬ ((violOf (ethOrigin f) s.spring.viols).throttledSince.isSome &&
      decide (s.cfg 0x400003 ≤ (violOf (ethOrigin f) s.spring.viols).admitted)) = true := by
    rcases h with h | h
    · simp [h]
    · simp [h]
  exact congrArg Host.Outcome.next (if_neg hno)

/-- Settles O36: each packet and frame by the check that it meets first. -/
theorem sensorDataArrives : Obligations.SensorDataArrives := by
  unfold Obligations.SensorDataArrives
  refine ⟨fun s door vc hup => ?camera, fun s f hup => ?eth⟩
  case camera =>
    intro ns
    refine ⟨fun hn => ⟨execCsi2FrameStart_of_streams hup hn .ok, execCsi2FrameEnd_of_streams hup hn .ok⟩, fun hn ecc => ⟨?_, ?_⟩,
      fun hn => ⟨execCsi2FrameStart_of_streams hup hn .corrected, execCsi2FrameEnd_of_streams hup hn .corrected,
        execCsi2FrameStart_of_streams hup hn .bad, execCsi2FrameEnd_of_streams hup hn .bad⟩,
      fun dt wc pixels crcOk comparable ecc hn => ?_, fun dt wc pixels crcOk comparable n hn => ⟨?_, fun x hx => ⟨fun hc => ?_, fun hc h => ?_⟩⟩,
      fun n h hc => State.startCamera_of_counted h hc, fun dt wc pixels n x hn hx hwc hlines hr => ?_⟩
    · show execCsi2FrameStart door vc ecc s = _
      rw [execCsi2FrameStart, if_pos hup]
      dsimp only
      rw [show s.cameraStreams door.toNat vc.toNat = [] from hn]
      rfl
    · show execCsi2FrameEnd door vc ecc s = _
      rw [execCsi2FrameEnd, if_pos hup]
      dsimp only
      rw [show s.cameraStreams door.toNat vc.toNat = [] from hn]
      rfl
    · show execCsi2Line door vc dt wc pixels crcOk comparable ecc s = _
      rw [execCsi2Line, if_pos hup, hn]
    · exact execCsi2Line_of_stream hup hn wc pixels crcOk comparable .bad
    · rw [execCsi2Line_of_stream hup hn, if_neg (by decide), State.eccNote_ok, hc, State.cameraLine_incomparable hx]
    · rw [execCsi2Line_of_stream hup hn, if_neg (by decide), State.eccNote_ok, hc, State.cameraLine_misshapen hx h]
    · intro c
      rw [execCsi2Line_of_stream hup hn, if_neg (by decide), State.eccNote_ok, State.cameraLine_good hx hwc hlines hr]
  case eth =>
    intro v t
    refine ⟨fun h => ⟨fun hfcs hlo hhi => ?_, fun hbad => ?_⟩, fun hth hadm hn => ?_⟩
    · have hok : ¬ (!f.fcsOk || decide (f.bytes < 64) || decide (9022 < f.bytes)) = true := by
        simp [hfcs]; omega
      refine ⟨fun hn => ?_, fun n hn hip hfrag hudp => ?_⟩
      · rw [execEthFrameReceive_admitted hup h, if_neg hok, hn]
        rfl
      · rw [execEthFrameReceive_admitted hup h, if_neg hok, hn, hip, hfrag, hudp]
        rfl
    · rw [execEthFrameReceive_admitted hup h, if_pos]
      rcases hbad with h | h | h <;> simp [h]
    · show execEthFrameReceive f s = _
      rw [execEthFrameReceive, if_pos hup]
      dsimp only
      rw [show (violOf (ethOrigin f) s.spring.viols).throttledSince.isSome = true from hth, decide_eq_true hadm, hn]
      rfl

/-! ## Decoders and batches -/

theorem State.batchRt_onBatch (s : State) (b : Nat) (f : BatchRt → BatchRt) : (s.onBatch b f).batchRt b = f (s.batchRt b) := by
  show sget {} (sset {} s.spring.batches b _) b = _
  rw [sget_sset, if_pos rfl]
  rfl

/-- Settles O37: a decoder by its budget, a batch by its tick and its outcomes. -/
theorem decodersAndBatches : Obligations.DecodersAndBatches := by
  unfold Obligations.DecodersAndBatches
  refine ⟨fun s dec hup => ⟨fun y hidle hy => ?start, fun e y hd => ⟨fun hb ht => ?complete, fun hb ht => ?expiry⟩⟩,
    fun s b => ⟨fun hc => ?close, fun hup hclosed hsettled => ?write⟩⟩
  case start =>
    show execDecodeStart dec s = _
    rw [execDecodeStart, hup, hidle]
    dsimp only
    rw [hy]
    rfl
  case complete =>
    show execDecodeComplete dec s = _
    rw [execDecodeComplete, if_pos hup, hd]
    exact congrArg Host.Outcome.next (if_pos ⟨hb, ht⟩)
  case expiry =>
    show execDecodeBudgetExpiry dec s = _
    rw [execDecodeBudgetExpiry, if_pos hup, hd]
    exact congrArg Host.Outcome.next (if_pos ⟨hb, decide_eq_true ht⟩)
  case close =>
    have hexec : exec (.batchClose b) s = .next (((s.forgetSamples b.toNat).closeSlots b.toNat).1.onBatch b.toNat (fun x =>
        { x with closedAt := some s.now, lastClose := some s.now, frame := s.frameAt s.now % 2 ^ 32, epoch := 0
                 slots := ((s.forgetSamples b.toNat).closeSlots b.toNat).2 })) := by
      show execBatchClose b s = _
      rw [execBatchClose, if_pos hc]
    refine ⟨_, hexec, ?_⟩
    rw [State.batchRt_onBatch]
    exact ⟨rfl, rfl, rfl⟩
  case write =>
    show execBatchRecordWrite b s = _
    rw [execBatchRecordWrite, hup, hclosed, hsettled]
    rfl

end Sys2Proof.Machine
end

section
/-! The radio: links, slots, gain control, detections, grids and transmit lists. -/

namespace Sys2Proof.Machine

/-! ## Links, slots and the gain -/

theorem State.agcRuns_of_slot {s : State} {c : Nat} {x : SlotRt} (hup : s.up = true) (hx : s.curSlot c = some x)
    (hfrozen : x.frozen = false) (hsettled : x.settled = false) (hlost : x.lost = false) (hlead : s.leadsDoor c = true) :
    s.agcRuns c = true := by
  rw [State.agcRuns, hup, hlead, hx]
  simp [hfrozen, hsettled, hlost]

/-- Settles O38: a door's link by its state, the gain of a carrier whose measurement runs. -/
theorem radioLinksAndSlots : Obligations.RadioLinksAndSlots := by
  unfold Obligations.RadioLinksAndSlots
  refine ⟨fun s d hup => ⟨fun hl => ⟨?align, fun ha displaced => ?sysref⟩, fun hl => ⟨fun hf => ?displaced, ?periodic, fun crc12 => ?error, ?loss⟩⟩,
    fun s c hup => ⟨fun hdue k => ?boundary, fun x hx hfrozen hsettled hlost hlead => ⟨fun hs power => ?window, ?settle⟩, ?symbol⟩⟩
  case align =>
    show execJesdAlign d s = _
    rw [execJesdAlign, hup, hl]
    rfl
  case sysref =>
    show execSysrefEdge d displaced s = _
    rw [execSysrefEdge, if_pos hup, hl, ha]
    rfl
  case displaced =>
    show execSysrefEdge d true s = _
    rw [execSysrefEdge, if_pos hup, hl, hf]
    rfl
  case periodic =>
    show execSysrefEdge d false s = _
    rw [execSysrefEdge, if_pos hup, hl]
    rfl
  case error =>
    show execJesdLinkError d crc12 s = _
    rw [execJesdLinkError, hup, hl]
    rfl
  case loss =>
    intro elastic t
    show execJesdAlignmentLoss d elastic s = _
    rw [execJesdAlignmentLoss, hup, hl]
    rfl
  case boundary =>
    show execSlotBoundary c k s = _
    rw [execSlotBoundary, if_pos hdue]
  case window =>
    intro step e gi
    show execAgcWindowEnd c power s = _
    rw [execAgcWindowEnd, State.agcRuns_of_slot hup hx hfrozen hsettled hlost hlead, State.agcMeasure, hx, Option.map_some, hs]
    rfl
  case settle =>
    show execAgcSettleEnd c s = _
    rw [execAgcSettleEnd, if_pos (State.agcRuns_of_slot hup hx hfrozen hsettled hlost hlead)]
  case symbol =>
    show execAgcSymbolEnd c s = _
    rw [execAgcSymbolEnd, if_pos hup]
    rfl

/-! ## Detections, grids and lists -/

/-- Settles O39: each by the condition at which the radio takes it. -/
theorem detectionsAndGrids : Obligations.DetectionsAndGrids := by
  unfold Obligations.DetectionsAndGrids
  refine ⟨fun s c chip ant0 ant1 power x hup hx hlost htx => ?detection, fun s c symbol samples x hup hx hsym => ?grid,
    fun s d t hup hdue htx hstop => ?list⟩
  case detection =>
    intro sI sQ len pattern hmis hdead
    show execSyncDetection c chip ant0 ant1 power s = _
    rw [execSyncDetection, hx]
    dsimp only
    rw [hup, hlost, htx, decide_eq_true (show _ from hmis), decide_eq_true hdead]
    rfl
  case grid =>
    intro k taps pkt w y u
    show execGridSymbol c symbol samples s = _
    rw [execGridSymbol, hx]
    dsimp only
    rw [hup, hsym, Bool.true_and, if_pos (beq_self_eq_true _)]
    refine congrArg Host.Outcome.next (ite_congr (propext ?_) (fun _ => rfl) (fun _ => rfl))
    omega
  case list =>
    show execRfTxListStart d s = _
    rw [execRfTxListStart, hdue]
    dsimp only
    rw [hup, htx, hstop]
    rfl

end Sys2Proof.Machine
end

section
/-! Memory: accesses of the initiators, the Lake's upkeep, scrubbing, retirement and initialisation. -/

namespace Sys2Proof.Machine

/-! ## Which kind of access it is -/

theorem State.accessAt_of_isMemory {s : State} {x : Access} (h : s.isMemory x.addr = true) : s.accessAt x = s.memAccess x := by
  rw [State.accessAt, if_pos h]
  rw [State.isMemory] at h
  cases hp : s.placeOf x.addr <;> simp_all

theorem State.accessAt_of_reserved {s : State} {x : Access} (h : s.placeOf x.addr = .reserved) : s.accessAt x = s.accessFault x := by
  rw [State.accessAt, h]

theorem State.accessAt_of_register {s : State} {x : Access} (h : s.isMemory x.addr = false) (hres : s.placeOf x.addr ≠ .reserved)
    (hrem : ∀ node a, s.placeOf x.addr ≠ .remote node a) : s.accessAt x = s.registerAccess x := by
  rw [State.accessAt, if_neg (by rw [h]; exact Bool.false_ne_true)]
  split
  · next hp => exact absurd hp (hrem _ _)
  · next hp => exact absurd hp hres
  · rfl

/-- A decode error, R361: an engine with a context loses it, any other initiator has its bus fault. -/
theorem State.accessFault_cases (s : State) (x : Access) :
    ((∀ p src, x.by_ ≠ .engine p src) → s.accessFault x = s.busFault x.by_ x.addr)
    ∧ (∀ p src, x.by_ = .engine p src → x.ctx = none → s.accessFault x = s.busFault x.by_ x.addr)
    ∧ (∀ p src c, x.by_ = .engine p src → x.ctx = some c →
      s.accessFault x = (s.raiseCtx src.toNat 29 0 2 c.toNat (s.ctxOf c.toNat).part.toNat (granule x.addr)).tearCtx c.toNat) := by
  refine ⟨fun h => ?_, fun p src hby hc => ?_, fun p src c hby hc => ?_⟩
  · rw [State.accessFault]
    split
    · next hby _ => exact absurd hby (h _ _)
    · rfl
  · rw [State.accessFault, hby, hc]
  · rw [State.accessFault, hby, hc]

/-! ## The Reservoir's bytes -/

/-- Two states with the same bytes and check bits, and the same emissions. -/
structure SameBytes (s t : State) : Prop where
  data : t.mem.data = s.mem.data
  synd : t.mem.synd = s.mem.synd
  sent : t.sent = s.sent

namespace SameBytes

theorem refl (s : State) : SameBytes s s := ⟨rfl, rfl, rfl⟩

theorem trans {s t u : State} (h : SameBytes s t) (h' : SameBytes t u) : SameBytes s u :=
  ⟨h'.data.trans h.data, h'.synd.trans h.synd, h'.sent.trans h.sent⟩

theorem charge (s : State) (part a n : Nat) : SameBytes s (s.charge part a n) := by
  unfold State.charge
  split
  · exact ⟨rfl, rfl, rfl⟩
  · exact refl s

theorem touch (s : State) (a : Nat) (write : Bool) : SameBytes s (s.touch a write) := by
  unfold State.touch
  split
  · exact ⟨rfl, rfl, rfl⟩
  · split
    · exact ⟨rfl, rfl, rfl⟩
    · exact refl s
  · exact refl s

theorem foldl {α : Type} {f : State → α → State} (h : ∀ t x, SameBytes t (f t x)) (l : List α) (s : State) : SameBytes s (l.foldl f s) := by
  induction l generalizing s with
  | nil => exact refl s
  | cons x l ih => exact (h s x).trans (ih (f s x))

theorem louvre (s : State) (part a n : Nat) (write : Bool) : SameBytes s (s.louvre part a n write) := by
  unfold State.louvre
  refine foldl (fun t x => ?_) _ _
  exact (charge t _ _ _).trans (touch _ _ _)

end SameBytes

theorem State.store_of_reservoir (s : State) {a : Nat} (h : resBase ≤ a) (h' : a < resBase + 0x4000000) : s.store a = a := by
  unfold resBase at h h'
  unfold State.store pondBase
  rw [if_neg (by omega), if_neg (by omega)]

/-- The pieces of a range of the Reservoir stand at their own addresses. -/
theorem State.pieces_of_reservoir (s : State) {a n : Nat} (h : resBase ≤ a) (h' : a + n ≤ resBase + 0x4000000) (hn : 0 < n) :
    s.pieces a n = (List.range ((a + n - 1) / 0x4000 + 1 - a / 0x4000)).map (fun i =>
      (max a ((a / 0x4000 + i) * 0x4000), max a ((a / 0x4000 + i) * 0x4000) - a,
        min (a + n) ((a / 0x4000 + i + 1) * 0x4000) - max a ((a / 0x4000 + i) * 0x4000))) := by
  rw [State.pieces, if_neg (by omega)]
  refine List.map_congr_left fun i hi => ?_
  rw [List.mem_range] at hi
  dsimp only
  rw [s.store_of_reservoir (by omega) (by omega)]

/-- Bytes written piece by piece, without a bad word: each byte inside a piece is the written one, each other as before. -/
theorem Mem.byte_foldl_write {a : Nat} {bs : Bytes} (x : Nat) : ∀ {l : List (Nat × Nat × Nat)} {m : Mem}, m.synd = [] →
    (∀ p ∈ l, p.1 = a + p.2.1 ∧ p.2.1 + p.2.2 ≤ bs.length) →
    (l.foldl (fun t p => t.write p.1 (slice bs p.2.1 p.2.2) false) m).byte x =
      if ∃ p ∈ l, p.1 ≤ x ∧ x < p.1 + p.2.2 then bs.getD (x - a) 0 else m.byte x
  | [], m, _, _ => by simp
  | p :: l, m, hs, hl => by
    obtain ⟨hp, hlen⟩ := hl p (List.mem_cons_self ..)
    have hslice : (slice bs p.2.1 p.2.2).length = p.2.2 := by simp [slice]; omega
    have hw : m.write p.1 (slice bs p.2.1 p.2.2) false = m.setBytes p.1 (slice bs p.2.1 p.2.2) := by rw [Mem.write, hs]; rfl
    rw [List.foldl_cons, Mem.byte_foldl_write x (by rw [hw, Mem.synd_setBytes, hs]) fun q hq => hl q (List.mem_cons_of_mem _ hq)]
    by_cases hrest : ∃ q ∈ l, q.1 ≤ x ∧ x < q.1 + q.2.2
    · obtain ⟨q, hq, hx⟩ := hrest
      rw [if_pos ⟨q, hq, hx⟩, if_pos ⟨q, List.mem_cons_of_mem _ hq, hx⟩]
    · rw [if_neg hrest, hw]
      by_cases hin : p.1 ≤ x ∧ x < p.1 + p.2.2
      · obtain ⟨j, rfl⟩ := Nat.exists_eq_add_of_le hin.1
        have hj : j < (slice bs p.2.1 p.2.2).length := by omega
        rw [if_pos ⟨p, List.mem_cons_self .., hin⟩, Mem.byte_setBytes_inside _ _ hj]
        have hb : p.2.1 + j < bs.length := by omega
        simp [slice, hp, Nat.add_assoc, List.getElem?_eq_getElem hb]
      · rw [if_neg (by simpa [hin] using hrest), Mem.byte_setBytes_outside _ (by omega)]

theorem State.poke_of_synd_nil {s : State} (h : s.mem.synd = []) (a : Nat) (bs : Bytes) (poisoned : Bool) :
    s.poke a bs poisoned = s.onMem (fun m => (s.pieces a bs.length).foldl (fun t p => t.write p.1 (slice bs p.2.1 p.2.2) poisoned) m) := by
  have hm : s.mergeReads a bs.length = s := by rw [State.mergeReads, h]; rfl
  rw [State.poke, hm]

/-- Each byte of a range of the Reservoir lies in one of its pieces, and none outside it does. -/
theorem State.mem_pieces_of_reservoir {s : State} {a n x : Nat} (h : resBase ≤ a) (h' : a + n ≤ resBase + 0x4000000) (hn : 0 < n) :
    (∃ p ∈ s.pieces a n, p.1 ≤ x ∧ x < p.1 + p.2.2) ↔ a ≤ x ∧ x < a + n := by
  rw [s.pieces_of_reservoir h h' hn]
  simp only [List.mem_map, List.mem_range]
  constructor
  · rintro ⟨p, ⟨i, hi, rfl⟩, hp⟩
    dsimp only at hp
    omega
  · rintro ⟨hax, hxn⟩
    refine ⟨_, ⟨x / 0x4000 - a / 0x4000, by omega, rfl⟩, ?_⟩
    dsimp only
    omega

/-- A write to the Reservoir without a bad word: its bytes change, every other byte stays. -/
theorem State.byte_poke_reservoir {s : State} {a : Nat} {bs : Bytes} (hs : s.mem.synd = []) (h : resBase ≤ a)
    (h' : a + bs.length ≤ resBase + 0x4000000) (hn : 0 < bs.length) (x : Nat) :
    (s.poke a bs false).mem.byte x = if a ≤ x ∧ x < a + bs.length then bs.getD (x - a) 0 else s.mem.byte x := by
  have hp : ∀ p ∈ s.pieces a bs.length, p.1 = a + p.2.1 ∧ p.2.1 + p.2.2 ≤ bs.length := by
    rw [s.pieces_of_reservoir h h' hn]
    simp only [List.mem_map, List.mem_range]
    rintro p ⟨i, hi, rfl⟩
    dsimp only
    omega
  rw [State.poke_of_synd_nil hs]
  show (List.foldl _ s.mem _).byte x = _
  rw [Mem.byte_foldl_write x hs hp, if_congr (s.mem_pieces_of_reservoir h h' hn) rfl rfl]

theorem Mem.bytes_add (m : Mem) (a p q : Nat) : m.bytes a (p + q) = m.bytes a p ++ m.bytes (a + p) q := by
  simp only [Mem.bytes, List.range_add, List.map_append, List.map_map]
  refine congrArg (_ ++ ·) (List.map_congr_left fun i _ => ?_)
  exact congrArg m.byte (Nat.add_assoc a p i).symm

/-- The bytes of a range, unit by unit. -/
theorem Mem.bytes_units (m : Mem) (a n k : Nat) (hk : a / 0x4000 + k ≤ (a + n + 0x3FFF) / 0x4000) :
    ((List.range k).map (fun i => m.bytes (max a ((a / 0x4000 + i) * 0x4000))
      (min (a + n) ((a / 0x4000 + i + 1) * 0x4000) - max a ((a / 0x4000 + i) * 0x4000)))).flatten
      = m.bytes a (min (a + n) ((a / 0x4000 + k) * 0x4000) - a) := by
  induction k with
  | zero =>
    have : min (a + n) ((a / 0x4000 + 0) * 0x4000) - a = 0 := by omega
    rw [this, List.range_zero, List.map_nil, List.flatten_nil, Mem.bytes, List.range_zero, List.map_nil]
  | succ k ih =>
    rw [List.range_succ, List.map_append, List.flatten_append, ih (by omega)]
    simp only [List.map_cons, List.map_nil, List.flatten_cons, List.flatten_nil, List.append_nil]
    have e : min (a + n) ((a / 0x4000 + k + 1) * 0x4000) - a = (min (a + n) ((a / 0x4000 + k) * 0x4000) - a)
        + (min (a + n) ((a / 0x4000 + k + 1) * 0x4000) - max a ((a / 0x4000 + k) * 0x4000)) := by omega
    have e' : a + (min (a + n) ((a / 0x4000 + k) * 0x4000) - a) = max a ((a / 0x4000 + k) * 0x4000) := by omega
    rw [← Nat.add_assoc, e, Mem.bytes_add, e']

/-- A read of the Reservoir gives the stored bytes. -/
theorem State.peek_of_reservoir {s : State} {a n : Nat} (h : resBase ≤ a) (h' : a + n ≤ resBase + 0x4000000) (hn : 0 < n) :
    s.peek a n = s.mem.bytes a n := by
  have hraw : ((s.pieces a n).map (fun p => s.mem.bytes p.1 p.2.2)).flatten = s.mem.bytes a n := by
    rw [s.pieces_of_reservoir h h' hn, List.map_map]
    refine (Mem.bytes_units s.mem a n _ (by omega)).trans ?_
    congr 1
    omega
  rw [State.peek, hraw]
  exact if_neg fun hlow => by unfold resBase at h; omega

/-! ## Served accesses and refusals -/

theorem Mem.bytes_of_data {m m' : Mem} (h : m.data = m'.data) (a n : Nat) : m.bytes a n = m'.bytes a n := by
  unfold Mem.bytes Mem.byte
  rw [h]

theorem Mem.byte_of_data {m m' : Mem} (h : m.data = m'.data) (a : Nat) : m.byte a = m'.byte a := by
  unfold Mem.byte
  rw [h]

theorem State.replicaAddr_of_not_core {s : State} {by_ : Initiator} (h : ∀ n, by_ ≠ .core n) (a : Nat) : s.replicaAddr by_ a = a := by
  cases by_ with
  | core n => exact absurd rfl (h n)
  | _ => rfl

theorem State.portMakes_of_not_core {s : State} {by_ : Initiator} (h : ∀ n, by_ ≠ .core n) (a : Nat) : s.portMakes by_ a = true := by
  cases by_ with
  | core n => exact absurd rfl (h n)
  | _ => rfl

theorem State.portWrite_of_reservoir {s : State} {by_ : Initiator} (h : ∀ n, by_ ≠ .core n) {a : Nat}
    (ha : a < resBase + 0x4000000) (bs : Bytes) (poisoned : Bool) : s.portWrite by_ a bs poisoned = s.poke a bs poisoned := by
  have hrest : s.replicaRest by_ a = [] := by
    cases by_ with
    | core n => exact absurd rfl (h n)
    | _ => rfl
  rw [State.portWrite, hrest, State.replicaAddr_of_not_core h, List.foldl_nil, State.busWrite, if_neg]
  unfold resBase at ha
  unfold pondBase
  omega

theorem State.noteRoi_mem (s : State) (a len : Nat) : (s.noteRoi a len).mem = s.mem := by
  unfold State.noteRoi
  split
  · rfl
  · exact foldl_mem fun _ _ => rfl

/-- A served write to the Reservoir, byte by byte. -/
theorem State.byte_serveMemory_write {s : State} {x : Access} {bs : Bytes} (hby : ∀ n, x.by_ ≠ .core n) (h : resBase ≤ x.addr)
    (h' : x.addr + bs.length ≤ resBase + 0x4000000) (hn : 0 < bs.length) (hup : x.upset = 0) (hs : s.mem.synd = []) (hp : x.poisonIn = false)
    (hw : x.write = some bs) (a : Nat) :
    (s.serveMemory x).mem.byte a = if x.addr ≤ a ∧ a < x.addr + bs.length then bs.getD (a - x.addr) 0 else s.mem.byte a := by
  rw [State.serveMemory, hw]
  dsimp only
  rw [State.portMakes_of_not_core hby, if_pos rfl, State.noteRoi_mem, State.portWrite_of_reservoir hby (by omega), hp]
  have hl := SameBytes.louvre (s.onMem (fun m => m.upset (s.store (s.replicaAddr x.by_ x.addr) / 4) x.upset))
    (s.charged x.by_ (s.partOf x.by_) (s.shutter x.by_ (s.partOf x.by_) (s.replicaAddr x.by_ x.addr) x.len (some bs).isSome).2)
    (s.replicaAddr x.by_ x.addr) x.len (some bs).isSome
  have hu : ∀ w, s.mem.upset w x.upset = s.mem := fun w => if_pos hup
  rw [State.byte_poke_reservoir (hl.synd.trans ?_) h h' hn, Mem.byte_of_data (hl.data.trans (congrArg Mem.data (hu _)))]
  exact (congrArg Mem.synd (hu _)).trans hs

/-- A served read of the Reservoir answers with the stored bytes and moves none. -/
theorem State.serveMemory_read {s : State} {x : Access} (hby : ∀ n, x.by_ ≠ .core n) (h : resBase ≤ x.addr)
    (h' : x.addr + x.len ≤ resBase + 0x4000000) (hn : 0 < x.len) (hup : x.upset = 0) (hs : s.mem.synd = []) (hw : x.write = none) :
    (s.serveMemory x).sent = s.sent ++ [.readData x.by_ x.addr (s.mem.bytes x.addr x.len)]
    ∧ (s.serveMemory x).mem.data = s.mem.data := by
  rw [State.serveMemory, hw]
  dsimp only
  rw [State.replicaAddr_of_not_core hby]
  have hl := SameBytes.louvre (s.onMem (fun m => m.upset (s.store x.addr / 4) x.upset))
    (s.charged x.by_ (s.partOf x.by_) (s.shutter x.by_ (s.partOf x.by_) x.addr x.len (none : Option Bytes).isSome).2)
    x.addr x.len (none : Option Bytes).isSome
  generalize State.louvre _ _ _ _ _ = t at hl
  have hu : s.mem.upset (s.store x.addr / 4) x.upset = s.mem := if_pos hup
  have hdata : t.mem.data = s.mem.data := hl.data.trans (congrArg Mem.data hu)
  rw [State.readMem_of_synd_nil (hl.synd.trans ((congrArg Mem.synd hu).trans hs)), State.peek_of_reservoir h h' hn, Mem.bytes_of_data hdata]
  exact ⟨congrArg (· ++ _) hl.sent, hdata⟩

/-- Memory with a refusal counted, at the block and at the region that refuses. -/
def Mem.refusalCounted (m : Mem) (q : Option Nat) : Mem :=
  match q with
  | some r => { m with
      violCnt := m.violCnt + 1
      regions := supd {} m.regions r (fun g => { g with refused := min (2 ^ 32 - 1) (g.refused + 1) }) }
  | none => { m with violCnt := m.violCnt + 1 }

theorem Mem.refusalCounted_keeps (m : Mem) (q : Option Nat) :
    (m.refusalCounted q).violCnt = m.violCnt + 1 ∧ (m.refusalCounted q).data = m.data ∧ (m.refusalCounted q).synd = m.synd
    ∧ (m.refusalCounted q).violAddr = m.violAddr ∧ (m.refusalCounted q).violSrc = m.violSrc := by
  cases q <;> exact ⟨rfl, rfl, rfl, rfl, rfl⟩

theorem Mem.refused_refusalCounted (m : Mem) (r : Nat) :
    (sget {} (m.refusalCounted (some r)).regions r).refused = min (2 ^ 32 - 1) ((sget {} m.regions r).refused + 1) := by
  exact congrArg Region.refused ((sget_sset ..).trans (if_pos rfl))

/-- What a refusal leaves in memory: its counts, and its capture while none is held. -/
theorem State.refuse_mem {s : State} {by_ : Initiator} (hby : ∀ n, by_ ≠ .core n) (part a : Nat) (write : Bool) (q : Option Nat) :
    (s.refuse by_ part a write q).mem =
      if s.mem.violSrc.getLsbD 32 then s.mem.refusalCounted q
      else { s.mem.refusalCounted q with
        violAddr := BitVec.ofNat 64 a, violSrc := violSrcWord (s.sourceId (initiatorSource by_)) 0 q write } := by
  unfold State.refuse
  rw [State.raiseCtx_mem]
  cases by_ with
  | core n => exact absurd rfl (hby n)
  | _ => cases q <;> rfl

/-- Settles O41: an access by its place, a served one by the bytes of its range, a refused one by what it captures. -/
theorem memoryAccessesComplete : Obligations.MemoryAccessesComplete := by
  unfold Obligations.MemoryAccessesComplete
  refine ⟨fun s x hup => ?access, fun s x hby h h' hn hu hs hp => ⟨fun bs hw hlen => ?write, fun hw => ?read⟩, fun s by_ part a write q hby => ?refuse⟩
  case access =>
    intro y part d fails
    have hexec : ∀ t, s.accessAt y = t → exec (.memoryAccess x) s = .next t := fun t ht => by
      show execMemoryAccess x s = _
      rw [execMemoryAccess, if_pos hup]
      exact congrArg Host.Outcome.next ht
    refine ⟨fun hm hend => ⟨fun hd hwait => hexec _ ?_, fun hd hwait => hexec _ ?_, fun hd => hexec _ ?_⟩,
      fun hfault => ⟨s.accessFault y, hexec _ ?_, s.accessFault_cases y⟩,
      fun node a bs hp hw => hexec _ ?_, fun node a hp hw => hexec _ ?_, fun hm hres hrem => hexec _ (State.accessAt_of_register hm hres hrem)⟩
    · rw [State.accessAt_of_isMemory hm, State.memAccess, hend, show (s.shutter y.by_ (s.partOf y.by_) y.addr y.len y.write.isSome).1 = true from hd,
        hwait]
      rfl
    · rw [State.accessAt_of_isMemory hm, State.memAccess, hend, show (s.shutter y.by_ (s.partOf y.by_) y.addr y.len y.write.isSome).1 = true from hd,
        hwait]
      rfl
    · rw [State.accessAt_of_isMemory hm, State.memAccess, hend, show (s.shutter y.by_ (s.partOf y.by_) y.addr y.len y.write.isSome).1 = false from hd]
      rfl
    · rcases hfault with ⟨hm, hend⟩ | hres
      · rw [State.accessAt_of_isMemory hm, State.memAccess, hend]
        rfl
      · exact State.accessAt_of_reserved hres
    · rw [State.accessAt, hp, hw]
    · rw [State.accessAt, hp, hw]
  case write =>
    have hb := State.byte_serveMemory_write hby h (by omega) (by omega) hu hs hp hw
    refine ⟨?_, fun a ha => ?_⟩
    · refine List.ext_getElem (by simp [Mem.bytes, hlen]) fun i hi hi' => ?_
      simp only [Mem.bytes, List.getElem_map, List.getElem_range]
      rw [hb, if_pos (by omega), Nat.add_sub_cancel_left, List.getD_eq_getElem _ _ hi']
    · rw [hb, if_neg (by omega)]
  case read =>
    obtain ⟨hsent, hdata⟩ := State.serveMemory_read hby h h' hn hu hs hw
    exact ⟨hsent, fun a => Mem.byte_of_data hdata a⟩
  case refuse =>
    intro t
    have ht : t.mem = _ := State.refuse_mem hby part a write q
    obtain ⟨hcnt, hdata, hsynd, haddr, hsrc⟩ := s.mem.refusalCounted_keeps q
    have hregions : t.mem.regions = (s.mem.refusalCounted q).regions := by
      rw [ht]
      exact (apply_ite Mem.regions _ _ _).trans (ite_self _)
    have hrefused : ∀ r, q = some r → (t.region r).refused = min (2 ^ 32 - 1) ((s.region r).refused + 1) := by
      rintro r rfl
      rw [State.region, hregions]
      exact s.mem.refused_refusalCounted r
    cases hv : s.mem.violSrc.getLsbD 32 with
    | false =>
      rw [hv, if_neg Bool.false_ne_true] at ht
      rw [ht]
      exact ⟨hcnt, hdata, hsynd, fun _ => ⟨rfl, rfl⟩, nofun, hrefused⟩
    | true =>
      rw [hv, if_pos rfl] at ht
      rw [ht]
      exact ⟨hcnt, hdata, hsynd, nofun, fun _ => ⟨haddr, hsrc⟩, hrefused⟩

end Sys2Proof.Machine
end

section
/-! The upkeep of memory: the Lake's pages, refresh and training, scrubbing, retirement and initialisation. -/

namespace Sys2Proof.Machine

/-! ## The Lake's channels -/

theorem State.lake_onLake (s : State) (ch : Nat) (f : LakeCh → LakeCh) (k : Nat) :
    (s.onLake ch f).lake k = if k = ch then f (s.lake ch) else s.lake k :=
  sget_sset ..

theorem State.onLake_congr {s : State} {ch : Nat} {f g : LakeCh → LakeCh} (h : f (s.lake ch) = g (s.lake ch)) : s.onLake ch f = s.onLake ch g := by
  show s.onMem (fun m => { m with lake := sset {} m.lake ch (f (sget {} m.lake ch)) })
    = s.onMem (fun m => { m with lake := sset {} m.lake ch (g (sget {} m.lake ch)) })
  show ({ s with mem := { s.mem with lake := sset {} s.mem.lake ch (f (s.lake ch)) } } : State) = _
  rw [h]
  rfl

/-- Settles O42: a page, a refresh, an alert and a training by the channel's counts. -/
theorem lakeUpkeepCompletes : Obligations.LakeUpkeepCompletes := by
  unfold Obligations.LakeUpkeepCompletes
  intro s ch hup l
  have hrefresh : ∀ (bank : BitVec 4) queued, exec (.refreshDue ch bank queued) s = .next (s.onLake ch.toNat (fun l =>
      if !queued then { l with postponed := sdel l.postponed bank.toNat }
      else if sget 0 l.postponed bank.toNat < 8 then { l with postponed := sinc l.postponed bank.toNat }
      else { l with counters := sinc l.counters 4 })) := fun bank queued => by
    show execRefreshDue ch bank queued s = _
    rw [execRefreshDue, if_pos hup]
  refine ⟨fun bank => ?close, fun bank => ⟨hrefresh bank false, fun h => ?postpone, fun h => ?force⟩, fun hst ha => ?replay, fun hst ha => ?fail,
    fun ht hst => ⟨?trained, fun ha => ?retry, fun ha => ?failed⟩⟩
  case close =>
    show execPageIdleClose ch bank s = _
    rw [execPageIdleClose, if_pos hup]
  case postpone => exact (hrefresh bank true).trans (congrArg Host.Outcome.next (State.onLake_congr (if_pos h)))
  case force => exact (hrefresh bank true).trans (congrArg Host.Outcome.next (State.onLake_congr (if_neg (Nat.not_lt.2 h))))
  case replay =>
    show execLakeAlert ch s = _
    rw [execLakeAlert, hup, show decide ((s.lake ch.toNat).state < 2) = true from decide_eq_true hst, Bool.and_self, if_pos rfl, if_pos ha]
  case fail =>
    show execLakeAlert ch s = _
    rw [execLakeAlert, hup, show decide ((s.lake ch.toNat).state < 2) = true from decide_eq_true hst, Bool.and_self, if_pos rfl, if_neg (Nat.not_lt.2 ha)]
  case trained =>
    show execLakeTrainingComplete ch true s = _
    rw [execLakeTrainingComplete, hup, show (s.lake ch.toNat).trained = false from ht, show (s.lake ch.toNat).state = 0 from hst]
    rfl
  case retry =>
    show execLakeTrainingComplete ch false s = _
    rw [execLakeTrainingComplete, hup, show (s.lake ch.toNat).trained = false from ht, show (s.lake ch.toNat).state = 0 from hst]
    exact congrArg Host.Outcome.next (if_pos (Nat.succ_lt_succ ha))
  case failed =>
    show execLakeTrainingComplete ch false s = _
    rw [execLakeTrainingComplete, hup, show (s.lake ch.toNat).trained = false from ht, show (s.lake ch.toNat).state = 0 from hst]
    exact congrArg Host.Outcome.next (if_neg (Nat.not_lt.2 (Nat.succ_le_succ ha)))

/-! ## Retirement -/

/-- Two states with the same flash and the same remap tables. -/
structure RemapKept (s t : State) : Prop where
  flash : t.flash = s.flash
  remap : ∀ ch, (t.lake ch).remap = (s.lake ch).remap

namespace RemapKept
variable {s t u : State}

theorem refl (s : State) : RemapKept s s := ⟨rfl, fun _ => rfl⟩

theorem trans (h : RemapKept s t) (h' : RemapKept t u) : RemapKept s u :=
  ⟨h'.flash.trans h.flash, fun ch => (h'.remap ch).trans (h.remap ch)⟩

theorem of_lake (hf : t.flash = s.flash) (hl : t.mem.lake = s.mem.lake) : RemapKept s t :=
  ⟨hf, fun ch => by rw [State.lake, State.lake, hl]⟩

theorem ite {c : Prop} [Decidable c] (h : RemapKept s t) (h' : RemapKept s u) : RemapKept s (if c then t else u) := by
  split
  · exact h
  · exact h'

theorem onLake (s : State) (ch : Nat) {f : LakeCh → LakeCh} (hf : ∀ l, (f l).remap = l.remap) : RemapKept s (s.onLake ch f) := by
  refine ⟨rfl, fun k => ?_⟩
  rw [State.lake_onLake]
  split
  · next h => rw [hf, h]
  · rfl

theorem raise (s : State) (loc group code cls detail : Nat) : RemapKept s (s.raise loc group code cls detail) :=
  of_lake (by simp) (by simp)

theorem lakeReport (s : State) (ch code cls detail : Nat) : RemapKept s (s.lakeReport ch code cls detail) := raise ..

theorem lakeCount (s : State) (ch i : Nat) : RemapKept s (s.lakeCount ch i) := onLake s ch fun _ => rfl

theorem retireUnit (s : State) (ch unit : Nat) : RemapKept s (s.retireUnit ch unit) := by
  unfold State.retireUnit
  exact ite (refl s) (ite ((lakeCount ..).trans (lakeReport ..)) (ite (onLake s ch fun _ => rfl) (onLake s ch fun _ => rfl)))

theorem lakeCe (s : State) (ch unit granule : Nat) : RemapKept s (s.lakeCe ch unit granule) := by
  unfold State.lakeCe
  dsimp only
  have h : RemapKept s (((s.lakeCount ch 0).lakeReport ch 0 1 granule).onLake ch (fun l => { l with ceTable := ceCount l.ceTable unit })) :=
    ((lakeCount ..).trans (lakeReport ..)).trans (onLake _ ch fun _ => rfl)
  split
  · exact h.trans (retireUnit ..)
  · exact h

theorem reportCe (s : State) (a : Nat) : RemapKept s (s.reportCe a) := by
  refine ⟨by simp, ?_⟩
  unfold State.reportCe
  split
  · exact (lakeCe ..).remap
  · exact ((of_lake rfl rfl : RemapKept s (s.onMem _)).trans (raise ..)).remap
  · exact ((of_lake rfl rfl : RemapKept s (s.onMem _)).trans (raise ..)).remap
  · refine ((of_lake rfl rfl : RemapKept s (s.onMem fun m => { m with sramCe := m.sramCe + 1 })).trans (of_lake ?_ ?_)).remap <;> simp
  · exact fun _ => rfl

theorem reportUe (s : State) (a : Nat) : RemapKept s (s.reportUe a) := by
  refine ⟨by simp, ?_⟩
  unfold State.reportUe
  split
  · exact ((lakeCount ..).trans (lakeReport ..)).remap
  · exact ((of_lake rfl rfl : RemapKept s (s.onMem _)).trans (raise ..)).remap
  · exact ((of_lake rfl rfl : RemapKept s (s.onMem _)).trans (raise ..)).remap
  · exact fun _ => rfl
  · exact fun _ => rfl

theorem reportPoison (s : State) (a : Nat) : RemapKept s (s.reportPoison a) := by
  refine ⟨by simp, ?_⟩
  unfold State.reportPoison
  split
  · exact ((lakeCount ..).trans (lakeReport ..)).remap
  · exact ((of_lake rfl rfl : RemapKept s (s.onMem _)).trans (raise ..)).remap
  · exact fun _ => rfl

end RemapKept

theorem Mem.setBytes_lake (m : Mem) (a : Nat) (bs : Bytes) : (m.setBytes a bs).lake = m.lake := by
  induction bs generalizing m a with
  | nil => rfl
  | cons b bs ih => exact ih _ _

theorem Mem.fix_lake (m : Mem) (w : Nat) : (m.fix w).lake = m.lake := by
  unfold Mem.fix
  split
  · exact Mem.setBytes_lake ..
  · rfl

theorem Mem.copyRange_lake (m : Mem) (src dst len : Nat) : (m.copyRange src dst len).lake = m.lake := by
  show (List.foldl (fun t (e : Nat × BitVec 8) => t.fix e.1) m _).lake = m.lake
  generalize List.filter _ _ = l
  induction l generalizing m with
  | nil => rfl
  | cons e l ih => rw [List.foldl_cons, ih, Mem.fix_lake]

theorem RemapKept.readWord (s : State) (a : Nat) : RemapKept s (s.readWord a).1 := by
  unfold State.readWord
  dsimp only
  split
  · exact refl s
  · exact (of_lake rfl (Mem.fix_lake s.mem (s.store a / 4)) : RemapKept s (s.onMem (·.fix (s.store a / 4)))).trans (reportCe ..)
  · exact reportUe s a
  · exact reportPoison s a

theorem RemapKept.readMem (s : State) (a n : Nat) : RemapKept s (s.readMem a n).1 := by
  unfold State.readMem
  split
  · exact refl s
  · have h : ∀ (l : List Nat) (x : State × Option Nat), RemapKept x.1 (l.foldl (fun (x : State × Option Nat) w =>
        let y := x.1.readWord (4 * w)
        (y.1, if y.2 && x.2.isNone then some (4 * w) else x.2)) x).1 := by
      intro l
      induction l with
      | nil => exact fun x => refl x.1
      | cons w l ih => exact fun x => (readWord x.1 (4 * w)).trans (ih ((x.1.readWord (4 * w)).1, _))
    exact h _ (s, none)

/-! ## LPDDR training -/

theorem le_listMask_foldl (l : List Nat) (m : Nat) : m ≤ l.foldl (fun m i => if bit m i then m else m + 2 ^ i) m := by
  induction l generalizing m with
  | nil => exact Nat.le_refl m
  | cons i l ih =>
    refine Nat.le_trans ?_ (ih _)
    show m ≤ if bit m i then m else m + 2 ^ i
    split
    · exact Nat.le_refl m
    · exact Nat.le_add_right m _

/-- A mask of a list is 0 for the empty list alone. -/
theorem listMask_ne_zero {l : List Nat} (h : l ≠ []) : listMask l ≠ 0 := by
  cases l with
  | nil => exact absurd rfl h
  | cons i l =>
    have hi : (if bit 0 i then 0 else 0 + 2 ^ i) = 2 ^ i := by simp [bit]
    have h1 := le_listMask_foldl l (if bit 0 i then 0 else 0 + 2 ^ i)
    have h2 : 0 < 2 ^ i := Nat.two_pow_pos i
    rw [hi] at h1
    rw [listMask, List.foldl_cons, hi]
    omega

/-- The failures of the four LPDDR channels after a training. -/
def State.lpFailures (s : State) (f : BitVec 4) : List Nat :=
  (List.range 4).map (fun k => s.mem.lpAttempts.getD k 0 + (if f.getLsbD k then 1 else 0))

theorem State.lpFailures_get (s : State) (f : BitVec 4) {k : Nat} (hk : k < 4) :
    (s.lpFailures f).getD k 0 = s.mem.lpAttempts.getD k 0 + (if f.getLsbD k then 1 else 0) := by
  rw [State.lpFailures, List.getD_eq_getElem _ _ (by simpa using hk)]
  simp only [List.getElem_map, List.getElem_range]

/-- A training with failed channels, by whether one of them failed for the third time. -/
theorem State.execLpddrTraining_failed {s : State} (hup : s.up = true) {f : BitVec 4} (hf : f ≠ 0) (c : BitVec 2) :
    exec (.lpddrTrainingComplete f c) s = .next (
      let s1 := s.onMem (fun m => { m with lpAttempts := s.lpFailures f })
      let dead := listMask ((List.range 4).filter (fun k => 3 ≤ (s.lpFailures f).getD k 0))
      if dead = 0 then s1 else (s1.onBoot (fun b => { b with lpFail := BitVec.ofNat 4 dead })).toRecovery) := by
  show execLpddrTrainingComplete f c s = _
  rw [execLpddrTrainingComplete, if_pos hup, if_neg hf]
  rfl

/-- Settles O43: a scrubbed word by its syndrome, a training by its failures. -/
theorem memoryUpkeepCompletes : Obligations.MemoryUpkeepCompletes := by
  unfold Obligations.MemoryUpkeepCompletes
  refine ⟨fun s hup => ⟨fun tier addr u newer ht => ?scrub, fun a newer => ?word, fun ch u hc => ?retire⟩,
    fun s hup => ⟨?pond, ?reservoir, fun c => ?trained, fun f c hf h2 h3 => ?failed, fun f c hf => ?third, fun hmark => ⟨fun g hg => ?ahead, fun hg => ?mark⟩⟩⟩
  case scrub =>
    show execScrubRead tier addr u newer s = _
    rw [execScrubRead, hup, ht]
    rfl
  case word =>
    refine ⟨fun h => ?_, fun f h => ⟨?_, ?_⟩, fun h => ⟨?_, ?_⟩, fun h => ?_⟩ <;> rw [State.scrubWord, h]
    · rfl
    · rfl
    · rfl
    · rfl
  case retire =>
    intro r k
    have hexec : exec (.retirementCopyComplete ch) s = .next
        (((((r.onMem (fun m => m.copyRange (ch.toNat * 0x8000000 + u * 0x4000) (ch.toNat * 0x8000000 + s.reserveUnit k * 0x4000) 0x4000)).onLake ch.toNat
          (fun l => { l with
            remap := l.remap ++ [(u, k)], copying := l.waiting.head?, waiting := l.waiting.drop 1, counters := sinc l.counters 5 })).onFlash
          (fun f => { f with lkRetired := f.lkRetired ++ [(ch.toNat, u, k)] })).logEvent (0x40 + ch.toNat) 0 .retirement
          [u, k]).lakeReport ch.toNat 5 0 u).serveWaiting := by
      show execRetirementCopyComplete ch s = _
      rw [execRetirementCopyComplete, hc]
      exact congrArg Host.Outcome.next (if_pos hup)
    have hr : RemapKept s r := RemapKept.readMem ..
    have hlake : ∀ (t : State) e, t.mem.lake = r.mem.lake → ((((t.onLake ch.toNat (fun l => { l with
            remap := l.remap ++ [(u, k)], copying := l.waiting.head?, waiting := l.waiting.drop 1, counters := sinc l.counters 5 })).onFlash
          e).logEvent (0x40 + ch.toNat) 0 .retirement [u, k]).lakeReport ch.toNat 5 0 u).lake ch.toNat =
        { r.lake ch.toNat with
          remap := (r.lake ch.toNat).remap ++ [(u, k)], copying := (r.lake ch.toNat).waiting.head?
          waiting := (r.lake ch.toNat).waiting.drop 1, counters := sinc (r.lake ch.toNat).counters 5 } := by
      intro t e ht
      have hl : t.lake ch.toNat = r.lake ch.toNat := by rw [State.lake, State.lake, ht]
      rw [State.lake, State.lakeReport_mem, State.logEvent_mem]
      refine (State.lake_onLake t ch.toNat _ ch.toNat).trans ?_
      rw [if_pos rfl, hl]
    refine ⟨_, hexec, ?_, ?_, ?_⟩
    · rw [State.lakeReport_flash, State.logEvent_flash]
      exact congrArg (fun f : Flash => f.lkRetired ++ _) hr.flash
    · rw [hlake _ _ (Mem.copyRange_lake ..)]
      exact congrArg (· ++ _) (hr.remap ch.toNat)
    · rw [hlake _ _ (Mem.copyRange_lake ..)]
  case pond =>
    show execMemoryInitComplete false s = _
    rw [execMemoryInitComplete, if_pos hup]
    rfl
  case reservoir =>
    show execMemoryInitComplete true s = _
    rw [execMemoryInitComplete, if_pos hup]
    rfl
  case trained =>
    show execLpddrTrainingComplete 0 c s = _
    rw [execLpddrTrainingComplete, if_pos hup, if_pos rfl]
    rfl
  case failed =>
    have hno : (List.range 4).filter (fun k => 3 ≤ (s.lpFailures f).getD k 0) = [] := by
      refine List.filter_eq_nil_iff.2 fun k hk => ?_
      have hk : k < 4 := List.mem_range.1 hk
      rw [State.lpFailures_get _ _ hk, decide_eq_true_eq, Nat.not_le]
      split
      · next hb => exact Nat.succ_lt_succ (h2 k hk hb)
      · exact h3 k hk
    rw [State.execLpddrTraining_failed hup hf, hno]
    rfl
  case third =>
    rintro n ⟨k, hk, h3⟩
    rw [State.execLpddrTraining_failed hup hf]
    refine congrArg Host.Outcome.next (if_neg (listMask_ne_zero (List.ne_nil_of_mem (a := k) (List.mem_filter.2 ⟨List.mem_range.2 hk, ?_⟩))))
    exact decide_eq_true h3
  case ahead =>
    show execLpInitAdvance s = _
    rw [execLpInitAdvance, hup, decide_eq_true hmark, hg]
    rfl
  case mark =>
    show execLpInitAdvance s = _
    rw [execLpInitAdvance, hup, decide_eq_true hmark, hg]
    rfl

end Sys2Proof.Machine
end

section
/-! The fault collector and the safety island: reports, classes, clears and commands. -/

namespace Sys2Proof.Machine

/-! ## The commands -/

theorem expired_eq_true {now t : Nat} (h : t + 2 ≤ now) : expired now t = true := decide_eq_true h

/-- Settles O44: each command of the collector by its initiator, each of the island by its state. -/
theorem faultAndIslandCommands : Obligations.FaultAndIslandCommands := by
  unfold Obligations.FaultAndIslandCommands
  refine ⟨fun s haon => ⟨fun r hcls hgroup => ⟨fun hn => ?report, fun n hn hg hc => ?core⟩, ?timeout, fun t ht hnow => ?pulse,
      fun h slot seq => ⟨?clearApp, ?clearIsland⟩, fun by_ v hsrc hok => ?inject, fun by_ v k hsrc hok => ?refused, fun level => ?alt, ?overflow,
      fun by_ hisl happ => ⟨fun slot seq => ?clearOther, fun v => ?injectOther⟩, fun by_ hisl => ⟨fun level => ?altOther, ?overflowOther⟩,
      fun origin group code => ?release⟩,
    fun s haon => ⟨fun k hk => ?deviates, fun k j hj hne => ?second, fun k hk => ?again, ?reload, fun hup hlate => ?heartbeat, fun pair t hup hwd ht => ?watchdog⟩⟩
  case report =>
    show execFaultReport r s = _
    rw [execFaultReport, haon, reportLegal, decide_eq_true hcls, decide_eq_true hgroup, hn]
    rfl
  case core =>
    show execFaultReport r s = _
    rw [execFaultReport, haon, reportLegal, decide_eq_true hcls, decide_eq_true hgroup, hn, decide_eq_true hg, decide_eq_true hc]
    rfl
  case timeout =>
    show execAttributionTimeout s = _
    rw [execAttributionTimeout, if_pos haon]
  case pulse =>
    show execAltPulseEnd s = _
    rw [execAltPulseEnd, ht]
    exact congrArg Host.Outcome.next (if_pos (by rw [haon, decide_eq_true hnow, Bool.and_self]))
  case clearApp =>
    show execFcClear (.app h) slot seq s = _
    rw [execFcClear, if_pos haon]
  case clearIsland =>
    show execFcClear .island slot seq s = _
    rw [execFcClear, if_pos haon]
  case inject =>
    obtain ⟨k, hk⟩ := hsrc
    show execFcInject by_ v s = _
    rw [execFcInject, if_pos haon, hk]
    exact congrArg Host.Outcome.next (if_pos hok)
  case refused =>
    show execFcInject by_ v s = _
    rw [execFcInject, if_pos haon, hsrc]
    exact congrArg Host.Outcome.next (if_neg (by rw [hok]; exact Bool.false_ne_true))
  case alt =>
    show execFcAltSw .island level s = _
    rw [execFcAltSw, if_pos haon]
  case overflow =>
    show execOverflowClear .island s = _
    rw [execOverflowClear, if_pos haon]
  case clearOther =>
    cases by_ with
    | app h => exact absurd rfl (happ h)
    | island => exact absurd rfl hisl
    | _ => exact congrArg Host.Outcome.next (if_pos haon)
  case injectOther =>
    cases by_ with
    | app h => exact absurd rfl (happ h)
    | island => exact absurd rfl hisl
    | _ => exact congrArg Host.Outcome.next (if_pos haon)
  case altOther =>
    cases by_ with
    | island => exact absurd rfl hisl
    | _ => exact congrArg Host.Outcome.next (if_pos haon)
  case overflowOther =>
    cases by_ with
    | island => exact absurd rfl hisl
    | _ => exact congrArg Host.Outcome.next (if_pos haon)
  case release =>
    show execErrorPinRelease origin group code s = _
    rw [execErrorPinRelease, if_pos haon]
  case deviates =>
    show execIslandTmrDeviate k s = _
    rw [execIslandTmrDeviate, if_pos haon, hk]
  case second =>
    show execIslandTmrDeviate k s = _
    rw [execIslandTmrDeviate, if_pos haon, hj]
    exact congrArg Host.Outcome.next (if_neg hne)
  case again =>
    show execIslandTmrDeviate k s = _
    rw [execIslandTmrDeviate, if_pos haon, hk]
    exact congrArg Host.Outcome.next (if_pos rfl)
  case reload =>
    show execIslandReloadComplete s = _
    rw [execIslandReloadComplete, if_pos haon]
  case heartbeat =>
    intro t
    show execHeartbeatTimeout s = _
    rw [execHeartbeatTimeout, hup, hlate, Bool.and_self, if_pos rfl, State.heartbeatMiss]
    refine congrArg Host.Outcome.next (ite_congr (propext ?_) (fun _ => rfl) (fun _ => rfl))
    exact Nat.succ_le_succ_iff
  case watchdog =>
    show execWatchdogExpiry pair s = _
    rw [execWatchdogExpiry, hwd]
    dsimp only
    rw [hup, expired_eq_true ht]
    rfl

/-! ## A primary -/

theorem Collector.ring_keeps (c : Collector) (r : FaultRec) :
    (c.ring r).slots = c.slots ∧ (c.ring r).waiting = c.waiting ∧ (c.ring r).status = c.status
    ∧ (c.ring r).firstTime = c.firstTime ∧ (c.ring r).firstId = c.firstId ∧ (c.ring r).clearRes = c.clearRes := by
  unfold Collector.ring
  exact ⟨rfl, rfl, rfl, rfl, rfl, rfl⟩

theorem Collector.pulse_keeps (c : Collector) (r : FaultRec) :
    (c.pulse r).slots = c.slots ∧ (c.pulse r).log = c.log ∧ (c.pulse r).waiting = c.waiting ∧ (c.pulse r).status = c.status
    ∧ (c.pulse r).firstTime = c.firstTime ∧ (c.pulse r).firstId = c.firstId := by
  unfold Collector.pulse
  split <;> exact ⟨rfl, rfl, rfl, rfl, rfl, rfl⟩

theorem Collector.capture_effect (c : Collector) (i : Nat) (r : FaultRec) :
    (c.capture (some i) r).slots = c.slots ∧ (c.capture (some i) r).log = c.log ∧ (c.capture (some i) r).waiting = c.waiting
    ∧ (c.capture (some i) r).status = c.status
    ∧ ((c.status = 0 ∨ c.firstId = 0) → (c.capture (some i) r).firstTime = r.time ∧ (c.capture (some i) r).firstId = firstIdWord i r)
    ∧ (c.status ≠ 0 → c.firstId ≠ 0 → (c.capture (some i) r).firstTime = c.firstTime ∧ (c.capture (some i) r).firstId = c.firstId) := by
  unfold Collector.capture
  split
  · next h => exact ⟨rfl, rfl, rfl, rfl, fun _ => ⟨rfl, rfl⟩, fun h1 h2 => absurd h (not_or.2 ⟨h1, h2⟩)⟩
  · next h => exact ⟨rfl, rfl, rfl, rfl, fun h1 => absurd h1 h, fun _ _ => ⟨rfl, rfl⟩⟩

/-- The collector after a primary: its record stands in the log, in its slot, in the Latch and, when it is the first, in the capture. -/
theorem Collector.takePrimary_effect (c : Collector) (i : Nat) (p : FaultRec) :
    let d := c.takePrimary (some i) p
    d.slots = sput c.slots i p ∧ d.log = (c.ring p).log ∧ d.waiting = c.waiting ∧ d.status = c.status ||| (1#36 <<< p.group.toNat)
    ∧ ((c.status = 0 ∨ c.firstId = 0) → d.firstTime = p.time ∧ d.firstId = firstIdWord i p)
    ∧ (c.status ≠ 0 → c.firstId ≠ 0 → d.firstTime = c.firstTime ∧ d.firstId = c.firstId) := by
  obtain ⟨rs, rw_, rst, rt, ri, -⟩ := c.ring_keeps p
  unfold Collector.takePrimary
  generalize c.ring p = cr at *
  obtain ⟨hs, hl, hw, hst, hfirst, hlater⟩ := Collector.capture_effect (cr.store (some i) p) i p
  obtain ⟨ps, pl, pw, pst, pt, pi⟩ := Collector.pulse_keeps { ((cr.store (some i) p).capture (some i) p) with
    status := ((cr.store (some i) p).capture (some i) p).status ||| (1#36 <<< p.group.toNat) } p
  have hstatus : (cr.store (some i) p).status = c.status := rst
  have hid : (cr.store (some i) p).firstId = c.firstId := ri
  rw [hstatus, hid] at hfirst hlater
  refine ⟨ps.trans (hs.trans (congrArg (sput · i p) rs)), pl.trans hl, pw.trans (hw.trans rw_),
    pst.trans (congrArg (· ||| _) (hst.trans hstatus)), fun h => ?_, fun h1 h2 => ?_⟩
  · exact ⟨pt.trans (hfirst h).1, pi.trans (hfirst h).2⟩
  · exact ⟨pt.trans ((hlater h1 h2).1.trans rt), pi.trans (hlater h1 h2).2⟩

/-- Settling leaves the first capture and the Latch bit of a held group. -/
theorem Collector.settle_of_held {c : Collector} {i : Nat} {p : FaultRec} (hp : sfind c.slots i = some p) (hg : p.group.toNat < 36)
    (hb : c.status.getLsbD p.group.toNat = true) :
    c.settle.status.getLsbD p.group.toNat = true ∧ c.settle.firstTime = c.firstTime ∧ c.settle.firstId = c.firstId := by
  have hst : (if c.overflow then c.status else c.status &&& c.heldGroups).getLsbD p.group.toNat = true := by
    split
    · exact hb
    · rw [BitVec.getLsbD_and, hb, Collector.heldGroups_bit (sfind_mem hp) hg]
      rfl
  have hne : (if c.overflow then c.status else c.status &&& c.heldGroups) ≠ 0 := fun e => by
    rw [e] at hst
    simp at hst
  have : c.settle = { c with status := if c.overflow then c.status else c.status &&& c.heldGroups } := if_neg hne
  rw [this]
  exact ⟨hst, rfl, rfl⟩

theorem Collector.settle_keeps (c : Collector) : c.settle.slots = c.slots ∧ c.settle.log = c.log ∧ c.settle.clearRes = c.clearRes := by
  unfold Collector.settle
  dsimp only
  generalize (if c.overflow then c.status else c.status &&& c.heldGroups) = st
  split <;> exact ⟨rfl, rfl, rfl⟩

theorem Collector.getLast_ring (c : Collector) (r : FaultRec) : (c.ring r).log.getLast? = some r := by
  rw [Collector.ring, List.getLast?_drop, if_neg (by simp), List.getLast?_append]
  rfl

theorem State.foldWaiting_of_waiting_nil {s : State} (h : s.fc.waiting = []) (f slot : Nat) (u : BitVec 12) : s.foldWaiting f slot u = s := by
  cases f with
  | zero => rfl
  | succ f =>
    rw [State.foldWaiting]
    split
    · rfl
    · rw [h]
      show s.onFc (fun c => { c with waiting := c.waiting.filter _ }) = s
      show ({ s with fc := { s.fc with waiting := s.fc.waiting.filter _ } } : State) = s
      rw [h, List.filter_nil, ← h]

/-- A report without blame and without waiting reports, of a class that the device does not react to. -/
theorem State.reportWith_of_unblamed {s : State} {r : ReportIn} (active : Bool) {i : Nat} (hblame : r.blame = none)
    (hslot : s.fc.freeSlot = some i) (hwait : s.fc.waiting = []) (hcls : r.cls.toNat ≤ 2) :
    s.reportWith r active =
      ((s.onFc (fun c => c.takePrimary (some i) (s.primaryOf s.now s.now r false active))).takeSeq srcFc).onFc Collector.settle := by
  have hreact : ∀ t : State, t.react r.cls.toNat = t := fun t => by
    rw [State.react, if_neg (by omega), if_neg (by omega)]
  rw [State.reportWith, hblame, hreact, State.makePrimary, hslot]
  refine congrArg (fun t : State => t.onFc Collector.settle) (State.foldWaiting_of_waiting_nil ?_ _ _ _)
  exact (Collector.takePrimary_effect s.fc i _).2.2.1.trans hwait

/-! ## The device's reaction -/

theorem State.setDevState_state (s : State) (d : DevState) : (s.setDevState d).dict.state = d := by
  unfold State.setDevState
  split
  · next h => exact h
  · rfl

theorem State.enterSafe_state (s : State) : s.enterSafe.dict.state = .safe := by
  unfold State.enterSafe
  split
  · next h => exact h
  · exact State.setDevState_state s .safe

/-- A core as SAFE finds it, R403: work in hand is preempted. -/
def Core.preempted (now : Nat) (c : Core) : Core :=
  if (c.st == .running || c.st == .waiting || c.st == .draining) && c.preemptAt.isNone
  then { c with preemptAt := some now, st := if c.st == .running then .draining else c.st } else c

theorem State.enterSafe_effect {s : State} (h : s.dict.state ≠ .safe) :
    s.enterSafe.sched.stopped = true ∧ s.enterSafe.spring.stopped = true
    ∧ s.enterSafe.radio.doors = s.radio.doors.map (fun d => { d with txStopped := true })
    ∧ s.enterSafe.cores = s.cores.map (Core.preempted s.now) := by
  unfold State.enterSafe
  rw [if_neg h]
  exact ⟨rfl, rfl, rfl, rfl⟩

theorem Core.preempted_of_busy {c : Core} (now : Nat) (hb : c.busy = true) :
    (c.preempted now).preemptAt.isSome = true ∧ (c.preemptAt = none → (c.preempted now).st ≠ .running) := by
  unfold Core.preempted
  cases hp : c.preemptAt with
  | none =>
    rw [if_pos (by rw [show (c.st == .running || c.st == .waiting || c.st == .draining) = true from hb]; rfl)]
    refine ⟨rfl, fun _ => ?_⟩
    cases hs : c.st <;> simp
  | some t =>
    rw [if_neg (by simp), hp]
    exact ⟨rfl, nofun⟩

/-! ## Clearing -/

theorem State.clearRecord_of_result_ne {s : State} {origin who slot seq : Nat} (h : s.clearResult origin slot seq ≠ 0) :
    s.clearRecord origin who slot seq =
      s.onFc (fun c => { c with clearRes := sset 0 c.clearRes (clearKey origin who) (s.clearResult origin slot seq) }) := by
  unfold State.clearRecord
  dsimp only
  split
  · rfl
  · exact if_neg h

theorem State.clearRecord_of_result_zero {s : State} {origin who slot seq : Nat} (h : s.clearResult origin slot seq = 0) :
    sfind (s.clearRecord origin who slot seq).fc.slots slot = none
    ∧ sget 0 (s.clearRecord origin who slot seq).fc.clearRes (clearKey origin who) = 0 := by
  unfold State.clearRecord
  dsimp only
  split
  · next hn => rw [State.clearResult, hn] at h; exact absurd h Nat.one_ne_zero
  · rw [if_pos h, h]
    refine ⟨(congrArg (sfind · slot) ((Collector.settle_keeps _).1.trans (Collector.ring_keeps ..).1)).trans (sfind_sdel_same ..),
      (congrArg (sget 0 · (clearKey origin who)) ((Collector.settle_keeps _).2.2.trans (Collector.ring_keeps ..).2.2.2.2.2)).trans ?_⟩
    show sget 0 (sset 0 s.fc.clearRes (clearKey origin who) 0) (clearKey origin who) = 0
    rw [sget_sset, if_pos rfl]

/-- Settles O45: a primary by what it takes in the collector, a class by its reaction, a clear by its result. -/
theorem faultsAreCollectedAndCleared : Obligations.FaultsAreCollectedAndCleared := by
  unfold Obligations.FaultsAreCollectedAndCleared
  refine ⟨fun s r active i hblame hgroup hslot hwait hcls => ?primary, fun s => ⟨fun hrun => ?degraded, fun c hc => ?none, s.enterSafe_state, ?low, fun hne => ?safe⟩,
    fun s origin who slot seq => ⟨fun hn => ?norecord, fun r hr => ⟨fun h => ?other, fun h hm => ?may, fun h hm ht => ?early, fun h hm ht => ?active⟩,
      fun h => (State.clearRecord_of_result_zero h).1, fun h => ?kept, ?result⟩⟩
  case primary =>
    intro t p
    have ht : t = _ := State.reportWith_of_unblamed active hblame hslot hwait hcls
    obtain ⟨hs, hl, -, hst, hfirst, hlater⟩ := Collector.takePrimary_effect s.fc i p
    have hp : sfind (s.fc.takePrimary (some i) p).slots i = some p := by rw [hs, sfind_sput_same]
    have hbit : (s.fc.takePrimary (some i) p).status.getLsbD p.group.toNat = true := by
      rw [hst, BitVec.getLsbD_or, getLsbD_bit36 (show p.group.toNat < 36 from hgroup), Bool.or_true]
    obtain ⟨hst', ht', hid'⟩ := Collector.settle_of_held hp hgroup hbit
    obtain ⟨hslots, hlog, -⟩ := Collector.settle_keeps (s.fc.takePrimary (some i) p)
    have hfc : t.fc = (s.fc.takePrimary (some i) p).settle := by rw [ht]; rfl
    rw [hfc, hslots, hlog, ht', hid', hl]
    refine ⟨hp, Collector.getLast_ring _ _, hst', rfl, rfl, rfl, rfl, rfl, rfl, rfl, hfirst, hlater, fun j hj => ?_, by rw [ht]; rfl, by rw [ht]; rfl⟩
    rw [hs, sfind_sput_other _ _ hj]
  case degraded =>
    rw [State.react, if_pos rfl, if_pos hrun]
    exact State.setDevState_state s .degraded
  case none => rw [State.react, if_neg (by omega), if_neg (by omega)]
  case low =>
    rw [State.faultNLow, show (s.react 4).dict.state = .safe from s.enterSafe_state]
    simp
  case safe =>
    obtain ⟨hsched, hspring, hdoors, hcores⟩ := State.enterSafe_effect hne
    refine ⟨hsched, hspring, fun d hd => ?_, fun n hn hb => ?_⟩
    · rw [show (s.react 4).radio.doors = _ from hdoors] at hd
      obtain ⟨x, -, rfl⟩ := List.mem_map.1 hd
      rfl
    · have hcore : (s.react 4).core n = (s.core n).preempted s.now := by
        show s.enterSafe.cores.getD n {} = (s.cores.getD n {}).preempted s.now
        rw [hcores, List.getD_eq_getElem _ _ (by simpa using hn), List.getD_eq_getElem _ _ hn, List.getElem_map]
      rw [hcore]
      exact Core.preempted_of_busy s.now hb
  case norecord => rw [State.clearResult, hn]
  case other =>
    rw [State.clearResult, hr]
    exact if_pos h
  case may =>
    rw [State.clearResult, hr]
    dsimp only
    rw [if_neg (not_not.2 h), hm]
    rfl
  case early =>
    rw [State.clearResult, hr]
    dsimp only
    rw [if_neg (not_not.2 h), hm, if_pos ht]
    rfl
  case active =>
    rw [State.clearResult, hr]
    dsimp only
    rw [if_neg (not_not.2 h), hm, if_neg (Nat.not_lt.2 ht)]
    rfl
  case kept =>
    rw [State.clearRecord_of_result_ne h]
    rfl
  case result =>
    by_cases h : s.clearResult origin slot seq = 0
    · rw [h]
      exact (State.clearRecord_of_result_zero h).2
    · rw [State.clearRecord_of_result_ne h]
      exact (sget_sset ..).trans (if_pos rfl)

end Sys2Proof.Machine
end

section
/-! Monitors, waking, the timebase and the balls that follow device time. -/

namespace Sys2Proof.Machine

/-! ## Monitors and waking -/

/-- A clock alarm of an island unit, R19 and R399: its report, and the mark of the timebase's own. -/
theorem execClockMonitorAlarm_island {s : State} (haon : s.aonUp = true) {src : BitVec 9} (hg : unitInGroup 10 src.toNat = true) (h64 : 64 ≤ src.toNat) :
    exec (.clockMonitorAlarm (.island src)) s = .next (
      let s1 := s.raise src.toNat 10 0 (clockClass src.toNat) src.toNat
      if src = srcTb then (s1.onTb (fun t => { t with monErr := true })).raise srcTb 24 0 4 0 else s1) := by
  show execClockMonitorAlarm (.island src) s = _
  rw [execClockMonitorAlarm, if_pos haon]
  dsimp only
  rw [hg, decide_eq_true h64, Bool.and_self, if_pos rfl]

theorem execVoltageMonitorAlarm_watched {s : State} (haon : s.aonUp = true) {rail : Fin 9} (h : s.up = true ∨ rail = 2 ∨ rail = 8) (out : Bool) :
    exec (.voltageMonitorAlarm rail out) s = .next (
      (s.onPwr (fun p => if out then { p with out := sinc p.out rail.val } else { p with warn := sinc p.warn rail.val })).raise
        srcFc 30 (if out then 1 else 0) (if out then 4 else 0) rail.val) := by
  have hc : (s.aonUp && (s.up || rail == 2 || rail == 8)) = true := by
    rw [haon]
    rcases h with h | h | h <;> simp [h]
  exact congrArg Host.Outcome.next (if_pos hc)

/-- Settles O46: an alarm by its unit, a wake by the standby it meets. -/
theorem monitorsAndWaking : Obligations.MonitorsAndWaking := by
  unfold Obligations.MonitorsAndWaking
  refine ⟨fun s haon => ⟨fun n => ?core, fun g => ?gen, fun src hg h64 hne => ?island, ?timebase, fun rail h =>
      ⟨execVoltageMonitorAlarm_watched haon h false, execVoltageMonitorAlarm_watched haon h true⟩⟩,
    fun s island haon => ⟨fun hst hreq => ?wake, fun hst hreq => ?held, fun hst hreq => ?idle⟩⟩
  case core =>
    show execClockMonitorAlarm (.core n) s = _
    rw [execClockMonitorAlarm, if_pos haon]
  case gen =>
    intro t
    show execClockMonitorAlarm (.gen g) s = _
    rw [execClockMonitorAlarm, if_pos haon]
    rfl
  case island =>
    have hsrc : src ≠ srcTb := fun h => hne (by rw [h]; rfl)
    rw [execClockMonitorAlarm_island haon hg h64]
    dsimp only
    rw [if_neg hsrc, clockClass, if_congr (or_congr Iff.rfl (or_iff_right hne)) rfl rfl]
  case timebase =>
    refine (execClockMonitorAlarm_island haon (src := srcTb) (by decide) (by decide)).trans ?_
    exact congrArg Host.Outcome.next (if_pos rfl)
  case wake =>
    show execWakeIn island s = _
    rw [execWakeIn, if_pos haon, if_pos ⟨hst, hreq⟩]
  case held =>
    have hno : ¬ (s.pwr.state = .standby ∧ s.pins.stbyReq = true) := fun ⟨h1, h2⟩ => hst.elim (absurd h1) (by simp [h2])
    show execWakeIn island s = _
    rw [execWakeIn, if_pos haon, if_neg hno, if_pos hreq]
  case idle =>
    have hno : ¬ (s.pwr.state = .standby ∧ s.pins.stbyReq = true) := fun ⟨h1, h2⟩ => hst.elim (absurd h1) (by simp [h2])
    show execWakeIn island s = _
    rw [execWakeIn, if_pos haon, if_neg hno, hreq]
    rfl

/-! ## The timebase -/

theorem State.setLock_tb (s : State) (l : LockState) : (s.setLock l).tb.lock = l ∧ (s.setLock l).tb.now = s.tb.now
    ∧ (s.setLock l).tb.offset = s.tb.offset ∧ (s.setLock l).tb.stepped = s.tb.stepped := by
  unfold State.setLock
  split
  · next h => exact ⟨h, rfl, rfl, rfl⟩
  · exact ⟨rfl, rfl, rfl, rfl⟩

/-- The first measurement steps device time once, R30. -/
theorem State.measure_of_mayStep {s : State} {offset : Int} (h : s.tb.mayStep offset = true) :
    (s.measure offset).tb.now = (s.tb.now + offset.toNat) / 2 * 2 ∧ (s.measure offset).tb.stepped = true ∧ (s.measure offset).tb.lock = .locked := by
  unfold State.measure
  dsimp only
  rw [if_pos h]
  obtain ⟨hl, hn, -, hs⟩ := State.setLock_tb (((((s.onTb (fun t => { t with
    offset := saturate32 offset, lastMeas := some offset, lastHeard := some t.now })).stepTime ((s.tb.now + offset.toNat) / 2 * 2)).onTb (fun t =>
    { t with stepped := true, lastMeas := some 0, lastHeard := some ((s.tb.now + offset.toNat) / 2 * 2) })).logEvent srcTb 0
      .tbStep [s.tb.now, (s.tb.now + offset.toNat) / 2 * 2])) .locked
  refine ⟨hn.trans ?_, hs.trans ?_, hl⟩
  · show (State.stepTime _ _).tb.now = _
    unfold State.stepTime
    dsimp only
    split
    · rw [State.endViolSeconds_tb]
      rfl
    · rfl
  · rfl

/-- A later measurement leaves device time and decides the lock, R31 and R32. -/
theorem State.measure_of_not_mayStep {s : State} {offset : Int} (h : s.tb.mayStep offset = false) :
    (s.measure offset).tb.now = s.tb.now ∧ (s.measure offset).tb.offset = saturate32 offset
    ∧ (s.measure offset).tb.lock = (if s.tb.lock = .holdover ∨ s.tb.lock = .locked ∧ 100000 < s.tb.jump offset then .holdover
      else if offset.natAbs ≤ 1000 then .locked else .slewing) := by
  unfold State.measure
  dsimp only
  rw [h, if_neg Bool.false_ne_true]
  generalize hl : s.tb.lock = l
  have hset : ∀ (t : State) k, t.tb.now = s.tb.now → t.tb.offset = saturate32 offset →
      (t.setLock k).tb.now = s.tb.now ∧ (t.setLock k).tb.offset = saturate32 offset ∧ (t.setLock k).tb.lock = k := fun t k hn ho => by
    obtain ⟨h1, h2, h3, -⟩ := State.setLock_tb t k
    exact ⟨h2.trans hn, h3.trans ho, h1⟩
  cases l with
  | holdover =>
    have hc : LockState.holdover = .holdover ∨ LockState.holdover = .locked ∧ 100000 < s.tb.jump offset := .inl rfl
    rw [if_pos hc]
    exact ⟨rfl, rfl, hl⟩
  | locked =>
    dsimp only
    by_cases hj : 100000 < s.tb.jump offset
    · have hc : LockState.locked = .holdover ∨ LockState.locked = .locked ∧ 100000 < s.tb.jump offset := .inr ⟨rfl, hj⟩
      rw [if_pos hc, if_pos hj]
      exact hset _ _ rfl rfl
    · have hc : ¬ (LockState.locked = .holdover ∨ LockState.locked = .locked ∧ 100000 < s.tb.jump offset) := by simpa using hj
      rw [if_neg hc, if_neg hj]
      exact hset _ _ rfl rfl
  | free =>
    have hc : ¬ (LockState.free = .holdover ∨ LockState.free = .locked ∧ 100000 < s.tb.jump offset) := by simp
    rw [if_neg hc]
    exact hset _ _ rfl rfl
  | slewing =>
    have hc : ¬ (LockState.slewing = .holdover ∨ LockState.slewing = .locked ∧ 100000 < s.tb.jump offset) := by simp
    rw [if_neg hc]
    exact hset _ _ rfl rfl

theorem Timebase.mayStep_eq_false {t : Timebase} {offset : Int} (h : t.hasRun = true ∨ t.stepped = true ∨ offset < 0) : t.mayStep offset = false := by
  rw [Timebase.mayStep]
  rcases h with h | h | h
  · rw [h]; rfl
  · rw [h, Bool.not_true, Bool.and_false, Bool.false_and]
  · rw [decide_eq_false (by omega), Bool.and_false]

/-- Settles O47: a measurement by whether it may step and by its jump, a silence and a steady second by their instants. -/
theorem timebaseCommandsComplete : Obligations.TimebaseCommandsComplete := by
  unfold Obligations.TimebaseCommandsComplete
  intro s haon
  refine ⟨fun offset h3 h2 => ?heard, fun offset hh => ?unheard, fun offset hrun hst h0 heven => ?first, fun offset h => ?later, fun t hl ht hnow => ?silence,
    fun t hl ht hnow hheard => ?exit, fun hc => ?pps, ?refclk⟩
  case heard =>
    have hsrc : s.sourceHeard = true := by
      unfold State.sourceHeard
      by_cases h : s.tb.src = 2
      · obtain ⟨hc, hu⟩ := h2 h
        simp [h, hc, hu]
      · simp [h, h3]
    show execTimebaseMeasurement offset s = _
    rw [execTimebaseMeasurement, haon, hsrc]
    rfl
  case unheard =>
    show execTimebaseMeasurement offset s = _
    rw [execTimebaseMeasurement, hh, Bool.and_false]
    rfl
  case first =>
    obtain ⟨hn, hs, hl⟩ := State.measure_of_mayStep (s := s) (offset := offset) (by rw [Timebase.mayStep, hrun, hst, decide_eq_true h0]; rfl)
    exact ⟨by rw [hn]; omega, hs, hl⟩
  case later =>
    obtain ⟨hn, ho, hl⟩ := State.measure_of_not_mayStep (Timebase.mayStep_eq_false h)
    refine ⟨hn, ho, fun h1 h2 => ?_, fun h1 h2 => ?_, fun h1 => ?_⟩
    · rw [hl, if_pos (.inr ⟨h1, h2⟩)]
    · rw [hl, if_neg (not_or.2 ⟨h1, fun h => absurd (h2 h.1) (Nat.not_le.2 h.2)⟩)]
    · rw [hl, if_pos (.inl h1)]
  case silence =>
    have hs : s.sourceSilent = true := by
      rw [State.sourceSilent, hl, ht]
      dsimp only
      rw [expired_eq_true (by omega)]
      rfl
    show execSourceSilenceTimeout s = _
    rw [execSourceSilenceTimeout, haon, hs]
    rfl
  case exit =>
    obtain ⟨k, hk, hkn⟩ := hheard
    have hsilent : s.tb.silent = false := by
      rw [Timebase.silent, hk]
      exact decide_eq_false (Nat.not_lt.2 hkn)
    have hs : s.holdoverDone = true := by
      rw [State.holdoverDone, hl, hsilent, ht]
      dsimp only
      rw [decide_eq_true hnow]
      rfl
    show execHoldoverExit s = _
    rw [execHoldoverExit, haon, hs]
    rfl
  case pps =>
    intro u
    show execPpsInEdge s = _
    rw [execPpsInEdge, haon, hc]
    rfl
  case refclk =>
    show execRefclkLoss s = _
    rw [execRefclkLoss, if_pos haon]

/-! ## Balls -/

/-- Settles O48: each ball at its instant. -/
theorem timedBallsComplete : Obligations.TimedBallsComplete := by
  unfold Obligations.TimedBallsComplete
  intro s
  refine ⟨fun haon hc hnow => ?rise, fun haon hp hnow => ?fall, fun hup => ⟨fun n hf hnow => ?edge, fun n hnow => ?pulse, fun n b => rfl, fun k hk => ?mfio,
    fun hf ht => ?tick⟩⟩
  case rise =>
    show execPpsOutEdge s = _
    rw [execPpsOutEdge, haon, hc, hnow]
    rfl
  case fall =>
    show execPpsOutFall s = _
    rw [execPpsOutFall, haon, hp, decide_eq_true hnow]
    rfl
  case edge =>
    have hdue : s.fsyncDue n.toNat = true := by
      rw [State.fsyncDue, hf, Bool.true_and]
      exact beq_iff_eq.2 hnow
    show execFsyncEdge n s = _
    rw [execFsyncEdge, hup, hdue]
    rfl
  case pulse =>
    show execFsyncPulseEnd n s = _
    rw [execFsyncPulseEnd, hup, decide_eq_true hnow]
    rfl
  case mfio =>
    show execMfioEdgeCapture k s = _
    rw [execMfioEdgeCapture, hup, hk]
    rfl
  case tick =>
    show execTickStart s = _
    rw [execTickStart, hup, hf, ht]
    rfl

end Sys2Proof.Machine
end

section
/-! The power cap, AVSBus voltages and temperature. -/

namespace Sys2Proof.Machine

/-! ## The power cap -/

/-- Since when the estimate stands 2 W below the cap, after an evaluation at `now`. -/
def Power.lowFrom (p : Power) (now est cap : Nat) : Option Nat := if decide (est + 2000 ≤ cap * 1000) then some (p.lowSince.getD now) else none

theorem Power.lowFrom_of_low {p : Power} {now est cap : Nat} (h : est + 2000 ≤ cap * 1000) : p.lowFrom now est cap = some (p.lowSince.getD now) :=
  if_pos (decide_eq_true h)

theorem Power.lowFrom_of_high {p : Power} {now est cap : Nat} (h : ¬ est + 2000 ≤ cap * 1000) : p.lowFrom now est cap = none :=
  if_neg (by rw [decide_eq_false h]; exact Bool.false_ne_true)

/-- It has stood there for 1 ms. -/
def Power.lowHeld (p : Power) (now est cap : Nat) : Bool :=
  match p.lowFrom now est cap with
  | some t => decide (t + 1000000 ≤ now)
  | none => false

theorem Power.lowHeld_eq_false {p : Power} {now est cap : Nat} (h : ∀ t, p.lowFrom now est cap = some t → now < t + 1000000) :
    p.lowHeld now est cap = false := by
  unfold Power.lowHeld
  split
  · next t ht => exact decide_eq_false (Nat.not_le.2 (h t ht))
  · rfl

/-- The throttle part of an evaluation, before its unmet mark. -/
def Power.stepped (p : Power) (now est cap : Nat) : Power :=
  let p0 : Power := { p with estimate := est, lowSince := p.lowFrom now est cap }
  if cap * 1000 < est ∧ p0.level < 8 then { p0.setLevel (p0.level + 1) with capEvents := p0.capEvents + 1 }
  else if p.lowHeld now est cap && decide (0 < p0.level) then { p0.setLevel (p0.level - 1) with lowSince := some now }
  else p0

theorem Power.evaluate_eq (p : Power) (now est cap : Nat) :
    p.evaluate now est cap = { p.stepped now est cap with unmet := (p.stepped now est cap).level == 8 && decide (cap * 1000 < est) } := rfl

theorem Power.stepped_estimate (p : Power) (now est cap : Nat) : (p.stepped now est cap).estimate = est := by
  unfold Power.stepped
  dsimp only
  split
  · rfl
  · split <;> rfl

theorem Power.stepped_of_above {p : Power} {now est cap : Nat} (h : cap * 1000 < est) (h8 : p.level < 8) : p.stepped now est cap =
    { ({ p with estimate := est, lowSince := p.lowFrom now est cap } : Power).setLevel (p.level + 1) with capEvents := p.capEvents + 1 } :=
  if_pos ⟨h, h8⟩

/-- Without the low millisecond an evaluation that raises nothing keeps the level. -/
theorem Power.stepped_of_hold {p : Power} {now est cap : Nat} (h : ¬ (cap * 1000 < est ∧ p.level < 8))
    (hlow : ∀ t, p.lowFrom now est cap = some t → now < t + 1000000) :
    p.stepped now est cap = { p with estimate := est, lowSince := p.lowFrom now est cap } := by
  refine (if_neg h).trans (if_neg ?_)
  rw [Power.lowHeld_eq_false hlow]
  exact Bool.false_ne_true

theorem Power.level_stepped_of_low {p : Power} {now est cap t : Nat} (h : est + 2000 ≤ cap * 1000) (ht : p.lowSince = some t)
    (hnow : t + 1000000 ≤ now) : (p.stepped now est cap).level = p.level - 1 := by
  have hheld : p.lowHeld now est cap = true := by
    rw [Power.lowHeld, Power.lowFrom_of_low h, ht]
    exact decide_eq_true hnow
  unfold Power.stepped
  dsimp only
  rw [if_neg (by omega), hheld, Bool.true_and]
  split
  · rfl
  · next h0 =>
    have : ¬ 0 < p.level := by simpa using h0
    show p.level = p.level - 1
    omega

/-- Settles O49: the level by where the estimate stands to the cap. -/
theorem powerIsCapped : Obligations.PowerIsCapped := by
  unfold Obligations.PowerIsCapped
  refine ⟨⟨fun p now est cap h8 => ?level, fun s e hup hnow => ?cap⟩, fun s a b hup hnow => ?correction⟩
  case level =>
    intro q
    have hq : q = _ := Power.evaluate_eq p now est cap
    rw [hq]
    dsimp only
    refine ⟨fun h => ?_, fun h h' => ?_, fun t h ht hnow => Power.level_stepped_of_low h ht hnow, fun h ht => ?_, by simp, Power.stepped_estimate ..⟩
    · by_cases hl : p.level < 8
      · rw [Power.stepped_of_above h hl]
        have hmin : p.level + 1 = min 8 (p.level + 1) := by omega
        exact ⟨hmin, fun _ => ⟨rfl, rfl⟩⟩
      · have hlow : p.lowFrom now est cap = none := Power.lowFrom_of_high (by omega)
        rw [Power.stepped_of_hold (fun hc => hl hc.2) (by rw [hlow]; nofun)]
        refine ⟨?_, fun h' => absurd h' hl⟩
        show p.level = min 8 (p.level + 1)
        omega
    · have hlow : p.lowFrom now est cap = none := Power.lowFrom_of_high (by omega)
      rw [Power.stepped_of_hold (by omega) (by rw [hlow]; nofun)]
      exact ⟨rfl, hlow⟩
    · rw [Power.stepped_of_hold (by omega)]
      intro t hl
      rw [Power.lowFrom_of_low h] at hl
      cases hs : p.lowSince with
      | none =>
        rw [hs] at hl
        have : now = t := Option.some.inj hl
        omega
      | some u =>
        rw [hs] at hl
        have : u = t := Option.some.inj hl
        have := ht u hs
        omega
  case cap =>
    intro est t
    show execCapEvaluate e s = _
    rw [execCapEvaluate, hup, hnow]
    rfl
  case correction =>
    have hexec : exec (.powerCorrection a b) s = .next
        ((s.onPwr (fun p => { p.answered with current := [a, b], correction := (Config.freeWord s.fresh).toInt })).fresh1) := by
      show execPowerCorrection a b s = _
      rw [execPowerCorrection, hup, hnow]
      rfl
    refine ⟨_, hexec, rfl, rfl, ?_⟩
    have ha : s.pwr.answered = { s.pwr with avsFails := if s.pwr.avs = 2 then s.pwr.avsFails else [0, 0] } := by
      unfold Power.answered
      split <;> rfl
    show ({ s with fresh := s.fresh + 1, pwr := { s.pwr.answered with current := [a, b], correction := (Config.freeWord s.fresh).toInt } } : State) = _
    rw [ha]
    rfl

/-! ## AVSBus and temperature -/

/-- Two states whose sensors read and whose maxima stand alike. -/
structure SensorsKept (s t : State) : Prop where
  die : t.pwr.die = s.pwr.die
  lake : t.pwr.lake = s.pwr.lake
  failed : t.pwr.failed = s.pwr.failed
  tjMax : t.pwr.tjMax = s.pwr.tjMax
  tjPeak : t.pwr.tjPeak = s.pwr.tjPeak

namespace SensorsKept
variable {s t u : State}

theorem refl (s : State) : SensorsKept s s := ⟨rfl, rfl, rfl, rfl, rfl⟩

theorem trans (h : SensorsKept s t) (h' : SensorsKept t u) : SensorsKept s u :=
  ⟨h'.die.trans h.die, h'.lake.trans h.lake, h'.failed.trans h.failed, h'.tjMax.trans h.tjMax, h'.tjPeak.trans h.tjPeak⟩

theorem of_pwr (h : t.pwr = s.pwr) : SensorsKept s t := by
  refine ⟨?_, ?_, ?_, ?_, ?_⟩ <;> rw [h]

theorem threshold {act : State → State} (hact : ∀ t, SensorsKept t (act t)) (s : State) (k : Nat) (deg : Int) (code cls : Nat) :
    SensorsKept s (s.threshold k deg code cls act) := by
  unfold State.threshold
  split
  · split
    · exact refl s
    · refine SensorsKept.trans ?_ (hact _)
      refine SensorsKept.trans (t := s.onPwr fun p => { p with reported := withBit p.reported k true }) ⟨rfl, rfl, rfl, rfl, rfl⟩ (of_pwr ?_)
      unfold State.thermal
      simp
  · exact ⟨rfl, rfl, rfl, rfl, rfl⟩

end SensorsKept

theorem State.thermal_pwr (s : State) (code cls detail : Nat) : (s.thermal code cls detail).pwr = s.pwr := by
  unfold State.thermal
  simp

theorem State.lakeHeat_pwr (s : State) (r : Nat) (t : Int) : (s.lakeHeat r t).pwr = s.pwr := by
  unfold State.lakeHeat
  refine foldl_pwr fun x i => ?_
  dsimp only
  split
  · rfl
  · split <;> rfl

theorem foldl_get {α β : Type} (get : State → β) {f : State → α → State} (h : ∀ t x, get (f t x) = get t) (l : List α) (s : State) :
    get (l.foldl f s) = get s := by
  induction l generalizing s with
  | nil => rfl
  | cons x l ih => rw [List.foldl_cons, ih, h]

/-- Failing sensors leaves what neither the list of failed sensors nor the throttle level enters. -/
theorem State.failSensors_keeps {β : Type} (get : Power → β) (hfailed : ∀ p l, get { p with failed := l } = get p)
    (hlevel : ∀ p l c, get { p.setLevel l with capEvents := c } = get p) (s : State) : get s.failSensors.pwr = get s.pwr := by
  unfold State.failSensors
  refine foldl_get (fun t => get t.pwr) (fun t i => ?_) _ s
  dsimp only
  split
  · split
    · refine (hlevel _ _ _).trans ?_
      rw [State.thermal_pwr, State.thermal_pwr]
      exact hfailed _ _
    · rw [State.thermal_pwr]
      exact hfailed _ _
  · rfl

theorem bit_one_withBit_zero (v : Nat) (b : Bool) : bit (withBit v 0 b) 1 = bit v 1 := by
  unfold bit withBit flagAt bit
  cases b <;> by_cases h : v % 2 = 1 <;> simp [h] <;> omega

theorem sensorAt_isSome {failed : List Nat} {die : List Int} {t : Int} {i : Nat} (hi : i < 40) (hf : i ∉ failed) (ht : t ≤ die.getD i 0) :
    ∃ k, sensorAt failed die t = some k := by
  refine Option.isSome_iff_exists.1 (List.find?_isSome.2 ⟨i, List.mem_range.2 hi, ?_⟩)
  rw [decide_eq_true ht, Bool.and_true, Bool.not_eq_true', List.contains_eq_mem, decide_eq_false hf]

theorem sensorAt_eq_none_of_le {failed : List Nat} {die : List Int} {t u : Int} (h : t ≤ u) (ht : sensorAt failed die t = none) :
    sensorAt failed die u = none := by
  refine List.find?_eq_none.2 fun i hi hc => List.find?_eq_none.1 ht i hi ?_
  rw [Bool.and_eq_true, decide_eq_true_eq] at hc ⊢
  exact ⟨hc.1, h.trans hc.2⟩

theorem State.onPwr_congr {s : State} {f g : Power → Power} (h : f s.pwr = g s.pwr) : s.onPwr f = s.onPwr g :=
  congrArg (fun p => ({ s with pwr := p } : State)) h

/-- A threshold that a sensor has crossed for the first time acts. -/
theorem State.threshold_of_crossed {s : State} {k : Nat} {deg : Int} {i : Nat} (hi : sensorAt s.pwr.failed s.pwr.die (deg * 16) = some i)
    (hr : bit s.pwr.reported k = false) (code cls : Nat) (act : State → State) :
    s.threshold k deg code cls act = act ((s.onPwr (fun p => { p with reported := withBit p.reported k true })).thermal code cls i) := by
  rw [State.threshold, hi]
  dsimp only
  rw [hr, if_neg Bool.false_ne_true]

/-- A threshold leaves what neither its mark nor its act enters. -/
theorem State.threshold_keeps {β : Type} (get : Power → β) {act : State → State} (hact : ∀ t, get (act t).pwr = get t.pwr)
    {k : Nat} (hmark : ∀ p b, get { p with reported := withBit p.reported k b } = get p) (s : State) (deg : Int) (code cls : Nat) :
    get (s.threshold k deg code cls act).pwr = get s.pwr := by
  unfold State.threshold
  split
  · split
    · rfl
    · rw [hact, State.thermal_pwr]
      exact hmark _ _
  · exact hmark _ _

/-! ## The thermal sample -/

/-- The state with its samples taken and its failing sensors out, R522. -/
def State.sampled (s : State) (die lake : List Int) : State :=
  (s.onPwr (fun p => { p with die := die, lake := lake, deviating := deviateRuns p (die ++ lake) })).failSensors

/-- The state with the hottest working sensor taken. -/
def State.peaked (s : State) (die : List Int) : State :=
  s.onPwr (fun p => { p with tjMax := (hottest p.failed die).getD p.tjMax, tjPeak := max p.tjPeak ((hottest p.failed die).getD p.tjMax) })

/-- It leaves everything but the maxima. -/
theorem State.peaked_keeps {β : Type} (get : Power → β) (h : ∀ p m k, get { p with tjMax := m, tjPeak := k } = get p) (s : State) (die : List Int) :
    get (s.peaked die).pwr = get s.pwr :=
  h _ _ _

theorem State.peaked_max (s : State) (die : List Int) :
    (s.peaked die).pwr.tjMax = (hottest (s.peaked die).pwr.failed die).getD s.pwr.tjMax := rfl

theorem State.peaked_peak (s : State) (die : List Int) : (s.peaked die).pwr.tjPeak = max s.pwr.tjPeak (s.peaked die).pwr.tjMax := rfl

/-- The three thresholds of R523. -/
def State.thresholds (s : State) : State :=
  (((s.threshold 0 110 0 0 (fun x => x.onPwr (fun p => p.beginThermal x.now))).threshold 1 118 1 1 State.fullThrottle).threshold 2 125 2 4 id)

theorem execThermalSample_eq {s : State} {die lake : List Int} (hup : s.up = true) (hnow : s.now % 100000 = 0) (hd : die.length = 40)
    (hl : lake.length = 8) : exec (.thermalSample die lake) s = .next (
      (List.range 8).foldl (fun x r => if (((s.sampled die lake).peaked die).thresholds).pwr.failed.contains (40 + r) then x
        else x.lakeHeat r (lake.getD r 0)) (((s.sampled die lake).peaked die).thresholds)) := by
  have hc : (s.up && s.now % 100000 == 0 && die.length == 40 && lake.length == 8) = true := by
    rw [hup, hnow, hd, hl]
    rfl
  show execThermalSample die lake s = _
  rw [execThermalSample, if_pos hc]
  unfold State.thresholds State.peaked State.sampled
  dsimp only

theorem Power.beginThermal_sensors (p : Power) (now : Nat) : (p.beginThermal now).die = p.die ∧ (p.beginThermal now).lake = p.lake
    ∧ (p.beginThermal now).failed = p.failed ∧ (p.beginThermal now).tjMax = p.tjMax ∧ (p.beginThermal now).tjPeak = p.tjPeak
    ∧ (p.beginThermal now).reported = p.reported := by
  unfold Power.beginThermal
  split <;> exact ⟨rfl, rfl, rfl, rfl, rfl, rfl⟩

theorem SensorsKept.beginThermal (s : State) : SensorsKept s (s.onPwr (fun p => p.beginThermal s.now)) := by
  obtain ⟨h1, h2, h3, h4, h5, -⟩ := s.pwr.beginThermal_sensors s.now
  exact ⟨h1, h2, h3, h4, h5⟩

theorem SensorsKept.fullThrottle (s : State) : SensorsKept s s.fullThrottle := ⟨rfl, rfl, rfl, rfl, rfl⟩

theorem SensorsKept.thresholds (s : State) : SensorsKept s s.thresholds :=
  ((threshold beginThermal s 0 110 0 0).trans (threshold fullThrottle _ 1 118 1 1)).trans (threshold (act := id) refl _ 2 125 2 4)

/-- A working sensor at 118 degC, not yet reported, puts throttling at level 8. -/
theorem State.level_thresholds {s : State} {i : Nat} (hi : i < 40) (hf : i ∉ s.pwr.failed) (ht : 118 * 16 ≤ s.pwr.die.getD i 0)
    (hr : bit s.pwr.reported 1 = false) : s.thresholds.pwr.level = 8 := by
  unfold State.thresholds
  have hk := SensorsKept.threshold SensorsKept.beginThermal s 0 110 0 0
  have hr' : bit (s.threshold 0 110 0 0 (fun x => x.onPwr (fun p => p.beginThermal x.now))).pwr.reported 1 = false := by
    refine Eq.trans ?_ hr
    exact State.threshold_keeps (fun p => bit p.reported 1) (fun t => congrArg (bit · 1) (t.pwr.beginThermal_sensors t.now).2.2.2.2.2)
      (fun p b => bit_one_withBit_zero p.reported b) s 110 0 0
  generalize s.threshold 0 110 0 0 _ = t at hk hr'
  obtain ⟨k, hs⟩ := sensorAt_isSome (failed := t.pwr.failed) (die := t.pwr.die) (t := 118 * 16) hi (by rw [hk.failed]; exact hf) (by rw [hk.die]; exact ht)
  rw [State.threshold_of_crossed hs hr']
  exact State.threshold_keeps (·.level) (fun _ => rfl) (fun _ _ => rfl) _ 125 2 4

/-- Settles O50: a band's voltages by what confirms them, a sample by what its sensors read. -/
theorem voltageAndTemperature : Obligations.VoltageAndTemperature := by
  unfold Obligations.VoltageAndTemperature
  refine ⟨fun s hup => ⟨fun confirmed hdue => ?band, fun rail => ?fail, fun rail => ?silent, fun rail hh => ?retry⟩,
    fun s hup => ⟨fun die lake hnow hd hl => ?sample, fun c hc hnow hs => ?down, fun c hc hnow hs => ?raise⟩⟩
  case band =>
    intro b t
    have ht : ((s.emit (.avs 0 (Config.avsVoltage 0 b))).emit (.avs 1 (Config.avsVoltage 1 b))).onPwr (fun p => if confirmed then p.answered else p)
        = t := by
      have hfails : (if confirmed = true then s.pwr.answered else s.pwr) =
          { s.pwr with avsFails := if confirmed = true ∧ s.pwr.avs ≠ 2 then [0, 0] else s.pwr.avsFails } := by
        cases confirmed with
        | false => rw [if_neg Bool.false_ne_true, if_neg (by simp)]
        | true =>
          rw [if_pos rfl, Power.answered]
          by_cases h2 : s.pwr.avs = 2
          · rw [if_pos h2, if_neg (by simp [h2])]
          · rw [if_neg h2, if_pos ⟨rfl, h2⟩]
      show ({ s with
        sent := s.sent ++ [Emission.avs 0 (Config.avsVoltage 0 b)] ++ [Emission.avs 1 (Config.avsVoltage 1 b)]
        pwr := if confirmed = true then s.pwr.answered else s.pwr } : State) = t
      rw [hfails, List.append_assoc]
      rfl
    show execAvsBandUpdate confirmed s = _
    rw [execAvsBandUpdate, hup, hdue, ← ht]
    rfl
  case fail =>
    intro n
    refine ⟨fun hn => ?_, fun hn => ?_⟩
    · show execAvsTransactionFail rail s = _
      rw [execAvsTransactionFail, if_pos hup]
      exact congrArg Host.Outcome.next (if_neg hn)
    · show execAvsTransactionFail rail s = _
      rw [execAvsTransactionFail, if_pos hup]
      refine (congrArg Host.Outcome.next (if_pos hn)).trans ?_
      rw [show s.pwr.avsFails.getD rail.toNat 0 + 1 = 3 from hn]
      rfl
  case silent =>
    show execAvsRetry rail false s = _
    rw [execAvsRetry, Bool.and_false]
    rfl
  case retry =>
    show execAvsRetry rail true s = _
    rw [execAvsRetry, hup, hh]
    rfl
  case sample =>
    refine ⟨_, execThermalSample_eq hup hnow hd hl, ?_⟩
    rw [foldl_pwr (s := ((s.sampled die lake).peaked die).thresholds)]
    · have hk := SensorsKept.thresholds ((s.sampled die lake).peaked die)
      have hkeep : ∀ {β : Type} (get : Power → β), (∀ p l, get { p with failed := l } = get p) →
          (∀ p l c, get { p.setLevel l with capEvents := c } = get p) →
          get (s.sampled die lake).pwr = get { s.pwr with die := die, lake := lake, deviating := deviateRuns s.pwr (die ++ lake) } :=
        fun get hf hl => State.failSensors_keeps get hf hl _
      have hdie : ((s.sampled die lake).peaked die).pwr.die = die :=
        (State.peaked_keeps (·.die) (fun _ _ _ => rfl) _ _).trans (hkeep (·.die) (fun _ _ => rfl) (fun _ _ _ => rfl))
      have hlake : ((s.sampled die lake).peaked die).pwr.lake = lake :=
        (State.peaked_keeps (·.lake) (fun _ _ _ => rfl) _ _).trans (hkeep (·.lake) (fun _ _ => rfl) (fun _ _ _ => rfl))
      have hmax : (s.sampled die lake).pwr.tjMax = s.pwr.tjMax := hkeep (·.tjMax) (fun _ _ => rfl) (fun _ _ _ => rfl)
      have hpeak : (s.sampled die lake).pwr.tjPeak = s.pwr.tjPeak := hkeep (·.tjPeak) (fun _ _ => rfl) (fun _ _ _ => rfl)
      have hrep : ((s.sampled die lake).peaked die).pwr.reported = s.pwr.reported :=
        (State.peaked_keeps (·.reported) (fun _ _ _ => rfl) _ _).trans (hkeep (·.reported) (fun _ _ => rfl) (fun _ _ _ => rfl))
      refine ⟨hk.die.trans hdie, hk.lake.trans hlake, ?_, ?_, ?_⟩
      · rw [hk.tjMax, hk.failed, ← hmax]
        exact State.peaked_max ..
      · rw [hk.tjPeak, hk.tjMax, ← hpeak]
        exact State.peaked_peak ..
      · rintro ⟨i, hi, hf, ht⟩ hr
        exact State.level_thresholds hi (by rwa [hk.failed] at hf) (by rw [hdie]; exact ht) (by rw [hrep]; exact hr)
    · intro t r
      split
      · rfl
      · exact State.lakeHeat_pwr ..
  case down =>
    have hdown : s.thermalDown = true := by
      rw [State.thermalDown, hc, decide_eq_true hnow, show ((110 : Int) * 16) = 1760 by norm_num, hs]
      rfl
    show execThermalCapStep s = _
    rw [execThermalCapStep, hup, hdown, Bool.and_self, if_pos rfl]
    refine congrArg Host.Outcome.next (State.onPwr_congr ?_)
    rw [hc]
    rfl
  case raise =>
    have hdown : s.thermalDown = false := by
      rw [State.thermalDown, show ((110 : Int) * 16) = 1760 by norm_num, sensorAt_eq_none_of_le (by norm_num) hs, Option.isSome_none, Bool.and_false]
    have hraise : s.thermalUp = true := by
      rw [State.thermalUp, hc, decide_eq_true hnow, show ((105 : Int) * 16 + 1) = 1681 by norm_num, hs]
      rfl
    show execThermalCapStep s = _
    rw [execThermalCapStep, hup, hdown, hraise, Bool.and_false, if_neg Bool.false_ne_true, Bool.and_self, if_pos rfl]
    refine congrArg Host.Outcome.next (State.onPwr_congr ?_)
    rw [hc]
    rfl

end Sys2Proof.Machine
end

section
/-! The fabric: links and flits, transactions, discovery. -/

namespace Sys2Proof.Machine

/-! ## Links -/

theorem State.link_onLink {s : State} {d : Nat} (h : d < s.fab.links.length) (f : FabLink → FabLink) : (s.onLink d f).link d = f (s.link d) := by
  show (s.fab.links.modify d f).getD d {} = f (s.fab.links.getD d {})
  rw [List.getD_eq_getElem _ _ (by simpa using h), List.getD_eq_getElem _ _ h, List.getElem_modify_eq]

/-- A link in a state other than down stands in the table. -/
theorem State.lt_links_of_state {s : State} {d : Nat} (h : (s.link d).state ≠ 0) : d < s.fab.links.length := by
  by_contra hd
  exact h (congrArg FabLink.state (List.getD_eq_default _ _ (Nat.not_lt.1 hd)))

/-- The trained link's door, before the routes are computed anew. -/
def State.linkTrained (s : State) (d : Nat) : State :=
  (((s.onLink d (fun x => { x.fresh with state := 2, trainFails := 0, heard := s.now })).onFab (fun x =>
    { x with firstUp := some (x.firstUp.getD s.now), state := if x.state = 0 then 1 else x.state })).logEvent (0xAD + d) 0 .linkChange [d, 2]).emit
      (.hello d (s.ownHello d))

/-- A training's end by the link's state, R422 and R427. -/
theorem execLinkTrainComplete_of_training {s : State} {door : Fin 3} (hup : s.up = true)
    (hl : (s.link door.val).state = 0 ∨ (s.link door.val).state = 1) (ok : Bool) :
    exec (.linkTrainComplete door ok) s = .next (
      if ok && (s.link door.val).testing then s.onLink door.val (fun x => { x with state := 3, quarAt := s.now })
      else if ok then (s.linkTrained door.val).linksChanged none
      else if (s.link door.val).testing || ((s.link door.val).state == 1 && decide (1 ≤ (s.link door.val).trainFails)) then s.quarantine door.val
      else s.onLink door.val (fun x => { x with trainFails := if (s.link door.val).state = 1 then x.trainFails + 1 else 0 })) := by
  have hc : (s.up && ((s.link door.val).state == 0 || (s.link door.val).state == 1)) = true := by
    rw [hup]
    rcases hl with h | h <;> rw [h] <;> rfl
  exact congrArg Host.Outcome.next (if_pos hc)

/-- Settles O51: a training by the link's state, a flit by what it carries, a quarantine by its instants. -/
theorem linksAndFlits : Obligations.LinksAndFlits := by
  unfold Obligations.LinksAndFlits
  refine ⟨fun s door hup => ?training, fun s door f hlive => ?flits, fun s door hup hst => ?quarantine⟩
  case training =>
    intro d l
    refine ⟨fun hst ht => ?_, fun hst ht => ?_, fun hst ht hf => ?_, fun hst h => ?_, fun hst ht => ?_⟩
    · refine ⟨s.linkTrained d, ?_, rfl, rfl⟩
      rw [execLinkTrainComplete_of_training hup hst, show (s.link door.val).testing = false from ht]
      rfl
    · rw [execLinkTrainComplete_of_training hup (.inl hst), show (s.link door.val).testing = false from ht, show (s.link door.val).state = 0 from hst]
      rfl
    · rw [execLinkTrainComplete_of_training hup (.inr hst), show (s.link door.val).testing = false from ht, show (s.link door.val).state = 1 from hst,
        show (s.link door.val).trainFails = 0 from hf]
      rfl
    · have hq : ((s.link door.val).testing || ((s.link door.val).state == 1 && decide (1 ≤ (s.link door.val).trainFails))) = true := by
        rcases h with h | h
        · rw [show (s.link door.val).testing = true from h, Bool.true_or]
        · rw [show (s.link door.val).state = 1 from hst, decide_eq_true (show 1 ≤ (s.link door.val).trainFails from h)]
          exact Bool.or_true _
      rw [execLinkTrainComplete_of_training hup (.inr hst), hq]
      rfl
    · rw [execLinkTrainComplete_of_training hup (.inr hst), show (s.link door.val).testing = true from ht]
      rfl
  case flits =>
    intro d l acked
    refine ⟨fun hcrc hseq hcr => ?_, fun hcrc hseq hcr => ?_, fun hcrc => ?_, fun h => ?_, fun hcrc => ?_, fun a => ?_, fun e he hx => ?_, fun hh => ?_⟩
    · show execFlitData door f s = _
      rw [execFlitData]
      dsimp only
      rw [hlive, hcrc, show f.lseq = (s.link door.val).rxSeq from hseq, hcr]
      simp only [bne_self_eq_false]
      rfl
    · show execFlitData door f s = _
      rw [execFlitData]
      dsimp only
      rw [hlive, hcrc, show f.lseq = (s.link door.val).rxSeq from hseq, hcr]
      simp only [bne_self_eq_false]
      rfl
    · show execFlitIdle door f s = _
      rw [execFlitIdle, hlive, hcrc]
      rfl
    · have hbad : (!f.crcOk || f.lseq != (s.link door.val).rxSeq) = true := by
        rcases h with h | h
        · rw [h]; rfl
        · rw [bne_iff_ne.2 (show f.lseq ≠ (s.link door.val).rxSeq from h), Bool.or_true]
      show execFlitData door f s = _
      rw [execFlitData]
      dsimp only
      rw [hlive, hbad]
      rfl
    · show execFlitIdle door f s = _
      rw [execFlitIdle, hlive, hcrc]
      rfl
    · show execFlitNak door a s = _
      rw [execFlitNak, if_pos hlive]
    · show execFabRetryTimeout door s = _
      rw [execFabRetryTimeout, show (s.link door.val).retry.head? = some e from he]
      dsimp only
      rw [hlive, hx]
      rfl
    · show execLinkSilenceTimeout door s = _
      rw [execLinkSilenceTimeout, hlive, decide_eq_true (show (s.link door.val).heard + 4000 ≤ s.now from hh)]
      rfl
  case quarantine =>
    intro d l
    refine ⟨fun ht hq hr => ?_, fun ht hq => ⟨?_, ?_⟩⟩
    · show execQuarantineExpiry door s = _
      rw [execQuarantineExpiry]
      dsimp only
      rw [hup, hst, show (s.link door.val).testing = false from ht, decide_eq_true (show (s.link door.val).quarAt + 10000000000 ≤ s.now from hq),
        decide_eq_true (show (s.link door.val).returns < 3 from hr)]
      rfl
    · show execQuarantineTestEnd door true s = _
      rw [execQuarantineTestEnd]
      dsimp only
      rw [hup, hst, show (s.link door.val).testing = true from ht, decide_eq_true (show (s.link door.val).quarAt + 1000000 ≤ s.now from hq)]
      rfl
    · refine ⟨(s.onLink d (fun x => { x with state := 2, testing := false, returns := x.returns + 1, heard := s.now })).logEvent
        (0xAD + d) 0 .linkChange [d, 2], ?_, ?_⟩
      · show execQuarantineTestEnd door false s = _
        rw [execQuarantineTestEnd]
        dsimp only
        rw [hup, hst, show (s.link door.val).testing = true from ht, decide_eq_true (show (s.link door.val).quarAt + 1000000 ≤ s.now from hq)]
        rfl
      · exact State.link_onLink (State.lt_links_of_state (by rw [hst]; decide)) _

/-! ## Transactions -/

theorem State.sent_foldl_emit {α : Type} (e : α → Emission) (l : List α) (s : State) :
    (l.foldl (fun t x => t.emit (e x)) s).sent = s.sent ++ l.map e := by
  induction l generalizing s with
  | nil => exact (List.append_nil _).symm
  | cons x l ih =>
    rw [List.foldl_cons, ih, List.map_cons, ← List.singleton_append, ← List.append_assoc]
    rfl

theorem State.e2eOf_onE2e_other {s : State} {node vc vc' : Nat} (h : vc ≠ vc') (f : E2E → E2E) :
    (s.onE2e node vc f).e2eOf node vc' = s.e2eOf node vc' :=
  (sget_sset ..).trans (if_neg (by omega))

theorem State.issueHeld_of_held_nil {s : State} {node vc : Nat} (h : (s.e2eOf node vc).held = []) (f : Nat) : State.issueHeld f s node vc = s := by
  cases f with
  | zero => rfl
  | succ f => rw [State.issueHeld, h]

/-- A transaction for this node by how far its number is ahead of the next one, R430. -/
theorem State.fabArrive_here {s : State} {door : Fin 3} {op : Nat} {t : Txn} (hdst : t.dst = s.fab.nodeId) (hh : t.hops ≤ 3) :
    s.fabArrive door op t =
      if (t.e2e - (s.e2eOf t.src.toNat (vcOf op)).expect).toNat = 0 then
        (s.e2eDeliver door op t).e2eAhead ((s.e2eOf t.src.toNat (vcOf op)).ahead.length + 1) door t.src.toNat (vcOf op)
      else if (t.e2e - (s.e2eOf t.src.toNat (vcOf op)).expect).toNat ≤ 512 then
        (if (s.e2eOf t.src.toNat (vcOf op)).ahead.any (fun x => x.e2e == t.e2e) then s.onLink door.val (fun l => l.count 6 1)
         else s.onE2e t.src.toNat (vcOf op) (fun x => { x with ahead := x.ahead ++ [t] }))
      else if (t.e2e - (s.e2eOf t.src.toNat (vcOf op)).expect).toNat ≤ 2 ^ 31 then s.fabViolation door.val t
      else s.onLink door.val (fun l => l.count 6 1) := by
  rw [State.fabArrive, if_neg (not_not.2 hdst), if_neg (Nat.not_lt.2 hh)]

/-- A well-formed transaction within the throttle, by its OP. -/
theorem State.fabDeliver_of_wellFormed {s : State} {door : Fin 3} {op : Nat} {t : Txn} (hm : malformed op t = false)
    (hfree : (op = 1 ∨ op = 2 ∨ op = 4) → violThrottled (t.src.toNat, 0, 0) s.fab.viols = false
      ∨ (violOf (t.src.toNat, 0, 0) s.fab.viols).admitted < s.cfg 0x16000A) :
    s.fabDeliver door op t =
      (let vc0 := decide (op = 1) || decide (op = 2) || decide (op = 4)
      let s1 := if vc0 then s.onFab (fun x => { x with viols := violRequest (t.src.toNat, 0, 0) true x.viols }) else s
      match op with
      | 1 => s1.fabApplyWrite door t
      | 2 => s1.fabApplyRead door t
      | 3 => s1.fabApplyResp door t
      | 4 => s1.fabCount t
      | 5 => s1.fabFails t.srcId.toNat t.addr.toNat
      | _ => s1) := by
  have hno : ((decide (op = 1) || decide (op = 2) || decide (op = 4)) && violThrottled (t.src.toNat, 0, 0) s.fab.viols
      && decide (s.cfg 0x16000a ≤ (violOf (t.src.toNat, 0, 0) s.fab.viols).admitted)) = false := by
    by_cases hop : op = 1 ∨ op = 2 ∨ op = 4
    · rcases hfree hop with h | h
      · rw [h, Bool.and_false, Bool.false_and]
      · rw [decide_eq_false (Nat.not_le.2 h), Bool.and_false]
    · have : (decide (op = 1) || decide (op = 2) || decide (op = 4)) = false := by simpa [and_assoc] using hop
      rw [this, Bool.false_and, Bool.false_and]
  unfold State.fabDeliver
  dsimp only
  rw [hm, hno, if_neg Bool.false_ne_true, if_neg Bool.false_ne_true]
  match op with
  | 0 | 1 | 2 | 3 | 4 | 5 | _ + 6 => rfl

/-- Settles O52: an arrival by its number, a delivery by its OP, an acknowledgement by what it frees. -/
theorem transactionsComplete : Obligations.TransactionsComplete := by
  unfold Obligations.TransactionsComplete
  refine ⟨fun s door t hd => ⟨?w, ?r, ?resp, ?signal, ?error, fun op hdst hh => ?arrive, fun op hdst hh hr => ?transit⟩, fun s door t => ?deliver,
    fun s hup => ⟨fun node vc num => ?ack, ?timer⟩⟩
  case w =>
    show execFabWrite door t s = _
    rw [execFabWrite, if_pos hd]
  case r =>
    show execFabRead door t s = _
    rw [execFabRead, if_pos hd]
  case resp =>
    show execReadResp door t s = _
    rw [execReadResp, if_pos hd]
  case signal =>
    show execFabSignal door t s = _
    rw [execFabSignal, if_pos hd]
  case error =>
    show execFabError door t s = _
    rw [execFabError, if_pos hd]
  case arrive =>
    intro vc e
    rw [State.fabArrive_here hdst hh]
    change (_ → ite ((t.e2e - e.expect).toNat = 0) _ _ = _) ∧ (_ → _ → _ → ite ((t.e2e - e.expect).toNat = 0) _ (ite _ (ite (e.ahead.any _) _ _) _) = _)
      ∧ (_ → _ → ite ((t.e2e - e.expect).toNat = 0) _ (ite ((t.e2e - e.expect).toNat ≤ 512) _ (ite ((t.e2e - e.expect).toNat ≤ 2 ^ 31) _ _)) = _)
      ∧ (_ → ite ((t.e2e - e.expect).toNat = 0) _ (ite ((t.e2e - e.expect).toNat ≤ 512) _ (ite ((t.e2e - e.expect).toNat ≤ 2 ^ 31) _ _)) = _)
    refine ⟨fun h => ?_, fun hne h hx => ?_, fun h h' => ?_, fun h => ?_⟩
    · rw [if_pos (by rw [h, BitVec.sub_self]; rfl)]
    · have h0 : (t.e2e - e.expect).toNat ≠ 0 := fun h0 => hne (by bv_omega)
      rw [if_neg h0, if_pos h, if_neg (by simpa using hx)]
    · rw [if_neg (by omega), if_neg (by omega), if_pos h']
    · rw [if_neg (by omega), if_neg (by omega), if_neg (by omega)]
  case transit =>
    rw [State.fabArrive, if_pos hdst, State.fabTransit, hr, if_neg (by simpa using hh)]
  case deliver =>
    intro key s1 free
    refine ⟨fun hm hf => ?_, fun hm hf => ?_, fun hm => ?_, fun hm hf => ?_, fun hm => ?_, fun op hop hm hf => ?_, fun op hm => ?_⟩
    · exact State.fabDeliver_of_wellFormed hm fun _ => hf
    · exact State.fabDeliver_of_wellFormed hm fun _ => hf
    · exact State.fabDeliver_of_wellFormed hm fun h => absurd h (by decide)
    · exact State.fabDeliver_of_wellFormed hm fun _ => hf
    · exact State.fabDeliver_of_wellFormed hm fun h => absurd h (by decide)
    · obtain ⟨hth, hadm⟩ := not_or.1 hf
      have hth : violThrottled (t.src.toNat, 0, 0) s.fab.viols = true := by simpa using hth
      have hvc : (decide (op = 1) || decide (op = 2) || decide (op = 4)) = true := by simpa [or_assoc] using hop
      unfold State.fabDeliver
      dsimp only
      rw [hm, hvc, hth, decide_eq_true (Nat.not_lt.1 hadm)]
      rfl
    · unfold State.fabDeliver
      dsimp only
      rw [hm]
      rfl
  case ack =>
    intro s1 s2
    have hexec : exec (.e2eAck node vc num) s =
        .next (State.issueHeld (s2.e2eOf node.toNat (1 - vc.toNat)).held.length s2 node.toNat (1 - vc.toNat)) := by
      show execE2eAck node vc num s = _
      rw [execE2eAck, if_pos hup]
    refine ⟨hexec, fun h h' => hexec.trans (congrArg Host.Outcome.next ?_)⟩
    have hs2 : s2 = s1 := by
      show State.issueHeld (s.e2eOf node.toNat vc.toNat).held.length s1 node.toNat vc.toNat = s1
      rw [h]
      rfl
    have hother : (s1.e2eOf node.toNat (1 - vc.toNat)).held = [] := by
      rw [State.e2eOf_onE2e_other (by omega)]
      exact h'
    rw [hs2, State.issueHeld_of_held_nil hother]
  case timer =>
    have hexec : exec .e2eAckTimer s = .next
        (((s.fab.e2e.filter (fun e => e.2.expect != 0)).foldl (fun t e => t.emit (.e2eAck (e.1 / 2) (e.1 % 2) (e.2.expect - 1).toNat)) s).onFab
          (fun x => { x with e2e := x.e2e.map (fun e => (e.1, { e.2 with since := 0 })) })) := by
      show execE2eAckTimer s = _
      rw [execE2eAckTimer, if_pos hup]
    refine ⟨_, hexec, ?_, State.sent_foldl_emit ..⟩
    exact congrArg (fun x : Fabric => x.e2e.map _) (foldl_fab fun _ _ => rfl)

/-! ## Discovery -/

/-- Settles O53: a frame by whether it is the first, a record by whether it is new, the end by its instant. -/
theorem discoveryCompletes : Obligations.DiscoveryCompletes := by
  unfold Obligations.DiscoveryCompletes
  intro s hup
  refine ⟨fun door h hlive hnone => ?hello, fun door h old hlive hold => ?again, fun door r hlive hid hst hdb => ?record, fun t0 ht hst hall hnow => ?done, fun hj => ?join⟩
  case hello =>
    intro s1
    have hexec : exec (.hello door h) s = .next (
        if s.isTwin h then s1.duplicate door.val h.strap
        else if h.frameTicks ≠ s.cfg kFrameTicks ∨ h.frameOrigin ≠ s.frameOrigin then
          (s1.onLink door.val (fun l => { l with state := 4 })).logEvent (0xAD + door.val) 0 .fabMismatch [door.val, h.frameTicks, h.frameOrigin]
        else if s.fab.state = 3 then s1
        else s1.linksChanged none) := by
      show execHello door h s = _
      rw [execHello]
      dsimp only
      rw [hlive, hnone]
      rfl
    refine ⟨fun ht hf ho hst => ?_, fun ht => ?_, fun ht hf => ?_⟩
    · rw [hexec, ht, if_neg Bool.false_ne_true, if_neg (by simp [hf, ho]), if_neg hst]
    · refine ⟨_, hexec, ?_⟩
      rw [ht, if_pos rfl]
      exact ⟨rfl, rfl⟩
    · refine ⟨_, hexec, ?_⟩
      rw [ht, if_neg Bool.false_ne_true, if_pos hf]
      have hlen : door.val < s1.fab.links.length := by
        have hl : door.val < s.fab.links.length := State.lt_links_of_state fun h0 => by
          rw [State.linkLive, h0] at hlive
          simp at hlive
        simpa [s1, State.onLink, State.onFab, updAt] using hl
      exact congrArg FabLink.state (State.link_onLink hlen _)
  case again =>
    show execHello door h s = _
    rw [execHello]
    dsimp only
    rw [hlive, hold]
    rfl
  case record =>
    intro s1
    show execLinkState door r s = _
    rw [execLinkState, hlive, bne_iff_ne.2 hid, bne_iff_ne.2 hst, hdb]
    refine congrArg Host.Outcome.next ?_
    show (if (r.strap != 0 && r.strap == s.boot.nodeStrap) = true then _ else _) = _
    exact if_congr (by simp) rfl rfl
  case done =>
    have hexec : exec .discoveryEnd s = .next (
        ((s.assignIds.filter (fun e => e.1 != s.ident && !s.fab.ids.contains e)).foldl (fun u e => u.logEvent 0xAD 0 .fabJoin [e.1.toNat, e.2.toNat])
          (s.onFab (fun x =>
            let own := ((s.assignIds.find? (fun e => e.1 == s.ident)).map (·.2)).getD s.fab.nodeId
            { x with ids := s.assignIds, nodeId := own, state := if s.present.length ≤ 1 then 0 else 2, lastChange := none,
                     nodes := if own = x.nodeId then x.nodes else 1#8 <<< own.toNat }))).recomputeRoutes none) := by
      show execDiscoveryEnd s = _
      rw [execDiscoveryEnd, ht]
      dsimp only
      rw [hup, bne_iff_ne.2 hst, hall, decide_eq_true hnow]
      rfl
    have hfab : ∀ (l : List (Word64 × BitVec 3)) (u : State),
        (l.foldl (fun u e => u.logEvent 0xAD 0 .fabJoin [e.1.toNat, e.2.toNat]) u).fab = u.fab := fun l u => foldl_fab fun _ _ => rfl
    refine ⟨_, hexec, ?_, ?_⟩ <;> rw [hfab] <;> rfl
  case join =>
    show execFabJoinTimeout s = _
    rw [execFabJoinTimeout, hup, hj]
    rfl

end Sys2Proof.Machine
end

section
/-! Security, resets and boot, frames and standby. -/

namespace Sys2Proof.Machine

/-! ## Security -/

theorem State.aonUp_of_up {s : State} (h : s.up = true) : s.aonUp = true := by
  unfold State.up at h
  rw [Bool.and_eq_true, Bool.and_eq_true] at h
  exact h.1.1

/-- Settles O54: an epoch, a bit, a quote and a nonce by what they end, a job by its number. -/
theorem securityCommandsComplete : Obligations.SecurityCommandsComplete := by
  unfold Obligations.SecurityCommandsComplete
  refine ⟨fun s hup => ⟨fun hdue => ?epoch, fun ok => ?done, fun c tid v hc => ?bit, fun j rest hq => ?quote, fun n t0 hn ht => ?nonce⟩,
    fun s hup => ⟨fun job hlen hser hland => ?land, fun j hj => ?complete⟩⟩
  case epoch =>
    have hexec : exec .epochPass s = .next s.passEpoch := by
      show execEpochPass s = _
      rw [execEpochPass, State.aonUp_of_up hup, hdue]
      rfl
    have hact : s.passEpoch.flash.act = { s.flash.act with passed := true, seq := s.flash.act.seq + 1 } := by
      rw [State.passEpoch, State.logChange_flash]
      exact Flash.act_writeAct ..
    refine ⟨_, hexec, ?_, ?_⟩ <;> rw [hact]
  case done =>
    show execFlashProgramDone ok s = _
    rw [execFlashProgramDone, if_pos hup]
  case bit =>
    have hexec : exec .rollbackBitBlown s = .next (
        if s.flash.rollback + 1 < v then s.onFlash (fun f => { f with rollback := f.rollback + 1 })
        else ((s.onFlash (fun f => { f with rollback := f.rollback + 1 })).onSec (fun x => { x with commit := none })).finishTx c tid aOk) := by
      show execRollbackBitBlown s = _
      rw [execRollbackBitBlown, hc]
      exact congrArg Host.Outcome.next (if_pos hup)
    by_cases hv : s.flash.rollback + 1 < v
    · rw [if_pos hv] at hexec
      exact ⟨_, hexec, rfl, fun _ => hc, fun h => absurd hv (Nat.not_lt.2 h)⟩
    · rw [if_neg hv] at hexec
      refine ⟨_, hexec, ?_, fun h => absurd h hv, fun _ => ?_⟩
      · rw [State.finishTx_flash]
        rfl
      · rw [State.finishTx_sec]
        rfl
  case quote =>
    show execQuoteSigned s = _
    rw [execQuoteSigned, hq]
    exact congrArg Host.Outcome.next (if_pos hup)
  case nonce =>
    have hold : s.nonceOld = true := by
      rw [State.nonceOld, hn]
      exact decide_eq_true ht
    show execDbgNonceExpiry s = _
    rw [execDbgNonceExpiry, hup, hold]
    rfl
  case land =>
    show execSecJobLand job s = _
    rw [execSecJobLand, hup, hlen]
    show Host.Outcome.next ({ s with sec := ite _ _ _ } : State) = _
    rw [hser, hland]
    rfl
  case complete =>
    intro s1
    have hexec : exec .secJobComplete s = .next (if s1.sec.nextJob.isNone || decide (64 ≤ s1.sec.sinceMsi) then
        (s1.emit (.msi (s.secRing 16 8) (s.secRing 26 2))).onSec (fun x => { x with sinceMsi := 0 }) else s1) := by
      show execSecJobComplete s = _
      rw [execSecJobComplete, hj]
      exact congrArg Host.Outcome.next (if_pos hup)
    refine ⟨fun hmore hfew => ?_, fun h => ?_⟩
    · rw [hexec, Option.isNone_eq_false_iff.2 hmore, decide_eq_false (Nat.not_le.2 hfew)]
      rfl
    · rw [hexec, if_pos]
      rcases h with h | h
      · rw [h]; rfl
      · rw [decide_eq_true h, Bool.or_true]

/-! ## Resets and boot -/

/-- The boot begun before the identity check, R487. -/
def State.latched (s : State) (bootsel strap : BitVec 3) : State :=
  (((s.onBoot (fun b =>
    { b with bootsel := bootsel, nodeStrap := strap, keyFault := !s.flash.idCheckOk,
             reservedBootsel := bootsel == 4 || bootsel == 5 || bootsel == 6,
             stage := .romCheck s.flash.act.firstSlot false })).writeAct (fun r => { r with bootCount := r.bootCount + 1 })).onFab
    (fun f => { f with nodeId := strap })).onIsl (fun i => { i with lock := Config.lockPairs })

theorem State.toRecovery_keeps (s : State) : s.toRecovery.tb = s.tb ∧ s.toRecovery.fc = s.fc ∧ s.toRecovery.flash = s.flash
    ∧ s.toRecovery.boot = { s.boot with outcome := 4, stage := .recovery, slot := none } := by
  unfold State.toRecovery
  simp [State.onBoot]

/-- What a begun boot has, whatever the identity check says. -/
theorem State.beginBoot_effect (s : State) (b k : BitVec 3) :
    (s.beginBoot b k).boot.bootsel = b ∧ (s.beginBoot b k).boot.nodeStrap = k ∧ (s.beginBoot b k).boot.wake = s.boot.wake
    ∧ (s.beginBoot b k).flash.act.bootCount = s.flash.act.bootCount + 1 ∧ (s.beginBoot b k).tb = s.tb := by
  have hact : (s.latched b k).flash.act.bootCount = s.flash.act.bootCount + 1 := congrArg ActRecord.bootCount (Flash.act_writeAct ..)
  have h3 : ∀ t : State, t.boot = (s.latched b k).boot → t.flash = (s.latched b k).flash → t.tb = s.tb →
      t.boot.bootsel = b ∧ t.boot.nodeStrap = k ∧ t.boot.wake = s.boot.wake ∧ t.flash.act.bootCount = s.flash.act.bootCount + 1 ∧ t.tb = s.tb :=
    fun t hb hf ht => by rw [hb, hf]; exact ⟨rfl, rfl, rfl, hact, ht⟩
  have h4 : ∀ t : State, (t.boot.bootsel = b ∧ t.boot.nodeStrap = k ∧ t.boot.wake = s.boot.wake
        ∧ t.flash.act.bootCount = s.flash.act.bootCount + 1 ∧ t.tb = s.tb) →
      (if b = 3 then t.toRecovery else t).boot.bootsel = b ∧ (if b = 3 then t.toRecovery else t).boot.nodeStrap = k
      ∧ (if b = 3 then t.toRecovery else t).boot.wake = s.boot.wake
      ∧ (if b = 3 then t.toRecovery else t).flash.act.bootCount = s.flash.act.bootCount + 1 ∧ (if b = 3 then t.toRecovery else t).tb = s.tb := by
    intro t ht
    split
    · obtain ⟨htb, -, hfl, hbo⟩ := t.toRecovery_keeps
      rw [hbo, hfl, htb]
      exact ht
    · exact ht
  refine h4 (if s.flash.idCheckOk then s.latched b k else (s.latched b k).raise srcSec 28 1 4 0) ?_
  split
  · exact h3 _ rfl rfl rfl
  · exact h3 _ (State.raise_boot ..) (State.raise_flash ..) (State.raise_tb ..)

/-- A boot whose identity check holds begins with the first slot, unless the straps send it to RECOVERY. -/
theorem State.beginBoot_of_idCheckOk {s : State} (h : s.flash.idCheckOk = true) (b k : BitVec 3) :
    s.beginBoot b k = if b = 3 then (s.latched b k).toRecovery else s.latched b k := by
  unfold State.beginBoot
  dsimp only
  rw [if_pos h]
  rfl

theorem Boot.extend_slot (x : Boot) (i : Nat) (d : Bytes) : (x.extend i d).slot = x.slot := rfl

theorem Boot.extend_stage (x : Boot) (i : Nat) (d : Bytes) : (x.extend i d).stage = x.stage := rfl

theorem Boot.foldl_extend_slot (l : List Bytes) (x : Boot) (i : Nat) : (l.foldl (fun y d => y.extend i d) x).slot = x.slot := by
  induction l generalizing x with
  | nil => rfl
  | cons d l ih => exact ih (x.extend i d)

theorem Boot.foldl_extend_stage (l : List Bytes) (x : Boot) (i : Nat) : (l.foldl (fun y d => y.extend i d) x).stage = x.stage := by
  induction l generalizing x with
  | nil => rfl
  | cons d l ih => exact ih (x.extend i d)

theorem State.bootSlot_effect (s : State) (b : Bool) (outcome : Nat) :
    (s.bootSlot b outcome).boot.slot = some b ∧ (s.bootSlot b outcome).boot.stage = .exercise ∧ (s.bootSlot b outcome).fc.exercise = .release := by
  unfold State.bootSlot
  dsimp only
  rw [State.onFc_boot, State.onPwr_boot, State.setEntry_boot, State.onBoot_boot]
  refine ⟨?_, ?_, rfl⟩
  · rw [Boot.foldl_extend_slot, Boot.foldl_extend_slot, Boot.extend_slot, Boot.foldl_extend_slot]
  · rw [Boot.foldl_extend_stage, Boot.foldl_extend_stage, Boot.extend_stage, Boot.foldl_extend_stage]

/-- The active slot, valid and with no update staged, boots. -/
theorem State.slotJudged_of_active {s : State} (hstaged : s.flash.act.staged = none) (second : Bool)
    (hok : s.flash.judge s.flash.act.active true = 0) :
    s.slotJudged s.flash.act.active second true = s.bootSlot s.flash.act.active s.boot.outcome := by
  unfold State.slotJudged
  dsimp only
  rw [hstaged, hok]
  simp

theorem State.exerciseClear_of_latch {s : State} (h : s.exercising .latch = true) (high : Bool) :
    let s1 := s.onFc (fun c => { c with exercise := .done, altPulse := some s.now })
    exec (.exerciseClear high) s = .next (if s.fc.exerciseOk && (high || s1.faultNLow) then s1.exercisePassed else s1.exerciseFailed) := by
  intro s1
  show execExerciseClear high s = _
  rw [execExerciseClear, if_pos h]
  rfl

/-- Settles O55: a reset by how long it lasts, a boot by its stage, a section by its digest. -/
theorem resetAndBootComplete : Obligations.ResetAndBootComplete := by
  unfold Obligations.ResetAndBootComplete
  refine ⟨fun s => ?resets, fun s hup => ?boot, fun s hup => ⟨fun i b hb hst hn => ⟨fun hok => ?use1, fun hbad => ?bad1⟩,
    fun i b hb hrun hn => ⟨fun hok => ?use2, fun hbad => ?bad2⟩, fun c tid ht haw => ⟨?transition, fun hst code key hf => ?fails, fun hst hf => ?run⟩⟩⟩
  case resets =>
    obtain ⟨hbs, hns, hw, -, htb⟩ := (s.resetDomains 2).beginBoot_effect s.boot.bootsel s.boot.nodeStrap
    refine ⟨rfl, fun n hp hn => ?_, rfl, fun n h => ?_, fun b k hp => ?_, fun b k hp => ?_, fun b k => ?_, fun hup => ?_,
      (congrArg Timebase.now htb : s.warmReset.tb.now = (s.resetDomains 2).tb.now), hw, hbs, hns, fun hid => ?_, fun hid hb => ?_⟩
    · show execPorstNFall n s = _
      rw [execPorstNFall, hp, decide_eq_true hn]
      rfl
    · show execPorstNFall n s = _
      rw [execPorstNFall, if_neg]
      rcases h with h | h
      · simp [h]
      · simp [h]
    · show execPorstNRise b k s = _
      rw [execPorstNRise, hp]
      rfl
    · show execPorstNRise b k s = _
      rw [execPorstNRise, if_pos hp]
    · obtain ⟨hb, hk, -, hc, -⟩ := s.beginBoot_effect b k
      refine ⟨hb, hk, hc, fun h3 hid => ?_⟩
      rw [State.beginBoot_of_idCheckOk hid, if_neg h3]
      rfl
    · show execWarmReset s = _
      rw [execWarmReset, if_pos hup]
    · have hfc : s.warmReset.fc = (s.resetDomains 2).fc := by
        rw [State.warmReset, State.beginBoot_of_idCheckOk (s := s.resetDomains 2) hid]
        split
        · exact (State.toRecovery_keeps _).2.1
        · rfl
      rw [hfc]
      exact ⟨rfl, rfl⟩
    · rw [State.warmReset, State.beginBoot_of_idCheckOk (s := s.resetDomains 2) hid, if_neg hb]
      exact ⟨rfl, rfl⟩
  case boot =>
    refine ⟨fun slot second ok hst => ?_, fun second hstaged hok => ?_, fun high hr => ?_, fun low ns hr => ?_, fun high hl => ?_, ?_,
      State.enterSafe_state _, ?_⟩
    · show execSlotCheckComplete ok s = _
      rw [execSlotCheckComplete, hst]
      exact congrArg Host.Outcome.next (if_pos hup)
    · intro t
      have ht : t = _ := State.slotJudged_of_active hstaged second hok
      rw [ht]
      exact State.bootSlot_effect ..
    · show execExerciseReadback high s = _
      rw [execExerciseReadback, if_pos hr]
    · show execExerciseLatch low ns s = _
      rw [execExerciseLatch, if_pos hr]
    · intro s1
      refine ⟨fun hok h => ?_, fun h => ?_⟩
      · refine (State.exerciseClear_of_latch hl high).trans (congrArg Host.Outcome.next (if_pos ?_))
        rw [hok, Bool.true_and, Bool.or_eq_true]
        exact h
      · refine (State.exerciseClear_of_latch hl high).trans (congrArg Host.Outcome.next (if_neg ?_))
        rcases h with h | ⟨h, h'⟩
        · rw [h, Bool.false_and]
          exact Bool.false_ne_true
        · rw [h, show State.faultNLow _ = false from h', Bool.or_self, Bool.and_false]
          exact Bool.false_ne_true
    · intro u
      exact ⟨fun h => if_neg h, fun h => if_pos h⟩
    · rw [State.exerciseFailed, State.enterSafe_fc]
      rfl
  case use1 =>
    show execPhase1SectionRead i s = _
    rw [execPhase1SectionRead, hb]
    dsimp only
    rw [hup, hst, hn, hok]
    simp only [beq_self_eq_true]
    rfl
  case bad1 =>
    show execPhase1SectionRead i s = _
    rw [execPhase1SectionRead, hb]
    dsimp only
    rw [hup, hst, hn, hbad]
    simp only [beq_self_eq_true]
    rfl
  case use2 =>
    show execPhase2SectionRead i s = _
    rw [execPhase2SectionRead, hb]
    dsimp only
    rw [hup, hrun, hn, hok]
    simp only [beq_self_eq_true]
    rfl
  case bad2 =>
    show execPhase2SectionRead i s = _
    rw [execPhase2SectionRead, hb]
    dsimp only
    rw [hup, hrun, hn, hbad]
    simp only [beq_self_eq_true]
    rfl
  case transition =>
    show execRunTransitionComplete s = _
    rw [execRunTransitionComplete, ht]
    dsimp only
    rw [hup, haw, if_congr List.isEmpty_iff rfl rfl]
    rfl
  case fails =>
    rw [State.finishTransition, hf]
    exact if_neg (not_not.2 hst)
  case run =>
    rw [State.finishTransition, hf]
    exact if_neg (not_not.2 hst)

/-! ## Frames and standby -/

theorem State.foldl_violSummary_keeps (f : Viol → Nat) (l : List Viol) (s : State) :
    (l.foldl (fun t v => State.violSummary (f v) t v) s).spring = s.spring ∧ (l.foldl (fun t v => State.violSummary (f v) t v) s).radio = s.radio
    ∧ (l.foldl (fun t v => State.violSummary (f v) t v) s).fab = s.fab ∧ (l.foldl (fun t v => State.violSummary (f v) t v) s).dict = s.dict :=
  ⟨foldl_spring fun _ _ => rfl, foldl_radio fun _ _ => rfl, foldl_fab fun _ _ => rfl, foldl_dict fun _ _ => rfl⟩

theorem State.logChange_viols (s : State) (at_ : Nat) (c : Change) : (s.logChange at_ c).dict.viols = s.dict.viols := by
  rw [State.logChange, State.onDict_dict]

theorem State.foldl_summary_keeps (l : List Viol) (s : State) :
    (l.foldl State.summary s).spring = s.spring ∧ (l.foldl State.summary s).radio = s.radio ∧ (l.foldl State.summary s).fab = s.fab
    ∧ (l.foldl State.summary s).dict.viols = s.dict.viols :=
  ⟨foldl_spring fun _ _ => State.logChange_spring .., foldl_radio fun _ _ => State.logChange_radio .., foldl_fab fun _ _ => State.logChange_fab ..,
    foldl_get (fun t => t.dict.viols) (fun _ _ => State.logChange_viols ..) l s⟩

/-- A second's end restarts the counts of all four kinds of origin. -/
theorem State.endViolSeconds_viols (s : State) (k : Nat) :
    (s.endViolSeconds k).spring.viols = violEnd (s.cfg 0x400002) k s.spring.viols
    ∧ (s.endViolSeconds k).radio.viols = violEnd (s.cfg 0x500003) k s.radio.viols
    ∧ (s.endViolSeconds k).fab.viols = violEnd (s.cfg 0x160009) k s.fab.viols
    ∧ (s.endViolSeconds k).dict.viols = violEnd (s.cfg 0x170004) k s.dict.viols := by
  unfold State.endViolSeconds
  dsimp only
  obtain ⟨a1, a2, a3, a4⟩ := State.foldl_violSummary_keeps (fun _ => srcSpring) (throttled k s.spring.viols) s
  generalize (throttled k s.spring.viols).foldl (fun t v => State.violSummary srcSpring t v) s = s1 at *
  obtain ⟨b1, b2, b3, b4⟩ := State.foldl_violSummary_keeps (fun v => 0xAB + v.key.1) (throttled k s.radio.viols) s1
  generalize (throttled k s.radio.viols).foldl (fun t v => State.violSummary (0xAB + v.key.1) t v) s1 = s2 at *
  obtain ⟨c1, c2, c3, c4⟩ := State.foldl_violSummary_keeps (fun _ => 0xAD) (throttled k s.fab.viols) s2
  generalize (throttled k s.fab.viols).foldl (fun t v => State.violSummary 0xAD t v) s2 = s3 at *
  obtain ⟨d1, d2, d3, d4⟩ := State.foldl_summary_keeps (throttled k s.dict.viols) s3
  generalize (throttled k s.dict.viols).foldl State.summary s3 = s4 at *
  have hs : s4.spring = s.spring := d1.trans (c1.trans (b1.trans a1))
  have hr : s4.radio = s.radio := d2.trans (c2.trans (b2.trans a2))
  have hf : s4.fab = s.fab := d3.trans (c3.trans (b3.trans a3))
  have hd : s4.dict.viols = s.dict.viols := d4.trans (congrArg Dict.viols (c4.trans (b4.trans a4)))
  rw [← hs, ← hr, ← hf, ← hd]
  exact ⟨rfl, rfl, rfl, rfl⟩

/-- Settles O56: frames, seconds and standby at their instants. -/
theorem framesAndStandbyComplete : Obligations.FramesAndStandbyComplete := by
  unfold Obligations.FramesAndStandbyComplete
  intro s
  refine ⟨fun hup hrun hat => ⟨fun hon => ?next, fun hoff h0 => ?first⟩, fun hup hnow hpos => ?second, fun off hoff => ⟨?entry, rfl, rfl, rfl⟩, fun b k haon hready => ?release⟩
  case next =>
    show execFrameStart s = _
    rw [execFrameStart, hup, hrun, hat, hon]
    rfl
  case first =>
    show execFrameStart s = _
    rw [execFrameStart, hup, hrun, hat, hoff]
    exact congrArg Host.Outcome.next (if_pos h0)
  case second =>
    intro k t
    refine ⟨?_, s.endViolSeconds_viols k⟩
    show execViolationSecondEnd s = _
    rw [execViolationSecondEnd, hup, hnow, decide_eq_true hpos]
    rfl
  case entry =>
    show execStandbyEntry s = _
    rw [execStandbyEntry, hoff]
  case release =>
    show execWakeRelease b k s = _
    rw [execWakeRelease, haon, hready]
    rfl

end Sys2Proof.Machine
end

section
/-! The dictionary: requests, reads and writes, registers and expiries. -/

namespace Sys2Proof.Machine

/-! ## Requests -/

theorem State.heardFor_of_names {s : State} {q : Req} {k : Nat} (h : s.heard q = true) (hk : reqKey q = k) : s.heardFor q k = true := by
  rw [State.heardFor, h, hk, beq_self_eq_true]
  rfl

theorem State.heard_row {s : State} {q : Req} {k : Nat} (h : s.heard q = true) (hk : reqRow q = k) : (s.heard q && reqRow q == k) = true := by
  rw [h, hk, beq_self_eq_true]
  rfl

/-- Settles O57: a request that reaches the server has its effect, one in a row of its own is the entry's. -/
theorem dictionaryRequestsComplete : Obligations.DictionaryRequestsComplete := by
  unfold Obligations.DictionaryRequestsComplete
  refine ⟨⟨fun s q hno => ?unheard, fun s q h => ?heard⟩, fun s q h => ?rows⟩
  case unheard =>
    have hno' : ¬ s.heard q = true := by rw [hno]; exact Bool.false_ne_true
    refine ⟨congrArg Host.Outcome.next (if_neg hno'), fun v => congrArg Host.Outcome.next (if_neg hno'), fun hs f hf => ?_⟩
    have hour : s.ourFrame q = false := by
      rw [State.heard, hs, Bool.true_and] at hno
      exact hno
    rw [State.passOn, hs, hour, hf]
    rfl
  case heard =>
    refine ⟨congrArg Host.Outcome.next (if_pos h), fun v => congrArg Host.Outcome.next (if_pos h), fun p => congrArg Host.Outcome.next (if_pos h),
      fun n => congrArg Host.Outcome.next (if_pos h), fun n v => congrArg Host.Outcome.next (if_pos h), fun c => congrArg Host.Outcome.next (if_pos h),
      congrArg Host.Outcome.next (if_pos h), congrArg Host.Outcome.next (if_pos h), fun ha => ?_, fun ha => ?_⟩
    · exact congrArg Host.Outcome.next ((if_pos h).trans (if_pos ha))
    · exact congrArg Host.Outcome.next ((if_pos h).trans (if_neg (by rw [ha]; exact Bool.false_ne_true)))
  case rows =>
    intro names row
    have hname : ∀ {k : Nat} {t u : State}, names k → (if s.heardFor q k = true then t else u) = t := fun hk => if_pos (State.heardFor_of_names h hk)
    have hrow : ∀ {k : Nat} {t u : State}, row k → (if (s.heard q && reqRow q == k) = true then t else u) = t := fun hk => if_pos (State.heard_row h hk)
    refine ⟨fun v hk => ?_, fun p v hk => ?_, fun b k hk => ?_, fun v hk => ?_, fun d v hk => ?_, fun c x hk => ?_, fun c v hk => ?_, fun v hk => ?_,
      fun v hk => ?_, fun n v hk => ?_, fun v hk => ?_, fun v hk => ?_, fun v hk => ?_, fun v hk => ?_, fun hk => ?_, fun v hk => ?_, fun v hk => ?_,
      fun v hk => ?_, fun v hk => ?_, fun v hk => ?_⟩
    case refine_9 | refine_13 | refine_14 => exact congrArg Host.Outcome.next (hrow hk)
    all_goals exact congrArg Host.Outcome.next (hname hk)

/-! ## Reads and writes -/

theorem Origin.code_ne_internal (o : Origin) : Origin.code o ≠ 5 := by
  cases o <;> decide

/-- A write that every check lets pass: its effect, its record and its commit. -/
theorem State.performWrite_of_accepted {s : State} {q : Req} {v : Bytes} {e : Entry} {origin : Nat} (he : findEntry (reqKey q) = some e)
    (horigin : origin ≠ 5) (hopen : s.openVerdict q.client.origin (reqKey q) = 0) (hcontent : (s.contentVerdict origin (reqKey q) e v).code = 0)
    (hact : s.actVerdict origin q.client.logWho e v = 0) :
    s.performWrite q origin v false =
      ((((s.actEffect origin q.client.logWho e v).logWrite q origin (s.entryValue (reqKey q) e) v { code := aOk }).commitValue q.client origin
        q.tid (reqKey q) e v), aOk, s.respondsLate e v) := by
  unfold State.performWrite
  dsimp only
  rw [he]
  dsimp only
  rw [if_neg horigin, if_neg Bool.false_ne_true, hopen, if_neg (not_not.2 rfl), hact, if_neg (not_not.2 rfl), if_neg (not_not.2 hcontent)]

/-- What the server keeps of an entry that is set: nothing where it is the default. -/
theorem State.sfind_vals_setEntry (s : State) (key k : Nat) (v : Bytes) : sfind (s.setEntry key v).dict.vals k =
    if k = key then (if v = entryDefault key then none else some v) else sfind s.dict.vals k := by
  show sfind (if v = entryDefault key then sdel s.dict.vals key else sput s.dict.vals key v) k = _
  by_cases hk : k = key
  · rw [if_pos hk, hk]
    split
    · exact sfind_sdel_same ..
    · exact sfind_sput_same ..
  · rw [if_neg hk]
    split
    · exact sfind_sdel_other _ hk
    · exact sfind_sput_other _ _ hk

theorem State.entry_setEntry_same (s : State) (key : Nat) (v : Bytes) : (s.setEntry key v).entry key = v := by
  rw [State.entry, State.sfind_vals_setEntry, if_pos rfl]
  by_cases hv : v = entryDefault key
  · rw [if_pos hv]
    exact hv.symm
  · rw [if_neg hv]

theorem State.entry_setEntry_other {s : State} {key k : Nat} (h : k ≠ key) (v : Bytes) : (s.setEntry key v).entry k = s.entry k := by
  rw [State.entry, State.sfind_vals_setEntry, if_neg h, State.entry]

/-- Settles O58: a read by its verdict, a write that every check lets pass, a stored entry by its key. -/
theorem readsAndWritesAnswer : Obligations.ReadsAndWritesAnswer := by
  unfold Obligations.ReadsAndWritesAnswer
  refine ⟨fun s q v e => ?requests, fun s key v => ⟨s.entry_setEntry_same key v, fun k hk => State.entry_setEntry_other hk v⟩⟩
  intro a hadmit
  refine ⟨fun hn => ?_, fun he => ⟨fun hr hlen h1 h2 => ?_, fun hr => ?_, fun hflash hopen hcontent hact => ?_⟩⟩
  · have hv : a.readVerdict q.client.origin (reqKey q) = aNoEntry := by rw [State.readVerdict, hn]
    unfold State.read
    dsimp only
    rw [hadmit, Bool.not_true, if_neg Bool.false_ne_true, hn]
    exact congrArg (fun c => a.answer q c []) hv
  · have hval : a.readValue (reqKey q) e = (a, a.entryValue (reqKey q) e) := by rw [State.readValue, if_neg h1, if_neg h2]
    unfold State.read
    dsimp only
    rw [hadmit, Bool.not_true, if_neg Bool.false_ne_true, he]
    show (if a.readVerdict q.client.origin (reqKey q) ≠ 0 then _ else if q.client.payload < (a.entryValue (reqKey q) e).length then _
      else (a.readValue (reqKey q) e).1.answer q aOk (a.readValue (reqKey q) e).2) = _
    rw [if_neg (not_not.2 hr), if_neg (Nat.not_lt.2 hlen), hval]
  · unfold State.read
    dsimp only
    rw [hadmit, Bool.not_true, if_neg Bool.false_ne_true, he]
    exact if_pos hr
  · intro u
    have hw : a.clientWrite q v = (u, aOk, a.respondsLate e v) := by
      unfold State.clientWrite
      dsimp only
      rw [hflash, if_neg (by simp)]
      exact State.performWrite_of_accepted he (Origin.code_ne_internal _) hopen hcontent hact
    unfold State.write
    dsimp only
    rw [hadmit, Bool.not_true, if_neg Bool.false_ne_true, show (s.admitReq q).1.clientWrite q v = _ from hw]

/-! ## Registers and expiries -/

/-- Settles O60: each expiry at its instant, each change by its number. -/
theorem registersAndExpiries : Obligations.RegistersAndExpiries := by
  unfold Obligations.RegistersAndExpiries
  refine ⟨fun s => ⟨fun k w hs => ?word, fun c tid hs => ?flaw, fun hup => ⟨fun c tid hi => ?transfer, fun node hl => ?peer, fun c tid => ?dup, fun n hd => ?fire, fun n hd => ?pulse⟩⟩,
    fun s => ⟨fun by_ addr v hup hr => ?register, fun at_ c => ?change⟩⟩
  case word => exact congrArg Host.Outcome.next (if_pos hs)
  case flaw => exact ⟨congrArg Host.Outcome.next (if_pos hs), congrArg Host.Outcome.next (if_pos hs), congrArg Host.Outcome.next (if_pos hs)⟩
  case transfer =>
    show execKdpTransferExpiry c tid s = _
    rw [execKdpTransferExpiry, hup, hi]
    rfl
  case peer =>
    show execKdpPeerTimeout node s = _
    rw [execKdpPeerTimeout, hup, hl]
    rfl
  case dup => exact congrArg Host.Outcome.next (if_pos hup)
  case fire =>
    intro t s1
    have hexec : exec (.timerFire n) s = .next (if s.timerDrives n.toNat then
        (s1.driveMfio t.ball true).onTimer n.toNat (fun x => { x with pulseEnd := some (s.now + t.width) }) else s1) := by
      show execTimerFire n s = _
      rw [execTimerFire, hup, hd]
      rfl
    refine ⟨fun h => ?_, fun h => ?_⟩
    · rw [hexec, h]
      rfl
    · rw [hexec, h]
      rfl
  case pulse =>
    show execTimerPulseEnd n s = _
    rw [execTimerPulseEnd, hup, hd]
    rfl
  case register =>
    show execRegisterWrite by_ addr v s = _
    rw [execRegisterWrite, hup, hr]
    rfl
  case change =>
    intro t
    have hd : t.dict = { s.dict with
        changes := (s.dict.changes ++ [{ c with time := at_, chseq := s.dict.chHead }]).drop (s.dict.changes.length + 1 - 65536)
        chHead := (s.dict.chHead + 1) % 2 ^ 48 } := by
      show (s.logChange at_ c).dict = _
      rw [State.logChange, State.onDict_dict]
    rw [hd]
    dsimp only
    refine ⟨rfl, ?_, fun h => ?_, fun h => ?_⟩
    · rw [List.getLast?_drop, if_neg (by simp), List.getLast?_append]
      rfl
    · rw [show s.dict.changes.length + 1 - 65536 = 0 by omega, List.drop_zero]
    · rw [show s.dict.changes.length + 1 - 65536 = 1 by omega, List.drop_append_of_le_length (by omega)]

end Sys2Proof.Machine
end
